-- ==== Sys2Proof/Word.lean ====
section
/-!
DEFINITION. The plainest word types of the model, and the enumerations that several blocks share.
Multi-byte values are little-endian and bit 0 is the least significant bit (R8).
-/
namespace Sys2Proof

/-- One byte of a memory, a page, a record or a packet. -/
abbrev Byte := BitVec 8

/-- One of the two identical compute dies (R16); also the CXL port of that half (R26: port A is on half A). -/
inductive Half where
  | a
  | b
  deriving DecidableEq, Repr

namespace Half

/-- The other half. -/
def other : Half → Half
  | a => b
  | b => a

/-- The number the manual's fields give a half: 0 half A, 1 half B (R279, R417, R424). -/
def num : Half → Nat
  | a => 0
  | b => 1

/-- The half a one-bit field names. -/
def ofNum (n : Nat) : Half := if n % 2 = 0 then a else b

end Half

/-- The three variants of R3. -/
inductive Variant where
  | f
  | l
  | s
  deriving DecidableEq, Repr

/-- Time quality, TQ (R46). -/
inductive TQ where
  | locked
  | freeUnset
  | freeLost
  deriving DecidableEq, Repr

/-- The 2-bit code of TQ (R46). -/
def TQ.code : TQ → Nat
  | locked => 0
  | freeUnset => 1
  | freeLost => 2

/-- How a read, a write or a load that is retried once ends (R511): good at once, good after its one retry
(transient), or failed again (lasting). -/
inductive Retry where
  | clean
  | transient
  | lasting
  deriving DecidableEq, Repr

/-- How the SEC-DED reads of a tile store or cluster store went (R83): good, a single-bit error corrected, cleared by
the re-read, or failed again. -/
inductive StoreRead where
  | clean
  | corrected
  | transient
  | lasting
  deriving DecidableEq, Repr

/-- The outcomes of the reads that one operation makes of the tile store and of the own cluster store (R83). -/
structure StoreReads where
  ts : StoreRead := .clean
  cs : StoreRead := .clean
  deriving DecidableEq, Repr

/-- The five queues of a tile (R89). -/
inductive UnitQ where
  | matrix
  | vector
  | nonlinear
  | dma
  | fabric
  deriving DecidableEq, Repr

end Sys2Proof
end

