-- ==== Sys2Proof/Syntax.lean ====
section
/-!
DEFINITION. The commands of the block: one constructor of `Instr` for each row of spec/opcode_table.json.
A row of the mailbox command set names the mailbox (0-127 of the crown's port) whose page holds the command; its
fields are read from the page (R282-R284). What the world outside the module contributes to a step (the outcome of a
physical read, the bytes of a packet, a temperature) is an operand.
-/
namespace Sys2Proof

/-- What the memories answered while an operation ran: module physical addresses (any byte of the 64-byte line) whose
read stayed uncorrectable after its re-read (R216, R217), lines whose write failed its retry (R218), lines read whose
re-read cleared an uncorrectable read (`retry`), lines that the controller or the cluster store corrected (`ce`) or the
stack's own ECC (`ode`), lines whose write succeeded on its retry (`wretry`), virtual addresses (any byte of the 2 MiB
page) whose table walk met an uncorrectable read (R203), and whether the host completed a CXL.cache read with an error
(R246). -/
structure MemEnv where
  ue : List Nat := []
  wf : List Nat := []
  retry : List Nat := []
  ce : List Nat := []
  ode : List Nat := []
  wretry : List Nat := []
  walk : List Nat := []
  hostErr : Bool := false
  deriving DecidableEq, Repr

/-- Who asks for a line at a memory controller (R195, R224): a cluster, the fabric engine or the tier movers of a half, or the
host path of a half with its control complex, trace encoder and checkpoint stream. -/
inductive Requester where
  | cluster (c : Fin 36)
  | engine (half : Half)
  | mover (half : Half)
  | host (half : Half)
  deriving DecidableEq, Repr

/-- A request that reaches a port of an arbiter (R224, R225): port, requester (0-35 a cluster; by half, 36 and 37 the fabric
engines, 38 and 39 the tier movers, 40 and 41 the host path), first line (address / 64), lines, and the memory clock in
which it arrives. -/
structure Arrival where
  port : Nat := 0
  who : Nat := 0
  line : Nat := 0
  lines : Nat := 1
  clock : Nat := 0
  deriving DecidableEq, Repr

/-- A packet header (R337) with its payload. `digestPrefix`, `tick` and further group IDs are the uses that control
opcodes make of DEST_MASK (R338, R365, R389, R523); the receiver reads them from `destMask`. `crcOk` is the outcome of
the end-to-end CRC check at the destination (R339). -/
structure Pkt where
  opcode : Nat := 0
  vc : Nat := 0
  mcast : Bool := false
  alt : Bool := false
  dlCrossed : Bool := false
  srcHalf : Half := .a
  destHalf : Half := .a
  destMid : Nat := 0
  srcMid : Nat := 0
  hops : Nat := 0
  ringId : Nat := 0
  targetVa : Nat := 0
  tag : Nat := 0
  seq : Nat := 0
  groupId : Nat := 0
  groupSeq : Nat := 0
  destMask : Nat := 0
  opArg : Nat := 0
  payload : List Byte := []
  crcOk : Bool := true
  deriving DecidableEq, Repr

/-- A beacon as a port receives it (R365). -/
structure Beacon where
  digestPrefix : Nat := 0
  sendRt : Nat := 0
  srcMid : Nat := 0
  isSwitch : Bool := false
  digestValid : Bool := false
  proto : Nat := 2
  tq : Nat := 0
  deriving DecidableEq, Repr

/-- The capability word of NEGOTIATE (R327), with the link delay measured there (R329) and the peer's receive buffers by
VC, whose credits the link starts with (R333, R334, log 111). -/
structure CapWord where
  protoMask : Nat := 2
  mid : Nat := 0
  port : Nat := 0
  role : Nat := 1
  isSwitch : Bool := false
  linkDelay : Nat := 0
  buffer : List Nat := [256, 256, 256, 256, 384, 448, 32, 160]
  deriving DecidableEq, Repr

/-- A link-control flit as received (R332): `sent` and `ret` are SENT_VC0-7 and RETURN_VC0-7. -/
structure CtrlFlit where
  crcOk : Bool := true
  sent : List Nat := []
  ret : List Nat := []
  testReq : Bool := false
  retrainReq : Bool := false
  withdrawn : Bool := false
  deriving DecidableEq, Repr

/-- A heartbeat (R424). -/
structure Heartbeat where
  crcOk : Bool := true
  ckptSeq : Nat := 0
  claim : Nat := 0
  hbSeq : Nat := 0
  standby : Nat := 0
  activating : Bool := false
  live : Bool := true
  holder : Bool := false
  deriving DecidableEq, Repr

/-- One ledger event of a tile (R130): OPEN and CLOSE carry a tag; WORK carries a tag and units, UNIFORM units only. -/
inductive MarkKind where
  | openTag
  | closeTag
  | work (units : Nat)
  | uniform (units : Nat)
  deriving DecidableEq, Repr

/-- One row of a half's activity report (R467): a context (0 for the house) and its cumulative counts in the table's
order. -/
structure ActivityRow where
  ctx : Nat := 0
  counts : List Nat := []
  occTicks : Nat := 0
  deriving DecidableEq, Repr

/-- A decoded trace event of a control core (R566). -/
inductive TraceEvent where
  | branch (taken : Bool)
  | indirect (pc : Nat)
  | exception (interrupt : Bool) (cause pc : Nat)
  | frameSync (pc : Nat)
  deriving DecidableEq, Repr

/-- The commands of the block, in the order of spec/opcode_table.json. -/
inductive Instr where
  -- power-on and start (R532-R541)
  /-- POWER_ON_52V (R532): the SLOT_ID straps as sampled, and the outcome of the flash reads (R513). -/
  | powerOn52v (slotId : BitVec 6) (flashRead : Retry)
  /-- INPUT_LOSS_52V (R486) -/
  | inputLoss52v
  /-- AUX_3V3_LOSS (R33) -/
  | aux3v3Loss
  /-- RAIL_SEQUENCE (R533): the outcome of each of the five rails in order. -/
  | railSequence (outcomes : List Retry)
  /-- CROWN_START_GRANT (R535): which of the three claim records verify after the rewrite (R417). -/
  | crownStartGrant (verified : List Bool)
  /-- CROWN_START_LIVE_TIMEOUT (R535) -/
  | crownStartLiveTimeout (verified : List Bool)
  /-- COMPONENT_LOAD (R536): starter component 2-6 and the outcome of the check of the loaded image. -/
  | componentLoad (comp : Nat) (outcome : Retry)
  /-- PROOF_WAVE_POWER (R538) -/
  | proofWavePower (k : Fin 9)
  /-- PROOF_WAVE_TEST_DONE (R538): failing tiles (cluster, physical tile) and failing clusters; the flash write. -/
  | proofWaveTestDone (k : Fin 9) (badTiles : List (Nat × Nat)) (badClusters : List Nat) (flash : Retry)
  /-- MEM_TRAIN_DONE (R223): device 0-15 an HBM3E stack, 16-23 an LPDDR5X device. -/
  | memTrainDone (dev : Fin 24) (outcome : Retry)
  /-- SETTINGS_DIGEST_COMPUTE (R549) -/
  | settingsDigestCompute
  /-- READY (R539) -/
  | ready
  /-- DEFECT_REWRITE_TIMER (R543) -/
  | defectRewriteTimer (flash : Retry)
  /-- SLOT_ID_SAMPLE (R325) -/
  | slotIdSample (slotId : BitVec 6)
  -- rack time and schedule (R42-R72)
  /-- RACK_SYNC_EDGE (R50) -/
  | rackSyncEdge
  /-- RACK_CLK_LOSS (R49) -/
  | rackClkLoss
  /-- SYNC_MISSING (R49) -/
  | syncMissing
  /-- RACK_SET_TIMEOUT (R54) -/
  | rackSetTimeout
  /-- FRAME_START (R43): what a fault has added to each half's counter (R44). -/
  | frameStart (driftA driftB : Int := 0)
  /-- SCHED_DISPATCH (R67) -/
  | schedDispatch
  /-- POWER_TARGET (R63) -/
  | powerTarget
  /-- FW_ACTIVATE_EXECUTE (R558) -/
  | fwActivateExecute
  /-- TRACE_OPEN (R565) -/
  | traceOpen
  /-- TRACE_CLOSE (R565) -/
  | traceClose
  /-- TAP_ENABLE (R577) -/
  | tapEnable
  /-- TRANSIT_WITHDRAW_TICK (R373): how a route table due by then is recorded (R346). -/
  | transitWithdrawTick (flash : Retry := .clean)
  /-- HOST_EVENT (R63) -/
  | hostEvent
  /-- WITHDRAW_DRAIN_END (R373) -/
  | withdrawDrainEnd
  -- the mailbox hardware (R274-R302)
  /-- OWNERSHIP_WRITE (R285): size 4 or 8 bytes, the data, and the outcome of the page's parity checks (R514). -/
  | ownershipWrite (port : Half) (mb : Fin 128) (size : Nat) (data : Nat) (parity : Retry)
  /-- MAILBOX_PAGE_WRITE (R286): bytes written from a page offset. -/
  | mailboxPageWrite (port : Half) (mb : Fin 128) (off : Nat) (bytes : List Byte)
  /-- MAILBOX_WATCHDOG (R302) -/
  | mailboxWatchdog (port : Half) (mb : Fin 128)
  -- the command set (R303-R316); each names the mailbox of the crown's port
  /-- OPEN (R303): a seed drawn from the crown's random source for SEED 0 (R152). -/
  | openCmd (mb : Fin 128) (drawn : BitVec 64)
  /-- CLOSE (R238) -/
  | closeCmd (mb : Fin 128)
  /-- QUERY_CAPS (R304) -/
  | queryCaps (mb : Fin 128)
  /-- QUERY_STATUS (R305) -/
  | queryStatus (mb : Fin 128)
  /-- ALLOC (R306) -/
  | alloc (mb : Fin 128)
  /-- FREE (R205) -/
  | free (mb : Fin 128)
  /-- MAP_PROTECT (R306) -/
  | mapProtect (mb : Fin 128)
  /-- MAP_UNMAP (R205) -/
  | mapUnmap (mb : Fin 128)
  /-- MAP_WINDOW (R215) -/
  | mapWindow (mb : Fin 128)
  /-- COPY (R307) -/
  | copy (mb : Fin 128)
  /-- COPY_DONE (R307) -/
  | copyDone (mb : Fin 128) (env : MemEnv)
  /-- TIER_MOVE (R209) -/
  | tierMove (mb : Fin 128)
  /-- TIER_MOVE_DESC_START (R210): descriptor `n` of the command starts on mover `mover` of `half`. -/
  | tierMoveDescStart (mb : Fin 128) (n : Nat) (half : Half) (mover : Fin 4)
  /-- TIER_MOVE_DESC_DONE (R211) -/
  | tierMoveDescDone (mb : Fin 128) (n : Nat) (env : MemEnv)
  /-- PART_CREATE (R250) -/
  | partCreate (mb : Fin 128)
  /-- PART_DESTROY (R254) -/
  | partDestroy (mb : Fin 128)
  /-- RECIPE_LOAD (R246) -/
  | recipeLoad (mb : Fin 128)
  /-- RECIPE_UNLOAD (R248) -/
  | recipeUnload (mb : Fin 128)
  /-- LAUNCH (R256) -/
  | launch (mb : Fin 128)
  /-- LAUNCH_PREPARE (R260): the partition whose first queued launch is prepared. -/
  | launchPrepare (part : Fin 36)
  /-- LAUNCH_START (R261) -/
  | launchStart (part : Fin 36)
  /-- LAUNCH_DONE (R262) -/
  | launchDone (part : Fin 36)
  /-- WAIT (R263) -/
  | waitCmd (mb : Fin 128)
  /-- WAIT_TIMEOUT (R263) -/
  | waitTimeout (mb : Fin 128)
  /-- ABORT (R266) -/
  | abortCmd (mb : Fin 128)
  /-- GROUP_CREATE (R396) -/
  | groupCreate (mb : Fin 128)
  /-- GROUP_DESTROY (R396) -/
  | groupDestroy (mb : Fin 128)
  /-- ROUTE_LOAD (R345) -/
  | routeLoad (mb : Fin 128) (env : MemEnv)
  /-- ROUTE_TABLE_SWAP (R345) -/
  | routeTableSwap (flash : Retry)
  /-- LINK_CTL_DISABLE (R376) -/
  | linkCtlDisable (mb : Fin 128)
  /-- LINK_CTL_ENABLE (R376) -/
  | linkCtlEnable (mb : Fin 128)
  /-- LINK_CTL_RETRAIN (R376) -/
  | linkCtlRetrain (mb : Fin 128)
  /-- LINK_BERT (R377): the ports whose peer enters TEST within 10 ms. -/
  | linkBert (mb : Fin 128) (peerTests : BitVec 64)
  /-- LINK_BERT_END (R377): bits and errors counted at each tested port. -/
  | linkBertEnd (mb : Fin 128) (counts : List (Nat × Nat))
  /-- TIME_QUERY (R310) -/
  | timeQuery (mb : Fin 128)
  /-- SCHED_ADD (R66) -/
  | schedAdd (mb : Fin 128)
  /-- SCHED_CANCEL (R70) -/
  | schedCancel (mb : Fin 128)
  /-- POWER_SET (R451) -/
  | powerSet (mb : Fin 128)
  /-- POWER_QUERY (R311) -/
  | powerQuery (mb : Fin 128)
  /-- REQ_OPEN (R269) -/
  | reqOpen (mb : Fin 128)
  /-- REQ_CLOSE (R474) -/
  | reqClose (mb : Fin 128)
  /-- LEDGER_READ (R484) -/
  | ledgerRead (mb : Fin 128)
  /-- METHOD_SET (R471) -/
  | methodSet (mb : Fin 128) (flash : Retry)
  /-- CONFIG_STOP (R313) -/
  | configStop (mb : Fin 128)
  /-- CONFIG_WRITE (R548) -/
  | configWrite (mb : Fin 128)
  /-- CONFIG_START (R548) -/
  | configStart (mb : Fin 128) (flash : Retry)
  /-- SETTINGS_WRITE (R312) -/
  | settingsWrite (mb : Fin 128) (flash : Retry)
  /-- DIGEST_QUERY (R312) -/
  | digestQuery (mb : Fin 128)
  /-- FW_STAGE (R556) -/
  | fwStage (mb : Fin 128) (flash : Retry)
  /-- FW_ACTIVATE (R557) -/
  | fwActivate (mb : Fin 128)
  /-- FW_QUERY (R562) -/
  | fwQuery (mb : Fin 128)
  /-- TRACE_CTL_WINDOW (R565) -/
  | traceCtlWindow (mb : Fin 128)
  /-- TRACE_CTL_CLOSE_ALL (R565) -/
  | traceCtlCloseAll (mb : Fin 128)
  /-- TRACE_CTL_RING_SIZE (R564) -/
  | traceCtlRingSize (mb : Fin 128) (flash : Retry)
  /-- TAP_ARM (R577) -/
  | tapArm (mb : Fin 128)
  /-- TAP_READ (R579) -/
  | tapRead (mb : Fin 128)
  /-- COUNTER_READ (R576) -/
  | counterRead (mb : Fin 128)
  /-- INJECT (R500) -/
  | inject (mb : Fin 128)
  /-- RESET_PART (R522) -/
  | resetPart (mb : Fin 128)
  /-- RESET_CLUSTER (R519) -/
  | resetCluster (mb : Fin 128)
  /-- RESET_TILE (R519) -/
  | resetTile (mb : Fin 128)
  /-- RESET_MODULE (R526) -/
  | resetModule (mb : Fin 128)
  /-- CROWN_QUERY (R316) -/
  | crownQuery (mb : Fin 128)
  -- register accesses (R9, R276, R492, R496)
  /-- STATUS_W1C_WRITE (R497): a write of STS of a block. -/
  | statusW1cWrite (port : Half) (blk : Nat) (data : BitVec 32)
  /-- FIRST_SRC_CLEAR (R492) -/
  | firstSrcClear (port : Half) (blk : Nat) (data : BitVec 32)
  /-- OVF_CLEAR (R492) -/
  | ovfClear (port : Half) (blk : Nat) (data : BitVec 32)
  /-- ERRLOG_CLR (R609): the controller 0-23 and the data written. -/
  | errlogClr (port : Half) (mc : Fin 24) (data : BitVec 32)
  /-- ARB_WEIGHT_WRITE (R231): firmware's write of ARB_WEIGHTn of a stack, landing in memory clock `clock`. -/
  | arbWeightWrite (stack : Fin 16) (n : Fin 8) (weight : BitVec 12) (clock : Nat)
  /-- RT_NOW_LOW_READ (R71) -/
  | rtNowLowRead (port : Half)
  /-- REGISTER_WRITE (R9): a write of `size` bytes at a BAR0 offset. -/
  | registerWrite (port : Half) (off size data : Nat)
  -- streams and tile operations (R87-R136); `c` the cluster, `n` the exposed position
  /-- DESC_FETCH (R88) -/
  | descFetch (c : Fin 36) (n : Fin 64) (env : MemEnv)
  /-- HEADER_WAIT_SATISFIED (R90) -/
  | headerWaitSatisfied (c : Fin 36) (n : Fin 64) (q : UnitQ)
  /-- DESCRIPTOR_COMPLETE (R94) -/
  | descriptorComplete (c : Fin 36) (n : Fin 64) (q : UnitQ)
  /-- MMA (R157): the outcome of its local reads (R83). -/
  | mma (c : Fin 36) (n : Fin 64) (ts : StoreReads)
  /-- MMA_LAM (R181) -/
  | mmaLam (c : Fin 36) (n : Fin 64) (ts : StoreReads)
  /-- VEC (R111) -/
  | vec (c : Fin 36) (n : Fin 64) (ts : StoreReads)
  /-- NLF (R168) -/
  | nlf (c : Fin 36) (n : Fin 64) (ts : StoreReads)
  /-- RED (R116) -/
  | red (c : Fin 36) (n : Fin 64) (ts : StoreReads)
  /-- LOAD (R118) -/
  | load (c : Fin 36) (n : Fin 64) (env : MemEnv)
  /-- STORE (R118) -/
  | store (c : Fin 36) (n : Fin 64) (env : MemEnv) (ts : StoreReads)
  /-- XFER (R120) -/
  | xfer (c : Fin 36) (n : Fin 64) (ts : StoreReads)
  /-- CWAIT (R122) -/
  | cwait (c : Fin 36) (n : Fin 64)
  /-- CSIGNAL (R123) -/
  | csignal (c : Fin 36) (n : Fin 64)
  /-- WAIT_RT (R124) -/
  | waitRt (c : Fin 36) (n : Fin 64)
  /-- WAIT_RT_COMPLETE (R125) -/
  | waitRtComplete (c : Fin 36) (n : Fin 64)
  /-- FABRIC_TRIG (R127) -/
  | fabricTrig (c : Fin 36) (n : Fin 64)
  /-- MARK_REQ (R128) -/
  | markReq (c : Fin 36) (n : Fin 64) (ts : StoreReads := {})
  /-- MARK_WORK (R129) -/
  | markWork (c : Fin 36) (n : Fin 64) (ts : StoreReads := {})
  /-- TAP_POINT (R134) -/
  | tapPoint (c : Fin 36) (n : Fin 64) (ts : StoreReads) (env : MemEnv := {})
  /-- TILE_SIGNAL_ARRIVE (R99): the n-th signal in flight arrives. -/
  | tileSignalArrive (n : Nat)
  /-- TILE_HW_FAULT (R77): a store word (TS_UE) or another tile fault (TILE_HW). -/
  | tileHwFault (c : Fin 36) (n : Fin 64) (storeWord : Bool)
  /-- TILE_START_TEST_DONE (R77) -/
  | tileStartTestDone (c : Fin 36) (n : Fin 64) (passed : Bool) (flash : Retry)
  -- memory controllers (R216-R235); controller 0-15 HBM3E, 16-23 LPDDR5X
  /-- MEM_READ (R216): `who` the requester (R195), `ode` the stack's severity bits, `ce` a SEC-DED correction, `ue` the outcome after re-read. -/
  | memRead (mc : Fin 24) (pa : Nat) (ode ce : Bool) (ue : Retry) (who : Requester := .host .a)
  /-- MEM_WRITE (R218): the line's bytes from `pa` with a byte mask, the parity outcome, and the read of a
  read-modify-write (R194). -/
  | memWrite (mc : Fin 24) (pa : Nat) (bytes : List (Option Byte)) (parity rmwRead : Retry) (who : Requester := .host .a)
    (ode ce : Bool := false)
  /-- ARB_DECISION (R228): the clock, the requests that reach the ports from elsewhere, and whether a slot of the
  controller's own takes the clock (R229). -/
  | arbDecision (stack : Fin 24) (clock : Nat) (arrivals : List Arrival) (own : Bool := false)
  /-- ARB_WINDOW_REFILL (R230) -/
  | arbWindowRefill (stack : Fin 16) (clock : Nat)
  /-- SCRUB_READ (R220): `ce` and `ode` as for MEM_READ. -/
  | scrubRead (mc : Fin 24) (pa : Nat) (ce : Bool) (ue : Retry) (ode : Bool := false)
  /-- STACK_TEMP_REPORT (R221) -/
  | stackTempReport (stack : Fin 16) (temp : Nat)
  /-- WIN_SNOOP_TIMEOUT (R222): the snooped line. -/
  | winSnoopTimeout (mc : Fin 24) (pa : Nat)
  /-- WINDOW_HOST_ACCESS (R214): window offset of the line; bytes written, or none for a read. -/
  | windowHostAccess (port : Half) (off : Nat) (write : Option (List Byte)) (env : MemEnv := {})
  -- links and packets (R322-R378)
  /-- PHY_TRAIN_DONE (R326) -/
  | phyTrainDone (p : Fin 64)
  /-- FEC_LOCK_DONE (R326) -/
  | fecLockDone (p : Fin 64)
  /-- NEGOTIATE_DONE (R327) -/
  | negotiateDone (p : Fin 64) (cap : CapWord)
  /-- TRAIN_STATE_TIMEOUT (R328) -/
  | trainStateTimeout (p : Fin 64)
  /-- FEC_LOCK_LOSS (R328) -/
  | fecLockLoss (p : Fin 64)
  /-- UNCORR_CODEWORD_BURST (R328) -/
  | uncorrCodewordBurst (p : Fin 64)
  /-- LINK_CONTROL_FLIT (R333) -/
  | linkControlFlit (p : Fin 64) (f : CtrlFlit)
  /-- PACKET_ROUTE (R342): the header at the front of input port `p` (64: the own half's fabric engine). -/
  | packetRoute (p : Option (Fin 64)) (pkt : Pkt)
  /-- PUT_ARRIVE (R390) -/
  | putArrive (p : Fin 64) (pkt : Pkt)
  /-- GET_REQ_ARRIVE (R389) -/
  | getReqArrive (p : Fin 64) (pkt : Pkt) (env : MemEnv)
  /-- GET_RESP_ARRIVE (R392) -/
  | getRespArrive (p : Fin 64) (pkt : Pkt)
  /-- ATOMIC_ARRIVE (R390) -/
  | atomicArrive (p : Fin 64) (pkt : Pkt) (env : MemEnv)
  /-- ATOMIC_RESP_ARRIVE (R392) -/
  | atomicRespArrive (p : Fin 64) (pkt : Pkt)
  /-- REDUCE_ARRIVE (R399) -/
  | reduceArrive (p : Fin 64) (pkt : Pkt)
  /-- RNDV_READY_ARRIVE (R406) -/
  | rndvReadyArrive (p : Fin 64) (pkt : Pkt)
  /-- COUNTER_ADD_ARRIVE (R390) -/
  | counterAddArrive (p : Fin 64) (pkt : Pkt)
  /-- ACK_ARRIVE (R356) -/
  | ackArrive (p : Fin 64) (pkt : Pkt)
  /-- NACK_ARRIVE (R357) -/
  | nackArrive (p : Fin 64) (pkt : Pkt)
  /-- ACK_TIMER (R356): the index of the receiving flow. -/
  | ackTimer (flow : Nat)
  /-- SEQ_GAP_NACK (R356) -/
  | seqGapNack (flow : Nat)
  /-- RESEND_TIMEOUT (R358): the n-th packet of the resend buffers. -/
  | resendTimeout (n : Nat)
  /-- BL1_BUSY_ACK (R362) -/
  | bl1BusyAck (p : Fin 64) (pkt : Pkt)
  /-- BEACON_ARRIVE (R366) -/
  | beaconArrive (p : Fin 64) (b : Beacon)
  /-- NOTICE_WITHDRAW_MODULE (R372) -/
  | noticeWithdrawModule (p : Fin 64) (pkt : Pkt)
  /-- NOTICE_WITHDRAW_PORT (R376) -/
  | noticeWithdrawPort (p : Fin 64) (pkt : Pkt)
  /-- NOTICE_JOIN (R375) -/
  | noticeJoin (p : Fin 64) (pkt : Pkt)
  /-- TRANSIT_COMPARATOR_TICK (R374): the n-th armed comparator. -/
  | transitComparatorTick (n : Nat) (flash : Retry := .clean)
  /-- JOIN_NOTICE_SEND (R375) -/
  | joinNoticeSend
  /-- ABORT_PACKET_ARRIVE (R524) -/
  | abortPacketArrive (p : Fin 64) (pkt : Pkt)
  -- fabric engines (R379-R415)
  /-- ENGINE_COUNTER_ADD (R381): partition, reservation index, the sets and the adds of one cycle. -/
  | engineCounterAdd (half : Half) (part : Fin 36) (cnt : Nat) (sets : List Nat) (adds : List Nat)
  /-- OP_CONTEXT_FREE (R383): operation context `n` of the half frees. -/
  | opContextFree (half : Half) (n : Nat)
  /-- ENGINE_OP_COMPLETE (R392) -/
  | engineOpComplete (half : Half) (n : Nat)
  /-- COLLECTIVE_SLOT_ALLOC (R403) -/
  | collectiveSlotAlloc (half : Half)
  /-- COLLECTIVE_COMPLETE (R401) -/
  | collectiveComplete (half : Half) (slot : Nat)
  /-- COLLECTIVE_STALL (R415) -/
  | collectiveStall (half : Half) (slot : Nat)
  -- watchdogs and resets (R516-R527)
  /-- PROGRESS_WATCHDOG (R517) -/
  | progressWatchdog (part : Fin 36)
  /-- FENCE_RELEASE (R520) -/
  | fenceRelease (part : Fin 36)
  /-- MOD_RESET_N (R527): the pin has been low for 10 µs. -/
  | modResetN
  /-- BRIDGE_MAINBAND_ERROR (R24): did the link-level retry correct it; the endpoint's half. -/
  | bridgeMainbandError (half : Half) (retryOk : Bool)
  /-- BRIDGE_RETRAIN_DONE (R24) -/
  | bridgeRetrainDone (half : Half) (ok : Bool)
  -- the crown (R416-R441)
  /-- HEARTBEAT_SEND (R423) -/
  | heartbeatSend (half : Half)
  /-- HEARTBEAT_ARRIVE (R424): from `src`, on path 1 or 2; `atSup`: it has reached the supervisor on path 2. -/
  | heartbeatArrive (src : Half) (path2 : Bool) (atSup : Bool) (hb : Heartbeat)
  /-- PATH_SILENT (R425): the receiver that finds the path silent. -/
  | pathSilent (rcv : Half) (path2 : Bool)
  /-- LIVENESS_WRITE (R423) -/
  | livenessWrite (half : Half)
  /-- LIVENESS_EXPIRE (R423) -/
  | livenessExpire (half : Half)
  /-- HOLDER_FAILED_VOTE_REQUEST (R425) -/
  | holderFailedVoteRequest
  /-- VOTE_TALLY (R427): channels whose vote wires are silent (A, B, C), and the claim records that verify. -/
  | voteTally (silent : Bool × Bool × Bool) (verified : List Bool)
  /-- VOTE_REPEAT (R427): as VOTE_TALLY. -/
  | voteRepeat (silent : Bool × Bool × Bool) (verified : List Bool)
  /-- FLOOR_MESSAGE (R420): stage 0 VR path, 1 and 2 CXL enables A and B, 3 and 4 transit A and B, 5 flash path. -/
  | floorMessage (stage : Fin 6) (claim : Nat) (trusted : Bool)
  /-- FLOOR_BROADCAST (R420) -/
  | floorBroadcast
  /-- STAGE_LAPSE (R420) -/
  | stageLapse (stage : Fin 6)
  /-- STAGE_WRITE (R419): a write of `half` with a claim number; for stages 1 and 2, the function enable it writes. -/
  | stageWrite (half : Half) (stage : Fin 6) (claim : Nat) (enable : Bool)
  /-- TAKEOVER_RESTORE (R431): does the old half's mailbox hardware answer (R319). -/
  | takeoverRestore (answers : Bool)
  /-- TAKEOVER_COMPLETE (R431) -/
  | takeoverComplete
  /-- TAKEOVER_TIMEOUT (R437) -/
  | takeoverTimeout
  /-- INCONCLUSIVE_TIMEOUT (R437) -/
  | inconclusiveTimeout
  /-- CHECKPOINT_SNAPSHOT (R429) -/
  | checkpointSnapshot
  /-- STANDBY_COMMIT_CHECK (R430): does the header verify. -/
  | standbyCommitCheck (ok : Bool)
  /-- RESYNC_START (R435) -/
  | resyncStart
  /-- SUPERVISOR_FAILURE (R439) -/
  | supervisorFailure
  /-- SHUTDOWN_RAILS_OFF (R443) -/
  | shutdownRailsOff
  -- power and thermal (R442-R464)
  /-- INPUT_VOLTAGE_SAMPLE (R442): the 10 µs average in mV. -/
  | inputVoltageSample (mv : Nat)
  /-- UV_BRAKE_RELEASE (R442) -/
  | uvBrakeRelease
  /-- VOLTAGE_RESTART (R443) -/
  | voltageRestart
  /-- PWR_BRAKE_N_CHANGE (R455): the level, low counted after 1 µs. -/
  | pwrBrakeNChange (high : Bool)
  /-- THERM_ALERT_N_CHANGE (R459) -/
  | thermAlertNChange (high : Bool)
  /-- THERM_ALERT_CLEAR (R459) -/
  | thermAlertClear
  /-- THERM_COUNTDOWN_EXPIRE (R459) -/
  | thermCountdownExpire
  /-- THERMAL_SENSOR_READ (R460): hottest junction and hottest stack, °C. -/
  | thermalSensorRead (tj tm : Nat)
  /-- LEASE_EXPIRE (R453) -/
  | leaseExpire
  /-- REPORT_WINDOW_END (R462) -/
  | reportWindowEnd
  -- the ledger (R465-R487)
  /-- ACTIVITY_REPORT (R28): of `half` for frame `frame`. -/
  | activityReport (half : Half) (frame : Nat) (rows : List ActivityRow)
  /-- REPORT_LATE (R469) -/
  | reportLate (half : Half)
  /-- LEDGER_GAP_EXPIRE (R469) -/
  | ledgerGapExpire
  /-- FRAME_RECONCILE (R470): measured energy of the frame, nJ, and its mean core voltage, mV. -/
  | frameReconcile (energy : Nat) (vcore : Nat)
  /-- SHEET_CLOSE_TIMEOUT (R481) -/
  | sheetCloseTimeout
  /-- SHEET_SIGNED (R481) -/
  | sheetSigned
  -- firmware activation and trace (R558-R571)
  /-- CONTROL_ACTIVATION_RESUME (R558) -/
  | controlActivationResume
  /-- ACTIVATION_TIMEOUT (R559) -/
  | activationTimeout
  /-- TRACE_RECORD (R567): an event of core `core` of `half`. -/
  | traceRecord (half : Half) (core : Fin 4) (ev : TraceEvent)
  /-- TRACE_CRUMB (R569): the PCs of the SYNC records that follow the CRUMB, core 0 to 3. -/
  | traceCrumb (half : Half) (pcs : List Nat)
  -- CXL ports (R589-R592)
  /-- PERST_N (R591) -/
  | perstN (port : Half)
  /-- HDM_COMMIT (R592): the host commits the port's HDM decoder, or takes the commit back. -/
  | hdmCommit (port : Half) (on : Bool := true)
  /-- CXL_LINK_DOWN (R592) -/
  | cxlLinkDown (port : Half)
  /-- CXL_LINK_RETRAIN (R510): the width and rate it trained to. -/
  | cxlLinkRetrain (port : Half) (width : Nat) (gts : Nat)
  -- the management port (R593-R603)
  /-- ENTDAA (R594) -/
  | entdaa (addr : BitVec 7)
  /-- SET_ENDPOINT_ID (R595) -/
  | setEndpointId (eid : BitVec 8)
  /-- GET_ENDPOINT_ID (R595) -/
  | getEndpointId
  /-- GET_MCTP_VERSION_SUPPORT (R595) -/
  | getMctpVersionSupport
  /-- GET_MESSAGE_TYPE_SUPPORT (R595) -/
  | getMessageTypeSupport
  /-- SET_RACK_NUMBER (R325) -/
  | setRackNumber (rack : Nat)
  /-- SET_RACK_TIME (R52) -/
  | setRackTime (v : Nat) (step : Bool)
  /-- GET_RACK_TIME (R596) -/
  | getRackTime
  /-- SET_POWER_CAP (R452) -/
  | setPowerCap (capW leaseMs applyRt : Nat)
  /-- RENEW_POWER_LEASE (R453) -/
  | renewPowerLease (leaseMs : Nat)
  /-- GET_POWER (R596) -/
  | getPower
  /-- GET_STATUS (R596) -/
  | getStatus
  /-- GET_LINKS (R596) -/
  | getLinks
  /-- LOCATE (R603) -/
  | locate (on : Bool)
  /-- PLDM_LEDGER_READ (R484) -/
  | pldmLedgerRead (kind fromSeq max : Nat)
  /-- LOCATE_N_CHANGE (R603) -/
  | locateNChange (high : Bool)
  /-- PLATFORM_EVENT_RETRY (R599): did the receiver accept the event within 100 ms. -/
  | platformEventRetry (accepted : Bool)
  /-- REQUEST_UPDATE (R600): the component and the transferred package. -/
  | requestUpdate (component : Nat) (pkg : List Byte) (area : Retry) (slot dir : Retry := .clean)
  /-- ACTIVATE_FIRMWARE (R600) -/
  | activateFirmware
  /-- GET_VERSION (R601) -/
  | getVersion
  /-- GET_CAPABILITIES (R601) -/
  | getCapabilities
  /-- NEGOTIATE_ALGORITHMS (R601) -/
  | negotiateAlgorithms
  /-- GET_DIGESTS (R601) -/
  | getDigests
  /-- GET_CERTIFICATE (R601): slot, offset and length. -/
  | getCertificate (slot off len : Nat)
  /-- CHALLENGE (R601): slot and nonce. -/
  | challenge (slot : Nat) (nonce : BitVec 256)
  /-- GET_MEASUREMENTS (R602): index (0 the count, 255 all), signed or not, nonce. -/
  | getMeasurements (index : Nat) (signed : Bool) (nonce : BitVec 256)
  -- rows that the table adds last
  /-- RACK_CLK_RETURN (R47) -/
  | rackClkReturn
  /-- AUX_3V3_RETURN (R585) -/
  | aux3v3Return
  /-- MOD_RESET_N_RELEASE (R527) -/
  | modResetNRelease
  /-- BEGIN_LOWERING (R449) -/
  | beginLowering
  /-- POWER_INTERVAL_END (R445): the average of P over the interval, W. -/
  | powerIntervalEnd (avgW : Nat)
  /-- VOTE_REQUEST_RETRY (R425) -/
  | voteRequestRetry
  /-- STANDBY_READY_LAPSE (R430) -/
  | standbyReadyLapse
  /-- CODEWORD_ARRIVE (R331): symbols corrected, or none if uncorrectable; the packets with a flit in it, and
  how many. -/
  | codewordArrive (p : Fin 64) (corrected : Option Nat) (pkts : List (Pkt × Nat))
  /-- BACK_INVALIDATE_RESPONSE (R215): the line's window offset and the data the host wrote back, if dirty. -/
  | backInvalidateResponse (off : Nat) (dirty : Option (List Byte))
  /-- RECIPE_LOAD_DONE (R246) -/
  | recipeLoadDone (mb : Fin 128) (env : MemEnv)
  /-- FW_STAGE_DONE (R556): the writes of the staging area, the slot and the directory. -/
  | fwStageDone (mb : Fin 128) (area : Retry) (slot dir : Retry := .clean)
  /-- CONTROL_CORE_CACHE_ERROR (R515) -/
  | controlCoreCacheError (half : Half) (single : Bool) (ue : Retry)
  /-- SET_EVENT_RECEIVER (R599) -/
  | setEventReceiver (eid : BitVec 8)
  deriving DecidableEq, Repr

end Sys2Proof
end

