-- ==== Sys2Proof/Machine/State.lean ====
section
/-!
DEFINITION. The state of the block as plain data, one structure for each block of the module, the reasons a step can
stop, and the state right after reset. A sparse map holds only the entries that differ from a default value which the
reading operation names, in ascending key order (Machine/Store.lean), so that equal contents are equal data.
A deadline is a value of `Time.clk`, the model's own count of rack ticks since the supervisor started.
-/
namespace Sys2Proof.Machine

/-- A sparse map from natural numbers: strictly ascending keys, no entry equal to the default. -/
abbrev FMap (α : Type) := List (Nat × α)

/-- A byte memory: strictly ascending addresses, no entry equal to the byte an unlisted address reads as. -/
abbrev Memory := List Host.Cell

/-- Why the machine stops. No row of the table needs it where the spec gives an effect. -/
inductive Fault where
  /-- Raised by no command of a well-formed instruction: an operand outside its type's range, refused by WellFormed.
  Safe: the hardware never sees such a command. -/
  | illFormed
  deriving DecidableEq, Repr

/-- Why a command has no meaning. -/
inductive Refusal where
  /-- A row whose meaning is not written yet. Safe: nothing about it can be proved. -/
  | notModelled (mnemonic : String)
  deriving DecidableEq, Repr

-- ---------------------------------------------------------------- identity and pins

/-- Identity of the module (R3, R277, R325). -/
structure Ident where
  variant : Variant := .f
  serial : Nat := 0
  mid : Nat := 0                     -- MID in force (R325)
  midValid : Bool := false           -- R325
  slot : Nat := 0                    -- SLOT_ID as last sampled (R325)
  pendSlot : Option Nat := none      -- recorded SLOT_ID that differs (R325)
  pendRack : Option Nat := none      -- recorded rack number that differs (R325)
  deriving DecidableEq, Repr

/-- The sideband inputs as last seen (R583-R585) and the locate setting (R603). `true` is the high level. -/
structure Pins where
  rackClk : Bool := false            -- RACK_CLK edges are present (R48, R49)
  pwrBrakeN : Bool := true
  thermAlertN : Bool := true
  modResetN : Bool := true
  locateN : Bool := true
  aux3v3 : Bool := true
  locateOn : Bool := false           -- the last LOCATE command (R596)
  deriving DecidableEq, Repr

-- ---------------------------------------------------------------- rack time (chapter 02)

/-- An armed SET_RACK_TIME (R53). -/
structure SetArm where
  v : Nat
  step : Bool
  doneAt : Nat                       -- `clk` at the command's completion
  deriving DecidableEq, Repr

/-- Rack time (R42-R59, R71, R72). -/
structure Time where
  clk : Nat := 0                     -- the model's own tick count
  sup : Nat := 0                     -- the supervisor's counter
  cntA : Nat := 0                    -- half A's counter
  cntB : Nat := 0
  tq : TQ := .freeUnset              -- R46
  epoch : Nat := 0                   -- TIME_EPOCH
  setLast : Nat := 0                 -- RT_SET_LAST
  setResult : Nat := 0               -- RT_SET_RESULT
  armed : Option SetArm := none      -- R53
  w1c : BitVec 32 := 0               -- the W1C bits [7:4] of RT_STATUS (R72)
  slips : Nat := 0                   -- R49
  lastSlip : Option Nat := none      -- frame of the last slip (R49)
  lastMiss : Option Nat := none      -- last frame found to have no edge (R49)
  lastEdge : Option Nat := none      -- frame whose start an edge marked (R49)
  adjust : Option (Bool × Nat) := none   -- a tick to add (true) or withhold, and the `clk` at which (R50)
  disA : Bool := false               -- half A disagreed at the last comparison (R44)
  disB : Bool := false
  latchA : Nat := 0                  -- RT_NOW high word latched for port A (R71)
  latchB : Nat := 0
  deriving DecidableEq, Repr

/-- A schedule entry (R62). `by` is the context whose SCHED_ADD added it (R310). -/
structure SchedEntry where
  rt : Nat := 0
  action : Nat := 0
  lateOk : Bool := false
  late : Bool := false               -- could not be dispatched at its tick (R69)
  resultFree : Bool := false
  st : Nat := 0                      -- STATE
  owner : Nat := 0
  gen : Nat := 0
  arg : Nat := 0
  ctx : Nat := 0
  deriving DecidableEq, Repr

/-- A dispatched entry on its way to its executing block (R67). -/
structure Dispatch where
  idx : Nat
  action : Nat
  arg : Nat
  rt : Nat
  deriving DecidableEq, Repr

/-- The schedule table (R60) and what the supervisor has dispatched. -/
structure Sched where
  tab : FMap SchedEntry := []
  out : List Dispatch := []
  usAt : Nat := 0                    -- microsecond of the last dispatch (R67)
  usN : Nat := 0                     -- entries dispatched in it
  deriving DecidableEq, Repr

-- ---------------------------------------------------------------- mailboxes (chapter 08)

/-- A mailbox page: the control line (R283) and the bytes of the command header and payload (R282), by page offset. -/
structure Page where
  own : Nat := 0
  status : Nat := 0
  respLen : Nat := 0
  tagEcho : Nat := 0
  opEcho : Nat := 0
  ifVer : Nat := 0
  detail : Nat := 0
  doneRt : Nat := 0
  arrival : Nat := 0
  bytes : Memory := []
  deriving DecidableEq, Repr

/-- State of one mover descriptor of a TIER_MOVE: 0 not started, 1 running, 2 done, 3 failed, 4 fenced, 5 not run. -/
structure MoveSt where
  st : Nat := 0
  half : Half := .a
  mover : Nat := 0
  reason : Nat := 0
  moved : Nat := 0
  deriving DecidableEq, Repr

/-- A command in an execution place (R298): started and not yet ended by firmware. -/
structure RunCmd where
  arrival : Nat := 0
  opcode : Nat := 0
  ctx : Nat := 0
  fence : Bool := false
  part : Option Nat := none          -- partition it names (R300)
  func : Option Nat := none          -- configuration function it names (R300)
  deadline : Nat := 0                -- operation's own end (WAIT_TIMEOUT, LINK_BERT)
  arg : Nat := 0                     -- launch, mask of ports, or slot, by opcode
  moves : List MoveSt := []
  pl : List Byte := []               -- the payload it was given
  ans : Option (Nat × Nat × List Byte) := none   -- the answer that firmware writes when it runs again (R318)
  deriving DecidableEq, Repr

/-- The mailbox hardware of both ports. Maps are keyed by 128 × port + mailbox. A command that keeps its execution place
after its watchdog has answered it stands at that key plus 256 × ARRIVAL (R302). -/
structure Mbx where
  pages : FMap Page := []
  run : FMap (Option RunCmd) := []   -- commands in an execution place
  watch : FMap (Option Nat) := []    -- watchdog deadline of an owned command (R301)
  nextA : Nat := 1                   -- next ARRIVAL of port A (R288)
  nextB : Nat := 1
  bind : FMap Nat := []              -- mailbox number to CONTEXT_ID, 0 for none (R292)
  msixTab : FMap Nat := []           -- MSI-X table dwords (R275)
  msixPend : FMap Bool := []         -- pending-bit array: 256 × port + vector (R275)
  msixOut : List (Half × Nat) := []  -- messages sent, newest first (R281)
  held : List Nat := []              -- vectors held (R281)
  deriving DecidableEq, Repr

-- ---------------------------------------------------------------- contexts and work (chapters 06, 07)

/-- A run of leaf page-table entries (R201, R202): `len` bytes from `va` at `pa`. -/
structure Mapping where
  va : Nat
  pa : Nat
  len : Nat
  big : Bool := false                -- 1 GiB pages
  read : Bool := true
  write : Bool := false
  window : Bool := false
  deriving DecidableEq, Repr

/-- An allocation (R306): `owned` runs of frames (address, bytes) drawn under R200. -/
structure Alloc where
  va : Nat
  size : Nat                         -- rounded to whole pages
  tier : Nat                         -- 0 HBM3E, 1 LPDDR5X
  big : Bool
  recipe : Nat := 0                  -- the recipe it belongs to, 0 for ALLOC
  owned : List (Nat × Nat)
  deriving DecidableEq, Repr

/-- A stream of a loaded recipe (R241). -/
structure Stream where
  cluster : Nat
  pos : Nat
  off : Nat
  count : Nat
  bases : List Nat                   -- B1 to B7 specifications (R242)
  deriving DecidableEq, Repr

/-- A segment of a loaded recipe (R243) with the address allocated to it. -/
structure Segment where
  kind : Nat
  size : Nat
  write : Bool
  arg : Nat
  va : Nat := 0
  deriving DecidableEq, Repr

/-- A loaded recipe (R246). -/
structure Recipe where
  clusters : Nat
  feCnt : Nat
  feTrig : Nat
  args : Nat
  win : List Nat                     -- CS_WIN (R239)
  streams : List Stream
  segs : List Segment
  syms : List (Bool × Nat)           -- TAPPABLE and BYTES of each symbol (R244)
  streamVa : Nat
  deriving DecidableEq, Repr

/-- A launch (R255-R264). -/
structure Launch where
  id : Nat
  hsn : Nat
  part : Nat
  recipe : Nat
  st : Nat := 0                      -- STATE of R264
  startRt : Nat := 0                 -- the START_RT parameter
  args : List Nat := []
  notify : Nat := 0
  seed : Nat := 0
  tick : Nat := 0                    -- start tick
  endRt : Nat := 0
  late : Bool := false
  watchdog : Bool := false
  tq : Nat := 0
  faultCode : Nat := 0
  faultDesc : Nat := 0
  faultC : Nat := 0
  faultP : Nat := 0
  faultRt : Nat := 0
  failing : Bool := false            -- it is to end FAILED (R265)
  wdAt : Nat := 0                    -- progress watchdog deadline (R517)
  wdMs : Nat := 0                    -- PROGRESS_MS in force for this launch (R516)
  tileVer : Nat := 0                 -- tile firmware in force when its preparation began (R560)
  runA : Bool := false               -- half A's tiles have begun (R261)
  runB : Bool := false
  deriving DecidableEq, Repr

/-- A context (chapter 07). -/
structure Ctx where
  seed : Nat := 0
  ver : Nat := 0                     -- negotiated version (R294)
  maps : List Mapping := []
  ptBase : Nat := 0                  -- page-table base: address of the level-1 table (R201)
  l2 : FMap Nat := []                -- address of each level-2 table, by VA[47:30]
  allocs : List Alloc := []
  recipes : FMap (Option Recipe) := []
  nextRecipe : Nat := 1
  lastLaunch : Nat := 0
  launches : FMap (Option Launch) := []
  openSeq : Nat := 0                 -- next receipt SEQ at OPEN (R484)
  openRt : Nat := 0
  closing : Bool := false            -- a CLOSE is running (R238)
  deriving DecidableEq, Repr

/-- A fence of a partition (R520). `destroy`: PART_DESTROY with FORCE or CLOSE waits for it. -/
structure Fence where
  at_ : Nat                          -- tick T
  endSt : Nat                        -- STATE of the running launch: 4 FAILED or 5 ABORTED
  byFault : Bool := false            -- a launch's failure caused it: its tiles stop after tick T (R264)
  code : Nat := 0
  destroy : Bool := false
  deriving DecidableEq, Repr

/-- A partition (R249-R254). -/
structure Part where
  ctx : Nat
  clusters : List Nat                -- in partition-index order
  feCnt : Nat
  feTrig : Nat
  queue : List Nat := []             -- LAUNCH_IDs not ended, in acceptance order
  recent : List (Nat × Nat) := []    -- last 16 accepted (HSN, LAUNCH_ID), newest first (R257)
  fence : Option Fence := none
  lastTick : Nat := 0                -- last start tick (R524)
  stallMs : Nat := 500               -- STALL_MS in force (R516)
  deriving DecidableEq, Repr

/-- Contexts, partitions and groups' owners. -/
structure Work where
  ctxs : FMap (Option Ctx) := []
  lastCtx : Nat := 0
  parts : FMap (Option Part) := []
  recSig : Bool := false             -- RECIPE_SIG in force (R547)
  recKey : List Byte := []           -- RECIPE_PUBKEY in force
  deriving DecidableEq, Repr

-- ---------------------------------------------------------------- clusters and tiles (chapter 03)

/-- A queued descriptor (R89): its index in the stream, its 512 bits, whether its header wait is satisfied and whether
its unit has executed it, or a WAIT_RT holds. -/
structure Desc where
  idx : Nat
  bits : Nat
  bad : Option Nat := none           -- its fetch failed, with the kind of R203 or 0
  go : Bool := false
  done : Bool := false
  deriving DecidableEq, Repr

/-- A held accumulator set: 1,024 element values as 32-bit images (FP32 or INT32), row by row (R78, R108). -/
structure AccSet where
  held : Bool := false
  vals : FMap Nat := []
  unset : List Nat := []             -- elements that a smaller LOAD left without a value
  deriving DecidableEq, Repr

/-- The lamination accumulator of an output element (R184): flags, the signed exponent of bit 0 of VALUE, and VALUE. With no
contribution yet ANCHOR is at its lowest value, below that of any contribution. -/
structure LamAcc where
  nan : Bool := false
  pinf : Bool := false
  ninf : Bool := false
  anchor : BitVec 13 := 0x1000#13
  value : BitVec 192 := 0#192
  deriving DecidableEq, Repr

/-- A tile at an exposed position (R78). `phase`: 0 idle, 1 running, 2 END completed, 3 faulted or stopped. -/
structure Tile where
  phase : Nat := 0
  base : FMap Nat := []              -- B1-B7
  cnt : FMap Nat := []               -- C0-C63
  streamVa : Nat := 0
  next : Nat := 0                    -- index of the next descriptor to fetch
  pre : List Desc := []              -- prefetch buffer
  endSeen : Bool := false            -- the END descriptor was dispatched
  qm : List Desc := []
  qv : List Desc := []
  qn : List Desc := []
  qd : List Desc := []
  qf : List Desc := []
  hold : Option Desc := none         -- the sequencer operation that holds dispatch
  barrier : Option Nat := none       -- index of the BARRIER that holds dispatch (R93)
  last : Option Nat := none          -- last descriptor dispatched (R264)
  acc0 : AccSet := {}
  acc1 : AccSet := {}
  prev : Option Bool := none         -- set used by the previous MMA: false 0, true 1 (R108)
  lam : List LamAcc := []            -- accumulator of each output element of the last MMA_LAM, row by row (R184)
  launchRt : Nat := 0
  rtFree : Bool := false             -- WAIT_RT_FREE (R125)
  tapArm : FMap (Option Nat) := []   -- armed step by SYM_ID (R577)
  tapCnt : FMap Nat := []            -- TAP_POINT executions by SYM_ID (R134)
  draws : FMap Nat := []             -- stochastic draws taken by unit (R152)
  deriving DecidableEq, Repr

/-- A cluster (R73-R76, R85, R503). -/
structure Cluster where
  phys : List Nat := []              -- physical tile of each exposed position (R75)
  retired : List Nat := []           -- positions retired since the start (R77)
  badStore : Bool := false           -- KIND 2 in the defect ledger (R544)
  powered : Bool := false
  tested : Bool := false
  part : Option Nat := none
  win : List Nat := [0, 0, 0, 0, 0, 0, 0, 0]   -- CS_WIN0-7
  resetting : Bool := false
  fenced : Bool := false
  codes : FMap Nat := []             -- FAULT_CODE by position
  xlVa : Nat := 0
  xlKind : Nat := 0
  tileVer : Nat := 0                 -- tile firmware version of the bank in force (R560)
  testing : List (Nat × Bool) := []  -- positions whose start test is due after a fault, and whether it was injected (R77)
  deriving DecidableEq, Repr

/-- A completion or CSIGNAL signal on its way (R98, R99): tile target (64 c + n), or engine counter of a half. -/
structure Signal where
  src : Nat
  eng : Option Half := none
  part : Nat
  tgt : Nat                          -- 64 c + n for a tile target
  cnt : Nat
  val : Nat
  set : Bool := false
  deriving DecidableEq, Repr

/-- Clusters, tiles (key 64 c + n) and signals in flight, oldest first. -/
structure Compute where
  clusters : FMap Cluster := []
  tiles : FMap Tile := []
  signals : List Signal := []
  ts : Memory := []                  -- tile stores: key 0x80000 × (64 c + n) + local address
  deriving DecidableEq, Repr

-- ---------------------------------------------------------------- memory controllers (chapter 06)

/-- An error-log entry (R609). -/
structure ErrEntry where
  rt : Nat
  kind : Nat
  pa : Nat
  deriving DecidableEq, Repr

/-- A burst at a port of an arbiter (R225): the requester (0-35 a cluster; 36, 37 the fabric engines; 38, 39 the tier
movers; 40, 41 the host path and the control complex of a half), its granule, its 1 to 16 lines, and the memory clock in which
it reached the port. -/
structure Burst where
  who : Nat
  gran : Nat
  lines : Nat
  at_ : Nat
  deriving DecidableEq, Repr

/-- A memory controller: 0-15 HBM3E, 16-23 LPDDR5X (R193, R219-R235). Lists hold ports 0-7. -/
structure Mc where
  ports : List (List Burst) := [[], [], [], [], [], [], [], []]   -- requests at each port, first come first (R224)
  writes : List (Nat × Nat × Nat) := []   -- weight writes not yet in effect: clock, port, weight (R231)
  trained : Bool := false
  tries : Nat := 0
  trainFail : Bool := false
  weight : List Nat := [640, 640, 640, 640, 640, 512, 256, 128]
  credit : List Nat := [640, 640, 640, 640, 640, 512, 256, 128]
  grant : List Nat := [0, 0, 0, 0, 0, 0, 0, 0]
  starve : List Nat := [0, 0, 0, 0, 0, 0, 0, 0]
  waitMax : List Nat := [0, 0, 0, 0, 0, 0, 0, 0]
  asked : List Bool := [false, false, false, false, false, false, false, false]
  won : List Bool := [false, false, false, false, false, false, false, false]
  clock : Nat := 0                   -- ARB_CLOCK: the next memory clock
  window : Nat := 0                  -- windows begun, each with its refill (R230)
  decided : Bool := false            -- a decision has been made in the window
  pathFree : Nat := 0                -- first clock in which the data path is free
  rot : Nat := 0                     -- highest-priority port of an LPDDR5X controller (R235)
  log : List ErrEntry := []
  ceHour : Nat := 0                  -- rack-time hour of `ceCount`
  ceCount : Nat := 0
  refresh2 : Bool := false           -- doubled refresh rate (R221)
  deriving DecidableEq, Repr

/-- A translation held in a cache (R204): context, first virtual address of the page, 1 GiB or 2 MiB, and the leaf entry's
fields (R202). -/
structure Xl where
  cx : Nat
  va : Nat
  big : Bool
  pa : Nat
  read : Bool
  write : Bool
  window : Bool
  deriving DecidableEq, Repr

/-- External memory with the cluster stores of the module physical map (R39), and the host's own memory as CXL.cache
reaches it. `winMem`-class snoop state (R215): lines possibly cached by the host, oldest first. -/
structure Mem where
  phys : Memory := []
  host : Memory := []
  mcs : FMap Mc := []
  filter : List Nat := []            -- snoop filter: window line numbers
  snoops : List Nat := []            -- back-invalidate snoops not yet answered
  snoopBad : List Nat := []          -- lines whose snoop timed out; the access that waits fails (R222)
  tierOff : Bool := false            -- TIER_DISABLED (R223)
  bad : List Nat := []               -- lines whose data stays uncorrectable until it is written anew (R216, R220)
  xl : FMap (List Xl) := []          -- translation caches by requester, oldest entry first (R204)
  xlErr : FMap (Nat × Nat) := []     -- latest failed translation by requester: kind, virtual address (R203)
  pte : FMap (Option Nat) := []      -- table entries that a write other than firmware's has changed, by address / 8
  perHalf : Bool := false            -- interleave mode in force (R197)
  windowGib : Nat := 64              -- window size in force (R214)
  deriving DecidableEq, Repr

-- ---------------------------------------------------------------- status windows (chapter 14)

/-- The common header of a status window (R489-R492, R499). `sts` holds the W1C bits. -/
structure Win where
  sts : BitVec 32 := 0
  en : BitVec 32 := 0
  latchEn : BitVec 32 := 0
  vec : Nat := 0
  valid : Bool := false
  injected : Bool := false
  code : Nat := 0
  bit : Nat := 0
  rt : Nat := 0
  info : Nat := 0
  ovf : Bool := false
  later : Nat := 0
  armed : Bool := false              -- INJ
  checker : Nat := 0
  mode : Nat := 0
  target : Nat := 0
  deriving DecidableEq, Repr

/-- Status windows and counters. Counter key: 2048 × block + index (R572). -/
structure Obs where
  win : FMap Win := []
  ctr : FMap Nat := []
  deriving DecidableEq, Repr

-- ---------------------------------------------------------------- fabric (chapter 09)

/-- A fabric port (R322-R335, R369). Lists hold VC0-VC7. -/
structure Port where
  st : Nat := 0                      -- STATE of R326
  role : Nat := 0
  proto : Nat := 0
  peerMid : Nat := 0
  peerSwitch : Bool := false
  digMismatch : Bool := false
  digUnchecked : Bool := false
  reason : Nat := 0
  linkDelay : Nat := 0
  tries : Nat := 0                   -- attempts failed in this training
  retrain : Bool := false            -- training from ACTIVE (R328)
  withdrawn : Bool := false          -- marked WITHDRAWN until a join (R375)
  ctlOff : Bool := false             -- disabled by LINK_CTL at its tick (R376)
  byCtl : Bool := false              -- enabled or retrained by LINK_CTL: in routing once ACTIVE at both ends (R376)
  test : Option Nat := none          -- end of a bit-error test (R377)
  testReq : Bool := false
  retrainReq : Bool := false
  peerHeld : Bool := false           -- the peer holds this port WITHDRAWN (R332, R376)
  since : Nat := 0                   -- clk of the entry to STATE (R326)
  queue : List (Nat × Pkt) := []     -- packets that wait for credits, with the port they arrived on (64: own engines)
  turn : Nat := 0                    -- place of the next VC in the round-robin of R335
  credit : List Nat := [256, 256, 256, 256, 384, 448, 32, 160]
  retSeen : List Nat := [0, 0, 0, 0, 0, 0, 0, 0]   -- last RETURN counts seen
  rxFlits : List Nat := [0, 0, 0, 0, 0, 0, 0, 0]   -- flits received, the lost ones among them, modulo 2^16
  freed : List Nat := [0, 0, 0, 0, 0, 0, 0, 0]     -- flits freed or lost: RETURN (R333); the rest stand in the receive buffer
  retHeld : Option (List Nat) := none              -- RETURN as it stood at the tick of the own withdrawal (R373)
  hit : List (Pkt × Nat) := []                     -- packets that a dropped codeword hit, with their flits in it (R331)
  up : Nat := 0                                    -- clk from which link-control flits leave (R331, R332)
  sentFlits : List Nat := [0, 0, 0, 0, 0, 0, 0, 0]
  beaconSeq : Nat := 0
  beaconIn : Bool := false           -- a beacon arrived in this frame
  beaconGap : Nat := 0               -- frames in a row without one
  deriving DecidableEq, Repr

/-- A ring record (R347). -/
structure Ring where
  pos : List Nat
  dateline : Nat
  deriving DecidableEq, Repr

/-- A routing image as parsed (R340, R341). -/
structure RouteTab where
  sets : FMap Nat := []              -- port sets
  entries : FMap Nat := []           -- 32-bit entries by destination MID
  rings : FMap (Option Ring) := []
  raw : List Byte := []              -- the image's bytes, for the settings key
  deriving DecidableEq, Repr

/-- An armed transit comparator (R372-R376). `kind`: 0 withdraw module, 1 withdraw port, 2 join, 3 LINK_CTL enable or
retrain; `own` for the module's
own withdrawal or LINK_CTL disable. -/
structure Comparator where
  tick : Nat
  kind : Nat
  port : Nat := 0
  peer : Nat := 0
  own : Bool := false
  cause : Nat := 0
  deriving DecidableEq, Repr

/-- A receiving flow (R354-R356). Ring VCs are one; a multicast flow carries the group in place of the destination. -/
structure RxFlow where
  srcMid : Nat
  srcHalf : Half
  destHalf : Half
  vc : Nat
  mcast : Option Nat := none
  next : Nat := 0
  held : List (Nat × Pkt) := []      -- port of arrival and packet
  unacked : Nat := 0
  ackAt : Option Nat := none         -- clk of the oldest unacknowledged application
  gapAt : Option Nat := none         -- clk at which a gap began
  nackAt : Option Nat := none
  deriving DecidableEq, Repr

/-- A packet in the resend buffer of a port (R357), 64 where it found no way out of its own module. `waiting`: mask positions that have not acknowledged a multicast (R353). -/
structure Resend where
  pkt : Pkt
  port : Nat
  sentAt : Nat
  resends : Nat := 0
  busy : Bool := false               -- a BL1 busy acknowledgement has come (R362)
  inj : Bool := false                -- an injection spoiled it (R501)
  waiting : Nat := 0
  deriving DecidableEq, Repr

/-- The transit domains of both halves (R32). -/
structure Fab where
  ports : FMap Port := []
  tab : RouteTab := {}
  vcAlloc : List Nat := [256, 256, 256, 256, 384, 448, 32, 160]  -- VC_ALLOC in force (R334, R547)
  shadow : Option (Nat × RouteTab) := none       -- APPLY tick and image
  pathBad : FMap Bool := []                      -- 4096 × half + MID (R359)
  digMap : FMap Bool := []                       -- DIGEST_MAP, 4096 × half + MID (R551)
  comps : List Comparator := []
  drainEnd : Option Nat := none                  -- end of the own module's drain (R373)
  withdrawn : Bool := false                      -- the own module has withdrawn
  rx : List RxFlow := []
  txSeq : FMap Nat := []                         -- next SEQ by flow key
  resend : List Resend := []
  abortSeen : List (Nat × Nat × Nat) := []       -- SRC_MID, ABORT_ID, clk (R524)
  abortId : Nat := 0
  out : List (Nat × Pkt) := []                   -- packets sent by port, newest first
  joined : Bool := false                         -- the join notice was sent (R375)
  txWait : List Pkt := []                        -- own packets not yet numbered: window of R362, full buffers (R357)
  bridge : List (Nat × Pkt) := []                -- packets that wait for the bridge to retrain, with their port of arrival (R24)
  again : List (Bool × Pkt) := []                -- packets whose retry an injection of MODE BOTH meets: FEC or CRC (R499)
  deriving DecidableEq, Repr

-- ---------------------------------------------------------------- fabric engines (chapter 10)

/-- A member of a group (R395). -/
structure Member where
  mid : Nat
  half : Half
  bl1 : Bool
  scratch : Nat
  deriving DecidableEq, Repr

/-- A group record (R395, R396). -/
structure Group where
  part : Nat
  rank : Nat
  members : List Member
  ringId : Nat
  tree : Bool
  battBytes : Nat
  battWin : Nat
  scratchBytes : Nat
  nextSeq : Nat := 0                 -- R401
  step : Nat := 0                    -- steps of DIRECT (R408)
  ready : List (Nat × Nat) := []     -- RNDV_READY received: GROUP_SEQ and sender's rank (R406)
  deriving DecidableEq, Repr

/-- An operation context in use (R379, R383). -/
structure Op where
  half : Half
  part : Nat
  idx : Nat                          -- entry index
  entry : Nat                        -- the 256-bit entry
  tag : Nat
  acks : Nat := 0                    -- packets not yet acknowledged
  left : Nat := 0                    -- response bytes not yet written
  freed : Bool := false              -- context still held by an ended operation
  deriving DecidableEq, Repr

/-- A collective posted on a half: pending, or holding a slot (R401-R415). -/
structure Coll where
  half : Half
  part : Nat
  group : Nat
  seq : Nat
  send : Option (Nat × Nat) := none  -- entry index and entry of REDUCE_SEND
  recv : Option (Nat × Nat) := none
  startTick : Nat := 0
  slot : Option Nat := none
  waited : Bool := false             -- counted in SLOT_WAIT (R403)
  algo : Nat := 0                    -- algorithm in use, as ALGO
  mixed : Bool := false
  step : Nat := 0                    -- passes of a BARRIER; steps of DIRECT done
  stage : Nat := 0                   -- DIRECT: 0 to send, 1 PUT under way, 2 waiting for ARRIVED
  cur : List Byte := []              -- DIRECT: the chunk to send
  acc : FMap (Option Nat) := []      -- MESH2D: sums that wait for their other part, 2 × index + (0 row, 1 column); TREE:
                                     -- elements returned by batt
  used : Nat := 0                    -- input elements taken
  got : Nat := 0                     -- result elements written
  back : Nat := 0                    -- MESH2D, TREE: result elements seen; DIRECT: PUT packets not yet acknowledged
  batts : Nat := 0                   -- TREE: batts sent
  wait : List (Nat × Pkt) := []      -- packets that wait for the RNDV_READY of a rank
  sent : Nat := 0                    -- packets not yet acknowledged
  sigS : Bool := false               -- REDUCE_SEND has signalled
  sigR : Bool := false
  moveAt : Nat := 0                  -- clk of the last progress (R415)
  deriving DecidableEq, Repr

/-- Both fabric engines. Counter key: 512 × (36 × half + partition) + index; entry key: 8192 × (36 × half + partition) +
index. -/
structure Eng where
  cnt : FMap Nat := []
  ent : FMap (Option Nat) := []
  ops : List Op := []
  colls : List Coll := []
  groups : FMap (Option Group) := []
  nextTag : Nat := 0
  errA : Nat := 0                    -- FE_ERR (R394)
  errB : Nat := 0
  deriving DecidableEq, Repr

-- ---------------------------------------------------------------- crown (chapter 11)

/-- A claim-gated output stage (R418-R420). -/
structure Stage where
  floor : Nat := 0
  seenAt : Nat := 0                  -- clk of the last floor message
  lapsed : Bool := false
  rejects : Nat := 0
  deriving DecidableEq, Repr

/-- A claim record (R417); `none` in place of one whose CRC fails. -/
structure ClaimRec where
  claim : Nat := 0
  holder : Half := .a
  takeovers : Nat := 0
  grantRt : Nat := 0
  deriving DecidableEq, Repr

/-- A half's control complex and crown monitor (R423, R424, R430, R507). -/
structure Monitor where
  live : Bool := false               -- not failed under R423
  lastWrite : Nat := 0
  failedAt : Option Nat := none
  halted : Bool := true
  demoted : Bool := false
  cpFailed : Bool := false           -- the control domain has failed (R430, R515)
  seq1 : Nat := 0                    -- HB_SEQ of path 1
  seq2 : Nat := 0
  rx1 : Option Nat := none           -- clk of the last valid heartbeat received on path 1
  rx2 : Option Nat := none
  own : Nat := 0                     -- claim number last granted to this half, 0 for none
  heard : Nat := 0                   -- claim number in the last heartbeat received (R424)
  sil1 : Bool := false               -- path 1 silent toward this half
  sil2 : Bool := false
  standby : Nat := 2                 -- STANDBY it reports as a standby
  verified : Bool := false           -- last commit verified (R430)
  beatsFrom : Option Nat := none     -- clk since which its heartbeats have been sent again (R435)
  deriving DecidableEq, Repr

/-- LAST_VOTE (R441). Ballots: 0 NONE, 1 half A, 2 half B. -/
structure Vote where
  outcome : Nat := 0
  requester : Half := .a
  ballotA : Nat := 0
  ballotB : Nat := 0
  ballotC : Nat := 0
  result : Nat := 0
  claimAfter : Nat := 0
  rt : Nat := 0
  deriving DecidableEq, Repr

/-- Ballots latched for a tally (R427): clk and rack time of the latch. -/
structure Latch where
  a : Nat
  b : Nat
  c : Nat
  at_ : Nat
  rt : Nat
  deriving DecidableEq, Repr

/-- The crown (chapter 11). Stages: 0 VR path, 1 and 2 CXL enables A and B, 3 and 4 transit A and B, 5 flash path. -/
structure Crown where
  claim : Nat := 0
  holder : Half := .a
  stages : FMap Stage := []
  monA : Monitor := {}
  monB : Monitor := {}
  standby : Nat := 2                 -- STANDBY as the crown reports it
  supRx : Option Nat := none         -- clk of the last holder heartbeat at the supervisor
  supStandby : Nat := 2              -- STANDBY in the standby's last heartbeat at the supervisor
  req : Option Half := none          -- an open request for a vote
  reqAt : Nat := 0                   -- clk of the first INCONCLUSIVE outcome
  latch : Option Latch := none       -- an open vote: the ballots latched (R427)
  votedAt : Option Nat := none       -- clk of the last UNCHANGED outcome
  beatSince : Bool := false          -- a heartbeat has arrived since that vote
  tallyAt : Nat := 0                 -- clk of the last tally
  last : Vote := {}
  takeovers : Nat := 0               -- since the module was built (R417)
  takeover : Bool := false
  takeAt : Nat := 0
  restored : Bool := false
  safe : Bool := false
  supFail : Bool := false
  portA : Bool := false              -- CROWN_PORT of port A
  portB : Bool := false
  activating : Option Nat := none    -- clk at which the pause began
  lastTakeRt : Nat := 0
  ckptSeq : Nat := 0                 -- last committed snapshot
  ckptSlot : Nat := 0
  ckptAt : Nat := 0
  journal : Nat := 0                 -- records since the last commit
  resync : Bool := false
  resyncAt : Option Nat := none      -- clk of the last attempt
  tripped : Bool := false            -- rails removed; off until the input returns
  deriving DecidableEq, Repr

-- ---------------------------------------------------------------- power (chapter 12)

/-- Power input, caps and thermal limits (chapter 12). -/
structure Power where
  v52 : Bool := false                -- the supervisor is powered
  mv : Nat := 0
  marginal : Bool := false
  uvBrake : Bool := false
  goodAt : Option Nat := none        -- clk since which the input has been at or above 46 V
  rangeAt : Option Nat := none       -- clk since which the input has been within 46 V to 56 V
  lowRun : Nat := 0                  -- consecutive 10 µs averages below 40 V
  highRun : Nat := 0                 -- the same above 57 V
  thermalW : Nat := 2400
  tj : Nat := 0
  tm : Nat := 0
  hostCap : Nat := 0
  mgmtCap : Nat := 0                 -- last management cap in force, 0 if none
  lapsed : Bool := true
  lapseW : Nat := 1440               -- value of source 5
  leaseAt : Option Nat := none       -- end of the lease
  leaseMs : Nat := 10000
  trip : Bool := false               -- a thermal trip is in progress
  alertOff : Bool := false           -- shut down on THERM_ALERT_N
  countdown : Option Nat := none     -- end of the running shutdown countdown
  leftTicks : Nat := 0               -- ticks left at the last stop
  stoppedAt : Option Nat := none
  highAt : Option Nat := none        -- clk since which THERM_ALERT_N has been high
  shutdown : Option Nat := none      -- S of an orderly shutdown in progress
  rails : Bool := false
  off : Bool := false                -- rails removed by an orderly shutdown
  settleAt : Nat := 0                -- clk at which the effective cap has settled (R449)
  lowering : Option Nat := none      -- scheduled cap toward which the controller lowers
  excW : Nat := 500                  -- EXCURSION_W of the 100 µs interval in progress (R461)
  above : Nat := 0                   -- consecutive intervals above the effective cap
  hist : List Nat := []              -- last 1,000 interval averages, newest first
  clock : Nat := 1800                -- compute clock, MHz
  peak : Nat := 0                    -- of the window in progress
  sum : Nat := 0
  ints : Nat := 0
  peakW : Nat := 0                   -- of the last complete window
  avgW : Nat := 0
  winEnd : Nat := 0
  winMs : Nat := 1000                -- window length in force
  lastEff : Nat := 1440              -- effective cap and SOURCE last reported
  lastSrc : Nat := 5
  deriving DecidableEq, Repr

-- ---------------------------------------------------------------- ledger (chapter 13)

/-- An open request (R131, R472). -/
structure Req where
  ctx : Nat
  tag : Nat
  openRt : Nat
  pend : Nat := 0                    -- W
  units : Nat := 0
  energy : Nat := 0
  dev : Nat := 0
  held : Bool := false
  timeSet : Bool := false
  free : Bool := false
  methodChg : Bool := false
  deriving DecidableEq, Repr

/-- A pool with the residue account of a context (R472, R473). Context 0 is the house account. -/
structure Pool where
  p : Nat := 0
  q : Nat := 0
  pHeld : Bool := false              -- P holds energy of a held span (R478)
  resE : Nat := 0
  resQ : Nat := 0
  since : Nat := 0                   -- start of the residue account period
  held : Bool := false
  timeSet : Bool := false
  free : Bool := false
  methodChg : Bool := false
  deriving DecidableEq, Repr

/-- A ledger event (R130, R269): `order` is 0 for a host event and 1 + tile number for a tile event. -/
structure LedEvent where
  rt : Nat
  order : Nat
  half : Half := .a
  ctx : Nat
  kind : Nat                         -- 0 open, 1 close, 2 units of a tag, 3 uniform units, 4 close all of a context,
                                     -- 5 end of a context, 6 an open or close refused
  tag : Nat := 0
  units : Nat := 0
  cause : Nat := 0
  tq : Nat := 0                      -- time quality at the stamp (R46)
  old : Bool := false                -- stamped before the last rack-time load
  deriving DecidableEq, Repr

/-- A receipt (R477) as its 1,024-bit value, with whether LEDGER_READ has returned it. -/
structure Receipt where
  seq : Nat
  ctx : Nat
  bits : Nat
  read : Bool := false
  deriving DecidableEq, Repr

/-- A sheet (R481, R483). -/
structure Sheet where
  seq : Nat
  first : Nat
  count : Nat := 0
  openRt : Nat := 0
  closeRt : Nat := 0
  tq : Nat := 0
  full : Bool := false
  shut : Bool := false
  block : List Byte := []            -- the signed block, empty before the signature
  deriving DecidableEq, Repr

/-- A delivered activity report (R28). -/
structure Report where
  half : Half
  frame : Nat
  rows : List ActivityRow
  deriving DecidableEq, Repr

/-- The energy ledger (chapter 13). -/
structure Ledger where
  running : Bool := false
  epoch : Nat := 0
  cert : List Byte := []
  key : Nat := 0                     -- identity of the ledger signing key
  method : Nat := 1
  house : Nat := 1
  pendMethod : Option (Nat × Nat × Nat) := none  -- frame, METHOD_ID, HOUSE
  reqs : List Req := []
  pools : FMap (Option Pool) := []
  hostEv : List LedEvent := []
  tileEv : List LedEvent := []       -- stamped, not yet delivered
  events : List LedEvent := []       -- delivered, not yet applied
  reports : List Report := []
  lastA : FMap (List Nat × Nat) := []   -- last cumulative counts and OCC_TICKS by context, half A
  lastB : FMap (List Nat × Nat) := []
  spanE : Nat := 0                   -- measured energy of the held span
  spanFrom : Nat := 0                -- first frame of the span
  nextFrame : Nat := 0               -- next frame to reconcile
  spanAt : Nat := 0                  -- count at which the span began, or was last loaded
  spanT : Nat := 0                   -- ticks of the span before that load
  seq : Nat := 0                     -- receipt count within the epoch
  prevHash : BitVec 256 := 0
  ring : List Receipt := []          -- newest first
  sheet : Option Sheet := none
  sheets : List Sheet := []          -- closed and signed, newest first
  sheetSeq : Nat := 0
  lastSheet : Nat := 0               -- SHEET_SEQ of the last signed sheet
  k16 : Nat := 0
  input : Nat := 0                   -- nJ since the supervisor started
  boundary : Nat := 0                -- last account boundary handled (R476)
  lateA : Bool := false              -- half A's report is late (R469)
  lateB : Bool := false
  rebaseA : Bool := false            -- half A's next report only sets the reference counts (R469)
  rebaseB : Bool := false
  shut : Option Nat := none          -- S of an orderly shutdown not yet reconciled (R486)
  deriving DecidableEq, Repr

-- ---------------------------------------------------------------- start, flash, firmware (chapter 15)

/-- A dual-copy record (R530): each copy is none where its CRC fails, else GEN and value. -/
structure Dual (α : Type) where
  c0 : Option (Nat × α)
  c1 : Option (Nat × α)
  deriving DecidableEq, Repr

/-- The slot directory (R531). -/
structure SlotDir where
  ctrlSlot : Nat := 0
  tileSlot : Nat := 0
  staged : Nat := 0
  verA : Nat := 1
  verB : Nat := 0
  tileA : Nat := 1
  tileB : Nat := 0
  pendRt : Nat := 0
  deriving DecidableEq, Repr

/-- A defect-ledger entry (R542). -/
structure Defect where
  rt : Nat
  tq : Nat
  kind : Nat
  cause : Nat
  loc : Nat
  deriving DecidableEq, Repr

/-- The flash (R529). -/
structure Flash where
  claims : List (Option ClaimRec) := [some {}, some {}, some {}]
  epoch : Dual Nat := ⟨some (0, 0), none⟩
  dir : Dual SlotDir := ⟨some (0, {}), none⟩
  settings : Dual (FMap (List Byte)) := ⟨some (0, []), none⟩
  defects : Dual (List Defect) := ⟨some (0, []), none⟩
  factory : Dual (FMap (List Byte)) := ⟨some (0, []), none⟩
  slotA : List Byte := []
  slotB : List Byte := []
  staging : List Byte := []
  starterOk : Bool × Bool := (true, false)   -- the starter in slot A, B verifies (R555)
  svnMin : Nat := 0                          -- fuses (R555)
  deriving DecidableEq, Repr

/-- The supervisor's start sequencer and its working copies of the flash records (R532-R545). -/
structure Start where
  phase : Nat := 0                   -- PHASE of R540
  cause : Nat := 0
  unit : Nat := 0
  actResult : Nat := 0
  full : Bool := false               -- DEFECT_FULL
  factoryLost : Bool := false
  defectLost : Bool := false
  defaulted : Bool := false
  fallback : Bool := false
  readyRt : Nat := 0
  ready : Bool := false
  rails : Nat := 0                   -- rails in regulation, in order (R533)
  waves : Nat := 0                   -- bit k: wave k has finished
  standbyImg : Bool := false
  comps : List Nat := []             -- components loaded (R536)
  run : FMap (List Byte) := []       -- HASH of the running component by its ID (R553, R602)
  digestDone : Bool := false
  digValid : Bool := false           -- DIGEST_VALID sent in beacons (R368)
  firstTry : Option Half := none     -- half granted at this start (R535)
  grantAt : Nat := 0
  second : Bool := false
  dir : SlotDir := {}
  settings : FMap (List Byte) := []  -- recorded values (R546)
  factory : FMap (List Byte) := []
  defects : List Defect := []
  added : Nat := 0                   -- entries added since this start
  dirty : Bool := false              -- entries whose flash write failed (R543)
  dropped : List (Nat × Nat) := []   -- KIND and LOCATION removed by a factory packet since this start (R561)
  inReset : Bool := false            -- held in module reset by MOD_RESET_N (R527)
  resetAt : Option Nat := none       -- tick of a pending module reset
  arrived : Bool := false            -- waiting for AUX_3V3 in PHASE 1 (R585)
  beaconPrefix : Nat := 0            -- fabric-set prefix in force at the last frame start (R368)
  deriving DecidableEq, Repr

/-- A configuration function held stopped (R313). `holder`: 65536 + mailbox for a management mailbox, else the context. -/
structure Stopped where
  holder : Nat
  staged : FMap (List Byte) := []
  deriving DecidableEq, Repr

/-- Staged firmware and configuration held by the crown (R313, R548, R556-R560). -/
structure Fw where
  stopped : FMap (Option Stopped) := []
  staging : Option Nat := none       -- mailbox key of the FW_STAGE that runs
  ctrlVer : Nat := 0                 -- running control firmware
  tileVer : Nat := 0
  pending : Option Nat := none       -- schedule handle of the pending activation
  actFail : Bool := false            -- the activation has missed its liveness limit (R559)
  actSlot : Nat := 0                 -- slot of the control activation in progress (R558)
  deriving DecidableEq, Repr

-- ---------------------------------------------------------------- observation (chapter 16)

/-- A half's trace encoder (R563-R571). Lists hold cores 0-3. -/
structure Trace where
  capture : Bool := false
  ringMib : Nat := 64
  sizePend : Option Nat := none
  write : Nat := 0
  epoch : Nat := 0
  fifo : List Nat := []              -- records not yet written
  written : Nat := 0                 -- records written in interval `intv`
  intv : Nat := 0
  dropped : Nat := 0
  lost : List Bool := [false, false, false, false]
  bmap : List Nat := [0, 0, 0, 0]    -- pending branch outcomes
  bcnt : List Nat := [0, 0, 0, 0]
  sinceSync : List Nat := [0, 0, 0, 0]
  aper : Nat := 0                    -- TR_APER
  deriving DecidableEq, Repr

/-- A tensor tap (R577-R580), keyed by slot. -/
structure Tap where
  handle : Nat
  ctx : Nat
  part : Nat
  sym : Nat
  step : Nat
  used : Nat := 0
  launch : Nat := 0
  dropped : Bool := false
  failed : Bool := false
  taken : Bool := false
  gone : Bool := false               -- disarmed by a reset before it was taken (R580)
  deriving DecidableEq, Repr

-- ---------------------------------------------------------------- ports to the outside (chapter 17)

/-- A CXL port (R589-R592, R510). -/
structure Cxl where
  up : Bool := false
  width : Nat := 0
  gts : Nat := 0
  enabled : Bool := true             -- the claim-gated function enable
  committed : Bool := false          -- the HDM decoder
  deriving DecidableEq, Repr

/-- An undelivered platform event (R599). -/
structure PlEvent where
  ev : Nat
  rt : Nat
  detail : Nat
  tried : Bool := false
  deriving DecidableEq, Repr

/-- The management port (R593-R603). -/
structure Mgmt where
  dynAddr : Nat := 0
  eid : Nat := 0
  receiver : Option Nat := none
  events : List PlEvent := []        -- oldest first
  resp : List Byte := []             -- the last response: completion code, then its fields
  spdm : Nat := 0                    -- 0 none, 1 version, 2 capabilities, 3 algorithms negotiated
  update : Nat := 0                  -- component staged by a PLDM update, 0 none
  deriving DecidableEq, Repr

end Sys2Proof.Machine

namespace Sys2Proof.Machine

/-- The state of the block. `free` counts the free values taken so far (the model's own field). -/
structure State where
  pending : List Instr := []
  ident : Ident := {}
  pins : Pins := {}
  time : Time := {}
  sched : Sched := {}
  mbx : Mbx := {}
  work : Work := {}
  comp : Compute := {}
  mem : Mem := {}
  obs : Obs := {}
  fab : Fab := {}
  eng : Eng := {}
  crown : Crown := {}
  power : Power := {}
  led : Ledger := {}
  flash : Flash := {}
  start : Start := {}
  fw : Fw := {}
  trA : Trace := {}
  trB : Trace := {}
  taps : FMap (Option Tap) := []
  tapNext : Nat := 1
  cxlA : Cxl := {}
  cxlB : Cxl := {}
  mgmt : Mgmt := {}
  brRetrain : Bool := false
  free : Nat := 0
  deriving DecidableEq, Repr

/-- The machine before the 52 V input comes: the supervisor unpowered, the flash as built, nothing pending (R32, R48,
R453). -/
def State.reset : State := {}

end Sys2Proof.Machine
end

