-- ==== Sys2Proof/Machine/Store.lean ====
section
/-!
DEFINITION. Sparse maps, byte memories and bit fields: the operations every block uses on its storage.
Byte order is little-endian (R8), decided here once.
-/
namespace Sys2Proof.Machine

/-- Bits [hi:lo] of a number (R8). -/
def fld (w hi lo : Nat) : Nat := (w >>> lo) % 2 ^ (hi + 1 - lo)

/-- Bit `i` of a number. -/
def bitOf (w i : Nat) : Bool := w.testBit i

/-- 1 for true. -/
def b2n (b : Bool) : Nat := if b then 1 else 0

/-- The entry of a sparse map at a key; `d` where none is listed. -/
def FMap.get {α : Type} (d : α) : FMap α → Nat → α
  | [], _ => d
  | (j, v) :: r, k => if j = k then v else FMap.get d r k

/-- Insertion in key order without regard to the default. -/
def FMap.put {α : Type} : FMap α → Nat → α → FMap α
  | [], k, v => [(k, v)]
  | (j, w) :: r, k, v =>
    if k < j then (k, v) :: (j, w) :: r
    else if k = j then (k, v) :: r
    else (j, w) :: FMap.put r k v

/-- Removal of a key. -/
def FMap.del {α : Type} (m : FMap α) (k : Nat) : FMap α := m.filter (fun x => x.1 != k)

/-- The map with `v` at `k`; writing the default removes the entry, so the canonical form is kept. -/
def FMap.set {α : Type} [DecidableEq α] (d : α) (m : FMap α) (k : Nat) (v : α) : FMap α :=
  if v = d then FMap.del m k else FMap.put m k v

/-- The map with the entry at `k` changed by `f`. -/
def FMap.mod {α : Type} [DecidableEq α] (d : α) (m : FMap α) (k : Nat) (f : α → α) : FMap α :=
  FMap.set d m k (f (FMap.get d m k))

/-- The first key listed at or above which `n` … has no entry: the lowest free key from `lo` below `hi`. -/
def FMap.freeKey {α : Type} [DecidableEq α] (d : α) (m : FMap α) : Nat → Nat → Option Nat
  | _, 0 => none
  | lo, n + 1 => if FMap.get d m lo = d then some lo else FMap.freeKey d m (lo + 1) n

/-- Strictly ascending keys, and no entry equal to the default. -/
def FMap.ok {α : Type} [DecidableEq α] (d : α) : FMap α → Bool
  | [] => true
  | [(_, v)] => !(decide (v = d))
  | (j, v) :: (k, w) :: r => !(decide (v = d)) && decide (j < k) && FMap.ok d ((k, w) :: r)

/-- What a byte that nothing has written reads as (log entry 2). -/
def emptyByte : Byte := 0

/-- One byte of a memory. -/
def Memory.read (m : Memory) (a : Nat) : Byte := FMap.get emptyByte m a

/-- A memory with one byte written. -/
def Memory.write (m : Memory) (a : Nat) (v : Byte) : Memory := FMap.set emptyByte m a v

/-- The canonical form of a memory. -/
def Memory.wf (m : Memory) : Bool := FMap.ok emptyByte m

/-- `n` bytes from `a` upward. -/
def Memory.bytes (m : Memory) (a : Nat) : Nat → List Byte
  | 0 => []
  | n + 1 => Memory.read m a :: Memory.bytes m (a + 1) n

/-- A memory with consecutive bytes written from `a` upward. -/
def Memory.store (m : Memory) (a : Nat) : List Byte → Memory
  | [] => m
  | b :: r => Memory.store (Memory.write m a b) (a + 1) r

/-- A memory with `n` bytes from `a` reading as unwritten (zeroing, R86, R306). -/
def Memory.clear (m : Memory) (a n : Nat) : Memory := m.filter (fun c => c.1 < a || a + n ≤ c.1)

/-- Little-endian value of bytes (R8). -/
def leNat : List Byte → Nat
  | [] => 0
  | b :: r => b.toNat + 256 * leNat r

/-- The low `n` bytes of a number, little-endian. -/
def natLe : Nat → Nat → List Byte
  | 0, _ => []
  | n + 1, v => BitVec.ofNat 8 v :: natLe n (v / 256)

/-- Big-endian bytes of a number, used inside the named cryptographic standards only. -/
def natBe (n v : Nat) : List Byte := (natLe n v).reverse

/-- An `n`-byte little-endian value of a memory. -/
def Memory.num (m : Memory) (a n : Nat) : Nat := leNat (Memory.bytes m a n)

/-- `n` bytes of a list from an offset, zeros beyond its end. -/
def sliceB (l : List Byte) (off n : Nat) : List Byte :=
  let t := (l.drop off).take n
  t ++ List.replicate (n - t.length) 0

/-- An `n`-byte little-endian value inside a list of bytes. -/
def numAt (l : List Byte) (off n : Nat) : Nat := leNat (sliceB l off n)

/-- Element of a list of numbers, 0 beyond its end. -/
def nth (l : List Nat) (i : Nat) : Nat := l.getD i 0

/-- A list with one element changed. -/
def modNth {α : Type} (l : List α) (i : Nat) (f : α → α) : List α :=
  match l[i]? with
  | some x => l.set i (f x)
  | none => l

/-- Saturating addition in `w` bits. -/
def satAdd (w a b : Nat) : Nat := min (a + b) (2 ^ w - 1)

/-- The signed value of a `w`-bit number. -/
def sext (w v : Nat) : Int := if v < 2 ^ (w - 1) then (v : Int) else (v : Int) - (2 ^ w : Nat)

/-- `w`-bit image of an integer. -/
def wrapI (w : Nat) (i : Int) : Nat := (i % ((2 ^ w : Nat) : Int)).toNat

/-- Ceiling of a division. -/
def cdiv (a b : Nat) : Nat := (a + b - 1) / b

/-- The positions of the set bits of a mask below `n`. -/
def bitsOf (w n : Nat) : List Nat := (List.range n).filter (fun i => w.testBit i)

end Sys2Proof.Machine
end

