-- ==== Sys2Proof/Machine/Numeric.lean ====
section
/-!
DEFINITION. Number formats and arithmetic (R137-R156): exact values, their encodings, and rounding into a format. A finite
value is a sign, a magnitude and a power of two, so sums and products are formed exactly and rounded once.
-/
namespace Sys2Proof.Machine

/-- An exact value: NaN, an infinity, or (−1)^neg × m × 2^e. Zeros carry a sign (R143). -/
inductive Num where
  | nan
  | inf (neg : Bool)
  | fin (neg : Bool) (m : Nat) (e : Int)
  deriving DecidableEq, Repr

/-- How a format marks specials (R138): IEEE infinities and NaNs, the NaN of E4M3 only, or none. -/
inductive Specials where
  | ieee
  | e4m3
  | none
  deriving DecidableEq, Repr

/-- A floating-point element format (R137). -/
structure Fmt where
  eb : Nat
  mb : Nat
  bias : Nat
  sp : Specials
  deriving DecidableEq, Repr

def fp64 : Fmt := ⟨11, 52, 1023, .ieee⟩
def fp32 : Fmt := ⟨8, 23, 127, .ieee⟩
def bf16 : Fmt := ⟨8, 7, 127, .ieee⟩
def fp16 : Fmt := ⟨5, 10, 15, .ieee⟩
def e4m3 : Fmt := ⟨4, 3, 7, .e4m3⟩
def e5m2 : Fmt := ⟨5, 2, 15, .ieee⟩
def e3m2 : Fmt := ⟨3, 2, 3, .none⟩
def e2m3 : Fmt := ⟨2, 3, 1, .none⟩
def e2m1 : Fmt := ⟨2, 1, 1, .none⟩

/-- The element format of a format code (R103, R137); none for an integer element and an invalid code. -/
def fmtOf (code : Nat) : Option Fmt :=
  match code with
  | 0x1 => some fp64 | 0x2 => some fp32 | 0x3 => some bf16 | 0x4 => some fp16
  | 0x5 => some e4m3 | 0x6 => some e5m2 | 0x7 => some e4m3 | 0x8 => some e5m2
  | 0x9 => some e3m2 | 0xA => some e2m3 | 0xB => some e2m1 | 0xC => some e2m1
  | _ => none

/-- Bits of one element (R103, R137, R140). -/
def bitsOfFmt (code : Nat) : Nat :=
  match code with
  | 0x1 => 64 | 0x2 => 32 | 0x3 => 16 | 0x4 => 16 | 0x5 => 8 | 0x6 => 8 | 0x7 => 8 | 0x8 => 8 | 0x9 => 6 | 0xA => 6
  | 0xB => 4 | 0xC => 4 | 0xD => 8 | 0xE => 8 | 0xF => 32
  | _ => 0

/-- Formats with a block scale (R103). -/
def isMx (code : Nat) : Bool := 0x7 ≤ code && code ≤ 0xB || code = 0xD

/-- INT8 and INT32. -/
def isInt (code : Nat) : Bool := code = 0xE || code = 0xF

-- ---------------------------------------------------------------- encodings (R137-R140)

/-- Width of a format. -/
def Fmt.width (f : Fmt) : Nat := 1 + f.eb + f.mb

/-- The value that a code has (R137, R138). -/
def Fmt.decode (f : Fmt) (b : Nat) : Num :=
  let neg := bitOf b (f.eb + f.mb)
  let e := b / 2 ^ f.mb % 2 ^ f.eb
  let m := b % 2 ^ f.mb
  let special : Option Num := match f.sp with
    | .ieee => if e = 2 ^ f.eb - 1 then some (if m = 0 then .inf neg else .nan) else none
    | .e4m3 => if b % 2 ^ (f.eb + f.mb) = 0x7F then some .nan else none
    | .none => none
  match special with
  | some x => x
  | none =>
    if e = 0 then .fin neg m (1 - (f.bias : Int) - f.mb)
    else .fin neg (2 ^ f.mb + m) ((e : Int) - f.bias - f.mb)

/-- Magnitude code of the largest finite value. -/
def Fmt.maxCode (f : Fmt) : Nat :=
  match f.sp with
  | .ieee => (2 ^ f.eb - 1) * 2 ^ f.mb - 1
  | .e4m3 => 0x7E
  | .none => 2 ^ (f.eb + f.mb) - 1

/-- The canonical NaN (R142); formats without a NaN have none, and +0 stands in its place (R148). -/
def Fmt.nanCode (f : Fmt) : Nat :=
  match f.sp with
  | .ieee => (2 ^ f.eb - 1) * 2 ^ f.mb + 2 ^ (f.mb - 1)
  | .e4m3 => 0x7F
  | .none => 0

/-- A magnitude code with a sign. -/
def Fmt.signed (f : Fmt) (neg : Bool) (code : Nat) : Nat := code + (if neg then 2 ^ (f.eb + f.mb) else 0)

/-- The scale of an E8M0 byte as a power of two; none for the NaN scale (R139). -/
def scaleExp (b : Nat) : Option Int := if b = 0xFF then none else some ((b : Int) - 127)

-- ---------------------------------------------------------------- exact arithmetic (R142-R144)

/-- A signed integer times a power of two; a zero takes the sign given. -/
def Num.ofInt (zero : Bool) (i : Int) (e : Int) : Num :=
  if i = 0 then .fin zero 0 e else .fin (decide (i < 0)) i.natAbs e

/-- The signed magnitude. -/
def signedOf (neg : Bool) (m : Nat) : Int := if neg then -(m : Int) else m

/-- Exact sum (R143). -/
def Num.add : Num → Num → Num
  | .nan, _ => .nan
  | _, .nan => .nan
  | .inf a, .inf b => if a = b then .inf a else .nan
  | .inf a, .fin .. => .inf a
  | .fin .., .inf b => .inf b
  | .fin a m e, .fin b n g =>
    let k := min e g
    let x := signedOf a (m * 2 ^ (e - k).toNat)
    let y := signedOf b (n * 2 ^ (g - k).toNat)
    Num.ofInt (a && b) (x + y) k

/-- Exact product (R143). -/
def Num.mul : Num → Num → Num
  | .nan, _ => .nan
  | _, .nan => .nan
  | .inf a, .inf b => .inf (a != b)
  | .inf a, .fin b n _ => if n = 0 then .nan else .inf (a != b)
  | .fin a m _, .inf b => if m = 0 then .nan else .inf (a != b)
  | .fin a m e, .fin b n g => .fin (a != b) (m * n) (e + g)

/-- −x; a NaN stays a NaN (R163). -/
def Num.neg : Num → Num
  | .nan => .nan
  | .inf a => .inf (!a)
  | .fin a m e => .fin (!a) m e

/-- |x| (R163). -/
def Num.abs : Num → Num
  | .nan => .nan
  | .inf _ => .inf false
  | .fin _ m e => .fin false m e

/-- x times a power of two. -/
def Num.shift (k : Int) : Num → Num
  | .fin a m e => .fin a m (e + k)
  | x => x

/-- Order of numbers, −0 below +0 (R143): x < y. -/
def Num.lt : Num → Num → Bool
  | .nan, _ => false
  | _, .nan => false
  | .inf a, .inf b => a && !b
  | .inf a, .fin .. => a
  | .fin .., .inf b => !b
  | .fin a m e, .fin b n g =>
    if m = 0 ∧ n = 0 then a && !b
    else
      let k := min e g
      decide (signedOf a (m * 2 ^ (e - k).toNat) < signedOf b (n * 2 ^ (g - k).toNat))

/-- MAX (R163): the other operand when one is NaN. -/
def Num.max (x y : Num) : Num :=
  match x, y with
  | .nan, b => b
  | a, .nan => a
  | a, b => if Num.lt a b then b else a

/-- MIN (R163). -/
def Num.min (x y : Num) : Num :=
  match x, y with
  | .nan, b => b
  | a, .nan => a
  | a, b => if Num.lt b a then b else a

/-- ⌊log₂ m⌋ + e of a nonzero magnitude. -/
def topExp (m : Nat) (e : Int) : Int := (m.log2 : Int) + e

/-- A nonzero finite magnitude below 2^k. -/
def Num.below (k : Int) : Num → Bool
  | .fin _ m e => m != 0 && decide (topExp m e < k)
  | _ => false

/-- Flush of a nonzero magnitude below 2^−126 to a zero of the same sign (R154, R156, R169). -/
def Num.flush (x : Num) : Num :=
  if Num.below (-126) x then (match x with | .fin a _ e => .fin a 0 e | y => y) else x

-- ---------------------------------------------------------------- rounding (R146-R151)

/-- A rounded result: the code, and what it counts (R145). -/
structure Rnd where
  code : Nat
  nan : Bool := false
  sat : Bool := false
  deriving DecidableEq, Repr

/-- m × 2^−k rounded to an integer by RMODE; `r` is the draw of RMODE 2 (R146, R150). -/
def roundShift (mode r m k : Nat) : Nat :=
  if k = 0 then m
  else
    let q := m / 2 ^ k
    let x := m % 2 ^ k
    match mode with
    | 0 => if 2 ^ k < 2 * x ∨ (2 * x = 2 ^ k ∧ q % 2 = 1) then q + 1 else q
    | 1 => q
    | _ => if r < x * 65536 / 2 ^ k then q + 1 else q

/-- m × 2^e rounded to a multiple of 2^q, in units of 2^q. -/
def toUnits (mode r m : Nat) (e q : Int) : Nat :=
  if q ≤ e then m * 2 ^ (e - q).toNat else roundShift mode r m (q - e).toNat

/-- The largest finite value as magnitude and exponent. -/
def Fmt.largest (f : Fmt) : Nat × Int :=
  let c := f.maxCode
  (2 ^ f.mb + c % 2 ^ f.mb, ((c / 2 ^ f.mb : Nat) : Int) - f.bias - f.mb)

/-- m × 2^e ≥ n × 2^g, or > where `strict`. -/
def magGe (strict : Bool) (m : Nat) (e : Int) (n : Nat) (g : Int) : Bool :=
  let k := min e g
  let x := m * 2 ^ (e - k).toNat
  let y := n * 2 ^ (g - k).toNat
  if strict then decide (y < x) else decide (y ≤ x)

/-- A finite magnitude overflows (R147): under round-to-nearest-even at the largest value plus half a spacing, else
beyond the largest value. -/
def Fmt.over (f : Fmt) (mode m : Nat) (e : Int) : Bool :=
  let (n, g) := f.largest
  if mode = 0 then magGe false m e (2 * n + 1) (g - 1) else magGe true m e n g

/-- Magnitude code of a finite value that does not overflow. -/
def Fmt.encode (f : Fmt) (mode r m : Nat) (e : Int) : Nat :=
  if m = 0 then 0
  else
    let lo : Int := 1 - (f.bias : Int) - f.mb
    let q := max (topExp m e - f.mb) lo
    let n := toUnits mode r m e q
    -- A carry into the next power of two gives the next exponent with mantissa 0.
    if n < 2 ^ f.mb then n else ((q - lo).toNat) * 2 ^ f.mb + n

/-- What an overflow gives (R147). -/
def Fmt.overflow (f : Fmt) (sat neg : Bool) : Rnd :=
  match f.sp with
  | .ieee => if sat then ⟨f.signed neg f.maxCode, false, true⟩ else ⟨f.signed neg (f.maxCode + 1), false, false⟩
  | .e4m3 => if sat then ⟨f.signed neg f.maxCode, false, true⟩ else ⟨f.nanCode, true, false⟩
  | .none => ⟨f.signed neg f.maxCode, false, true⟩

/-- A value rounded into a format by RMODE and SAT (R146-R150). -/
def Fmt.round (f : Fmt) (mode : Nat) (sat : Bool) (r : Nat) : Num → Rnd
  | .nan => ⟨f.nanCode, true, false⟩
  | .inf neg =>
    match f.sp with
    | .ieee => if sat then ⟨f.signed neg f.maxCode, true, false⟩ else ⟨f.signed neg (f.maxCode + 1), false, false⟩
    | .e4m3 => if sat then ⟨f.signed neg f.maxCode, true, false⟩ else ⟨f.nanCode, true, false⟩
    | .none => ⟨f.signed neg f.maxCode, true, false⟩
  | .fin neg m e =>
    if f.over mode m e then (if mode = 1 then ⟨f.signed neg f.maxCode, false, true⟩ else f.overflow sat neg)
    else ⟨f.signed neg (f.encode mode r m e), false, false⟩

/-- Rounded to a format by round-to-nearest-even and read back: one operation in that compute format. -/
def Fmt.op (f : Fmt) (x : Num) : Num := f.decode (f.round 0 false 0 x).code

/-- A signed integer within `w` bits, saturated; whether it was (R149). -/
def satInt (w : Nat) (i : Int) : Int × Bool :=
  let hi : Int := 2 ^ (w - 1) - 1
  let lo : Int := -(2 ^ (w - 1) : Int)
  if hi < i then (hi, true) else if i < lo then (lo, true) else (i, false)

/-- A value rounded to an integer of `w` bits by RMODE, then saturated (R148, R149). -/
def roundInt (w mode r : Nat) : Num → Rnd
  | .nan => ⟨0, true, false⟩
  | .inf neg => ⟨if neg then 2 ^ (w - 1) else 2 ^ (w - 1) - 1, true, false⟩
  | .fin neg m e =>
    let (i, s) := satInt w (signedOf neg (toUnits mode r m e 0))
    ⟨wrapI w i, false, s⟩

/-- The value of an element code of a format without its block scale (R137, R140). MXINT8 elements are multiples of
2^−6. -/
def elemNum (code b : Nat) : Num :=
  match fmtOf code with
  | some f => f.decode b
  | none =>
    if code = 0xD then Num.ofInt false (sext 8 b) (-6)
    else Num.ofInt false (sext (bitsOfFmt code) b) 0

/-- A value converted to an element of a format that is not MX (R146-R149). -/
def convert (code mode : Nat) (sat : Bool) (r : Nat) (x : Num) : Rnd :=
  match fmtOf code with
  | some f => f.round mode sat r x
  | none => roundInt (bitsOfFmt code) mode r x

/-- Largest exponent of an MX element format (R155). -/
def emaxOf (code : Nat) : Int :=
  match code with
  | 0x7 => 8 | 0x8 => 15 | 0x9 => 4 | 0xA => 2 | 0xB => 2 | _ => 0

/-- An element of an MX block: always saturating; MXINT8 to −127 … 127 units of 2^−6 (R140). The exact value decides an
overflow, not the rounded one (R147): at 127.5 units under round-to-nearest-even, beyond 127 in the other modes. -/
def mxElem (code mode r : Nat) (x : Num) : Rnd :=
  match fmtOf code with
  | some f => f.round mode true r x
  | none => match x with
    | .fin neg m e =>
      let past := if mode = 0 then magGe false m e 255 (-7) else magGe true m e 127 (-6)
      if past then ⟨wrapI 8 (signedOf neg 127), false, true⟩
      else ⟨wrapI 8 (signedOf neg (toUnits mode r m e (-6))), false, false⟩
    | _ => ⟨0, true, false⟩

/-- One block converted to an MX format (R155): the scale byte and the elements. `draws` gives the draws of RMODE 2. -/
def mxBlock (code mode : Nat) (draws : Nat → Nat) (xs : List Num) : Rnd × List Rnd :=
  let bad := xs.any (fun x => match x with | .fin .. => false | _ => true)
  if bad then (⟨0xFF, true, false⟩, xs.map (fun _ => ⟨0, false, false⟩))
  else
    let top : Option Int := xs.foldl (fun a x => match x with
      | .fin _ m e => if m = 0 then a else some (match a with | some t => max t (topExp m e) | none => topExp m e)
      | _ => a) none
    let e : Int := match top with | none => 0 | some t => max (-127) (min 127 (t - emaxOf code))
    (⟨(e + 127).toNat, false, false⟩,
      (List.range xs.length).map (fun i => mxElem code mode (draws i) (Num.shift (-e) (xs.getD i .nan))))

end Sys2Proof.Machine
end

