-- ==== Sys2Proof/Config.lean ====
section
/-!
DEFINITION. What the manual leaves to the implementation, and the free values: constants without a body, so that no
proof can see what they are. A free value is applied to a site number and to `State.free`, a count of the values taken.
-/
namespace Sys2Proof.Config

/-- A free natural number: site, count. Every use reduces it to the width of the value it stands for. -/
opaque freeNat : Nat → Nat → Nat

/-- The FP32 image of f(t) of the nonlinear-function unit where R170 lists no result: FUNC code and FP32 image of t. The
manual states a bound (R169) and no value. -/
opaque nlf : Nat → Nat → Nat

/-- A double-double sum (R409): both operands as 128-bit images, and the image of the result where it keeps the bound. -/
opaque ddSum : Nat → Nat → Nat

/-- The 16-bit draw of a rounding generator (R152): seed, cluster, position, LAUNCH_ID, unit, draw number. The manual
does not state the algorithm. -/
opaque draw : Nat → Nat → Nat → Nat → Nat → Nat → Nat

/-- SM3 (R240, R480). The standard is named and not given by the manual. -/
opaque sm3 : List Byte → BitVec 256

/-- SM2 signature by a private key: key identity, message. -/
opaque sm2Sign : Nat → List Byte → BitVec 512

/-- SM2 verification: public key, message, signature. -/
opaque sm2Verify : BitVec 512 → List Byte → BitVec 512 → Bool

/-- Public part of a key held in the supervisor's engine. -/
opaque sm2Pub : Nat → BitVec 512

/-- The Akwimen root key in the supervisor's ROM (R555). -/
opaque rootKey : BitVec 512

/-- The X.509 chain of certificate slot 0 (R601). -/
opaque certChain : List Byte

/-- The starter that slot A holds when the module is built (R529). The manual does not give its bytes. -/
opaque builtStarter : List Byte

/-- The highest bundle minor version that QUERY_CAPS reports (R246), reduced to 16 bits where it is used. The manual does
not state it. -/
opaque recipeMinorMax : Nat

end Sys2Proof.Config
end

