-- ==== Sys2Proof/Machine/Ops.lean ====
section
/-!
DEFINITION. The operations that several blocks share: rack time, status windows and events, interrupts, platform events,
settings, contexts and partitions, translation and context memory.
-/
namespace Sys2Proof.Machine

-- ---------------------------------------------------------------- rack time

/-- The count of a half (R31). -/
def cnt (s : State) (h : Half) : Nat := match h with | .a => s.time.cntA | .b => s.time.cntB

/-- The count that control firmware reads: that of the crown's half (R71). -/
def now (s : State) : Nat := cnt s s.crown.holder

/-- `n` ticks pass: the three counters and the model's own count rise together (R42, R47). A tick that R50 adds or
withholds falls in the interval that reaches its moment. Without the 52 V input there is no count (R48). -/
def advance (n : Nat) (s : State) : State :=
  if !s.power.v52 then s
  else
    let t := s.time
    let (m, adj) : Nat × Option (Bool × Nat) := match t.adjust with
      | none => (n, none)
      | some (up, d) => if d ≤ t.clk + n ∧ 0 < n then (if up then n + 1 else n - 1, none) else (n, some (up, d))
    { s with time := { t with clk := t.clk + n, sup := t.sup + m, cntA := t.cntA + m, cntB := t.cntB + m,
                              adjust := adj } }

/-- One rack tick passes. -/
def tick (s : State) : State := advance 1 s

/-- Time passes up to a deadline; a deadline already reached lets none pass (log entry 4). -/
def waitUntil (d : Nat) (s : State) : State := advance (d - s.time.clk) s

/-- The ticks that pass until a count `c` first is at least `t`: one less or one more where R50 adds or withholds a tick on
the way. -/
def ticksTo (s : State) (c t : Nat) : Nat :=
  let n := t - c
  match s.time.adjust with
  | none => n
  | some (true, d) => if d < s.time.clk + n then n - 1 else n
  | some (false, d) => if d ≤ s.time.clk + n ∧ 0 < n then n + 1 else n

/-- Time passes until the supervisor's count is at least `t`. -/
def waitCount (t : Nat) (s : State) : State := advance (ticksTo s s.time.sup t) s

/-- Time passes until a half's count is at least `t`. -/
def waitHalf (h : Half) (t : Nat) (s : State) : State := advance (ticksTo s (cnt s h) t) s

/-- The rack frame of a count (R43). -/
def frameOf (t : Nat) : Nat := t / 100000

-- ---------------------------------------------------------------- halves

/-- The control complex and monitor of a half. -/
def mon (s : State) (h : Half) : Monitor := match h with | .a => s.crown.monA | .b => s.crown.monB

/-- The same, changed. -/
def modMon (h : Half) (f : Monitor → Monitor) (s : State) : State :=
  match h with
  | .a => { s with crown := { s.crown with monA := f s.crown.monA } }
  | .b => { s with crown := { s.crown with monB := f s.crown.monB } }

/-- CROWN_PORT of a port (R279). -/
def crownPort (s : State) (h : Half) : Bool := match h with | .a => s.crown.portA | .b => s.crown.portB

/-- The CXL port of a half. -/
def cxl (s : State) (h : Half) : Cxl := match h with | .a => s.cxlA | .b => s.cxlB

/-- The same, changed. -/
def modCxl (h : Half) (f : Cxl → Cxl) (s : State) : State :=
  match h with | .a => { s with cxlA := f s.cxlA } | .b => { s with cxlB := f s.cxlB }

/-- The trace encoder of a half. -/
def tr (s : State) (h : Half) : Trace := match h with | .a => s.trA | .b => s.trB

/-- The same, changed. -/
def modTr (h : Half) (f : Trace → Trace) (s : State) : State :=
  match h with | .a => { s with trA := f s.trA } | .b => { s with trB := f s.trB }

/-- Half of a cluster (R11). -/
def clHalf (c : Nat) : Half := if c < 18 then .a else .b

/-- Half of a port (R11): north, west and U0-U7 on half A. -/
def portHalf (p : Nat) : Half :=
  if p < 12 then .a else if p < 36 then .b else if p < 56 then .a else .b

/-- Half of a memory controller (R18). -/
def mcHalf (m : Nat) : Half := if m < 8 then .a else if m < 16 then .b else if m < 20 then .a else .b

-- ---------------------------------------------------------------- status windows (R488-R495)

/-- Block number of a memory controller (R488). -/
def mcBlk (m : Nat) : Nat := if m < 16 then 0x20 + m else 0x30 + (m - 16)

/-- The half whose count stamps a block's events; none for the supervisor's blocks and the bridge (R491). -/
def blkHalf (blk : Nat) : Option Half :=
  if blk < 2 then some (Half.ofNum blk)
  else if blk < 8 then none
  else if blk < 0x14 then some (Half.ofNum blk)
  else if 0x20 ≤ blk ∧ blk < 0x30 then some (mcHalf (blk - 0x20))
  else if 0x30 ≤ blk ∧ blk < 0x38 then some (mcHalf (blk - 0x20))
  else if 0x40 ≤ blk ∧ blk < 0x64 then some (clHalf (blk - 0x40))
  else if 0x80 ≤ blk ∧ blk < 0xC0 then some (portHalf (blk - 0x80))
  else none

/-- The block numbers of R488. -/
def isBlock (blk : Nat) : Bool :=
  blk < 0x14 && blk != 7 || 0x20 ≤ blk && blk < 0x38 || 0x40 ≤ blk && blk < 0x64 || 0x80 ≤ blk && blk < 0xC0

/-- The W1C bits of a block's STS (R222, R370, R440, R464, R487, R502-R510). -/
def w1cMask (blk : Nat) : BitVec 32 :=
  if blk < 2 then 0x7E#32
  else if blk = 2 then 0x3F00#32
  else if blk = 3 then 0x1FFC#32
  else if blk = 4 then 0xFE#32
  else if blk = 5 then 0xFC#32
  else if blk = 6 then 0x0E#32
  else if blk = 8 ∨ blk = 9 then 0x7E#32
  else if blk = 0xA ∨ blk = 0xB then 0xFB#32
  else if blk = 0xC ∨ blk = 0xD then 0x7F#32
  else if blk = 0x10 ∨ blk = 0x11 then 0x3#32
  else if blk = 0x12 ∨ blk = 0x13 then 0x6#32
  else if 0x20 ≤ blk ∧ blk < 0x38 then 0x7FF8#32
  else if 0x40 ≤ blk ∧ blk < 0x64 then 0x3FF#32
  else if 0x80 ≤ blk ∧ blk < 0xC0 then 0x3FFF#32
  else 0#32

/-- A unit that the variant lacks (R3, R490): links on the -S, LPDDR5X and lamination on the -L. -/
def absentBlk (s : State) (blk : Nat) : Bool :=
  match s.ident.variant with
  | .f => false
  | .l => 0x30 ≤ blk && blk < 0x38 || blk = 0xE || blk = 0xF
  | .s => 0x80 ≤ blk && blk < 0xC0

/-- A window as it stands before anything is written to it (R490). -/
def winInit (blk : Nat) : Win := { latchEn := w1cMask blk }

/-- The status window of a block. -/
def win (s : State) (blk : Nat) : Win := FMap.get (winInit blk) s.obs.win blk

/-- The same, written. -/
def setWin (blk : Nat) (w : Win) (s : State) : State :=
  { s with obs := { s.obs with win := FMap.set (winInit blk) s.obs.win blk w } }

/-- A counter (R572). -/
def ctr (s : State) (blk i : Nat) : Nat := FMap.get 0 s.obs.ctr (2048 * blk + i)

/-- A counter, written. -/
def setCtr (blk i v : Nat) (s : State) : State :=
  { s with obs := { s.obs with ctr := FMap.set 0 s.obs.ctr (2048 * blk + i) v } }

/-- A 64-bit counter, raised. -/
def count (blk i n : Nat) (s : State) : State := setCtr blk i ((ctr s blk i + n) % 2 ^ 64) s

/-- A 32-bit saturating counter, raised. -/
def countSat (blk i n : Nat) (s : State) : State := setCtr blk i (satAdd 32 (ctr s blk i) n) s

/-- A block is pending while an enabled W1C bit is 1 (R495). -/
def winPending (w : Win) : Bool := w.sts &&& w.en != 0

/-- A dword of a port's MSI-X table (R275). Of an entry's four, the last is the vector control, whose mask bit 0 is 1 at
reset (PRESUMED, log entry 96). -/
def msixDword (s : State) (h : Half) (i : Nat) : Nat :=
  FMap.get (if i % 4 = 3 then 1 else 0) s.mbx.msixTab (1024 * h.num + i)

/-- A vector of a port is masked. -/
def msixMasked (s : State) (h : Half) (v : Nat) : Bool := bitOf (msixDword s h (4 * v + 3)) 0

/-- A vector is raised on a port's function: its message, or its pending bit while it is masked (R275, R281). -/
def raiseVec (h : Half) (v : Nat) (s : State) : State :=
  if msixMasked s h v then
    { s with mbx := { s.mbx with msixPend := FMap.set false s.mbx.msixPend (256 * h.num + v % 256) true } }
  else { s with mbx := { s.mbx with msixOut := (h, v) :: s.mbx.msixOut } }

/-- A vector raised for a port, on the crown's port if that has moved, or held while no port has CROWN_PORT 1 (R281).
Vector 0 raises nothing. -/
def msix (h : Half) (v : Nat) (s : State) : State :=
  if v = 0 then s
  else if crownPort s h then raiseVec h v s
  else if crownPort s h.other then raiseVec h.other v s
  else { s with mbx := { s.mbx with held := s.mbx.held ++ [v] } }

/-- Vector 0 on both ports: a change of MB_STATE[3:0] (R279). -/
def vector0 (s : State) : State := raiseVec .b 0 (raiseVec .a 0 s)

/-- A write to a dword of a port's MSI-X table: an entry unmasked while its pending bit is set sends its message
(R275). -/
def msixWrite (h : Half) (i v : Nat) (s : State) : State :=
  let s := { s with mbx := { s.mbx with
    msixTab := FMap.set (if i % 4 = 3 then 1 else 0) s.mbx.msixTab (1024 * h.num + i) v } }
  if i % 4 = 3 ∧ !bitOf v 0 ∧ FMap.get false s.mbx.msixPend (256 * h.num + i / 4) then
    raiseVec h (i / 4) { s with mbx := { s.mbx with
      msixPend := FMap.set false s.mbx.msixPend (256 * h.num + i / 4) false } }
  else s

/-- The count that stamps an event of a block (R491); `h` names the endpoint's half for the bridge. -/
def blkCount (s : State) (blk : Nat) (h : Half) : Nat :=
  match blkHalf blk with
  | some x => cnt s x
  | none => if blk = 6 then cnt s h else s.time.sup

/-- The window after hardware sets a W1C bit: R491 (latch or overflow). -/
def latchEvent (w : Win) (bit code info rt : Nat) (inj : Bool) : Win :=
  let w := { w with sts := w.sts ||| BitVec.ofNat 32 (2 ^ bit) }
  if !(w.latchEn.getLsbD bit) then w
  else if w.valid then { w with ovf := true, later := satAdd 31 w.later 1 }
  else { w with valid := true, injected := inj, code := code, bit := bit, rt := rt, info := info }

/-- Hardware sets W1C bit `bit` of a block: the counter of the bit (R573), the latch (R491) and the message (R495). -/
def eventG (inj : Bool) (h : Half) (blk bit code info : Nat) (s : State) : State :=
  let w := win s blk
  let w' := latchEvent w bit code info (blkCount s blk h) inj
  let s := setWin blk w' s
  let s := if 0x80 ≤ blk then s else countSat blk bit 1 s
  if !winPending w && winPending w' then msix (h) w'.vec s else s

/-- The common case: not injected. -/
def event (blk bit code info : Nat) (s : State) : State :=
  eventG false ((blkHalf blk).getD s.crown.holder) blk bit code info s

-- ---------------------------------------------------------------- injection (R499, R501)

/-- MODE of the injection that waits for this check. -/
def injMode (s : State) (blk chk : Nat) (hit : Nat → Bool) : Option Nat :=
  let w := win s blk
  if w.armed && decide (w.checker = chk) && hit w.target then some w.mode else none

/-- The check has occurred: ARMED clears. -/
def disarm (blk : Nat) (s : State) : State := setWin blk { win s blk with armed := false } s

/-- A retried check under an injection: FIRST fails once, BOTH fails its retry too (R499). -/
def injRetry (m : Option Nat) (r : Retry) : Retry :=
  match m with
  | none => r
  | some 0 => if r = .lasting then .lasting else .transient
  | some 1 => .lasting
  | some _ => r

-- ---------------------------------------------------------------- platform events (R599)

/-- A platform event joins the queue of 64; a pending CAP_CHANGE is replaced; the oldest is dropped and counted. -/
def plEvent (ev detail : Nat) (s : State) : State :=
  let q := if ev = 8 then s.mgmt.events.filter (fun e => e.ev != 8) else s.mgmt.events
  let e : PlEvent := { ev := ev, rt := s.time.sup, detail := detail }
  if q.length < 64 then { s with mgmt := { s.mgmt with events := q ++ [e] } }
  else countSat 5 40 1 { s with mgmt := { s.mgmt with events := q.drop 1 ++ [e] } }

-- ---------------------------------------------------------------- settings (R546, R547)

/-- Keys: function (0-5; 6 none; 7 factory), LEN, membership in the fabric set (R547). -/
def keyInfo (k : Nat) : Option (Nat × Nat × Bool) :=
  match k with
  | 0x0001 => some (0, 21056, true) | 0x0002 => some (0, 16, false) | 0x0003 => some (0, 16, false)
  | 0x0004 => some (0, 1, false)
  | 0x0101 => some (1, 2, false) | 0x0102 => some (1, 4, false) | 0x0103 => some (1, 2, false)
  | 0x0104 => some (1, 2, false) | 0x0105 => some (1, 4, false)
  | 0x0201 => some (2, 1, false) | 0x0202 => some (2, 16, false) | 0x0203 => some (2, 1, false)
  | 0x0301 => some (3, 8, false) | 0x0302 => some (3, 4, false) | 0x0303 => some (3, 4, false)
  | 0x0401 => some (4, 2, true) | 0x0402 => some (4, 1, true)
  | 0x0501 => some (5, 4, false)
  | 0x0801 => some (6, 1, true) | 0x0802 => some (6, 64, true) | 0x0803 => some (6, 1, false)
  | 0xF001 => some (7, 64, false) | 0xF002 => some (7, 256, false) | 0xF003 => some (7, 4, false)
  | 0xF004 => some (7, 4, false) | 0xF005 => some (7, 2, false)
  | _ => none

/-- All keys in ascending order. -/
def allKeys : List Nat :=
  [0x0001, 0x0002, 0x0003, 0x0004, 0x0101, 0x0102, 0x0103, 0x0104, 0x0105, 0x0201, 0x0202, 0x0203, 0x0301, 0x0302,
   0x0303, 0x0401, 0x0402, 0x0501, 0x0801, 0x0802, 0x0803, 0xF001, 0xF002, 0xF003, 0xF004, 0xF005]

/-- The default value of a key, empty where it has none (R547). -/
def keyDefault (s : State) (k : Nat) : List Byte :=
  match k with
  | 0x0003 => natLe 2 256 ++ natLe 2 256 ++ natLe 2 256 ++ natLe 2 256 ++ natLe 2 384 ++ natLe 2 448 ++ natLe 2 32
      ++ natLe 2 160
  | 0x0004 => [1]
  | 0x0101 => natLe 2 900 | 0x0102 => natLe 4 10000 | 0x0103 => natLe 2 1440 | 0x0104 => natLe 2 500
  | 0x0105 => natLe 4 1000
  | 0x0201 => [0]
  | 0x0202 => natLe 2 640 ++ natLe 2 640 ++ natLe 2 640 ++ natLe 2 640 ++ natLe 2 640 ++ natLe 2 512 ++ natLe 2 256
      ++ natLe 2 128
  | 0x0203 => natLe 1 (if s.ident.variant = .l then 16 else 64)
  | 0x0301 => natLe 8 0 | 0x0302 => natLe 4 2000 | 0x0303 => natLe 4 500
  | 0x0401 => natLe 2 1 | 0x0402 => [1]
  | 0x0501 => natLe 4 64
  | 0x0801 => [0] | 0x0803 => [0]
  | _ => []

/-- The recorded value of a key, else its default (R546). Factory keys stand in the factory records. -/
def settingB (s : State) (k : Nat) : List Byte :=
  let v := if 0xF000 ≤ k then FMap.get [] s.start.factory k else FMap.get [] s.start.settings k
  if v = [] then keyDefault s k else v

/-- The same as a number. -/
def setting (s : State) (k : Nat) : Nat := leNat (settingB s k)

/-- A record: KEY, LEN, VALUE padded to a multiple of 4 (R312). -/
def recBytes (k : Nat) (v : List Byte) : List Byte :=
  natLe 2 k ++ natLe 2 v.length ++ v ++ List.replicate ((4 - v.length % 4) % 4) 0

/-- The canonical serialisation over the keys that `p` selects (R549). -/
def serial (s : State) (p : Nat → Bool) : List Byte :=
  natLe 4 0x44534B41 ++ natLe 2 1 ++ [0xB1, 0] ++
    ((allKeys.filter p).flatMap (fun k => let v := settingB s k; if v = [] then [] else recBytes k v))

/-- The settings digest (R549). -/
def digest (s : State) : BitVec 256 := Config.sm3 (serial s (fun _ => true))

/-- The fabric-set digest (R549). -/
def fabDigest (s : State) : BitVec 256 :=
  Config.sm3 (serial s (fun k => match keyInfo k with | some (_, _, f) => f | none => false))

/-- An SM3 value as its 32 bytes, first byte first. -/
def hashBytes (d : BitVec 256) : List Byte := natBe 32 d.toNat

/-- Bytes 0-7 of a digest, read little-endian (R549). -/
def prefixOf (d : BitVec 256) : Nat := leNat ((hashBytes d).take 8)

/-- The method in force (R471, R541): OCCUPANCY where the factory records are lost. -/
def methodNow (s : State) : Nat := if s.start.factoryLost then 2 else s.led.method

-- ---------------------------------------------------------------- power inputs (R447, R448)

/-- The brake input (R455). -/
def braked (s : State) : Bool :=
  !s.pins.pwrBrakeN || s.power.uvBrake || !s.pins.thermAlertN || s.power.countdown.isSome || s.power.trip
    || s.power.shutdown.isSome || s.crown.safe

/-- The present inputs in the order in which equal values name SOURCE: 4, 3, 1 or 5, 2, 0 (R448). -/
def capInputs (s : State) : List (Nat × Nat) :=
  (if braked s then [(4, setting s 0x0101)] else []) ++
  (if s.power.thermalW < 2400 then [(3, s.power.thermalW)] else []) ++
  (if s.power.lapsed then [(5, s.power.lapseW)] else if s.power.mgmtCap = 0 then [] else [(1, s.power.mgmtCap)]) ++
  (if s.power.hostCap = 0 then [] else [(2, s.power.hostCap)]) ++ [(0, 2400)]

/-- SOURCE and value of the lowest of a list of inputs; the first of equals. A list of inputs ends with 0. -/
def lowest : List (Nat × Nat) → Nat × Nat
  | [] => (0, 2400)
  | [x] => x
  | x :: y :: r => let m := lowest (y :: r); if x.2 ≤ m.2 then x else m

/-- The inputs with values below 650 W raised (R448). -/
def raised (l : List (Nat × Nat)) : List (Nat × Nat) := l.map (fun x => (x.1, max 650 x.2))

/-- The effective cap (R448). -/
def effective (s : State) : Nat := (lowest (raised (capInputs s))).2

/-- SOURCE of the effective cap (R448); 0 when no input lies below 2,400 W. -/
def source (s : State) : Nat := let m := lowest (raised (capInputs s)); if 2400 ≤ m.2 then 0 else m.1

/-- R448 raised some value below 650 W. -/
def capRaised (s : State) : Bool := (capInputs s).any (fun x => x.2 < 650)

/-- After a change of an input: CAP_CHANGE, CAP_UNREACHABLE and the platform event (R448, R464, R599). A raise has settled
at once, a brake 20 µs later, another lowering 200 µs later (R449). -/
def capUpdate (s : State) : State :=
  let e := effective s; let c := source s
  let s := if capRaised s then event 3 5 0 0 s else s
  if e = s.power.lastEff ∧ c = s.power.lastSrc then s
  else
    let d := if s.power.lastEff < e then 0 else if c = 4 then 2000 else 20000
    let s := { s with power := { s.power with lastEff := e, lastSrc := c, above := 0, hist := [],
                                              settleAt := s.time.clk + d } }
    plEvent 8 (e + c * 65536) (event 3 2 0 0 s)

/-- A brake cause has begun: BRAKE_EVENT where the input was not asserted before (R456). -/
def brakeStart (was : Bool) (s : State) : State :=
  if braked s && !was then event 3 8 0 0 s else s

-- ---------------------------------------------------------------- contexts, partitions, tiles

/-- A live context. -/
def ctx? (s : State) (i : Nat) : Option Ctx := FMap.get none s.work.ctxs i

/-- A context, written. -/
def setCtx (i : Nat) (c : Option Ctx) (s : State) : State :=
  { s with work := { s.work with ctxs := FMap.set none s.work.ctxs i c } }

/-- A context, changed where it is live. -/
def modCtx (i : Nat) (f : Ctx → Ctx) (s : State) : State :=
  match ctx? s i with | some c => setCtx i (some (f c)) s | none => s

/-- A partition. -/
def part? (s : State) (i : Nat) : Option Part := FMap.get none s.work.parts i

/-- A partition, written. -/
def setPart (i : Nat) (p : Option Part) (s : State) : State :=
  { s with work := { s.work with parts := FMap.set none s.work.parts i p } }

/-- A partition, changed where it exists. -/
def modPart (i : Nat) (f : Part → Part) (s : State) : State :=
  match part? s i with | some p => setPart i (some (f p)) s | none => s

/-- The partitions of a context. -/
def ctxParts (s : State) (c : Nat) : List Nat :=
  (List.range 36).filter (fun i => match part? s i with | some p => p.ctx = c | none => false)

/-- The launch of a context that carries a LAUNCH_ID (R259). -/
def launch? (s : State) (c id : Nat) : Option Launch :=
  match ctx? s c with | some x => FMap.get none x.launches id | none => none

/-- A launch, changed. -/
def modLaunch (c id : Nat) (f : Launch → Launch) (s : State) : State :=
  modCtx c (fun x => match FMap.get none x.launches id with
    | some l => { x with launches := FMap.set none x.launches id (some (f l)) }
    | none => x) s

/-- The first launch not ended of a partition. -/
def headLaunch (s : State) (i : Nat) : Option Launch :=
  match part? s i with
  | some p => match p.queue with | id :: _ => launch? s p.ctx id | [] => none
  | none => none

/-- The state of a cluster. -/
def cluster (s : State) (c : Nat) : Cluster := FMap.get {} s.comp.clusters c

/-- A cluster, changed. -/
def modCluster (c : Nat) (f : Cluster → Cluster) (s : State) : State :=
  { s with comp := { s.comp with clusters := FMap.mod {} s.comp.clusters c f } }

/-- The state of a tile, by its number 64 c + n. -/
def tile (s : State) (t : Nat) : Tile := FMap.get {} s.comp.tiles t

/-- A tile, changed. -/
def modTile (t : Nat) (f : Tile → Tile) (s : State) : State :=
  { s with comp := { s.comp with tiles := FMap.mod {} s.comp.tiles t f } }

/-- Position `n` is absent (R76). -/
def absentPos (s : State) (c n : Nat) : Bool :=
  let x := cluster s c; x.badStore || decide (x.phys.length ≤ n) || x.retired.contains n

/-- g, the number of exposed positions (R76). -/
def goodOf (s : State) (c : Nat) : Nat := ((List.range 64).filter (fun n => !absentPos s c n)).length

/-- ABSENT_MAP (R503). -/
def absentMap (s : State) (c : Nat) : Nat :=
  (List.range 64).foldl (fun m n => if absentPos s c n then m + 2 ^ n else m) 0

/-- The partition of a cluster and its context. -/
def clCtx (s : State) (c : Nat) : Option (Nat × Nat) :=
  match (cluster s c).part with
  | some p => (part? s p).map (fun x => (p, x.ctx))
  | none => none

/-- A free value of a site. -/
def freshNat (site : Nat) (s : State) : Nat := Config.freeNat site s.free

/-- The same taken: the count of free values rises. -/
def takeFree (s : State) : State := { s with free := s.free + 1 }

-- ---------------------------------------------------------------- outcome

/-- The command's next state. -/
abbrev Out := Host.Outcome State Fault Refusal

/-- The named state change where a condition holds, else no change: a row whose condition does not hold finds nothing to
do (log entry 3). -/
def onlyIf (p : Bool) (f : State → State) (s : State) : State := if p then f s else s

end Sys2Proof.Machine
end

