-- ==== Sys2Proof/Machine/Access.lean ====
section
/-!
DEFINITION. Access to memory: where a line lands (R196-R198), what the controllers make of its reads and writes (R216-R222), the
requests at their arbiters (R224, R225), page tables and translation caches (R201-R206), and the line accesses of every agent.
-/
namespace Sys2Proof.Machine

-- ---------------------------------------------------------------- flash records (R530, R543-R545)

/-- The read check of `n` flash bytes from an address: an injection that waits for it acts on this read, and in mode BOTH on its
repetition (R500, R513). -/
def flashCheck (lo n : Nat) (s : State) : Bool × State :=
  match injMode s 5 0 (fun t => decide (lo ≤ t ∧ t < lo + n)) with
  | none => (true, s)
  | some m =>
    (m != 1, eventG true s.crown.holder 5 (if m = 1 then 6 else 5) 0 0 (disarm 5 s))

/-- A flash write as its outcome leaves it: a lasting failure, or an absent 3.3 V standby, sets FLASH_WRITE_FAIL
(R33, R530). What has been written is read back. -/
def flashImage (lo n : Nat) (r : Retry) (s : State) : Bool × State :=
  if r = .lasting ∨ !s.pins.aux3v3 then (false, event 5 7 0 0 s)
  else
    let (ok, s) := flashCheck lo n s
    if ok then (true, s) else (false, event 5 7 0 0 s)

/-- The copy that a write replaces: the one whose CRC fails, else the one with the lower GEN (R530). -/
def Dual.next {α : Type} (d : Dual α) : Nat :=
  match d.c0, d.c1 with
  | none, _ => 0
  | _, none => 1
  | some (g, _), some (h, _) => if g < h then 0 else 1

/-- A copy of a dual-copy record written, of `n` bytes each from an address. A read-back that fails makes the writer write the
copy once more (R530). -/
def flashTry {α : Type} (d : Dual α) (lo n : Nat) (r : Retry) (s : State) : Bool × State :=
  if r = .lasting ∨ !s.pins.aux3v3 then (false, event 5 7 0 0 s) else (true, (flashCheck (lo + n * d.next) n s).2)

/-- GEN of a copy. -/
def genOf {α : Type} : Option (Nat × α) → Nat
  | some (g, _) => g
  | none => 0

/-- The copy that a write replaces takes the value with GEN + 1; the other copy stays (R530). -/
def Dual.write {α : Type} (d : Dual α) (v : α) : Dual α :=
  match d.c0, d.c1 with
  | none, c1 => ⟨some (genOf c1 + 1, v), c1⟩
  | c0, none => ⟨c0, some (genOf c0 + 1, v)⟩
  | some (g, a), some (h, b) => if g < h then ⟨some (h + 1, v), some (h, b)⟩ else ⟨some (g, a), some (g + 1, v)⟩

/-- A failed write leaves the copy it wrote without a valid CRC (R530). -/
def Dual.spoil {α : Type} (d : Dual α) : Dual α :=
  match d.c0, d.c1 with
  | none, c1 => ⟨none, c1⟩
  | c0, none => ⟨c0, none⟩
  | some (g, a), some (h, b) => if g < h then ⟨none, some (h, b)⟩ else ⟨some (g, a), none⟩

/-- Both copies after a write of `v` that went as `ok` says. The flash is not accessed while the 3.3 V standby is absent
(R33): the copies then stay as they are; a failed write otherwise spoils only the copy it wrote (R530). -/
def Dual.put {α : Type} (d : Dual α) (ok aux : Bool) (v : α) : Dual α :=
  if ok then d.write v else if aux then d.spoil else d

/-- The value a reader takes: the valid copy with the higher GEN (R530). -/
def Dual.read {α : Type} (d : Dual α) : Option α :=
  match d.c0, d.c1 with
  | none, none => none
  | some (_, a), none => some a
  | none, some (_, b) => some b
  | some (g, a), some (h, b) => if g < h then some b else some a

/-- The entries that a flash copy holds: those a factory packet removed are left out (R561). -/
def recordedDefects (s : State) : List Defect :=
  s.start.defects.filter (fun d => !s.start.dropped.contains (d.kind, d.loc))

/-- A defect is recorded once, applied at once and written to the flash (R543, R545). `cause` as R542. -/
def addDefect (kind cause loc : Nat) (r : Retry) (s : State) : State :=
  if (recordedDefects s).any (fun d => d.kind = kind && d.loc = loc) then s
  else
    let e : Defect := { rt := s.time.sup, tq := s.time.tq.code, kind := kind, cause := cause, loc := loc }
    let old := s.start.defects.filter (fun d => !(d.kind = kind && d.loc = loc))
    let s := { s with start := { s.start with defects := old ++ [e], added := s.start.added + 1,
                                              dropped := s.start.dropped.filter (· != (kind, loc)) } }
    let l := recordedDefects s
    if 32767 < l.length then { s with start := { s.start with full := true, dirty := true } }
    else
      let (ok, s) := flashTry s.flash.defects 0x300000 0x80000 r s
      { s with flash := { s.flash with defects := s.flash.defects.put ok s.pins.aux3v3 l },
               start := { s.start with dirty := !ok } }

-- ---------------------------------------------------------------- controllers

/-- A controller, changed. -/
def modMc (i : Nat) (f : Mc → Mc) (s : State) : State :=
  { s with mem := { s.mem with mcs := FMap.mod {} s.mem.mcs i f } }

/-- A controller. -/
def mcOf (s : State) (i : Nat) : Mc := FMap.get {} s.mem.mcs i

-- ---------------------------------------------------------------- placement (R196-R198)

/-- Exclusive OR of bit fields of a granule number. -/
def foldXor (g : Nat) (l : List (Nat × Nat)) : Nat := l.foldl (fun a x => Nat.xor a (fld g x.1 x.2)) 0

/-- The controller, pseudo-channel and position of an address (R198); pseudo-channel 0 for an LPDDR5X device. -/
def landing (s : State) (pa : Nat) : Option (Nat × Nat × Nat) :=
  if pa < 0x8C00000000 then
    if s.mem.perHalf then
      let h := if pa < 0x4600000000 then 0 else 1
      let g := (pa - h * 0x4600000000) / 1024
      let t := foldXor g [(7, 0), (15, 8), (23, 16), (28, 24)]
      some (8 * h + t % 8, t / 8, g / 256)
    else
      let g := pa / 1024
      let t := foldXor g [(8, 0), (17, 9), (26, 18), (29, 27)]
      some (t % 16, t / 16, g / 512)
  else if pa < 0x9000000000 then
    let h := if pa < 0x8E00000000 then 0 else 1
    let g := (pa - 0x8C00000000 - h * 0x200000000) / 1024
    let t := foldXor g [(7, 0), (15, 8), (22, 16)]
    some (8 * h + t % 8, t / 8, 1146880 + g / 256)
  else if 0x10000000000 ≤ pa ∧ pa < 0x18000000000 then
    if s.mem.perHalf then
      let h := if pa < 0x14000000000 then 0 else 1
      let g := (pa - 0x10000000000 - h * 0x4000000000) / 1024
      some (16 + 4 * h + foldXor g [(1, 0), (3, 2), (5, 4), (7, 6)], 0, g / 4)
    else
      let g := (pa - 0x10000000000) / 1024
      some (16 + foldXor g [(2, 0), (5, 3), (8, 6), (11, 9)], 0, g / 8)
  else none

/-- The address lies at this controller. -/
def atMc (s : State) (m pa : Nat) : Bool := decide ((landing s pa).map (·.1) = some m)

-- ---------------------------------------------------------------- outcomes (R216-R222)

/-- An outcome logged (R219, R609): the log holds 16. -/
def logError (m kind pa : Nat) (inj : Bool) (s : State) : State :=
  if 16 ≤ (mcOf s m).log.length then eventG inj (mcHalf m) (mcBlk m) 3 0 pa s
  else modMc m (fun x => { x with log := x.log ++ [{ rt := cnt s (mcHalf m), kind := kind, pa := pa / 64 * 64 }] }) s

/-- A lasting fault: firmware adds the frame to the defect ledger, except an injected one (R219, R501). -/
def badFrame (m cause pa : Nat) (inj : Bool) (s : State) : State :=
  if inj then s else addDefect (if m < 16 then 3 else 4) cause (pa / 0x200000) .clean s

/-- A line whose data stays uncorrectable: a later read fails as well (R220), until the line is written whole. -/
def markBad (pa : Nat) (inj : Bool) (s : State) : State :=
  if inj || s.mem.bad.contains (pa / 64) then s else { s with mem := { s.mem with bad := s.mem.bad ++ [pa / 64] } }

/-- A line written whole: its check bits are new. -/
def clearBad (pa : Nat) (s : State) : State := { s with mem := { s.mem with bad := s.mem.bad.filter (· ≠ pa / 64) } }

/-- A slot of the controller's own at the next burst boundary (R229): the memory clock that it occupies makes no decision. -/
def takeSlot (m : Mc) : Mc := let c := max m.clock m.pathFree; { m with clock := c + 1, pathFree := c + 1 }

/-- A read corrected by the controller, written back in the next free slot by a stack's controller (R216, R229); more than
10,000 in a rack-time hour set CE_STORM (R222). -/
def corrected (m pa : Nat) (inj : Bool) (s : State) : State :=
  let hour := cnt s (mcHalf m) / 360000000000
  let n := if (mcOf s m).ceHour = hour then (mcOf s m).ceCount + 1 else 1
  let s := modMc m (fun x => let x := { x with ceHour := hour, ceCount := n }; if m < 16 then takeSlot x else x)
    (eventG inj (mcHalf m) (mcBlk m) 7 0 pa s)
  if n = 10001 then eventG inj (mcHalf m) (mcBlk m) 13 0 pa s else s

/-- How a line read ends (R216, R217): a line marked bad fails its re-read too; an armed injection decides else. -/
def readEnd (s : State) (m pa : Nat) (ue : Retry) : Retry :=
  if s.mem.bad.contains (pa / 64) then .lasting else injRetry (injMode s (mcBlk m) 0 (fun t => t = pa / 64)) ue

/-- The outcome of a line read counted and logged (R216-R219): `lastBit`, `lastKind` and `cause` are those of a lasting one. An
LPDDR5X controller has no check bits of its own, so only an injection into its link checker is corrected there (R217). -/
def readOutcome (m pa : Nat) (ode ce : Bool) (ue : Retry) (lastBit lastKind cause : Nat) (s : State) : State :=
  let r := readEnd s m pa ue
  let inj := injMode s (mcBlk m) 0 (fun t => t = pa / 64)
  let s := if inj.isSome then disarm (mcBlk m) s else s
  let i := inj.isSome
  let ev (bit : Nat) (s : State) : State := eventG i (mcHalf m) (mcBlk m) bit 0 pa s
  match r with
  | .transient => logError m 1 pa i (ev 8 s)
  | .lasting => markBad pa i (badFrame m cause pa i (logError m lastKind pa i (ev lastBit s)))
  | .clean =>
    if inj = some 2 then corrected m pa true s
    else
      let s := if ode then ev 6 s else s
      if ce && decide (m < 16) then corrected m pa i s else s

/-- How a line write ends (R218). -/
def writeEnd (s : State) (m pa : Nat) (r : Retry) : Retry := injRetry (injMode s (mcBlk m) 1 (fun t => t = pa / 64)) r

/-- The outcome of a line write counted and logged (R218, R219). -/
def writeOutcome (m pa : Nat) (r : Retry) (s : State) : State :=
  let e := writeEnd s m pa r
  let inj := injMode s (mcBlk m) 1 (fun t => t = pa / 64)
  let s := if inj.isSome then disarm (mcBlk m) s else s
  let i := inj.isSome
  match e with
  | .clean => s
  | .transient => logError m 3 pa i (eventG i (mcHalf m) (mcBlk m) 10 0 pa s)
  | .lasting => badFrame m 4 pa i (logError m 4 pa i (eventG i (mcHalf m) (mcBlk m) 11 0 pa s))

-- ---------------------------------------------------------------- requests at the arbiters (R195, R224, R225)

/-- A line of a granule joins the requests of a port: the last burst takes it where it is of the same requester and granule
and holds fewer than 16 lines. -/
def joinBurst (who gran clk : Nat) : List Burst → List Burst
  | [] => [{ who := who, gran := gran, lines := 1, at_ := clk }]
  | [b] =>
    if b.who = who ∧ b.gran = gran ∧ b.lines < 16 then [{ b with lines := b.lines + 1 }]
    else [b, { who := who, gran := gran, lines := 1, at_ := clk }]
  | b :: r => b :: joinBurst who gran clk r

/-- A line request reaches a port of a controller. -/
def request (m port who pa : Nat) (s : State) : State :=
  modMc m (fun x => { x with ports := modNth x.ports port (joinBurst who (pa / 1024) x.clock) }) s

/-- Who accesses memory: a tile of a partition, on a cluster; the fabric engine of a half for a partition; the tier movers of a
half; the host path of a half, with its control complex. -/
inductive Agent where
  | tile (part cl : Nat)
  | engine (part : Nat) (half : Half)
  | mover (half : Half)
  | host (half : Half)
  deriving DecidableEq, Repr

/-- Number of the requester and of its translation cache: 0-35 the cluster MMUs; then, by half, the fabric engines 36, the tier
movers 38 and the host path 40 (R204). -/
def agentSite : Agent → Nat
  | .tile _ c => c
  | .engine _ h => 36 + h.num
  | .mover h => 38 + h.num
  | .host h => 40 + h.num

/-- The arbiter port of the requester's kind (R224). -/
def agentPort : Agent → Nat
  | .tile _ c => c % 18 / 4
  | .engine _ _ => 5
  | .mover _ => 6
  | .host _ => 7

/-- The half on which the requester stands (R195). -/
def agentHalf : Agent → Half
  | .tile _ c => clHalf c
  | .engine _ h => h
  | .mover h => h
  | .host h => h

/-- A line access of a requester at the controller that its address lands on, wherever the requester stands (R195): the request
at its port, the port traffic (R574), and the outcome. A masked write reads first (R194); `part` says so. -/
def memNote (ag : Agent) (wr part : Bool) (pa : Nat) (ode ce : Bool) (ue wf : Retry) (s : State) : State :=
  match landing s pa with
  | none => s
  | some (m, _, _) =>
    let s := request m (agentPort ag) (agentSite ag) pa s
    if !wr then readOutcome m pa ode ce ue 9 2 3 (count (mcBlk m) 56 64 s)
    else
      let s' := if part then readOutcome m pa ode ce ue 9 2 3 s else s
      if part ∧ readEnd s m pa ue = .lasting then s'
      else
        let bad := writeEnd s' m pa wf = .lasting
        let s' := writeOutcome m pa wf s'
        if bad then s' else count (mcBlk m) 57 64 s'

-- ---------------------------------------------------------------- arbiter windows and weights (R227, R230-R232)

/-- Windows that begin up to a clock, the first at clock 0: at each, CREDIT takes CREDIT + WEIGHT, held at 4,095; a port that
asked at every decision of the window that ends and won none counts in ARB_STARVE (R230, R234). -/
def refillTo (clock : Nat) (m : Mc) : Mc :=
  let k := clock / 4096 + 1 - m.window
  if k = 0 then m
  else
    let starved (i : Nat) : Bool := m.decided && m.asked.getD i false && !m.won.getD i false
    { m with window := clock / 4096 + 1, clock := max m.clock (clock / 4096 * 4096), decided := false,
             credit := (List.range 8).map (fun i => min 4095 (nth m.credit i + k * nth m.weight i)),
             starve := (List.range 8).map (fun i => satAdd 32 (nth m.starve i) (b2n (starved i))),
             asked := List.replicate 8 false, won := List.replicate 8 false }

/-- A weight write takes effect in the clock after the one it landed in: CREDIT is held to the new weight; a refill of the
clock it landed in has used the old one (R231, R232). -/
def weightLands (m : Mc) (w : Nat × Nat × Nat) : Mc :=
  let m := refillTo w.1 m
  { m with weight := modNth m.weight w.2.1 (fun _ => w.2.2), credit := modNth m.credit w.2.1 (fun c => min c w.2.2) }

/-- The arbiter at the start of a clock, before its decision: the weight writes that landed before it, and its window's refill. -/
def advanceTo (clock : Nat) (m : Mc) : Mc :=
  refillTo clock ((m.writes.filter (fun w => w.1 < clock)).foldl weightLands
    { m with writes := m.writes.filter (fun w => !decide (w.1 < clock)) })

/-- What its registers read: with every weight that has landed, and the refill of the present clock (R232). -/
def arbView (m : Mc) : Mc := refillTo m.clock (m.writes.foldl weightLands m)

-- ---------------------------------------------------------------- page tables (R199, R201, R202)

/-- First byte of a half's firmware working memory (R199). -/
def workBase (h : Half) : Nat := 0x8C00000000 + h.num * 0x200000000 + 0x80000000

/-- The mapping that covers a virtual address. -/
def mapAt (l : List Mapping) (va : Nat) : Option Mapping := l.find? (fun m => m.va ≤ va && va < m.va + m.len)

/-- The leaf entry of a page of a mapping (R202): ADDR, WINDOW, WRITE, READ, VALID. -/
def leafWord (m : Mapping) (page : Nat) : Nat :=
  (m.pa + (page - m.va)) / 4096 % 2 ^ 36 * 4096 + 16 * b2n m.window + 8 * b2n m.write + 4 * b2n m.read + 1

/-- Level-1 entry `i` as firmware writes it: a 1 GiB page, a level-2 table, or not in use. -/
def l1Word (c : Ctx) (i : Nat) : Nat :=
  match mapAt c.maps (2 ^ 30 * i) with
  | some m => if m.big then leafWord m (2 ^ 30 * i) else FMap.get 0 c.l2 i + 3
  | none =>
    if c.maps.any (fun m => !m.big && decide (m.va < 2 ^ 30 * (i + 1)) && decide (2 ^ 30 * i < m.va + m.len)) then
      FMap.get 0 c.l2 i + 3
    else 0

/-- Level-2 entry `j` under level-1 entry `i` as firmware writes it. -/
def l2Word (c : Ctx) (i j : Nat) : Nat :=
  match mapAt c.maps (2 ^ 30 * i + 2 ^ 21 * j) with
  | some m => if m.big then 0 else leafWord m (2 ^ 30 * i + 2 ^ 21 * j)
  | none => 0

/-- The 64 bits that firmware keeps at an address of its tables; elsewhere the bytes of memory. -/
def fwWord (s : State) (pa : Nat) : Nat :=
  (s.work.ctxs.findSome? (fun x => match x.2 with
    | none => none
    | some c =>
      if c.ptBase ≤ pa ∧ pa < c.ptBase + 0x200000 ∧ c.ptBase ≠ 0 then some (l1Word c ((pa - c.ptBase) / 8))
      else (c.l2.find? (fun y => y.2 ≤ pa && pa < y.2 + 4096)).map (fun y => l2Word c y.1 ((pa - y.2) / 8)))).getD
    (Memory.num s.mem.phys pa 8)

/-- The 64 bits that a walk reads at an address: firmware's, unless another write has changed them since. -/
def tableWord (s : State) (pa fw : Nat) : Nat := (FMap.get none s.mem.pte (pa / 8)).getD fw

/-- A reserved field of an entry is not 0 (R202). -/
def badFields (w : Nat) : Bool := fld w 63 48 != 0 || fld w 11 5 != 0

/-- The translation that a leaf entry gives. -/
def leafOf (cx va w : Nat) (big : Bool) : Xl :=
  { cx := cx, va := va, big := big, pa := fld w 47 12 * 4096, read := bitOf w 2, write := bitOf w 3, window := bitOf w 4 }

/-- A level-2 entry read in a walk (R203). -/
def walkL2 (cx page w : Nat) : Except Nat Xl :=
  if !bitOf w 0 then .error 1
  else if badFields w || bitOf w 1 || fld w 47 12 % 512 != 0 then .error 4
  else .ok (leafOf cx page w false)

/-- A read of a table line fails (R203, WALK_UE). -/
def tableFails (s : State) (env : MemEnv) (va pa : Nat) : Bool :=
  env.walk.any (fun a => a / 2 ^ 21 = va / 2 ^ 21) ||
    (match landing s pa with | some (m, _, _) => decide (readEnd s m pa .clean = .lasting) | none => false)

/-- A page-table walk of a context's virtual address (R201-R203): the addresses of the entries read, and the translation or
the kind of failure. -/
def walk (s : State) (cx : Nat) (env : MemEnv) (va : Nat) : List Nat × Except Nat Xl :=
  match ctx? s cx with
  | none => ([], .error 1)
  | some c =>
    let i := va / 2 ^ 30
    let j := va / 2 ^ 21 % 512
    let a := c.ptBase + 8 * i
    let w := tableWord s a (l1Word c i)
    if tableFails s env va a then ([a], .error 5)
    else if !bitOf w 0 then ([a], .error 1)
    else if badFields w then ([a], .error 4)
    else if bitOf w 1 then
      let t := fld w 47 12 * 4096
      let b := t + 8 * j
      if tableFails s env va b then ([a, b], .error 5)
      else
        ([a, b], walkL2 cx (2 ^ 30 * i + 2 ^ 21 * j) (tableWord s b (if t = FMap.get 0 c.l2 i then l2Word c i j else fwWord s b)))
    else if fld w 47 12 % 0x40000 ≠ 0 then ([a], .error 4)
    else ([a], .ok (leafOf cx (2 ^ 30 * i) w true))

-- ---------------------------------------------------------------- translation caches (R203-R205)

/-- Bytes of a page. -/
def Xl.size (e : Xl) : Nat := if e.big then 2 ^ 30 else 2 ^ 21

/-- The entry of a requester's cache that covers an address of a context. -/
def cached (s : State) (site cx va : Nat) : Option Xl :=
  (FMap.get [] s.mem.xl site).find? (fun e => e.cx = cx && decide (e.va ≤ va) && decide (va < e.va + e.size))

/-- Entries for pages of a size that a cache holds (R204). -/
def cacheRoom (site : Nat) (big : Bool) : Nat :=
  if site < 36 then (if big then 64 else 1024) else if site < 38 then (if big then 32 else 512) else (if big then 16 else 256)

/-- A translation enters a cache; a full one gives up its oldest entry of that page size (log 108). -/
def cachePut (site : Nat) (e : Xl) (l : List Xl) : List Xl :=
  (if cacheRoom site e.big ≤ (l.filter (fun x => x.big = e.big)).length then l.eraseP (fun x => x.big = e.big) else l) ++ [e]

/-- Entries of a context in a range leave every cache (R205). -/
def cacheDrop (cx va n : Nat) (s : State) : State :=
  { s with mem := { s.mem with xl := s.mem.xl.filterMap (fun x =>
      let l := x.2.filter (fun e => !(e.cx = cx && decide (e.va < va + n) && decide (va < e.va + e.size)))
      if l = [] then none else some (x.1, l)) } }

/-- A cluster's cache emptied (R518, R520). -/
def cacheClear (c : Nat) (s : State) : State := { s with mem := { s.mem with xl := FMap.del s.mem.xl c } }

/-- A translation used for an access: the physical address and WINDOW, or NO_READ, NO_WRITE (R203). -/
def permit (e : Xl) (va : Nat) (wr : Bool) : Except Nat (Nat × Bool) :=
  if !wr && !e.read then .error 2 else if wr && !e.write then .error 3 else .ok (e.pa + (va - e.va), e.window)

/-- Translation of a context virtual address for a requester: through its cache, else by a walk. -/
def xlate (s : State) (ag : Agent) (cx : Nat) (env : MemEnv) (wr : Bool) (va : Nat) : Except Nat (Nat × Bool) :=
  let v := va % 2 ^ 48
  match cached s (agentSite ag) cx v with
  | some e => permit e v wr
  | none => match (walk s cx env v).2 with
    | .error k => .error k
    | .ok e => permit e v wr

/-- What a translation leaves (R203, R204): a miss and its walk counted by a cluster, the table reads at their controllers,
the entry kept; the latest failure latched. -/
def xlateNote (ag : Agent) (cx : Nat) (env : MemEnv) (wr : Bool) (va : Nat) (s : State) : State :=
  let v := va % 2 ^ 48
  let site := agentSite ag
  let r := xlate s ag cx env wr va
  let s := match cached s site cx v with
    | some _ => s
    | none =>
      let (l, e) := walk s cx env v
      let bad := env.walk.any (fun a => a / 2 ^ 21 = v / 2 ^ 21)
      let s := if site < 36 then count (0x40 + site) 35 1 (count (0x40 + site) 34 1 s) else s
      let s := l.foldl (fun s a => memNote ag false false a false false (if bad then .lasting else .clean) .clean s) s
      match e with
      | .ok e => { s with mem := { s.mem with xl := FMap.mod [] s.mem.xl site (cachePut site e) } }
      | .error _ => s
  match r with
  | .error k => { s with mem := { s.mem with xlErr := FMap.set (0, 0) s.mem.xlErr site (k, v) } }
  | .ok _ => s

-- ---------------------------------------------------------------- line accesses (R39, R40, R84, R85, R118, R212)

/-- End of the interleaved HBM3E region (R196). -/
def hbmTop : Nat := 0x8C00000000

/-- A module physical address is backed (R39). A disabled tier is unbacked as on the -L. -/
def backed (s : State) (pa : Nat) : Bool :=
  pa < 0x9000000000 || 0x10000000000 ≤ pa && pa < 0x18000000000 && s.ident.variant != .l && !s.mem.tierOff
    || 0x20000000000 ≤ pa && pa < 0x20024000000

/-- The cluster store of the physical map that holds an address, with the offset in it (R39). -/
def csOf (pa : Nat) : Option (Nat × Nat) :=
  if 0x20000000000 ≤ pa ∧ pa < 0x20024000000 then
    some ((pa - 0x20000000000) / 0x1000000, (pa - 0x20000000000) % 0x1000000) else none

/-- An access to a cluster store by a context virtual address, held to the windows of that store whoever makes it, a tile of
the same cluster too (R84, R85, log 103). -/
def winAllows (s : State) (ag : Agent) (cx c off : Nat) (wr : Bool) : Bool :=
  let x := cluster s c
  let w := nth x.win (off / 0x200000)
  let own := match clCtx s c with | some (_, k) => k = cx | none => false
  let samePart := fun p => x.part = some p
  bitOf w 1 && (!wr || bitOf w 2) &&
    (match ag with
     | .tile p _ => samePart p
     | .engine p _ => samePart p && bitOf w 3
     | .mover _ => own
     | .host _ => own)

/-- First physical byte of the CXL.mem window's backing (R214). -/
def winBase (s : State) : Nat :=
  if s.ident.variant = .l || s.mem.tierOff then 0x8800000000 else 0x18000000000 - s.mem.windowGib * 2 ^ 30

/-- Status block of a cluster. -/
def clBlk (c : Nat) : Nat := 0x40 + c

/-- What MODE of R499 does to a store read. -/
def injected (m : Nat) : StoreRead := match m with | 0 => .transient | 1 => .lasting | _ => .corrected

/-- A line of the memories' answer names this address. -/
def namesLine (l : List Nat) (pa : Nat) : Bool := l.any (fun a => a / 64 = pa / 64)

/-- How a read of a line ends by the memories' answer. -/
def envRead (env : MemEnv) (pa : Nat) : Retry :=
  if namesLine env.ue pa then .lasting else if namesLine env.retry pa then .transient else .clean

/-- How a write of a line ends by the memories' answer. -/
def envWrite (env : MemEnv) (pa : Nat) : Retry :=
  if namesLine env.wf pa then .lasting else if namesLine env.wretry pa then .transient else .clean

/-- How a read of a line of a cluster store ends (R83): an armed injection decides, else the store. -/
def csEnd (s : State) (c off pa : Nat) (env : MemEnv) : StoreRead :=
  match injMode s (clBlk c) 0 (fun g => g = off / 64) with
  | some m => injected m
  | none => match envRead env pa with
    | .lasting => .lasting
    | .transient => .transient
    | .clean => if namesLine env.ce pa then .corrected else .clean

/-- The same in the status of the cluster that owns the store (R83, R503). -/
def csNote (c off pa : Nat) (env : MemEnv) (s : State) : State :=
  let r := csEnd s c off pa env
  let i := (injMode s (clBlk c) 0 (fun g => g = off / 64)).isSome
  let s := if i then disarm (clBlk c) s else s
  match r with
  | .clean => s
  | .corrected => eventG i (clHalf c) (clBlk c) 5 0 0 s
  | .transient => eventG i (clHalf c) (clBlk c) 6 0 0 s
  | .lasting => eventG i (clHalf c) (clBlk c) 7 0x11 0 s

/-- Why a line access failed: code of R135, virtual address, kind of R203. -/
structure Fail where
  code : Nat
  va : Nat
  kind : Nat := 0
  deriving DecidableEq, Repr

/-- External memory fails a line access: its read, which a masked write makes too (R194), or its write. -/
def memFails (s : State) (env : MemEnv) (wr part : Bool) (pa : Nat) : Bool :=
  match landing s pa with
  | none => false
  | some (m, _, _) =>
    ((!wr || part) && decide (readEnd s m pa (envRead env pa) = .lasting)) ||
      (wr && decide (writeEnd s m pa (envWrite env pa) = .lasting))

/-- The code of R135 with which a translated line access fails: window, backing, the memory's answer. -/
def lineFail (s : State) (ag : Agent) (cx : Nat) (env : MemEnv) (wr part : Bool) (pa : Nat) (w : Bool) : Option Nat :=
  match csOf pa with
  | some (c, off) =>
    if !winAllows s ag cx c off wr then some 0x10
    else if !wr && decide (csEnd s c off pa env = .lasting) then some 0x11
    else none
  | none =>
    if !backed s pa then some 7
    else if memFails s env wr part pa then some 8
    else if w && s.mem.snoopBad.contains ((pa - winBase s) / 64) then some 8
    else none

/-- The check of one line access of a context (R118, R212): translation, window, backing, the memory's answer. -/
def lineAt (s : State) (ag : Agent) (cx : Nat) (env : MemEnv) (wr : Bool) (va : Nat) (part : Bool := false) :
    Except Fail (Nat × Bool) :=
  match xlate s ag cx env wr va with
  | .error k => .error ⟨6, va, k⟩
  | .ok (pa, w) =>
    match lineFail s ag cx env wr part pa w with
    | some c => .error ⟨c, va, 0⟩
    | none => .ok (pa, w)

/-- A piece of a line is written under a mask that splits an 8-byte word (R194). -/
def splitsWord (va n : Nat) : Bool := va % 8 != 0 || n % 8 != 0

/-- What one line access of a context leaves, whether it fails or not: translation, then the request and the outcome at the
controller, or the read's outcome in the cluster store (R83, R204, R216-R224). -/
def lineNote (ag : Agent) (cx : Nat) (env : MemEnv) (wr : Bool) (va n : Nat) (s : State) : State :=
  let part := splitsWord va n
  let s' := xlateNote ag cx env wr va s
  match xlate s ag cx env wr va with
  | .error _ => s'
  | .ok (pa, _) =>
    match csOf pa with
    | some (c, off) => if wr || !winAllows s ag cx c off wr then s' else csNote c off pa env s'
    | none =>
      if !backed s pa then s'
      else
        let s' := memNote ag wr part pa (namesLine env.ode pa) (namesLine env.ce pa) (envRead env pa) (envWrite env pa) s'
        if wr && n = 64 && !memFails s env wr part pa then clearBad pa s' else s'

/-- The pieces of a range that lie in one 64-byte line each (R194). -/
def pieces : Nat → Nat → Nat → List (Nat × Nat)
  | 0, _, _ => []
  | f + 1, va, n =>
    if n = 0 then [] else
      let k := min n (64 - va % 64)
      (va, k) :: pieces f (va + k) (n - k)

/-- All pieces of a range. -/
def linesOf (va n : Nat) : List (Nat × Nat) := pieces (n / 64 + 2) va n

/-- Reads line by line up to the first failing line: the bytes read and the failure. -/
def readLines (s : State) (ag : Agent) (cx : Nat) (env : MemEnv) : List (Nat × Nat) → List Byte × Option Fail
  | [] => ([], none)
  | (va, n) :: r =>
    match lineAt s ag cx env false va with
    | .error e => ([], some e)
    | .ok (pa, _) => let (l, e) := readLines s ag cx env r; (Memory.bytes s.mem.phys pa n ++ l, e)

/-- What `n` bytes of context memory read as, and the failure. -/
def readVa (s : State) (ag : Agent) (cx : Nat) (env : MemEnv) (va n : Nat) : List Byte × Option Fail :=
  readLines s ag cx env (linesOf va n)

/-- What the lines of a read leave, up to the first that fails. -/
def readsNote (ag : Agent) (cx : Nat) (env : MemEnv) : List (Nat × Nat) → State → State
  | [], s => s
  | (va, n) :: r, s =>
    let s' := lineNote ag cx env false va n s
    match lineAt s ag cx env false va with
    | .error _ => s'
    | .ok _ => readsNote ag cx env r s'

/-- The state after a read of `n` bytes of context memory. -/
def readNote (ag : Agent) (cx : Nat) (env : MemEnv) (va n : Nat) (s : State) : State := readsNote ag cx env (linesOf va n) s

/-- The physical memory, written. -/
def storePhys (pa : Nat) (l : List Byte) (s : State) : State :=
  { s with mem := { s.mem with phys := Memory.store s.mem.phys pa l } }

/-- Writes line by line up to the first failing line: the state, the bytes written and the failure. -/
def writeLines (ag : Agent) (cx : Nat) (env : MemEnv) : List (Nat × Nat) → List Byte → State → State × Nat × Option Fail
  | [], _, s => (s, 0, none)
  | (va, n) :: r, l, s =>
    let s' := lineNote ag cx env true va n s
    match lineAt s ag cx env true va (splitsWord va n) with
    | .error e => (s', 0, some e)
    | .ok (pa, _) =>
      let (s', k, e) := writeLines ag cx env r (l.drop n) (storePhys pa (l.take n) s')
      (s', n + k, e)

/-- Writes bytes to context memory. -/
def writeVa (ag : Agent) (cx : Nat) (env : MemEnv) (va : Nat) (l : List Byte) (s : State) : State × Nat × Option Fail :=
  writeLines ag cx env (linesOf va l.length) l s

/-- Window lines that an access of a context reaches and that the snoop filter marks (R215). A line whose snoop timed out is
not snooped again: the access that waits for it fails (R222). -/
def snoopLines (s : State) (ag : Agent) (cx : Nat) (wr : Bool) (va n : Nat) : List Nat :=
  (linesOf va n).filterMap (fun p =>
    match xlate s ag cx {} wr p.1 with
    | .ok (pa, true) => let k := (pa - winBase s) / 64; if s.mem.filter.contains k && !s.mem.snoopBad.contains k then some k else none
    | _ => none)

/-- Back-invalidate snoops issued for lines; the access proceeds when the host responds (R215). -/
def issueSnoops (l : List Nat) (s : State) : State :=
  { s with mem := { s.mem with snoops := s.mem.snoops ++ l.filter (fun k => !s.mem.snoops.contains k) } }

/-- The half whose memory or cluster store holds an address. -/
def homeOf (s : State) (pa : Nat) : Option Half :=
  match csOf pa with
  | some (c, _) => some (clHalf c)
  | none => (landing s pa).map (fun x => mcHalf x.1)

/-- An access crosses the die-to-die bridge while it retrains: it is held until the retrain ends (R24, R195). -/
def bridgeHolds (s : State) (ag : Agent) (cx : Nat) (wr : Bool) (va n : Nat) : Bool :=
  s.brRetrain && (linesOf va n).any (fun p => match xlate s ag cx {} wr p.1 with
    | .ok (pa, _) => decide (homeOf s pa ≠ some (agentHalf ag))
    | .error _ => false)

/-- What writes of physical lines leave at the controllers. -/
def writesNote (ag : Agent) (env : MemEnv) (l : List (Nat × Nat)) (s : State) : State :=
  l.foldl (fun s x => memNote ag true (splitsWord x.1 x.2) x.1 false false .clean (envWrite env x.1) s) s

/-- What reads of physical lines leave. -/
def physNote (ag : Agent) (pa n : Nat) (s : State) : State :=
  (linesOf pa n).foldl (fun s x => memNote ag false false x.1 false false .clean .clean s) s

/-- A line of a physical range cannot be read. -/
def physBad (s : State) (pa n : Nat) : Bool := (linesOf pa n).any (fun x => memFails s {} false false x.1)

/-- Bytes that the module's own encoders and copies put into a half-local region: the data, and the requests (R199, R224). -/
def putOwn (ag : Agent) (pa : Nat) (l : List Byte) (s : State) : State :=
  storePhys pa l (writesNote ag {} (linesOf pa l.length) s)

end Sys2Proof.Machine
end

