-- ==== Sys2Proof/Machine/Control.lean ====
section
/-!
DEFINITION. The schedule table, mailbox pages and their answers, the fence of a partition, the end of a launch, and the
release of what a partition or a context holds: the operations that commands of several families share.
-/
namespace Sys2Proof.Machine

-- ---------------------------------------------------------------- schedule (R60-R70)

/-- A schedule entry. -/
def sched (s : State) (i : Nat) : SchedEntry := FMap.get {} s.sched.tab i

/-- A schedule entry, written. -/
def setSched (i : Nat) (e : SchedEntry) (s : State) : State :=
  { s with sched := { s.sched with tab := FMap.set {} s.sched.tab i e } }

/-- HANDLE of an entry (R62): index in [7:0], generation in [31:8]; 0 while the entry is EMPTY. -/
def handleOf (s : State) (i : Nat) : Nat := if (sched s i).st = 0 then 0 else i + 256 * (sched s i).gen

/-- The entry that a HANDLE names. -/
def byHandle (s : State) (h : Nat) : Option Nat :=
  let i := h % 256; if (sched s i).gen = h / 256 ∧ (sched s i).st ≠ 0 then some i else none

/-- The lowest entry from `lo` that is not PENDING (log entry 9). -/
def freeFrom (s : State) : Nat → Nat → Option Nat
  | _, 0 => none
  | lo, n + 1 => if (sched s lo).st ≠ 1 then some lo else freeFrom s (lo + 1) n

/-- Writes an entry PENDING; a reused entry takes the next generation (R62). A TRANSIT_WITHDRAW is copied into the
comparators when it is added (R67). -/
def schedPut (i rt action owner arg : Nat) (lateOk : Bool) (cx : Nat) (s : State) : State :=
  let o := sched s i
  let g := if o.st = 0 then o.gen else (o.gen + 1) % 2 ^ 24
  let s := setSched i { rt := rt, action := action, lateOk := lateOk, late := decide (rt < s.time.sup), st := 1, owner := owner, gen := g, arg := arg,
                        ctx := cx } s
  if action = 6 then
    { s with fab := { s.fab with comps := s.fab.comps ++ [{ tick := rt, kind := fld arg 1 0, port := fld arg 15 8,
                                                            own := true, cause := fld arg 18 16 }] } }
  else s

/-- A pending entry leaves PENDING in a given state. -/
def schedEnd (i st : Nat) (s : State) : State :=
  let e := sched s i
  if e.st = 1 then setSched i { e with st := st } s else s

/-- Every pending entry that `p` selects ends in a state. -/
def schedEndAll (st : Nat) (p : Nat → SchedEntry → Bool) (s : State) : State :=
  { s with sched := { s.sched with
      tab := s.sched.tab.map (fun x => if x.2.st = 1 && p x.1 x.2 then (x.1, { x.2 with st := st }) else x) } }

/-- Does any pending entry match. -/
def schedAny (s : State) (p : Nat → SchedEntry → Bool) : Bool :=
  s.sched.tab.any (fun x => x.2.st = 1 && p x.1 x.2)

/-- The table cleared by a module reset: entries read EMPTY and no old HANDLE matches (R60). -/
def schedClear (s : State) : State :=
  { s with sched := { tab := s.sched.tab.map (fun x => (x.1, { gen := (x.2.gen + 1) % 2 ^ 24 })) } }

-- ---------------------------------------------------------------- mailbox pages (R282-R289)

/-- Key of a mailbox. -/
def mbKey (h : Half) (m : Nat) : Nat := 128 * h.num + m

/-- The page of a mailbox key. -/
def page (s : State) (k : Nat) : Page := FMap.get {} s.mbx.pages k

/-- The same, written. -/
def setPage (k : Nat) (p : Page) (s : State) : State :=
  { s with mbx := { s.mbx with pages := FMap.set {} s.mbx.pages k p } }

/-- The crown, changed. -/
def modCrown (f : Crown → Crown) (s : State) : State := { s with crown := f s.crown }

/-- A stage, changed. -/
def modStage (i : Nat) (f : Stage → Stage) (s : State) : State :=
  modCrown (fun c => { c with stages := FMap.mod {} c.stages i f }) s

/-- A stage (R418). -/
def stageOf (s : State) (i : Nat) : Stage := FMap.get {} s.crown.stages i

/-- Control firmware of the crown's half runs: a live, unhalted holder, no takeover, and no module reset behind the tick of
its withdrawal (R316). -/
def working (s : State) : Bool :=
  let m := mon s s.crown.holder
  m.live && !m.halted && !s.crown.takeover && !s.crown.supFail && !(s.fab.withdrawn && s.start.resetAt.isSome)

/-- Control firmware serves commands: it runs, and no activation pauses it (R36, R295, R319, R438). -/
def serving (s : State) : Bool := working s && s.crown.activating.isNone

/-- The crown's port. -/
def crownHalf (s : State) : Half := s.crown.holder

/-- The mailbox hardware of a port accepts a response written with a claim number: its enable stage's FLOOR equals it
(R320). -/
def portTakes (s : State) (h : Half) (claim : Nat) : Bool := decide ((stageOf s (1 + h.num)).floor = claim)

/-- The command in an execution place of a mailbox key. -/
def running (s : State) (k : Nat) : Option RunCmd := FMap.get none s.mbx.run k

/-- The same, written. -/
def setRun (k : Nat) (r : Option RunCmd) (s : State) : State :=
  { s with mbx := { s.mbx with run := FMap.set none s.mbx.run k r } }

/-- The watchdog deadline of a mailbox key, written. -/
def setWatch (k : Nat) (d : Option Nat) (s : State) : State :=
  { s with mbx := { s.mbx with watch := FMap.set none s.mbx.watch k d } }

/-- The command header (R284). -/
structure Hdr where
  opcode : Nat
  ifVer : Nat
  fence : Bool
  notify : Bool
  len : Nat
  tag : Nat
  ctx : Nat
  vec : Nat
  deriving DecidableEq, Repr

/-- The command header of a page. -/
def hdr (p : Page) : Hdr :=
  let w := Memory.num p.bytes 0x40 64
  { opcode := fld w 15 0, ifVer := fld w 31 16, fence := bitOf w 32, notify := bitOf w 33, len := fld w 63 48,
    tag := fld w 127 64, ctx := fld w 143 128, vec := fld w 159 152 }

/-- The command payload of a page. -/
def payload (p : Page) : List Byte := Memory.bytes p.bytes 0x80 (hdr p).len

/-- IF_VER_USED (R283): the header's version; for OPEN, which ignores it (R294), the version picked, 0 where none was
(DESIGN CHOICE, log entry 97). -/
def verUsed (h : Hdr) (st : Nat) (pl : List Byte) : Nat :=
  if h.opcode = 1 then (if st = 0 then leNat (pl.take 2) else 0) else h.ifVer

/-- The answer of a command: payload, control line, OWN 2, NOTIFY_VEC (R289). -/
def answerPage (k st det : Nat) (pl : List Byte) (s : State) : State :=
  let p := page s k; let h := hdr p
  let p' : Page := { own := 2, status := st, respLen := pl.length, tagEcho := h.tag, opEcho := h.opcode,
                     ifVer := verUsed h st pl, detail := det, doneRt := now s, arrival := p.arrival,
                     bytes := Memory.store p.bytes 0x80 pl }
  let s := setWatch k none (setPage k p' s)
  if h.notify then msix (Half.ofNum (k / 128)) h.vec s else s

/-- A response that the activation pause holds back (R318), or that firmware cannot write now: WAIT, COPY, TIER_MOVE and
LINK_BERT stay owned through the pause. -/
def heldBack (s : State) (op : Nat) : Bool :=
  !working s || s.crown.activating.isSome && [0x206, 0x104, 0x105, 0x305].contains op

/-- Firmware ends a command: its place frees and its answer is written. A place whose watchdog has answered the command
only frees (R302); a response that the port does not accept is discarded (R320); one that firmware cannot write yet
waits in the place. -/
def respond (k st det : Nat) (pl : List Byte) (s : State) : State :=
  match running s k with
  | some r =>
    if 256 ≤ k then setRun k none s
    else if heldBack s r.opcode then setRun k (some { r with ans := some (st, det, pl) }) s
    else if portTakes s (Half.ofNum (k / 128)) s.crown.claim then answerPage k st det pl (setRun k none s)
    else setRun k none s
  | none => answerPage k st det pl s

/-- The responses that waited for firmware go out. -/
def flushAnswers (s : State) : State :=
  s.mbx.run.foldl (fun s x => match x.2 with
    | some r => match r.ans with
      | some (st, det, pl) => respond x.1 st det pl (setRun x.1 (some { r with ans := none }) s)
      | none => s
    | none => s) s

-- ---------------------------------------------------------------- status values (R296, R297)

def stOk : Nat := 0
def stBadOpcode : Nat := 1
def stBadVersion : Nat := 2
def stBadArg : Nat := 3
def stNoResource : Nat := 4
def stBusy : Nat := 5
def stBusyActivate : Nat := 6
def stTakeover : Nat := 7
def stNotCrown : Nat := 8
def stFenced : Nat := 9
def stAborted : Nat := 10
def stCapLimited : Nat := 11
def stUnitAbsent : Nat := 12
def stStopped : Nat := 13
def stDigest : Nat := 14
def stTimeout : Nat := 15

-- ---------------------------------------------------------------- launches (R255-R265)

/-- The completion record (R264). -/
def recordOf (l : Launch) : List Byte :=
  natLe 4 l.id ++ natLe 1 l.st ++ natLe 1 l.faultCode ++
  natLe 2 (l.faultC % 64 + 64 * (l.faultP % 64) + 4096 * (l.tq % 4) + 16384 * b2n l.late + 32768 * b2n l.watchdog) ++
  natLe 4 (if l.faultCode = 0 then 0 else l.faultDesc) ++ natLe 4 0 ++ natLe 8 l.hsn ++ natLe 8 l.tick ++
  natLe 8 l.endRt ++ natLe 4 l.recipe ++ natLe 1 l.part ++ List.replicate 19 0

/-- Keys of running commands that `p` selects, but for those whose answer stands already. -/
def runKeys (s : State) (p : RunCmd → Bool) : List Nat :=
  s.mbx.run.filterMap (fun x => match x.2 with
    | some r => if p r && r.ans.isNone then some x.1 else none | none => none)

/-- Taps whose first copy the launch wrote are taken at its end; the symbol is disarmed (R579). -/
def takeTaps (cx id : Nat) (s : State) : State :=
  let mine := s.taps.filterMap (fun x => match x.2 with
    | some t => if t.ctx = cx ∧ t.launch = id ∧ id ≠ 0 ∧ !t.gone ∧ !t.taken then some t else none
    | none => none)
  let s := mine.foldl (fun s t => (((part? s t.part).map (·.clusters)).getD []).foldl (fun s c =>
    (List.range 64).foldl (fun s n => modTile (64 * c + n) (fun x => { x with tapArm := FMap.set none x.tapArm t.sym none }) s) s) s) s
  { s with taps := s.taps.map (fun x => match x.2 with
      | some t => if t.ctx = cx ∧ t.launch = id ∧ id ≠ 0 ∧ !t.gone then (x.1, some { t with taken := true }) else x
      | none => x) }

/-- A launch ends: its record, NOTIFY, the WAITs on it, its taps, and its place in the queue (R262, R263, R579). -/
def endLaunch (cx id st : Nat) (s : State) : State :=
  match launch? s cx id with
  | none => s
  | some l =>
    let started := l.st = 2
    let l' := { l with st := st, endRt := if started then (if l.endRt = 0 then now s else l.endRt) else 0,
                       tick := if started then l.tick else 0,
                       tq := if started ∧ l.endRt ≠ 0 then l.tq else s.time.tq.code }
    let s := modLaunch cx id (fun _ => l') s
    let s := modPart l.part (fun p => { p with queue := p.queue.filter (· != id) }) s
    let s := if l.notify = 0 then s else msix s.crown.holder l.notify s
    let s := takeTaps cx id s
    (runKeys s (fun r => r.opcode = 0x206 && r.ctx = cx && r.arg = id)).foldl
      (fun s k => respond k stOk 0 (recordOf l') s) s

-- ---------------------------------------------------------------- ledger events (R130, R269, R474)

/-- A host event enters the ledger with the count of the crown's half as its stamp (R269). -/
def hostEvent (cx kind tag cause : Nat) (s : State) : State :=
  if s.led.running then
    { s with led := { s.led with hostEv := s.led.hostEv ++
        [{ rt := now s, order := 0, ctx := cx, kind := kind, tag := tag, cause := cause, tq := s.time.tq.code }] } }
  else s

-- ---------------------------------------------------------------- zeroing (R86, R380)

/-- A tile's registers, counters, queues and accumulator sets zeroed; the draw and tap counters with them (R86, R518). -/
def zeroTile (t : Nat) (s : State) : State :=
  { s with comp := { s.comp with tiles := FMap.set {} s.comp.tiles t {},
                                 ts := Memory.clear s.comp.ts (0x80000 * t) 0x80000 } }

/-- The cluster store zeroed (R86). -/
def zeroStore (c : Nat) (s : State) : State :=
  { s with mem := { s.mem with phys := Memory.clear s.mem.phys (0x20000000000 + c * 0x1000000) 0x1000000 } }

/-- Tile stores, cluster store, counters and base registers of a cluster zeroed (R86), and the MMU's translation cache
emptied (R518, R520). -/
def zeroCluster (c : Nat) (s : State) : State :=
  (List.range 64).foldl (fun s n => zeroTile (64 * c + n) s) (cacheClear c (zeroStore c s))

/-- The windows of a cluster closed (R251, R520). -/
def closeWins (c : Nat) (s : State) : State := modCluster c (fun x => { x with win := [0, 0, 0, 0, 0, 0, 0, 0] }) s

/-- A signal on its way (R99). -/
def pushSignal (g : Signal) (s : State) : State := { s with comp := { s.comp with signals := s.comp.signals ++ [g] } }

/-- Key of an engine counter. -/
def cntKey (h : Half) (p i : Nat) : Nat := 512 * (36 * h.num + p) + i

/-- Key of a trigger entry. -/
def entKey (h : Half) (p i : Nat) : Nat := 8192 * (36 * h.num + p) + i

/-- The scratch region of the own member of a group: its first 64 bytes written to zero at a partition reset (R408). -/
def zeroScratch (p : Nat) (g : Group) (s : State) : State :=
  match part? s p, g.members[g.rank]? with
  | some x, some m => if g.scratchBytes < 64 then s else (writeVa (.engine p m.half) x.ctx {} m.scratch (List.replicate 64 0) s).1
  | _, _ => s

/-- The engines' part of a partition reset (R380). -/
def resetEngine (p : Nat) (s : State) : State :=
  let s := s.eng.groups.foldl (fun s x => match x.2 with
    | some g => if g.part = p then zeroScratch p g s else s
    | none => s) s
  { s with eng := { s.eng with
      cnt := s.eng.cnt.filter (fun x => x.1 / 512 % 36 != p),
      ent := s.eng.ent.filter (fun x => x.1 / 8192 % 36 != p),
      ops := s.eng.ops.filter (fun o => o.part != p),
      colls := s.eng.colls.filter (fun c => c.part != p),
      groups := s.eng.groups.map (fun x => match x.2 with
        | some g => if g.part = p then (x.1, some { g with nextSeq := 0, step := 0, ready := [] }) else x
        | none => x) } }

-- ---------------------------------------------------------------- fence (R520-R523)

/-- The groups a partition has joined. -/
def partGroups (s : State) (p : Nat) : List Nat :=
  s.eng.groups.filterMap (fun x => match x.2 with | some g => if g.part = p then some x.1 else none | none => none)

/-- A port's state. -/
def port (s : State) (p : Nat) : Port := FMap.get {} s.fab.ports p

/-- The same, changed. -/
def modPort (p : Nat) (f : Port → Port) (s : State) : State :=
  { s with fab := { s.fab with ports := FMap.mod {} s.fab.ports p f } }

/-- The ports in one of the given states. -/
def portsIn (s : State) (sts : List Nat) : List Nat := (List.range 64).filter (fun p => sts.contains (port s p).st)

/-- Flits of a packet (R336). -/
def flits (k : Pkt) : Nat := 1 + (k.payload.length + 63) / 64

/-- Place of the module on the ring of a packet, with the ring's record (R347). -/
def ringPlace (s : State) (k : Pkt) : Option (Ring × Nat) :=
  match FMap.get none s.fab.tab.rings k.ringId with
  | none => none
  | some r => ((List.range r.pos.length).find? (fun i => decide (nth r.pos i = s.ident.mid % 64))).map (fun i => (r, i))

/-- A packet as it leaves: on the date line a ring packet moves to VC3 with DL_CROSSED set (R349). -/
def outForm (s : State) (k : Pkt) : Pkt :=
  if (k.vc = 2 ∨ k.vc = 3) ∧ k.destMid ≠ s.ident.mid then
    match ringPlace s k with
    | some (r, i) => if i = r.dateline then { k with vc := 3, dlCrossed := true } else k
    | none => k
  else k

/-- Flits of one VC in a queue, by the VC on which they leave. -/
def queued (s : State) (q : List (Nat × Pkt)) (v : Nat) : Nat :=
  ((q.filter (fun x => (outForm s x.2).vc = v)).map (fun x => flits x.2)).sum

/-- The queue of a port, with QDEPTH and QHWM (R371). -/
def setQueue (p : Nat) (q : List (Nat × Pkt)) (s : State) : State :=
  let s := modPort p (fun x => { x with queue := q }) s
  (List.range 8).foldl (fun s v =>
    let n := queued s q v
    setCtr (0x80 + p) (12 + v) (max n (ctr s (0x80 + p) (12 + v))) (setCtr (0x80 + p) (4 + v) n s)) s

/-- Flits of a packet leave the receive buffer of its port of arrival (R333). -/
def freeBuf (inp : Nat) (k : Pkt) (s : State) : State :=
  if 64 ≤ inp then s else modPort inp (fun x => { x with freed := modNth x.freed k.vc (fun c => (c + flits k) % 65536) }) s

/-- The same for a packet that is not multicast: the buffer of a multicast packet is free once its copies are queued
(R353). -/
def freeIn (inp : Nat) (k : Pkt) (s : State) : State := if k.mcast then s else freeBuf inp k s

/-- Two sendings of one packet of a flow (R354). -/
def sameSend (a b : Pkt) : Bool :=
  a.opcode = b.opcode && a.srcMid = b.srcMid && a.srcHalf = b.srcHalf && a.destMid = b.destMid && a.destHalf = b.destHalf &&
  a.seq = b.seq && a.mcast = b.mcast && a.groupId = b.groupId && (a.vc = b.vc || a.vc + b.vc = 5 && a.vc * b.vc = 6)

/-- A packet of an own flow stands in the resend buffer of the port that it is to leave by (R357); `inj`: an injection
meets it there. -/
def noteSent (p : Nat) (inj : Bool) (k : Pkt) (s : State) : State :=
  if k.srcMid ≠ s.ident.mid then s
  else { s with fab := { s.fab with resend := s.fab.resend.map (fun r =>
    if sameSend r.pkt k then { r with port := p, inj := r.inj || inj } else r) } }

/-- A packet may be sent again: a data packet (R338). -/
def resendable (k : Pkt) : Bool := ! [8, 9, 0xA, 0xB, 0xD].contains k.opcode

/-- VCs that take turns (R335). -/
def turnVcs : List Nat := [0, 2, 3, 4, 5, 7]

/-- The turn after a packet of a VC has left: VC6 and VC1 take none. -/
def turnAfter (turn v : Nat) : Nat := if turnVcs.contains v then (turnVcs.findIdx (· = v) + 1) % 6 else turn

/-- A packet leaves on a port: credits, SENT counts and the port's counters (R333, R371). An injected FEC fault loses it
on the way to the peer; an injected CRC fault spoils a packet of this module's own; with MODE BOTH its retry too (R499,
R500). -/
def leave (p inp : Nat) (k : Pkt) (s : State) : State :=
  let o := outForm s k
  let n := flits k
  let s := freeIn inp k (modPort p (fun x => { x with
    credit := modNth x.credit o.vc (· - n), sentFlits := modNth x.sentFlits o.vc (fun c => (c + n) % 65536),
    turn := turnAfter x.turn o.vc }) s)
  let s := count (0x80 + p) 2 (64 * n) (count (0x80 + p) 0 1 s)
  let old := s.fab.again.find? (fun x => sameSend x.2 k)
  let fec := injMode s (0x80 + p) 0 (fun _ => true)
  let crc := if k.srcMid = s.ident.mid ∧ resendable k then injMode s (0x80 + p) 1 (fun _ => true) else none
  let lost := fec.isSome || decide (old.map (·.1) = some true)
  let spoiled := crc.isSome || decide (old.map (·.1) = some false)
  let s := if fec.isSome ∨ crc.isSome then disarm (0x80 + p) s else s
  let both := decide (resendable k ∧ (fec = some 1 ∨ fec = none ∧ crc = some 1))
  let l := (s.fab.again.filter (fun x => !sameSend x.2 k)) ++ (if both then [(fec.isSome, k)] else [])
  let s := noteSent p (lost || spoiled) k { s with fab := { s.fab with again := l } }
  if lost then s
  else { s with fab := { s.fab with out := (p, { o with crcOk := k.crcOk && !spoiled }) :: s.fab.out } }

/-- A packet goes out on a port as soon as its VC holds credits for all of its flits, behind earlier packets of its VC
(R333). -/
def putOut (p inp : Nat) (k : Pkt) (s : State) : State :=
  let x := port s p
  let v := (outForm s k).vc
  if flits k ≤ nth x.credit v ∧ !x.queue.any (fun y => (outForm s y.2).vc = v) then leave p inp k s
  else noteSent p false k (setQueue p (x.queue ++ [(inp, k)]) s)

/-- The first queued packet of a VC, if it has the credits. -/
def headOf (s : State) (p v : Nat) : Option (Nat × Pkt) :=
  match (port s p).queue.find? (fun y => (outForm s y.2).vc = v) with
  | some y => if flits y.2 ≤ nth (port s p).credit v then some y else none
  | none => none

/-- The queued packet that a port sends next (R335): of VC6, then of VC1, then of the others by round-robin. -/
def nextOut (s : State) (p : Nat) : Option (Nat × Pkt) :=
  (6 :: 1 :: turnVcs.rotateLeft (port s p).turn).findSome? (headOf s p)

/-- Queued packets leave while credits last. -/
def drainSteps (p : Nat) : Nat → State → State
  | 0, s => s
  | f + 1, s =>
    match nextOut s p with
    | some y => drainSteps p f (leave p y.1 y.2 (setQueue p ((port s p).queue.erase y) s))
    | none => s

/-- Queued packets leave after new credits. -/
def drainPort (p : Nat) (s : State) : State := drainSteps p (port s p).queue.length s

/-- A packet of the module itself that goes one hop leaves on a port. -/
def sendOn (p : Nat) (k : Pkt) (s : State) : State := putOut p 64 k s

/-- The groups of an ABORT, five to a flit (R523). -/
def fives : Nat → List Nat → List (List Nat)
  | 0, _ => []
  | f + 1, l => match l with | [] => [] | _ => l.take 5 :: fives f (l.drop 5)

/-- ABORT_SEND (R523): flits with the partition's groups on every ACTIVE and WITHDRAWN port, from each half that holds
clusters of the partition. EXTRA and ABORT_ID go in OP_ARG, further groups in DEST_MASK, REASON in TAG. -/
def abortSend (p : Part) (pi code : Nat) (s : State) : State :=
  let gs := partGroups s pi
  if gs = [] ∨ s.ident.variant = .s then s
  else
    let halves := [Half.a, Half.b].filter (fun h => p.clusters.any (fun c => clHalf c = h))
    halves.foldl (fun s h =>
      let s := event (0xA + h.num) 5 0 0 s
      (fives (gs.length + 1) gs).foldl (fun s g =>
        let k : Pkt := { opcode := 0x0A, vc := 6, srcHalf := h, srcMid := s.ident.mid, destMid := 0xFFF,
                         groupId := nth g 0, opArg := s.fab.abortId + 65536 * (g.length - 1), tag := code,
                         destMask := (g.drop 1).foldr (fun x a => x + 65536 * a) 0,
                         targetVa := cnt s h % 2 ^ 48 }
        let s := (portsIn s [4, 5]).foldl (fun s q => sendOn q k s) s
        { s with fab := { s.fab with abortId := (s.fab.abortId + 1) % 65536 } }) s) s

/-- Response of TIER_MOVE: 16 bytes for each descriptor (R307, R309). -/
def movesResp (l : List MoveSt) : List Byte :=
  l.flatMap (fun m => natLe 2 (if m.st = 2 then stOk else if m.st = 4 then stFenced else stAborted) ++
    natLe 1 m.reason ++ List.replicate 5 0 ++ natLe 8 m.moved)

/-- The movers' part of a fence of a context: running descriptors stop, the rest are discarded, the command completes
with ST_FENCED (R213). COPY of the context is stopped in the same way (log entry 20). Neither a running descriptor nor a COPY
has written a line by then: BYTES_MOVED is 0 (DESIGN CHOICE, log 107: R213 leaves the number of lines to timing). -/
def fenceMoves (cx : Nat) (s : State) : State :=
  let s := (runKeys s (fun r => r.opcode = 0x105 && r.ctx = cx)).foldl (fun s k =>
    match running s k with
    | some r =>
      let ms := r.moves.map (fun m => if m.st ≤ 1 then { m with st := 4 } else m)
      let s := (r.moves.filter (fun m => m.st = 1)).foldl (fun s m => event (0x10 + m.half.num) 1 0 0 s) s
      respond k stFenced 0 (movesResp ms) (setRun k (some { r with moves := ms }) s)
    | none => s) s
  (runKeys s (fun r => r.opcode = 0x104 && r.ctx = cx)).foldl (fun s k => respond k stFenced 0 (natLe 8 0) s) s

/-- A tile at the tick of a fence: dispatch stops and queued descriptors are discarded (R136, R520). -/
def stopTile (x : Tile) : Tile :=
  { x with phase := if x.phase = 0 then 0 else 3, pre := [], qm := [], qv := [], qn := [], qd := [], qf := [],
           hold := none, barrier := none }

/-- A tile at a fence: it stops, unless a fault caused the fence; then the tick of the fault goes on in the other tiles, so
that a fault of a lower tile in the same tick can still be named (R264), and `tileRuns` holds them from the next tick on. -/
def fenceTile (byFault : Bool) (x : Tile) : Tile := if byFault then x else stopTile x

/-- A fence of a partition (R520): T is the count of the crown's half. A partition already fenced stays as it is (R522).
`cause` is the CLOSE_CAUSE of R474, `endSt` the state the running launch will end in, `code` the ABORT's reason. -/
def fenceWith (byFault : Bool) (cause endSt code : Nat) (byAbort : Bool) (i : Nat) (s : State) : State :=
  match part? s i with
  | none => s
  | some p =>
    if p.fence.isSome then s
    else
      let s := hostEvent p.ctx 4 0 cause s
      let s := setPart i (some { p with fence := some { at_ := s.time.clk, endSt := endSt, code := code, byFault := byFault } }) s
      let s := p.clusters.foldl (fun s c =>
        (List.range 64).foldl (fun s n => modTile (64 * c + n) (fenceTile byFault) s)
          (modCluster c (fun x => { x with fenced := true, resetting := true }) s)) s
      let s := { s with comp := { s.comp with signals := s.comp.signals.filter (fun g => g.part != i) } }
      let gs := partGroups s i
      let s := { s with eng := { s.eng with ent := s.eng.ent.filter (fun x => x.1 / 8192 % 36 != i) },
                        fab := { s.fab with txWait := s.fab.txWait.filter (fun k => !gs.contains k.groupId) } }
      let s := fenceMoves p.ctx s
      if byAbort then s else abortSend p i code s

/-- A fence that no fault of a launch causes. -/
def fencePart (cause endSt code : Nat) (byAbort : Bool) (i : Nat) (s : State) : State :=
  fenceWith false cause endSt code byAbort i s

/-- A tile executes: it runs, and no fence of its partition holds it (R136, R520). -/
def tileRuns (s : State) (t : Nat) : Bool :=
  (tile s t).phase = 1 && (match (cluster s (t / 64)).part with
    | none => true
    | some p => match (part? s p).bind (·.fence) with
      | none => true
      | some f => f.byFault && decide (s.time.clk = f.at_))

/-- Every partition fenced (R438, R443). -/
def fenceAll (cause endSt : Nat) (s : State) : State :=
  (List.range 36).foldl (fun s i => fencePart cause endSt 0 false i s) s

/-- The running launch of a partition is to end FAILED with a fault (R265): its record takes the fault, and firmware fences
the partition, at once or when it serves again (`assertFences`). The earliest stamp stands; equal stamps go to the lowest
tile (R264). -/
def failLaunch (i code desc c n : Nat) (wd : Bool) (s : State) : State :=
  match headLaunch s i with
  | none => s
  | some l =>
    if l.st ≠ 2 ∨ l.endRt ≠ 0 then s
    else
      let rt := cnt s (clHalf c)
      let p := (part? s i)
      let first := l.faultCode = 0 || rt < l.faultRt || rt = l.faultRt && (64 * c + n < 64 * l.faultC + l.faultP)
      match p with
      | none => s
      | some p =>
        let s := if code ≠ 0 ∧ first then
            modLaunch p.ctx l.id (fun x => { x with faultCode := code, faultDesc := desc, faultC := c, faultP := n,
                                                    faultRt := rt, watchdog := wd, failing := true }) s
          else modLaunch p.ctx l.id (fun x => { x with watchdog := x.watchdog || wd, failing := true }) s
        if serving s then fenceWith true 1 4 code false i s else s

/-- The fences that firmware could not assert while it did not serve (R265, R520). -/
def assertFences (s : State) : State :=
  (List.range 36).foldl (fun s i =>
    match headLaunch s i with
    | some l => if l.st = 2 ∧ l.endRt = 0 ∧ l.failing then fencePart 1 4 l.faultCode false i s else s
    | none => s) s

/-- The completion records of launches that ended while firmware did not serve (R268, R318). -/
def recordEnds (s : State) : State :=
  (List.range 36).foldl (fun s i =>
    match part? s i, headLaunch s i with
    | some p, some l => if l.st = 2 ∧ l.endRt ≠ 0 ∧ p.fence.isNone then endLaunch p.ctx l.id 3 s else s
    | _, _ => s) s

/-- Taps of a partition not yet taken are disarmed (R580). -/
def dropTaps (i : Nat) (s : State) : State :=
  { s with taps := s.taps.map (fun x => match x.2 with
      | some t => if t.part = i ∧ !t.taken then (x.1, some { t with gone := true }) else x
      | none => x) }

/-- A partition is destroyed: clusters zeroed and released, its reservation, its groups and its number freed (R254,
R396). -/
def destroyPart (i : Nat) (s : State) : State :=
  match part? s i with
  | none => s
  | some p =>
    let s := p.clusters.foldl (fun s c =>
      modCluster c (fun x => { x with part := none, fenced := false, resetting := false }) (zeroCluster c s)) s
    let s := resetEngine i s
    let s := { s with eng := { s.eng with groups := s.eng.groups.filter (fun x => match x.2 with
      | some g => g.part != i | none => true) } }
    setPart i none (dropTaps i s)

/-- The runs of frames a context holds, freed with it, and its mailboxes, entries, taps and stops released (R238,
R310, R313, R579). The last residue receipt is asked of the ledger (R474). -/
def finishClose (cx : Nat) (s : State) : State :=
  let s := hostEvent cx 4 0 2 s
  let s := hostEvent cx 5 0 2 s
  let s := setCtx cx none (cacheDrop cx 0 (2 ^ 48) s)
  let s := { s with mbx := { s.mbx with bind := s.mbx.bind.filter (fun x => x.2 != cx) } }
  let s := schedEndAll 4 (fun _ e => e.ctx = cx && e.owner = 1) s
  let s := { s with taps := s.taps.filter (fun x => match x.2 with | some t => t.ctx != cx | none => true) }
  let s := { s with fw := { s.fw with stopped := s.fw.stopped.filter (fun x => match x.2 with
    | some t => t.holder != cx | none => true) } }
  (runKeys s (fun r => r.opcode = 2 && r.ctx = cx)).foldl (fun s k => respond k stOk 0 [] s) s

/-- A running CLOSE ends once no partition of the context is left (R238). -/
def tryClose (cx : Nat) (s : State) : State :=
  match ctx? s cx with
  | some c => if c.closing && ctxParts s cx = [] then finishClose cx s else s
  | none => s

/-- The last step of a partition reset (R520): zeroing, windows closed, launch records written, queued launches
CANCELLED, fence released; then the commands that joined the reset are answered (R522). -/
def releaseFence (i : Nat) (s : State) : State :=
  match part? s i with
  | none => s
  | some p =>
    match p.fence with
    | none => s
    | some f =>
      let s := { s with comp := { s.comp with signals := s.comp.signals.filter (fun g => g.part != i) } }
      let s := p.clusters.foldl (fun s c => closeWins c (zeroCluster c s)) s
      let s := resetEngine i s
      let s := p.queue.foldl (fun s id =>
        match launch? s p.ctx id with
        | some l => endLaunch p.ctx id (if l.st = 2 then (if l.endRt ≠ 0 then 3 else f.endSt) else 6) s
        | none => s) s
      let s := dropTaps i s
      let s := modPart i (fun x => { x with fence := none }) s
      let s := p.clusters.foldl (fun s c => modCluster c (fun x => { x with fenced := false, resetting := false }) s) s
      let s := (runKeys s (fun r => r.opcode = 0x901 && r.part = some i)).foldl (fun s k => respond k stOk 0 [] s) s
      let s := (runKeys s (fun r => r.opcode = 0x207 && r.part = some i)).foldl (fun s k =>
        match running s k with
        | some r =>
          if r.arg = 0 then respond k stOk 0 (natLe 4 r.deadline) s
          else match launch? s p.ctx r.arg with
            | some l => respond k stOk 0 (recordOf l) s
            | none => respond k stOk 0 [] s
        | none => s) s
      if f.destroy then
        let s := destroyPart i s
        let s := (runKeys s (fun r => r.opcode = 0x202 && r.part = some i)).foldl (fun s k => respond k stOk 0 [] s) s
        tryClose p.ctx s
      else s

end Sys2Proof.Machine
end

