-- ==== Sys2Proof/Machine/Mailbox.lean ====
section
/-!
DEFINITION. The mailbox hardware (R274-R302) and the frame in which firmware runs a command: when it may start (R298-R300),
the checks that every command shares (R295), and its answer.
-/
namespace Sys2Proof.Machine

/-- Opcodes of the command set (R303-R316): scope (0 N, 1 C, 2 M, 3 by its fields) and exact payload length where one is
given. -/
def opInfo (op : Nat) : Option (Nat × Option Nat) :=
  match op with
  | 0x001 => some (0, some 32) | 0x002 => some (1, some 0) | 0x003 => some (0, some 2) | 0x004 => some (3, some 2)
  | 0x101 => some (1, some 24) | 0x102 => some (1, some 8) | 0x103 => some (1, some 32) | 0x104 => some (1, some 32)
  | 0x105 => some (1, none)
  | 0x201 => some (1, some 44) | 0x202 => some (1, some 2) | 0x203 => some (1, some 24) | 0x204 => some (1, some 4)
  | 0x205 => some (1, some 160) | 0x206 => some (1, some 8) | 0x207 => some (1, some 8)
  | 0x301 => some (1, some 16) | 0x302 => some (1, some 2) | 0x303 => some (2, some 32) | 0x304 => some (2, some 16)
  | 0x305 => some (2, some 12)
  | 0x401 => some (0, some 0) | 0x402 => some (1, some 32) | 0x403 => some (3, some 4)
  | 0x501 => some (2, some 16) | 0x502 => some (0, some 0) | 0x503 => some (1, none) | 0x504 => some (1, none)
  | 0x505 => some (3, some 18) | 0x506 => some (2, some 16)
  | 0x601 => some (2, some 1) | 0x602 => some (2, none) | 0x603 => some (2, some 1) | 0x604 => some (2, none)
  | 0x605 => some (0, some 0)
  | 0x701 => some (2, some 24) | 0x702 => some (2, some 16) | 0x703 => some (0, some 0)
  | 0x801 => some (2, some 24) | 0x802 => some (1, some 24) | 0x803 => some (1, some 24) | 0x804 => some (3, some 8)
  | 0x805 => some (2, some 16)
  | 0x901 => some (1, some 1) | 0x902 => some (3, some 1) | 0x903 => some (3, some 2) | 0x904 => some (2, some 8)
  | 0x905 => some (0, some 0)
  | _ => none

/-- The scope in which a command acts (R291, R303, R310, R311, R315, R316). -/
def scopeOf (op cx : Nat) (pl : List Byte) : Nat :=
  match op with
  | 0x004 => if numAt pl 0 1 = 0 then 0 else 1
  | 0x403 => if cx = 0 then 2 else 1
  | 0x505 => if numAt pl 0 1 = 0 then 1 else 2
  | 0x804 => if bitOf (numAt pl 6 2) 0 then 2 else 0
  | 0x902 => if cx = 0 then 2 else 1
  | 0x903 => if cx = 0 then 2 else 1
  | _ => match opInfo op with | some (x, _) => x | none => 0

/-- The partition that a command names, for R300; WAIT, QUERY_STATUS and TAP_READ are exempt. -/
def partNamed (s : State) (op cx : Nat) (pl : List Byte) : Option Nat :=
  match op with
  | 0x202 => some (numAt pl 0 1) | 0x205 => some (numAt pl 0 1) | 0x901 => some (numAt pl 0 1)
  | 0x802 => some (numAt pl 0 1) | 0x301 => some (numAt pl 2 1)
  | 0x207 => if numAt pl 0 1 = 1 then some (numAt pl 1 1) else (launch? s cx (numAt pl 4 4)).map (·.part)
  | 0x902 => (cluster s (numAt pl 0 1)).part
  | 0x903 => (cluster s (numAt pl 0 1)).part
  | _ => none

/-- The configuration function that a command names (R300). -/
def funcNamed (op : Nat) (pl : List Byte) : Option Nat :=
  if op = 0x601 ∨ op = 0x602 ∨ op = 0x603 then some (numAt pl 0 1) else none

/-- Keys of the mailboxes of a port that the device owns. -/
def ownedKeys (s : State) (h : Half) : List Nat :=
  s.mbx.pages.filterMap (fun x => if x.2.own = 1 && x.1 / 128 = h.num then some x.1 else none)

/-- Commands of a port in an execution place, the place of each kept by its watchdog's answer included (R298, R302). -/
def placesOf (s : State) (h : Half) : List RunCmd :=
  s.mbx.run.filterMap (fun x => if x.1 % 256 / 128 = h.num then x.2 else none)

/-- May a command start: not already started, its turn for a place in ARRIVAL order (R298), fences (R299), partition and
function order (R300), in which a command that keeps its place counts. -/
def mayStart (s : State) (k : Nat) : Bool :=
  let p := page s k; let h := hdr p; let pl := payload p
  let half := Half.ofNum (k / 128)
  let earlier := (ownedKeys s half).filter (fun j => (page s j).arrival < p.arrival)
  let places := placesOf s half
  let same (f : Nat → Bool) := earlier.any f
  let pn := partNamed s h.opcode h.ctx pl
  let fn := funcNamed h.opcode pl
  p.own = 1 && (running s k).isNone &&
  decide (places.length + (earlier.filter (fun j => (running s j).isNone)).length < 32) &&
  !same (fun j => let g := hdr (page s j); g.ctx = h.ctx && (h.fence || g.fence)) &&
  !(pn.isSome && (same (fun j => let q := page s j; let g := hdr q; partNamed s g.opcode g.ctx (payload q) = pn) ||
    places.any (fun r => r.part = pn))) &&
  !(fn.isSome && (same (fun j => let q := page s j; let g := hdr q; funcNamed g.opcode (payload q) = fn) ||
    places.any (fun r => r.func = fn)))

/-- How firmware leaves a command: answered, or still owned in its place. -/
inductive Rep where
  | ans (st det : Nat) (pl : List Byte) (s : State)
  | stay (r : RunCmd) (s : State)

/-- ST_BAD_ARG naming a payload offset (R297). -/
def badArg (off : Nat) (s : State) : Rep := .ans stBadArg off [] s

/-- A refusal without further effect. -/
def refuse (st det : Nat) (s : State) : Rep := .ans st det [] s

/-- ST_OK with a response payload. -/
def okRep (pl : List Byte) (s : State) : Rep := .ans stOk 0 pl s

/-- An interface version that firmware supports (R293). -/
def verOk (v : Nat) : Bool := v = 0x0100 || v = 0x0101

/-- A unit that the command needs is absent (R5, R295 step 6, R306, R309, R490). -/
def unitMissing (s : State) (op : Nat) (pl : List Byte) : Bool :=
  op / 256 = 3 && decide (s.ident.variant = .s) ||
  op = 0x101 && decide (numAt pl 8 1 = 1) && (decide (s.ident.variant = .l) || s.mem.tierOff) ||
  (op = 0x804 || op = 0x805) && isBlock (numAt pl 0 2) && absentBlk s (numAt pl 0 2)

/-- Steps 4 to 7 of R295 that do not depend on the payload's meaning: the failing status and detail. -/
def headerCheck (s : State) (k : Nat) (h : Hdr) (pl : List Byte) : Option (Nat × Nat) :=
  let m := k % 128
  let sc := scopeOf h.opcode h.ctx pl
  let bound := FMap.get 0 s.mbx.bind m
  let verBad : Bool := h.opcode != 1 && (match ctx? s h.ctx with
    | some c => h.ifVer != c.ver
    | none => !verOk h.ifVer)
  if verBad then some (stBadVersion, 0)
  else if h.opcode / 256 = 8 ∧ h.ifVer = 0x0100 then some (stBadOpcode, 2)
  else if sc = 2 ∧ 16 ≤ m then some (stBadOpcode, 1)
  else if sc = 1 ∧ 16 ≤ m ∧ (h.ctx = 0 ∨ bound ≠ h.ctx) then some (stBadArg, 0x10010)
  else if sc = 1 ∧ m < 16 ∧ (ctx? s h.ctx).isNone then some (stBadArg, 0x10010)
  else if sc ≠ 1 ∧ h.ctx ≠ 0 ∧ bound ≠ h.ctx then some (stBadArg, 0x10010)
  else if unitMissing s h.opcode pl then some (stUnitAbsent, 0)
  else if h.notify ∧ h.vec = 0 then some (stBadArg, 0x10013)
  else match opInfo h.opcode with
    | some (_, some n) => if h.len ≠ n then some (stBadArg, 0x10006) else none
    | _ => none

/-- Commands that change module state are journalled before their answer (R429). -/
def journalled (op : Nat) : Bool :=
  !([0x003, 0x004, 0x206, 0x401, 0x502, 0x505, 0x605, 0x703, 0x803, 0x804, 0x905].contains op)

/-- A CONFIG_START of the function would write the transit configuration: a routing image or port roles are staged (R418). -/
def writesTransit (s : State) (f : Nat) : Bool :=
  match FMap.get none s.fw.stopped f with
  | some x => f = 0 && x.staged.any (fun y => y.1 = 1 || y.1 = 2)
  | none => false

/-- The claim-gated stages a command writes (R34, R418, R451): 0 VR path, 3 and 4 transit A and B, 5 flash path. -/
def gated (s : State) (op : Nat) (pl : List Byte) : List Nat :=
  match op with
  | 0x501 => [0]
  | 0x301 => [3, 4] | 0x302 => [3, 4] | 0x303 => [3, 4] | 0x304 => [3, 4] | 0x305 => [3, 4] | 0x904 => [3, 4]
  | 0x506 => [5]
  | 0x603 => 5 :: (if writesTransit s (numAt pl 0 1) then [3, 4] else [])
  | 0x604 => [5] | 0x701 => [5]
  | 0x801 => if numAt pl 0 1 = 2 then [5] else []
  | _ => []

/-- The half whose firmware runs commands, with the claim number that it writes under: the holder while it serves; after
the latch of a takeover the former holder, until it demotes itself or the new holder has restored (R320, R421). -/
def fwPort (s : State) : Option (Half × Nat) :=
  let o := s.crown.holder.other
  let m := mon s o
  if serving s then some (s.crown.holder, s.crown.claim)
  else if s.crown.takeover && !s.crown.restored && m.live && !m.halted && !m.demoted && m.own != 0 then some (o, m.own)
  else none

/-- What a stage makes of a write under a claim number (R419). -/
inductive Verdict where
  | accepted
  | stale
  | forged
  | lapsed
  deriving DecidableEq, Repr

/-- The verdict of a stage (R419, R420). -/
def judge (s : State) (i claim : Nat) : Verdict :=
  let x := stageOf s i
  if x.lapsed then .lapsed else if claim < x.floor then .stale else if x.floor < claim then .forged else .accepted

/-- A stage accepts a write under the current claim number. -/
def stageOpen (s : State) (i : Nat) : Bool := judge s i s.crown.claim = .accepted

/-- A rejected write counts (R419). -/
def rejectWrite (i : Nat) (s : State) : State :=
  event 2 10 0 0 (modStage i (fun x => { x with rejects := x.rejects + 1 }) s)

/-- A half demotes itself (R421). -/
def demote (h : Half) (s : State) : State :=
  if (mon s h).demoted then s
  else
    let s := modMon h (fun m => { m with demoted := true, halted := true, live := false, own := 0, standby := 2 }) s
    let s := event 2 11 0 0 s
    if h = s.crown.holder then s else modCrown (fun c => { c with standby := 2 }) s

/-- Runs the command of a mailbox of the port whose firmware runs, when its page holds that opcode and it may start;
otherwise the row finds nothing to do (log entry 3). A response that the port would not accept is discarded, and what the
command made with it: nothing is done (R320). A command that writes a lapsed stage waits for the stage's next floor message;
the holder's write finds a FLOOR below its claim only before that message (R419). A stale write demotes the writer (R421). -/
def runCmd (op : Nat) (sel : List Byte → Bool) (body : Nat → Hdr → List Byte → RunCmd → State → Rep) (mb : Fin 128)
    (s : State) : State :=
  match fwPort s with
  | none => s
  | some (half, claim) =>
    let k := mbKey half mb.val
    let p := page s k; let h := hdr p; let pl := payload p
    if h.opcode = op ∧ sel pl ∧ mayStart s k ∧ portTakes s half claim then
      match headerCheck s k h pl with
      | some (st, det) => respond k st det [] s
      | none =>
        if s.crown.safe ∧ op / 256 = 2 then respond k stFenced 0 [] s
        else match (gated s op pl).find? (fun i => judge s i claim = .stale) with
          | some i => demote half (event (8 + half.num) 5 0 0 (rejectWrite i s))
          | none =>
            if !(gated s op pl).all (fun i => judge s i claim = .accepted) then s
            else
              let rc : RunCmd := { arrival := p.arrival, opcode := op, ctx := h.ctx, fence := h.fence,
                                   part := partNamed s op h.ctx pl, func := funcNamed op pl, pl := pl }
              match body k h pl rc s with
              | .ans st det r s' =>
                let s' := if (st = stOk ∨ st = stCapLimited) ∧ journalled op then
                    { s' with crown := { s'.crown with journal := s'.crown.journal + 1 } } else s'
                respond k st det r s'
              | .stay rc' s' => setRun k (some rc') s'
  else s

/-- The same for an opcode whose row covers every command of that opcode. -/
def runOp (op : Nat) (body : Nat → Hdr → List Byte → RunCmd → State → Rep) (mb : Fin 128) (s : State) : State :=
  runCmd op (fun _ => true) body mb s

/-- Watchdog limit of a command in ticks (R301). -/
def watchLimit (h : Hdr) (pl : List Byte) : Nat :=
  match h.opcode with
  | 0x206 => numAt pl 4 4 * 100000 + 100000000
  | 0x305 => numAt pl 8 4 * 100000 + 100000000
  | 0x203 => 12000000000 | 0x701 => 12000000000 | 0x104 => 12000000000 | 0x105 => 12000000000 | 0x002 => 12000000000
  | 0x202 => if bitOf (numAt pl 1 1) 0 then 12000000000 else 200000000
  | _ => 200000000

/-- The watchdog's answer (R302): ST_TIMEOUT, DETAIL all ones. A command in a place keeps it while firmware works on it. -/
def watchdogAnswer (k : Nat) (s : State) : State :=
  let s := answerPage k stTimeout 0xFFFFFFFF [] s
  match running s k with
  | some r => setRun (k + 256 * r.arrival) (some { r with ans := none }) (setRun k none s)
  | none => s

/-- DETAIL of ST_NOT_CROWN (R297, R319). -/
def notCrownDetail (s : State) : Nat :=
  if s.crown.portA then 2 else if s.crown.portB then 3 else 0

/-- The function-enable stage of a port is lapsed (R420). -/
def stageLapsed (s : State) (i : Nat) : Bool := (stageOf s i).lapsed

/-- Steps 2 and 3 of R295, which firmware makes: the failing status and DETAIL. -/
def opcodeFault (h : Hdr) : Option (Nat × Nat) :=
  if 3968 < h.len then some (stBadArg, 0x10006)
  else if (opInfo h.opcode).isNone then some (stBadOpcode, 0)
  else none

/-- Firmware that serves again answers the commands it finds that fail at step 2 or 3 (R295). -/
def answerFaulty (s : State) : State :=
  (ownedKeys s (crownHalf s)).foldl (fun s k =>
    match opcodeFault (hdr (page s k)) with
    | some (st, det) => if (running s k).isNone then answerPage k st det [] s else s
    | none => s) s

/-- Step 1 of R295: what the mailbox hardware answers by itself. -/
def hwAnswer (s : State) (h : Half) : Option (Nat × Nat) :=
  if !s.start.ready then some (stBusy, 1)
  else if stageLapsed s (1 + h.num) then some (stNotCrown, 0)
  else if !crownPort s h then some (stNotCrown, notCrownDetail s)
  else if s.crown.activating.isSome then some (stBusyActivate, 0)
  else none

/-- An accepted ownership write with value 1: OWN 1, ARRIVAL, the hardware's own answer or the command event (R288), then
steps 2 and 3 of R295. -/
def submit (h : Half) (k : Nat) (parity : Retry) (s : State) : State :=
  let n := match h with | .a => s.mbx.nextA | .b => s.mbx.nextB
  let s := match h with
    | .a => { s with mbx := { s.mbx with nextA := n + 1 } }
    | .b => { s with mbx := { s.mbx with nextB := n + 1 } }
  let s := setPage k { page s k with own := 1, arrival := n } s
  let hd := hdr (page s k)
  match hwAnswer s h with
  | some (st, det) =>
    answerPage k st det [] (if st = stNotCrown then event h.num 4 0 (k % 128 + 256 * n) s else s)
  | none =>
    let s := setWatch k (some (s.time.clk + watchLimit hd (payload (page s k)))) s
    let inj := injMode s h.num 0 (fun t => t % 128 = k % 128)
    let s := if inj.isSome then disarm h.num s else s
    match injRetry inj parity with
    | .lasting => watchdogAnswer k (eventG inj.isSome h h.num 6 0 (k % 128 + 256 * n) s)
    | p =>
      let s := if p = .transient then eventG inj.isSome h h.num 5 0 (k % 128 + 256 * n) s else s
      match opcodeFault hd with
      | some (st, det) => if serving s then answerPage k st det [] s else s
      | none => s

/-- Firmware takes up service: the answers that waited, commands that fail at step 2 or 3, the fences of failed launches
and the records of ended ones (R265, R268, R295, R318). -/
def resumeService (s : State) : State := recordEnds (assertFences (answerFaulty (flushAnswers s)))

/-- The key of a mailbox at which an opcode's command stands in a place: on the crown's port, else on the other; else one
whose watchdog has answered it. -/
def runKeyOf (s : State) (mb : Fin 128) (op : Nat) : Option (Nat × RunCmd) :=
  let live (h : Half) : Option (Nat × RunCmd) := match running s (mbKey h mb.val) with
    | some r => if r.opcode = op ∧ r.ans.isNone then some (mbKey h mb.val, r) else none
    | none => none
  match live (crownHalf s) with
  | some x => some x
  | none => match live (crownHalf s).other with
    | some x => some x
    | none => s.mbx.run.findSome? (fun x => match x.2 with
      | some r => if 256 ≤ x.1 && x.1 % 128 = mb.val && r.opcode = op then some (x.1, r) else none
      | none => none)

/-- OWNERSHIP_WRITE (R285). A write of another size is no ownership write and the control line ignores it (R276). -/
def execOwnershipWrite (h : Half) (mb : Fin 128) (size data : Nat) (parity : Retry) (s : State) : Out :=
  let k := mbKey h mb.val
  let own := (page s k).own
  let v := data % 4
  .next (
    if !s.power.rails ∨ (size ≠ 4 ∧ size ≠ 8) then s
    else if own = 1 then event h.num 2 0 (mb.val + 256 * (page s k).arrival) s
    else if v = 1 then submit h k parity s
    else if own = 2 ∧ v = 0 then setPage k { page s k with own := 0 } s
    else s)

/-- Bytes written from an offset of a page, with the RSVD bits of the command header 0 (R9, R284). -/
def headerMask : Nat → List Byte → List Byte
  | _, [] => []
  | off, b :: r =>
    (if off = 0x44 then b &&& 3
     else if off = 0x45 ∨ off = 0x52 ∨ 0x54 ≤ off ∧ off < 0x80 then 0
     else b) :: headerMask (off + 1) r

/-- MAILBOX_PAGE_WRITE (R286): discarded and counted while OWN is 1; the control line takes no such write (R276). -/
def execMailboxPageWrite (h : Half) (mb : Fin 128) (off : Nat) (bytes : List Byte) (s : State) : Out :=
  let k := mbKey h mb.val
  let p := page s k
  .next (
    if !s.power.rails ∨ off < 0x40 ∨ 0x1000 < off + bytes.length then s
    else if p.own = 1 then event h.num 3 0 (mb.val + 256 * p.arrival) s
    else setPage k { p with bytes := Memory.store p.bytes off (headerMask off bytes) } s)

/-- MAILBOX_WATCHDOG (R302): time passes to the command's limit. -/
def execMailboxWatchdog (h : Half) (mb : Fin 128) (s : State) : Out :=
  let k := mbKey h mb.val
  .next (
    match FMap.get none s.mbx.watch k with
    | none => s
    | some d =>
      if (page s k).own ≠ 1 ∨ s.crown.activating.isSome ∨ s.crown.takeover ∨
          (s.fab.withdrawn ∧ s.start.resetAt.isSome) then s
      else
        let s := waitUntil d s
        watchdogAnswer k (event h.num 1 0 (mb.val + 256 * (page s k).arrival) s))

end Sys2Proof.Machine
end

