-- ==== Sys2Proof/Machine/Ledger.lean ====
section
/-!
DEFINITION. The energy ledger (R465-R487): activity reports, reconciliation, settlement, receipts, sheets, and the
mailbox commands that read and feed it. Energies are nanojoules; a quotient that the manual writes without a rounding
is taken down to the whole unit (log entry 11).
-/
namespace Sys2Proof.Machine

/-- The ledger, changed. -/
def modLed (f : Ledger → Ledger) (s : State) : State := { s with led := f s.led }

/-- A context's pool and residue account; context 0 is the house. -/
def pool (s : State) (c : Nat) : Pool := (FMap.get none s.led.pools c).getD {}

/-- The same, written. -/
def setPool (c : Nat) (p : Option Pool) (s : State) : State :=
  modLed (fun l => { l with pools := FMap.set none l.pools c p }) s

/-- Contexts that have a pool. -/
def poolCtxs (s : State) : List Nat := s.led.pools.filterMap (fun x => if x.1 = 0 then none else some x.1)

/-- Open requests of a context. -/
def openOf (s : State) (c : Nat) : List Req := s.led.reqs.filter (fun r => r.ctx = c)

-- ---------------------------------------------------------------- receipts and sheets (R477-R483)

/-- nJ to µJ, to nearest, ties to even (R477). -/
def toMicro (e : Nat) : Nat :=
  let q := e / 1000; let r := e % 1000
  if r < 500 then q else if 500 < r then q + 1 else q + q % 2

/-- UNCERT_UJ (R479). -/
def uncertOf (e q : Nat) : Nat := cdiv (15 * e + 1000 * q) 1000000 + 1

/-- Account data of a receipt. -/
structure Account where
  kind : Nat
  tq : Nat
  cause : Nat := 0
  ctx : Nat := 0
  tag : Nat := 0
  openRt : Nat
  closeRt : Nat
  energy : Nat
  dev : Nat
  units : Nat := 0
  held : Bool
  timeSet : Bool
  free : Bool
  methodChg : Bool

/-- FLAGS (R478). -/
def flagsOf (s : State) (a : Account) : Nat :=
  a.tq + 16 * b2n a.free + 32 * b2n a.timeSet + 64 * b2n a.held + 128 * b2n a.methodChg +
  256 * (s.led.house % 2) + 512 * (a.cause % 4) + 2048 * (a.kind % 4)

/-- The receipt's 128 bytes (R477). -/
def receiptBytes (s : State) (a : Account) : List Byte :=
  natLe 2 1 ++ natLe 2 (flagsOf s a) ++ natLe 2 a.ctx ++ natLe 2 s.ident.mid ++ natLe 8 s.ident.serial ++
  natLe 8 a.tag ++ natLe 8 a.openRt ++ natLe 8 a.closeRt ++ natLe 8 (toMicro a.energy) ++
  natLe 8 (uncertOf a.energy a.dev) ++ natLe 2 (methodNow s) ++ natLe 6 0 ++ natLe 8 (prefixOf (digest s)) ++
  natLe 8 (s.led.epoch * 2 ^ 40 + s.led.seq % 2 ^ 40) ++ hashBytes s.led.prevHash ++ natLe 8 a.units ++ natLe 8 0

/-- A sheet closes and waits for its signature (R481). -/
def closeSheet (shut : Bool) (s : State) : State :=
  match s.led.sheet with
  | none => s
  | some h =>
    let h' : Sheet := { h with closeRt := s.time.sup, shut := shut, full := decide (h.count = 256) }
    modLed (fun l => { l with sheet := none, sheets := h' :: l.sheets }) s

/-- A receipt is chained, joins the ring and the open sheet (R480, R481, R484). -/
def issue (a : Account) (s : State) : State :=
  let b := receiptBytes s a
  let r : Receipt := { seq := s.led.seq, ctx := a.ctx, bits := leNat b }
  let full := decide (524288 ≤ s.led.ring.length)
  let lost := full && (match s.led.ring.getLast? with | some o => !o.read | none => false)
  let s := if lost then event 4 7 0 0 s else s
  let h : Sheet := match s.led.sheet with
    | some h => h
    | none => { seq := s.led.sheetSeq, first := s.led.seq, openRt := s.time.sup }
  let newSheet := s.led.sheet.isNone
  let s := modLed (fun l => { l with
      seq := l.seq + 1, prevHash := Config.sm3 b, ring := r :: l.ring.take 524287,
      sheetSeq := if newSheet then l.sheetSeq + 1 else l.sheetSeq,
      sheet := some { h with count := h.count + 1, tq := max h.tq s.time.tq.code } }) s
  if h.count + 1 = 256 then closeSheet false s else s

/-- A receipt's bytes in the ring. -/
def ringHash (s : State) (seq : Nat) : List Byte :=
  match s.led.ring.find? (fun r => r.seq = seq) with
  | some r => hashBytes (Config.sm3 (natLe 128 r.bits))
  | none => []

/-- Hashes of a sheet's receipts from `lo` on, `n` of them. -/
def hashList (s : State) (h : Sheet) (lo n : Nat) : List Byte :=
  ((List.range n).map (· + lo)).flatMap (fun i => if i < h.count then ringHash s (h.first + i) else [])

/-- The sheet block (R483). -/
def sheetBlock (s : State) (h : Sheet) : List Byte :=
  let e := s.led.epoch * 2 ^ 40
  let body := natLe 4 0x53484B41 ++ natLe 2 1 ++ natLe 2 h.count ++ natLe 8 (e + h.seq % 2 ^ 40) ++
    natLe 8 (e + h.first % 2 ^ 40) ++ natLe 8 h.openRt ++ natLe 8 h.closeRt ++
    natLe 4 (h.tq + 4 * b2n h.full + 8 * b2n h.shut) ++ natLe 4 0 ++
    hashBytes (Config.sm3 (hashList s h 0 h.count)) ++ ringHash s (h.first + h.count - 1) ++ natLe 16 0
  body ++ natBe 64 (Config.sm2Sign s.led.key body).toNat ++ s.led.cert

/-- The certificate of an epoch (R482); the identity key has identity 0. -/
def certOf (s : State) (epoch key : Nat) : List Byte :=
  let body := natLe 4 0x4C434B41 ++ natLe 2 1 ++ natLe 2 0 ++ natLe 8 s.ident.serial ++ natLe 4 (epoch % 2 ^ 24) ++
    natLe 4 s.time.tq.code ++ natLe 8 s.time.sup ++ natBe 64 (Config.sm2Pub key).toNat ++ natLe 32 0
  body ++ natBe 64 (Config.sm2Sign 0 body).toNat

-- ---------------------------------------------------------------- settlement (R473)

/-- Share of a value by units, or evenly where no units are pending. -/
def share (v w sum n : Nat) : Nat := if sum = 0 then v / n else v * w / sum

/-- The same rounding up. -/
def shareUp (v w sum n : Nat) : Nat := if sum = 0 then cdiv v n else cdiv (v * w) sum

/-- Settlement of a context's pool (R473). -/
def settle (c : Nat) (s : State) : State :=
  let p := pool s c
  let op := openOf s c
  let n := op.length
  let sum := (op.map (·.pend)).sum
  if n = 0 then
    setPool c (some { p with p := 0, q := 0, pHeld := false, resE := p.resE + p.p, resQ := p.resQ + p.q,
                             held := p.held || (p.pHeld && decide (p.p ≠ 0)) }) s
  else
    let give (r : Req) : Nat := share p.p r.pend sum n
    let given := (op.map give).sum
    let s := modLed (fun l => { l with reqs := l.reqs.map (fun r =>
        if r.ctx = c then { r with energy := r.energy + give r, dev := r.dev + shareUp p.q r.pend sum n, pend := 0,
                                   held := r.held || (p.pHeld && decide (give r ≠ 0)) } else r) }) s
    setPool c (some { p with p := p.p - given, q := 0, pHeld := p.pHeld && decide (p.p - given ≠ 0) }) s

/-- Settles the pool, then closes one open request with its receipt (R474): `e` is the event that closes it. A close of a
request that is not open is refused (R131). -/
def closeReq (e : LedEvent) (tag : Nat) (s : State) : State :=
  let here (r : Req) : Bool := r.ctx = e.ctx && r.tag = tag
  if !s.led.reqs.any here then event 4 1 0 0 s
  else
    let s := settle e.ctx s
    match s.led.reqs.find? here with
    | none => s
    | some r =>
      let s := issue { kind := 0, tq := e.tq, cause := e.cause, ctx := e.ctx, tag := tag, openRt := r.openRt, closeRt := e.rt,
                       energy := r.energy, dev := r.dev, units := r.units, held := r.held, timeSet := r.timeSet,
                       free := r.free || decide (e.tq ≠ 0), methodChg := r.methodChg } s
      modLed (fun l => { l with reqs := l.reqs.filter (fun x => !here x) }) s

/-- A residue or house receipt; the account is cleared and its next period begins (R476). -/
def closeAccount (tq c rt : Nat) (s : State) : State :=
  let p := pool s c
  let s := issue { kind := if c = 0 then 2 else 1, tq := tq, ctx := c, openRt := p.since, closeRt := rt, energy := p.resE,
                   dev := p.resQ, held := p.held, timeSet := p.timeSet, free := p.free || decide (tq ≠ 0),
                   methodChg := p.methodChg } s
  setPool c (some { p with resE := 0, resQ := 0, since := rt, held := false, timeSet := false, free := false,
                           methodChg := false }) s

-- ---------------------------------------------------------------- events (R130, R131, R269)

/-- One event applied. -/
def applyEvent (e : LedEvent) (s : State) : State :=
  match e.kind with
  | 0 =>
    if s.led.reqs.any (fun r => r.ctx = e.ctx && r.tag = e.tag) || decide (4096 ≤ s.led.reqs.length) then
      event 4 1 0 0 s
    else modLed (fun l => { l with reqs := l.reqs ++
      [{ ctx := e.ctx, tag := e.tag, openRt := e.rt, timeSet := e.old, free := decide (e.tq ≠ 0) }] }) (settle e.ctx s)
  | 1 => closeReq e e.tag s
  | 6 => event 4 1 0 0 s
  | 2 =>
    if s.led.reqs.any (fun r => r.ctx = e.ctx && r.tag = e.tag) then
      modLed (fun l => { l with reqs := l.reqs.map (fun r => if r.ctx = e.ctx ∧ r.tag = e.tag then
        { r with pend := r.pend + e.units, units := (r.units + e.units) % 2 ^ 64 } else r) }) s
    else event 4 2 0 0 s
  | 3 => modLed (fun l => { l with reqs := l.reqs.map (fun r => if r.ctx = e.ctx then
        { r with pend := r.pend + e.units, units := (r.units + e.units) % 2 ^ 64 } else r) }) s
  | 4 => (openOf s e.ctx).foldl (fun s r => closeReq e r.tag s) s
  | _ => setPool e.ctx none (closeAccount e.tq e.ctx e.rt (settle e.ctx s))

/-- Event `e` comes before `x`: by stamp, equal ones host first, then by tile (R130, R269). A rack-time load parts the stamps
before it from those after it (log 110). -/
def eventBefore (e x : LedEvent) : Bool :=
  e.old && !x.old || e.old = x.old && (decide (e.rt < x.rt) || e.rt = x.rt && decide (e.order < x.order))

/-- An event put in its place. -/
def insertEvent (e : LedEvent) : List LedEvent → List LedEvent
  | [] => [e]
  | x :: r => if eventBefore e x then e :: x :: r else x :: insertEvent e r

/-- Events sorted, equal ones in their order of arrival. -/
def sortEvents (l : List LedEvent) : List LedEvent := l.foldl (fun a e => insertEvent e a) []

/-- Applies and removes every event stamped before `t`, or before a rack-time load. -/
def applyEvents (t : Nat) (s : State) : State :=
  let now (e : LedEvent) : Bool := e.old || decide (e.rt < t)
  let due := sortEvents ((s.led.hostEv ++ s.led.events).filter now)
  let s := modLed (fun l => { l with hostEv := l.hostEv.filter (fun e => !now e),
                                     events := l.events.filter (fun e => !now e) }) s
  due.foldl (fun s e => applyEvent e s) s

-- ---------------------------------------------------------------- the model (R467-R470)

/-- Coefficient of counter `i` (R547, 0xF001). -/
def coef (s : State) (i : Nat) : Nat := numAt (settingB s 0xF001) (4 * i) 4

/-- Entry of the static power table: row, column, mW. -/
def statEntry (s : State) (i j : Nat) : Nat := numAt (settingB s 0xF002) (4 * (8 * i + j)) 4

/-- Position on an axis of eight points: index and offset, clamped at the edges. -/
def axis (x lo step : Nat) : Nat × Nat :=
  let d := min (x - lo) (7 * step); (min (d / step) 6, d - min (d / step) 6 * step)

/-- Static power × 500 in mW, interpolated bilinearly (R468, R547). -/
def static500 (s : State) (v : Nat) : Nat :=
  let (i, a) := axis s.power.tj 30 10; let (j, b) := axis v 550 50
  statEntry s i j * (10 - a) * (50 - b) + statEntry s (i + 1) j * a * (50 - b) +
  statEntry s i (j + 1) * (10 - a) * b + statEntry s (i + 1) (j + 1) * a * b

/-- Counter `i` of a row: OCC_TICKS stands at index 12. -/
def rowCount (r : ActivityRow) (i : Nat) : Nat := if i = 12 then r.occTicks else nth r.counts i

/-- Counts of a context in a report as a vector of 16. -/
def rowVec (rows : List ActivityRow) (c : Nat) : List Nat :=
  match rows.find? (fun r => r.ctx = c) with
  | some r => (List.range 16).map (rowCount r)
  | none => []

/-- Difference of two count vectors. -/
def vecSub (a b : List Nat) : List Nat := (List.range 16).map (fun i => nth a i - nth b i)

/-- Modelled energy of a count vector, nJ: core-domain counters 0-8 scaled by (V ÷ V_nom)² (R468). -/
def modelled (s : State) (v : List Nat) (mv : Nat) : Nat :=
  let core := ((List.range 9).map (fun i => coef s i * nth v i)).sum
  let rest := (([9, 10, 11, 12, 13, 14, 15] : List Nat).map (fun i => coef s i * nth v i)).sum
  let vn := setting s 0xF005
  if vn = 0 then (core + rest) / 65536 else (core * (mv * mv) + rest * (vn * vn)) / (65536 * (vn * vn))

/-- The report of a half for a frame. -/
def reportOf (s : State) (h : Half) (f : Nat) : Option Report :=
  s.led.reports.find? (fun r => r.half = h && r.frame = f)

/-- Reference counts of a half. -/
def lastOf (s : State) (h : Half) : FMap (List Nat × Nat) := match h with | .a => s.led.lastA | .b => s.led.lastB

/-- The activity of a context in the span, both halves together. -/
def deltaOf (s : State) (ra rb : List ActivityRow) (c : Nat) : List Nat :=
  let one (h : Half) (rows : List ActivityRow) (skip : Bool) : List Nat :=
    if skip then [] else vecSub (rowVec rows c) (FMap.get ([], 0) (lastOf s h) c).1
  let a := one .a ra s.led.rebaseA; let b := one .b rb s.led.rebaseB
  (List.range 16).map (fun i => nth a i + nth b i)

/-- Reference counts after a report. -/
def refer (rows : List ActivityRow) (m : FMap (List Nat × Nat)) : FMap (List Nat × Nat) :=
  rows.foldl (fun m r => FMap.set ([], 0) m r.ctx (rowVec rows r.ctx, r.occTicks)) m

/-- Attribution of `e` nJ over a span (R470): each context's energy and deviation, k in units of 2⁻¹⁶, and whether k
lies outside 0.5 to 2.0. With a modelled total of 0 the manual gives no quotient: free values (log entry 12). -/
def apportion (s : State) (ra rb : List ActivityRow) (e t v : Nat) : List (Nat × Nat × Nat) × Nat × Bool :=
  let act := methodNow s = 1
  let cs := poolCtxs s
  let occ (c : Nat) : Nat := nth (deltaOf s ra rb c) 12
  let stot := static500 s v * t / 50000
  let d (c : Nat) : Nat := if act then modelled s (deltaOf s ra rb c) v else 0
  let st (c : Nat) : Nat := stot * occ c / (36 * t)
  let ssum := (cs.map st).sum
  let hp := if s.start.factoryLost then 0 else setting s 0xF003
  let h := hp * t / 100 + modelled s (deltaOf s ra rb 0) v + (stot - ssum)
  let m := (cs.map (fun c => d c + st c)).sum + h
  let base (c : Nat) : Nat :=
    if act then
      if m = 0 then Config.freeNat 11 (s.free + c) % (e / (cs.length + 1) + 1) else e * (d c + st c) / m
    else (e - min (h - (stot - ssum)) e) * occ c / (36 * t)
  let house := e - (cs.map base).sum
  let osum := (cs.map occ).sum
  let a (c : Nat) : Nat :=
    if s.led.house = 0 ∧ 0 < osum then base c + house * occ c / osum else base c
  let dev (c : Nat) : Nat :=
    if !act then 0 else if m = 0 then Config.freeNat 12 (s.free + c) else cdiv ((if m ≤ e then e - m else m - e) * a c) m
  let k := if !act then 65536 else if m = 0 then Config.freeNat 13 s.free else e * 65536 / m
  (cs.map (fun c => (c, a c, dev c)), k, act && decide (m ≠ 0) && (decide (2 * e < m) || decide (2 * m < e)))

/-- METHOD_SET or CONFIG_START in force from the frame it names (R471). -/
def methodUpdate (f : Nat) (s : State) : State :=
  match s.led.pendMethod with
  | some (g, m, h) =>
    if g ≤ f then
      let chg := decide (m ≠ s.led.method ∨ h ≠ s.led.house)
      modLed (fun l => { l with method := m, house := h, pendMethod := none,
                                reqs := l.reqs.map (fun r => { r with methodChg := r.methodChg || chg }),
                                pools := l.pools.map (fun x => (x.1, x.2.map (fun p =>
                                  { p with methodChg := p.methodChg || chg }))) }) s
    else s
  | none => s

/-- FREE_SEEN of every open account in a frame whose TQ is not 0 (R478). -/
def seeFree (s : State) : State :=
  if s.time.tq = .locked then s
  else modLed (fun l => { l with reqs := l.reqs.map (fun r => { r with free := true }),
                                 pools := l.pools.map (fun x => (x.1, x.2.map (fun p => { p with free := true }))) }) s

/-- Receipts of the accounts that are not requests (R476, R486): at a boundary those that are not zero, at an orderly
shutdown every one, since R474 limits the skipping of zero accounts to the boundaries. -/
def accountsDue (shut : Bool) (rt : Nat) (s : State) : State :=
  (poolCtxs s ++ [0]).foldl (fun s c =>
    if shut || decide ((pool s c).resE ≠ 0) then closeAccount s.time.tq.code c rt s else s) s

/-- Energy joins the house account. -/
def houseAdd (e : Nat) (held : Bool) (s : State) : State :=
  let p := pool s 0
  setPool 0 (some { p with resE := p.resE + e, held := p.held || (held && decide (e ≠ 0)) }) s

/-- One reconciliation of a span that ends at count `t1` (R470-R473, R476): T is the ticks that the span has lasted. -/
def reconcile (ra rb : List ActivityRow) (e v t1 : Nat) (held : Bool) (s : State) : State :=
  let (al, k, drift) := apportion s ra rb e (s.led.spanT + (t1 - s.led.spanAt)) v
  let s := takeFree (if drift then event 4 3 0 0 s else s)
  let s := al.foldl (fun s x =>
    let p := pool s x.1
    setPool x.1 (some { p with p := p.p + x.2.1, q := p.q + x.2.2, pHeld := p.pHeld || (held && decide (x.2.1 ≠ 0)) }) s) s
  let s := houseAdd (e - (al.map (·.2.1)).sum) held s
  let s := modLed (fun l => { l with k16 := k % 2 ^ 32 }) s
  let s := applyEvents t1 s
  (poolCtxs s).foldl (fun s c =>
    if ((openOf s c).map (·.pend)).sum ≠ 0 ∨ s.led.spanFrom ≤ s.led.nextFrame / 100 * 100 then settle c s else s) s

/-- A half's report is late (R469): the frame is held. -/
def markLate (h : Half) (s : State) : State :=
  let first := !s.led.lateA && !s.led.lateB
  let s := match h with
    | .a => modLed (fun l => { l with lateA := true }) s
    | .b => modLed (fun l => { l with lateB := true }) s
  if first then event 4 4 0 0 s else s

/-- The next frame begins for the ledger, at count `t`. -/
def nextSpan (t : Nat) (s : State) : State :=
  modLed (fun l => { l with spanE := 0, spanT := 0, spanAt := t, spanFrom := l.nextFrame + 1, nextFrame := l.nextFrame + 1, lateA := false,
                            lateB := false, reports := l.reports.filter (fun r => l.nextFrame < r.frame) }) s

/-- A host-side stamp for the opening of an account. -/
def openPool (c : Nat) (s : State) : State := setPool c (some { since := now s }) s

/-- The last part of a reconciliation: boundary receipts (R476). -/
def boundaryDue (t1 : Nat) (s : State) : State :=
  let b := t1 / 10000000 * 10000000
  if s.led.boundary < b then modLed (fun l => { l with boundary := b }) (accountsDue false b s) else s

/-- Reference counts after a report: those of the accounts that are still open. -/
def keepRefs (s : State) (rows : List ActivityRow) (m : FMap (List Nat × Nat)) : FMap (List Nat × Nat) :=
  (refer rows m).filter (fun x => x.1 = 0 || (poolCtxs s).contains x.1)

/-- After 100 held frames their energy is the house's, and the events held are applied (R469). -/
def gapNow (s : State) : State :=
  if s.led.nextFrame < s.led.spanFrom + 100 then s
  else
    let t1 := s.led.nextFrame * 100000
    let s := event 4 5 0 0 s
    let s := houseAdd s.led.spanE true s
    let s := applyEvents t1 s
    let newest (h : Half) : Option Report := reportOf s h (s.led.nextFrame - 1)
    let s := boundaryDue t1 s
    modLed (fun l => { l with
      spanE := 0, spanFrom := l.nextFrame, spanT := 0, spanAt := t1,
      lastA := match newest .a with | some r => keepRefs s r.rows l.lastA | none => l.lastA,
      lastB := match newest .b with | some r => keepRefs s r.rows l.lastB | none => l.lastB,
      rebaseA := (newest .a).isNone, rebaseB := (newest .b).isNone,
      reports := l.reports.filter (fun r => l.nextFrame ≤ r.frame) }) s

/-- The rows of a half's report for the next frame; none where it has not come. -/
def activityOf (s : State) (h : Half) : List ActivityRow :=
  match reportOf s h s.led.nextFrame with | some r => r.rows | none => []

/-- Reconciliation of a span that ends at count `t1` on the reports that have come. A half whose report is missing gives no
activity, and its next report sets its reference counts. -/
def reconcileTo (e v t1 : Nat) (s : State) : State :=
  let a := (reportOf s .a s.led.nextFrame).isSome
  let b := (reportOf s .b s.led.nextFrame).isSome
  let ra := activityOf s .a
  let rb := activityOf s .b
  let s := modLed (fun l => { l with rebaseA := l.rebaseA || !a, rebaseB := l.rebaseB || !b }) s
  let s := reconcile ra rb e v t1 (s.led.spanFrom < s.led.nextFrame) s
  modLed (fun l => { l with lastA := if a then keepRefs s ra l.lastA else l.lastA,
                            lastB := if b then keepRefs s rb l.lastB else l.lastB,
                            rebaseA := !a, rebaseB := !b }) s

/-- FRAME_RECONCILE (R470, R486): the measured energy of the next frame and its mean core voltage. The frame of an orderly
shutdown ends at S, and from then on the halves send no reports. -/
def execFrameReconcile (energy vcore : Nat) (s : State) : Out :=
  .next (
    if !s.led.running then s
    else
      let s := gapNow s
      let f := s.led.nextFrame
      let t1 := (f + 1) * 100000
      let s := modLed (fun l => { l with input := l.input + energy }) (seeFree (methodUpdate s.led.spanFrom s))
      let e := s.led.spanE + energy
      match s.led.shut.filter (fun t => decide (t < t1)) with
      | some t =>
        let s := reconcileTo e vcore t s
        let s := closeSheet true (accountsDue true t (applyEvents (t + 1) s))
        let s := nextSpan t s
        modLed (fun l => { l with shut := none }) s
      | none =>
        let s := waitCount t1 s
        if s.power.off ∨ s.power.shutdown.isSome ∧ s.led.shut = none ∨
            (reportOf s .a f).isSome ∧ (reportOf s .b f).isSome then
          nextSpan t1 (boundaryDue t1 (reconcileTo e vcore t1 s))
        else
          let ra := reportOf s .a f
          let rb := reportOf s .b f
          let s := waitCount (t1 + 20000) s
          let s := if ra.isNone then markLate .a s else s
          let s := if rb.isNone then markLate .b s else s
          modLed (fun l => { l with spanE := e, nextFrame := l.nextFrame + 1, lateA := false, lateB := false }) s)

/-- LEDGER_GAP_EXPIRE (R469). -/
def execLedgerGapExpire (s : State) : Out := .next (onlyIf s.led.running gapNow s)

/-- ACTIVITY_REPORT (R28, R130): the half's counts and its events of the frame; events of a span already given to the
house are dropped and counted (R469). -/
def execActivityReport (half : Half) (frame : Nat) (rows : List ActivityRow) (s : State) : Out :=
  .next (
    if !s.led.running then s
    else
      let due (e : LedEvent) : Bool := e.half = half && (e.old || decide (frameOf e.rt ≤ frame))
      let mine := s.led.tileEv.filter due
      let gone (e : LedEvent) : Bool := !e.old && decide (frameOf e.rt < s.led.spanFrom)
      let late := mine.filter gone
      let s := late.foldl (fun s _ => event 4 6 0 0 s) s
      modLed (fun l => { l with
        tileEv := l.tileEv.filter (fun e => !due e),
        events := l.events ++ mine.filter (fun e => !gone e),
        reports := if frame < l.spanFrom then l.reports
          else l.reports.filter (fun r => !(r.half = half && r.frame = frame)) ++ [⟨half, frame, rows⟩] }) s)

/-- REPORT_LATE (R469): 200 µs after the frame ends. -/
def execReportLate (half : Half) (s : State) : Out :=
  .next (
    if !s.led.running ∨ (reportOf s half s.led.nextFrame).isSome then s
    else markLate half (waitCount ((s.led.nextFrame + 1) * 100000 + 20000) s))

/-- SHEET_CLOSE_TIMEOUT (R481): 10,000,000 ticks after the sheet's first receipt. -/
def execSheetCloseTimeout (s : State) : Out :=
  .next (
    match s.led.sheet with
    | none => s
    | some h => closeSheet false (waitCount (h.openRt + 10000000) s))

/-- SHEET_SIGNED (R481): the oldest closed sheet takes its signature. -/
def execSheetSigned (s : State) : Out :=
  .next (
    match (s.led.sheets.filter (fun h => h.block = [])).getLast? with
    | none => s
    | some h => modLed (fun l => { l with
        lastSheet := h.seq,
        sheets := l.sheets.map (fun x => if x.seq = h.seq then { x with block := sheetBlock s x } else x) }) s)

-- ---------------------------------------------------------------- reading (R484)

/-- Receipts with SEQ at or above `from_` in SEQ order, at most 4,096 examined. -/
def examined (s : State) (from_ : Nat) : List Receipt :=
  ((s.led.ring.reverse).filter (fun r => from_ ≤ r.seq)).take 4096

/-- Result of a read of receipts: those that `p` selects, at most `max` of them, and NEXT_SEQ. -/
def readReceipts (s : State) (from_ max : Nat) (p : Receipt → Bool) : List Receipt × Nat :=
  let rec go : List Receipt → Nat → List Receipt → Nat → List Receipt × Nat
    | [], _, acc, nx => (acc.reverse, nx)
    | r :: t, n, acc, nx =>
      if p r then match n with
        | 0 => (acc.reverse, nx)
        | n + 1 => go t n (r :: acc) (r.seq + 1)
      else go t n acc (r.seq + 1)
  go (examined s from_) max [] from_

/-- Marks receipts as read (RING_OVERRUN counts unread ones only). -/
def markRead (l : List Receipt) (s : State) : State :=
  modLed (fun d => { d with ring := d.ring.map (fun r => if l.any (fun x => x.seq = r.seq) then { r with read := true }
                                                         else r) }) s

/-- The read of R484: status, DETAIL (the first wrong field, R610), response and state. `own`: the context whose receipts KIND 0 returns. -/
def ledgerRead (kind from_ max : Nat) (own : Option (Nat × Nat)) (s : State) : Nat × Nat × List Byte × State :=
  let ep := s.led.epoch * 2 ^ 40
  if from_ / 2 ^ 40 ≠ s.led.epoch then (stBadArg, 8, [], s)
  else
    let f := from_ % 2 ^ 40
    let within (h : Sheet) : Bool := h.first ≤ f && f < h.first + h.count
    if kind = 2 then
      let closed := s.led.sheets.find? within
      if closed.isNone && !s.led.sheet.any within then (stBadArg, 8, [], s)
      else if max = 0 ∨ 4 < max then (stBadArg, 16, [], s)
      else match closed with
        | some h =>
          if h.block = [] then (stBusy, 2, [], s)
          else (stOk, 0, h.block ++ hashList s h (64 * (max - 1)) 64, s)
        | none => (stBusy, 2, [], s)
    else if max = 0 ∨ 30 < max then (stBadArg, 16, [], s)
    else
      let p (r : Receipt) : Bool := match own with | some (c, sq) => r.ctx = c && sq ≤ r.seq | none => true
      let (l, nx) := readReceipts s f max p
      (stOk, 0, natLe 2 l.length ++ natLe 6 0 ++ natLe 8 (ep + nx) ++ l.flatMap (fun r => natLe 128 r.bits),
        markRead l s)

/-- LEDGER_READ (R311, R484). -/
def execLedgerRead (mb : Fin 128) (s : State) : Out :=
  .next (runOp 0x505 (fun _ h pl _ s =>
    let kind := numAt pl 0 1
    let max := numAt pl 16 2
    if 2 < kind then badArg 0 s
    else
      let own := if kind = 0 then (ctx? s h.ctx).map (fun c => (h.ctx, c.openSeq)) else none
      let (st, det, r, s) := ledgerRead kind (numAt pl 8 8) max own s
      .ans st det r s) mb s)

-- ---------------------------------------------------------------- REQ_OPEN, REQ_CLOSE, METHOD_SET

/-- Tags of a context open now, with the queued host events applied. -/
def openTags (s : State) (c : Nat) : List Nat :=
  s.led.hostEv.foldl (fun t e =>
    if e.ctx ≠ c then t
    else match e.kind with
      | 0 => t ++ [e.tag]
      | 1 => t.filter (· != e.tag)
      | 4 => []
      | _ => t) ((openOf s c).map (·.tag))

/-- Places of R475 in use, with those that queued opens take; a queued close frees its place with its receipt. -/
def openPlaces (s : State) : Nat := s.led.reqs.length + (s.led.hostEv.filter (fun e => e.kind = 0)).length

/-- REQ_OPEN or REQ_CLOSE tag by tag, in payload order (R311): results and state. A refused one reaches the ledger only as
a refusal (R131). -/
def tagEvents (c kind : Nat) : List Nat → State → List Byte × State
  | [], s => ([], s)
  | t :: r, s =>
    let isOpen := (openTags s c).contains t
    let res : Nat := if kind = 0 then (if isOpen then 1 else if 4096 ≤ openPlaces s then 2 else 0)
      else (if isOpen then 0 else 1)
    let (b, s) := tagEvents c kind r (hostEvent c (if res = 0 then kind else 6) t 0 s)
    (natLe 1 res ++ b, s)

/-- The shared body of REQ_OPEN and REQ_CLOSE. -/
def reqBody (kind : Nat) (h : Hdr) (pl : List Byte) (s : State) : Rep :=
  let n := numAt pl 0 2
  if n = 0 ∨ 256 < n then badArg 0 s
  else if h.len ≠ 8 + 8 * n then badArg 0x10006 s
  else
    let (b, s) := tagEvents h.ctx kind ((List.range n).map (fun i => numAt pl (8 + 8 * i) 8)) s
    okRep b s

/-- REQ_OPEN (R269, R311). -/
def execReqOpen (mb : Fin 128) (s : State) : Out :=
  .next (runOp 0x503 (fun _ h pl _ s => reqBody 0 h pl s) mb s)

/-- REQ_CLOSE (R474, R311). -/
def execReqClose (mb : Fin 128) (s : State) : Out :=
  .next (runOp 0x504 (fun _ h pl _ s => reqBody 1 h pl s) mb s)

end Sys2Proof.Machine
end

