-- ==== Sys2Proof/Machine/Flags.lean ====
section
/-!
DEFINITION. The status words as they read: W1C bits from the window, read-only bits from the state they show (R71, R72,
R222, R278, R279, R369, R440, R464, R487, R502-R510, R540, R570).
-/
namespace Sys2Proof.Machine

/-- Sum of the set flags, each at its bit. -/
def bitsWord : List (Nat × Bool) → Nat
  | [] => 0
  | (i, b) :: r => (if b then 2 ^ i else 0) + bitsWord r

/-- An orderly shutdown or a THERM_ALERT_N countdown is running (R464). -/
def shutdownPending (s : State) : Bool := s.power.shutdown.isSome || s.power.countdown.isSome

/-- The input lies in a marginal state of R442. -/
def marginalMv (mv : Nat) : Bool := 45000 ≤ mv && mv < 46000 || 56000 < mv && mv ≤ 57000

/-- Read-only bits of PWR_STS (R464). -/
def pwrRo (s : State) : Nat :=
  bitsWord [(13, s.power.marginal), (14, !s.pins.pwrBrakeN), (15, !s.pins.thermAlertN), (16, braked s),
            (17, shutdownPending s), (18, s.power.lapsed)] + 2 ^ 19 * source s

/-- Path 1 silent in one direction; the same for path 2 (R440). -/
def pathFault (s : State) (path2 : Bool) : Bool :=
  if path2 then s.crown.monA.sil2 || s.crown.monB.sil2 else s.crown.monA.sil1 || s.crown.monB.sil1

/-- Read-only bits of CROWN_STS (R440). -/
def crownRo (s : State) : Nat :=
  bitsWord [(0, s.crown.holder = .b), (2, s.crown.latch.isSome), (3, s.crown.takeover), (6, pathFault s false), (7, pathFault s true),
            (14, s.crown.supFail), (15, s.crown.safe)] + 16 * (s.crown.standby % 4)

/-- Read-only bits of LEDGER_STS (R487). -/
def ledgerRo (s : State) : Nat :=
  bitsWord [(8, s.led.sheets.any (fun h => h.block = [])), (11, s.led.house = 1)] + 512 * (methodNow s % 4) +
  2 ^ 16 * (s.led.reqs.length % 2 ^ 13)

/-- MID_CHANGE_PENDING (R325). -/
def midPending (s : State) : Bool := s.ident.pendSlot.isSome || s.ident.pendRack.isSome

/-- Any cluster's partition fenced or resetting, and its degradation (R503). -/
def clusterRo (s : State) (c : Nat) : Nat :=
  let x := cluster s c
  bitsWord [(10, x.fenced), (11, x.resetting), (12, x.tested && decide (goodOf s c < 64))]

/-- Read-only bits of a block's STS. -/
def roSts (s : State) (blk : Nat) : Nat :=
  if blk = 2 then crownRo s
  else if blk = 3 then pwrRo s
  else if blk = 4 then ledgerRo s
  else if blk = 5 then bitsWord [(1, midPending s)]
  else if blk = 6 then bitsWord [(0, s.brRetrain)]
  else if blk = 8 then bitsWord [(0, s.crown.monA.halted)]
  else if blk = 9 then bitsWord [(0, s.crown.monB.halted)]
  else if blk = 0xA ∨ blk = 0xB then bitsWord [(2, (FMap.get {} s.crown.stages (blk - 0xA + 3) : Stage).lapsed)]
  else if blk = 0x12 ∨ blk = 0x13 then bitsWord [(0, !(cxl s (Half.ofNum blk)).enabled)]
  else if 0x20 ≤ blk ∧ blk < 0x38 then bitsWord [(15, (FMap.get {} s.mem.mcs (blk - 0x20) : Mc).trainFail)]
  else if 0x40 ≤ blk ∧ blk < 0x64 then clusterRo s (blk - 0x40)
  else 0

/-- STS of a block as it reads; 0 for an absent unit (R490). -/
def stsOf (s : State) (blk : Nat) : BitVec 32 :=
  if absentBlk s blk then 0#32 else (win s blk).sts ||| BitVec.ofNat 32 (roSts s blk)

/-- START_STS (R540). -/
def startSts (s : State) : Nat :=
  bitsWord [(1, s.start.fallback), (2, s.start.defaulted), (3, s.start.defectLost), (4, s.start.factoryLost),
            (5, s.start.full)] + 2 ^ 8 * (s.start.actResult % 4) + 2 ^ 10 * (s.start.unit % 64) +
  2 ^ 16 * (s.start.cause % 16) + 2 ^ 20 * (s.start.phase % 16)

/-- MB_STATE of a port (R279). -/
def mbState (s : State) (h : Half) : Nat :=
  bitsWord [(0, s.start.ready), (1, crownPort s h), (2, s.crown.activating.isSome), (3, s.crown.takeover),
            (4, s.crown.holder = .b)] + 2 ^ 16 * (s.ident.mid % 4096)

/-- ID_UNITS (R278). -/
def idUnits (s : State) : Nat :=
  let v := s.ident.variant
  bitsWord [(0, v ≠ .s), (1, v ≠ .l), (2, v ≠ .l), (3, true), (4, s.mem.tierOff)] + (if v = .s then 0 else 64 * 256)

/-- Variant code of ID_PART (R277). -/
def variantCode : Variant → Nat
  | .f => 0
  | .l => 1
  | .s => 2

/-- PORT_STATE (R369). -/
def portState (s : State) (p : Nat) : Nat :=
  if s.ident.variant = .s then 0
  else
    let x := port s p
    x.reason % 256 + bitsWord [(8, s.ident.midValid), (9, x.digUnchecked), (10, x.digMismatch), (11, x.peerSwitch)] +
    2 ^ 12 * (x.peerMid % 4096) + 2 ^ 24 * (x.proto % 4) + 2 ^ 26 * (x.role % 4) + 2 ^ 28 * (x.st % 16) +
    2 ^ 32 * (x.linkDelay % 65536)

/-- RT_STATUS (R72). -/
def rtStatus (s : State) : Nat :=
  s.time.tq.code + bitsWord [(3, s.time.armed.isSome)] + (s.time.w1c &&& 0xF0#32).toNat + 2 ^ 16 * (s.time.epoch % 65536)

/-- TR_STATE (R570). -/
def trState (s : State) (h : Half) : Nat :=
  let t := tr s h
  bitsWord [(0, t.capture), (1, t.sizePend.isSome), (2, true)] + 2 ^ 5 * (t.ringMib % 2048) + 2 ^ 16 * (t.epoch % 65536)

/-- The management input's value, 0 where absent (R463). -/
def mgmtInput (s : State) : Nat := if s.power.lapsed then s.power.lapseW else s.power.mgmtCap

/-- Milliseconds left of the lease. -/
def leaseLeft (s : State) : Nat :=
  match s.power.leaseAt with | some d => (d - s.time.clk) / 100000 | none => 0

/-- STANDBY of the half that is not the holder, under R430, R421 and R433: 2 once its control domain has failed, it has
lost the crown or it has demoted itself, until a resynchronisation; 0 while a heartbeat and the last commit are no older than
500 ms and the checkpoint verifies; else 1. -/
def standbyNow (s : State) (h : Half) : Nat :=
  let m := mon s h
  if m.cpFailed || m.demoted || m.own != 0 then 2
  else
    let fresh (o : Option Nat) : Bool := match o with | some t => decide (s.time.clk ≤ t + 50000000) | none => false
    if (fresh m.rx1 || fresh m.rx2) && decide (s.time.clk ≤ s.crown.ckptAt + 50000000) && m.verified then 0 else 1

end Sys2Proof.Machine
end

