-- ==== Sys2Proof/Machine/Transit.lean ====
section
/-!
DEFINITION. The shared operations of the transit domains: port states, roles and peers (R322-R330), the routing image
(R340, R341, R347), routing (R342-R353), notices and withdrawal (R372-R376).
-/
namespace Sys2Proof.Machine

/-- The fabric, changed. -/
def modFab (f : Fab → Fab) (s : State) : State := { s with fab := f s.fab }

/-- MESH_X and MESH_Y of a MID (R586). -/
def meshX (mid : Nat) : Nat := mid % 8
def meshY (mid : Nat) : Nat := mid / 8 % 8

/-- Role by default (R323). -/
def defaultRole (mid p : Nat) : Nat :=
  if p < 12 then (if meshY mid = 0 then 0 else 1)
  else if p < 24 then (if meshX mid = 7 then 0 else 1)
  else if p < 36 then (if meshY mid = 7 then 0 else 1)
  else if p < 48 then (if meshX mid = 0 then 0 else 1)
  else 2

/-- Role by the PORT_ROLE key, else by default. -/
def roleOf (s : State) (p : Nat) : Nat :=
  let v := settingB s 0x0002
  if v = [] then defaultRole s.ident.mid p else leNat v / 4 ^ p % 4

/-- MID of the neighbour a mesh port faces (R322); none beyond the rack's edge. -/
def neighbour (mid p : Nat) : Option Nat :=
  let x := meshX mid; let y := meshY mid; let b := mid / 64 * 64
  if p < 12 then (if y = 0 then none else some (b + 8 * (y - 1) + x))
  else if p < 24 then (if x = 7 then none else some (b + 8 * y + x + 1))
  else if p < 36 then (if y = 7 then none else some (b + 8 * (y + 1) + x))
  else if p < 48 then (if x = 0 then none else some (b + 8 * y + x - 1))
  else none

/-- The peer is the one the port's role expects (R327). -/
def peerOk (s : State) (p : Nat) (isSwitch : Bool) (mid : Nat) : Bool :=
  match (port s p).role with
  | 1 => !isSwitch && decide (neighbour s.ident.mid p = some mid)
  | 2 => isSwitch || decide (mid / 64 ≠ s.ident.mid / 64)
  | _ => false

/-- A port's STS event (R370); FIRST_INFO is PEER_MID (R493). -/
def portEvent (p bit : Nat) (s : State) : State := event (0x80 + p) bit 0 (port s p).peerMid s

-- ---------------------------------------------------------------- routing image

/-- Parses a routing image (R340). -/
def parseRoute (img : List Byte) : RouteTab :=
  let sets := (List.range 255).foldl (fun m i => FMap.set 0 m i (numAt img (0x40 + 8 * i) 8)) []
  let entries := (List.range 4096).foldl (fun m i => FMap.set 0 m i (numAt img (0x840 + 4 * i) 4)) []
  let rings : FMap (Option Ring) := (List.range 32).foldl (fun m i =>
    let o := 0x4840 + 80 * i
    let n := numAt img (o + 64) 1
    if n = 0 then m
    else FMap.set none m i (some { pos := (List.range n).map (fun k => numAt img (o + k) 1),
                                   dateline := numAt img (o + 65) 1 })) []
  { sets := sets, entries := entries, rings := rings, raw := img }

/-- Two positions are mesh neighbours (R348). -/
def adjacent (a b : Nat) : Bool :=
  let dx := max (a % 8) (b % 8) - min (a % 8) (b % 8); let dy := max (a / 8) (b / 8) - min (a / 8) (b / 8)
  decide (a < 64 ∧ b < 64 ∧ dx + dy = 1)

/-- A ring record obeys R348. -/
def ringOk (r : Ring) : Bool :=
  let n := r.pos.length
  decide (2 ≤ n ∧ n ≤ 64 ∧ r.dateline < n) && decide r.pos.Nodup &&
  (List.range n).all (fun i => adjacent (nth r.pos i) (nth r.pos ((i + 1) % n)))

/-- The checks of R345 on an image. -/
def routeOk (img : List Byte) : Bool :=
  let sets := numAt img 6 2
  let t := parseRoute img
  let idx (v : Nat) : Bool := v = 255 || decide (v < sets)
  decide (img.length = 21056 ∧ numAt img 0 4 = 0x45545552 ∧ numAt img 4 2 = 1 ∧ 1 ≤ sets ∧ sets ≤ 255 ∧
    numAt img 8 2 ≤ 32) &&
  t.entries.all (fun x => idx (fld x.2 23 16) && idx (fld x.2 15 8) && decide (fld x.2 31 30 ≠ 3)) &&
  t.rings.all (fun x => match x.2 with | some r => ringOk r | none => true)

/-- A routing entry. -/
def routeEntry (s : State) (mid : Nat) : Nat := FMap.get 0 s.fab.tab.entries mid

/-- A port set as a mask; set 255 is empty. -/
def portSet (s : State) (i : Nat) : Nat := if i = 255 then 0 else FMap.get 0 s.fab.tab.sets i

/-- The ports whose peer is a module. -/
def portsTo (s : State) (mid : Nat) : List Nat :=
  (List.range 64).filter (fun p => let x := port s p; x.st ≠ 0 && x.peerMid = mid && !x.peerSwitch)

-- ---------------------------------------------------------------- routing (R342-R353, R361, R363, R374)

/-- Counter and STS bit of a dropped packet. -/
structure Drop where
  ctr : Nat
  bit : Option Nat
  deriving DecidableEq, Repr

def hopLimit : Drop := ⟨42, some 10⟩
def misdelivered : Drop := ⟨41, some 11⟩
def noRoute : Drop := ⟨43, none⟩
def bl1Drop : Drop := ⟨44, some 12⟩
def ringLoop : Drop := ⟨45, some 13⟩
def withdrawDiscard : Drop := ⟨46, none⟩
def badPacket : Drop := ⟨47, none⟩

/-- A packet is dropped and counted at the port it arrived on; one of the own engines at the port of sending (R371), the
port that it would have left by, where there is one. -/
def dropAt (inp : Nat) (out : Option Nat) (d : Drop) (s : State) : State :=
  match (if inp < 64 then some inp else out) with
  | none => s
  | some p =>
    let s := count (0x80 + p) d.ctr 1 s
    match d.bit with | some b => portEvent p b s | none => s

/-- Eligible ports of a mask, of one role or of any (R342): ACTIVE, not in TEST. One that LINK_CTL has enabled or retrained
returns to routing once it is ACTIVE at both ends (R376). -/
def eligible (s : State) (mask : Nat) (role : Option Nat) : List Nat :=
  (bitsOf mask 64).filter (fun p =>
    let x := port s p
    decide (x.st = 4) && !(x.byCtl && x.peerHeld) && (match role with | some r => decide (x.role = r) | none => true))

/-- Mask of the mesh ports of a direction: 0 north, 1 east, 2 south, 3 west (R322). -/
def sideMask (d : Nat) : Nat := (2 ^ 12 - 1) * 2 ^ (12 * d)

/-- Direction in dimension order from one mesh position to another (R342). -/
def dorSide (own d : Nat) : Nat :=
  if meshX own < meshX d then 1 else if meshX d < meshX own then 3 else if meshY d < meshY own then 0 else 2

/-- Bytes of the resend buffer of a port in use (R357). -/
def resendBytes (s : State) (p : Nat) : Nat :=
  ((s.fab.resend.filter (fun r => r.port = p)).map (fun r => 64 * flits r.pkt)).sum

/-- R343: the most free credits on the VC, the lower port among equals; for VC7 a fixed choice. -/
def choosePort (s : State) (l : List Nat) (k : Pkt) : Option Nat :=
  if k.vc = 7 then l[(k.srcMid * 4096 + k.destMid) % 65521 % l.length]?
  else l.foldl (fun b p => match b with
    | none => some p
    | some q => if nth (port s q).credit k.vc < nth (port s p).credit k.vc then some p else some q) none

/-- What a router does with a header: a drop names the port of sending of an own packet. -/
inductive Hop where
  | drop (d : Drop) (out : Option Nat := none)
  | here
  | send (p : Nat)

/-- A packet that keeps R361 where it is on VC7. -/
def bl1Rule (k : Pkt) : Bool :=
  k.vc != 7 || [1, 2, 3, 4, 5, 8, 9].contains k.opcode && decide (k.payload.length ≤ 2048) && !k.mcast

/-- The lowest port of a mask. -/
def lowPort (mask : Nat) : Option Nat := (bitsOf mask 64).head?

/-- The chosen port takes the packet, unless a BL1 port would carry another VC or the packet breaks R361 (R363). `low`: the
port at which an own packet that finds none counts. -/
def takePort (s : State) (l : List Nat) (low : Option Nat) (k : Pkt) : Hop :=
  match choosePort s l k with
  | none => .drop noRoute low
  | some p => if (port s p).proto = 1 ∧ k.vc ≠ 7 ∨ !bl1Rule k then .drop bl1Drop (some p) else .send p

/-- A ring packet at a module that is not its destination (R349, R350). -/
def ringHop (s : State) (k : Pkt) : Hop :=
  match ringPlace s k with
  | none => .drop noRoute
  | some (r, i) =>
    let m := sideMask (dorSide s.ident.mid (nth r.pos ((i + 1) % r.pos.length)))
    if i = r.dateline ∧ k.dlCrossed then .drop ringLoop (lowPort m)
    else takePort s (eligible s m (some 1)) (lowPort m) k

/-- The destination is a module that has withdrawn from this one (R374). -/
def destWithdrawn (s : State) (mid : Nat) : Bool :=
  let l := portsTo s mid
  l != [] && l.all (fun p => (port s p).withdrawn)

/-- By the table or dimension order (R342). -/
def tableHop (s : State) (k : Pkt) : Hop :=
  let e := routeEntry s k.destMid
  let altSet := portSet s (fld e 23 16)
  let alt := eligible s altSet none
  let l : Option (List Nat × Nat) :=
    if k.alt then some (alt, altSet)
    else match fld e 31 30 with
      | 1 =>
        if k.destMid / 64 = s.ident.mid / 64 then
          let m := sideMask (dorSide s.ident.mid k.destMid); some (eligible s m (some 1), m)
        else let m := portSet s (fld e 15 8); some (eligible s m (some 2), m)
      | 2 => let m := portSet s (fld e 15 8); some (eligible s m none, m)
      | _ => none
  match l with
  | none => .drop noRoute
  | some (l, m) => takePort s (if l = [] then alt else l) (lowPort m) k

/-- One header routed at this module (R342), multicast apart. A REDUCE of the own engines toward the switches leaves by an
uplink and not by the table (R412). -/
def hop (s : State) (inp : Nat) (k : Pkt) : Hop :=
  if 64 ≤ k.hops then .drop hopLimit
  else if k.opcode = 0 ∨ 13 < k.opcode then .drop badPacket
  else if inp < 64 ∧ !bl1Rule k then .drop bl1Drop
  else if s.fab.withdrawn ∧ s.fab.drainEnd.isNone then .drop withdrawDiscard
  else if 64 ≤ inp ∧ k.opcode = 6 ∧ k.vc = 4 ∧ k.destMid = s.ident.mid then
    takePort s (eligible s (2 ^ 64 - 1) (some 2)) none k
  else if k.destMid = s.ident.mid then .here
  else if destWithdrawn s k.destMid then .drop withdrawDiscard (portsTo s k.destMid).head?
  else if k.vc = 2 ∨ k.vc = 3 then ringHop s k
  else if inp < 64 ∧ (port s inp).role = 2 ∧ !((k.opcode = 8 ∨ k.opcode = 9) ∧ k.destMid / 64 = s.ident.mid / 64) then
    .drop misdelivered
  else tableHop s k

/-- A packet handed to an engine of this module: listed as sent on port 64. -/
def handIn (k : Pkt) (s : State) : State := modFab (fun f => { f with out := (64, k) :: f.out }) s

/-- A packet from a port or an engine would cross the bridge to a half while the bridge retrains (R24). -/
def crosses (s : State) (inp : Nat) (k : Pkt) (h : Half) : Bool :=
  s.brRetrain && decide ((if inp < 64 then portHalf inp else k.srcHalf) ≠ h)

/-- It waits for the bridge. -/
def holdAtBridge (inp : Nat) (k : Pkt) (s : State) : State := modFab (fun f => { f with bridge := f.bridge ++ [(inp, k)] }) s

/-- A multicast packet inside its block (R352): the copies by side, then the local copy. -/
def splitMask (own mask side : Nat) : Nat :=
  (List.range 64).foldl (fun m p =>
    let on : Bool := match side with
      | 1 => decide (meshX own < meshX p)
      | 3 => decide (meshX p < meshX own)
      | 0 => decide (meshX p = meshX own ∧ meshY p < meshY own)
      | _ => decide (meshX p = meshX own ∧ meshY own < meshY p)
    if mask.testBit p && on then m + 2 ^ p else m) 0

/-- One routed packet leaves, is handed in or is dropped: the state and the port it left by, if any. -/
def doHop (inp : Nat) (h : Hop) (k : Pkt) (s : State) : State × Option Nat :=
  match h with
  | .drop d o => (freeIn inp k (dropAt inp o d s), none)
  | .here => (if crosses s inp k k.destHalf then holdAtBridge inp k s else handIn k (freeIn inp k s), none)
  | .send p => if crosses s inp k (portHalf p) then (holdAtBridge inp k s, none) else (putOut p inp k s, some p)

/-- A multicast packet (R351, R352): outside its block by the block's entry, inside it by copies. -/
def mcastHop (inp : Nat) (k : Pkt) (s : State) : State × Option Nat :=
  if 64 ≤ k.hops then (dropAt inp none hopLimit s, none)
  else if k.opcode = 0 ∨ 13 < k.opcode then (dropAt inp none badPacket s, none)
  else if !bl1Rule k then (dropAt inp none bl1Drop s, none)
  else if s.fab.withdrawn ∧ s.fab.drainEnd.isNone then (dropAt inp none withdrawDiscard s, none)
  else if k.destMid / 64 ≠ s.ident.mid / 64 then doHop inp (tableHop s k) k s
  else
    let own := s.ident.mid % 64
    let r := [1, 3, 0, 2].foldl (fun (x : State × Option Nat) d =>
      let m := splitMask own k.destMask d
      if m = 0 then x
      else
        let c := { k with destMask := m }
        let (s, q) := doHop inp (takePort x.1 (eligible x.1 (sideMask d) (some 1)) (lowPort (sideMask d)) c) c x.1
        (s, match x.2 with | some p => some p | none => q)) (s, none)
    if k.destMask.testBit own then (doHop inp .here { k with destMask := 2 ^ own } r.1 |>.1, r.2) else r

/-- Routes a header that has already counted its hop. -/
def routeOn (inp : Nat) (k : Pkt) (s : State) : State × Option Nat :=
  if k.mcast then mcastHop inp k s else doHop inp (hop s inp k) k s

/-- Routes a header at this module (R342). -/
def route (inp : Nat) (k : Pkt) (s : State) : State × Option Nat := routeOn inp { k with hops := k.hops + 1 } s

/-- The packets queued on a port that leaves routing are routed again, in queue order (R330). Control packets of one hop
stay with the port where it still carries VC6. -/
def requeue (p : Nat) (s : State) : State :=
  let q := (port s p).queue
  let own (x : Nat × Pkt) : Bool := [0xA, 0xB, 0xD].contains x.2.opcode
  let keep := [4, 5, 8].contains (port s p).st
  let s := setQueue p (if keep then q.filter own else []) s
  (q.filter (fun x => !own x)).foldl (fun s x => (routeOn x.1 x.2 s).1) s

-- ---------------------------------------------------------------- port states (R326-R330)

/-- A port enters a state; a change sets STATE_CHANGE, and leaving ACTIVE routes its queue again (R330). -/
def setPortSt (p st : Nat) (s : State) : State :=
  let old := (port s p).st
  let s := modPort p (fun x => { x with st := st, since := s.time.clk }) s
  if old = st then s
  else
    let s := portEvent p 0 s
    if old = 4 then requeue p s else s

/-- Counts and marks of a freshly trained link (R333): its receive buffer is empty. -/
def freshLink (s : State) (x : Port) : Port :=
  { x with retSeen := [0, 0, 0, 0, 0, 0, 0, 0], rxFlits := [0, 0, 0, 0, 0, 0, 0, 0], freed := [0, 0, 0, 0, 0, 0, 0, 0],
           sentFlits := [0, 0, 0, 0, 0, 0, 0, 0], retHeld := none, hit := [], turn := 0, up := s.time.clk,
           testReq := false, retrainReq := false, peerHeld := false, beaconGap := 0 }

/-- A port begins a training attempt (R326). -/
def train (p : Nat) (s : State) : State :=
  setPortSt p 1 (modPort p (fun x => { x with test := none, proto := 0 }) s)

/-- A port leaves ACTIVE for a retrain with no attempt failed (R328). -/
def retrain (p : Nat) (s : State) : State :=
  train p (modPort p (fun x => { x with retrain := true, tries := 0 }) s)

/-- A port retrains by a command, a role change or the end of a test: no fault that RETRAIN_TRANSIENT would count, so it
is marked by `tries` 2 (R323, R376, R377). -/
def retrainQuiet (p : Nat) (s : State) : State :=
  train p (modPort p (fun x => { x with retrain := true, tries := 2 }) s)

/-- A training attempt has failed for a reason (R328): a link has one attempt and one retry at module start; a retrain
has one attempt. A withdrawn port keeps trying and counts nothing. -/
def attemptFailed (p reason : Nat) (s : State) : State :=
  let x := port s p
  if x.withdrawn then setPortSt p 1 s
  else if x.retrain then
    let s := portEvent p 2 (count (0x80 + p) 37 1 s)
    setPortSt p 7 (modPort p (fun x => { x with reason := 5, retrain := false }) s)
  else if x.tries = 0 then
    setPortSt p 1 (modPort p (fun x => { x with tries := 1, reason := reason }) s)
  else
    let s := portEvent p 2 (count (0x80 + p) 37 1 s)
    setPortSt p 7 (modPort p (fun x => { x with reason := reason }) s)

/-- A port becomes ACTIVE, or WITHDRAWN while its peer holds it withdrawn (R328, R375). -/
def becomeActive (p : Nat) (s : State) : State :=
  let x := port s p
  let s := if (x.retrain && x.tries != 2 || x.tries = 1) && !x.withdrawn then portEvent p 1 (count (0x80 + p) 36 1 s) else s
  let s := modPort p (fun y => freshLink s { y with retrain := false, tries := 0, reason := 0, ctlOff := false }) s
  setPortSt p (if x.withdrawn then 5 else 4) s

/-- All ports begin to train at a module start; an UNUSED port reads DISABLED with reason 7 (R323, R326, R537). -/
def trainAll (s : State) : State :=
  if s.ident.variant = .s then s
  else (List.range 64).foldl (fun s p =>
    let r := roleOf s p
    if r = 0 ∨ r = 3 then modPort p (fun x => { x with role := 0, reason := 7 }) s
    else train p (modPort p (fun x => { x with role := r }) s)) s

-- ---------------------------------------------------------------- notices and withdrawal

/-- A NOTICE (R338). -/
def noticePkt (s : State) (p kind port tick : Nat) : Pkt :=
  { opcode := 0x0B, vc := 6, srcHalf := portHalf p, srcMid := s.ident.mid, destMid := 0xFFF, destMask := tick,
    opArg := kind + 256 * port }

/-- A NOTICE leaves on every port in one of the states. -/
def noticeAll (kind tick : Nat) (sts : List Nat) (s : State) : State :=
  (portsIn s sts).foldl (fun s p => sendOn p (noticePkt s p kind 0 tick) s) s

/-- A withdrawal of the module at a tick, in entry `i` (0 or 1) of the schedule (R61, R372): the earlier of two ticks
stands. -/
def withdrawModule (i tick cause : Nat) (s : State) : State :=
  let o := sched s i
  if o.st = 1 ∧ o.rt ≤ tick then s
  else
    let s := if o.st = 1 then modFab (fun f => { f with comps := f.comps.filter (fun c =>
        !(c.own && c.kind = 0 && c.tick = o.rt && c.cause = fld o.arg 18 16)) }) s else s
    let s := schedPut i tick 6 0 (cause * 2 ^ 16) false 0 s
    noticeAll 0 tick [4, 5, 8] s

/-- A port leaves routing withdrawn (R374-R376). -/
def withdrawPort (p : Nat) (s : State) : State :=
  let s := modPort p (fun x => { x with withdrawn := true }) s
  if (port s p).st = 4 then setPortSt p 5 s else s

/-- A port disabled by LINK_CTL at its tick, out of routing from then on (R376). A withdrawal by its peer outlives it
(R375). -/
def disablePort (p : Nat) (s : State) : State :=
  setPortSt p 0 (modPort p (fun x => { x with reason := 6, ctlOff := true }) s)

end Sys2Proof.Machine
end

