-- ==== Sys2Proof/Machine/Life.lean ====
section
/-!
DEFINITION. The operations that end or restart the whole module: flash records (R530, R543), grants (R417), demotion
(R421), the safe state (R437, R438), orderly shutdown (R443), module reset (R526, R527), loss of the input (R486), and
the commands whose effect they are.
-/
namespace Sys2Proof.Machine

-- ---------------------------------------------------------------- flash records (R530, R543-R545)

/-- Writes the settings records (R530, R546). -/
def writeSettings (r : Retry) (m : FMap (List Byte)) (s : State) : Bool × State :=
  let (ok, s) := flashTry s.flash.settings 0x100000 0x100000 r s
  let d := s.flash.settings
  (ok, { s with flash := { s.flash with settings := d.put ok s.pins.aux3v3 m },
                start := { s.start with settings := if ok then m else s.start.settings,
                                        defaulted := s.start.defaulted && !ok } })

/-- Writes the slot directory. -/
def writeDir (r : Retry) (m : SlotDir) (s : State) : Bool × State :=
  let (ok, s) := flashTry s.flash.dir 0x5000 0x1000 r s
  let d := s.flash.dir
  (ok, { s with flash := { s.flash with dir := d.put ok s.pins.aux3v3 m },
                start := { s.start with dir := if ok then m else s.start.dir } })

-- ---------------------------------------------------------------- the crown (R417, R421, R435)

/-- A grant (R416, R417): claim number + 1 to a half; the claim records are rewritten, and fewer than two that verify set
CLAIM_PERSIST_FAIL. Without the 3.3 V standby the records are not touched (R33). -/
def grant (h : Half) (takeover : Bool) (verified : List Bool) (s : State) : State :=
  let t := s.crown.takeovers
  let r : ClaimRec := { claim := (s.crown.claim + 1) % 2 ^ 32, holder := h,
                        takeovers := (if takeover then t + 1 else t) % 2 ^ 32, grantRt := s.time.sup }
  let ok (i : Nat) : Bool := verified.getD i false && s.pins.aux3v3
  let s := if !s.pins.aux3v3 then s
    else (flashCheck 0 0x3000
      { s with flash := { s.flash with claims := [0, 1, 2].map (fun i => if ok i then some r else none) } }).2
  let s := modMon h (fun m => { m with own := r.claim })
    (modCrown (fun c => { c with claim := r.claim, holder := h, takeovers := r.takeovers }) s)
  if ([0, 1, 2].filter ok).length < 2 then event 2 13 0 0 s else s

/-- Every stage's FLOOR raised to the current claim number (R420); a stage never lowers it. -/
def raiseFloors (s : State) : State :=
  (List.range 6).foldl (fun s i => modCrown (fun c => { c with stages := FMap.mod {} c.stages i (fun x =>
    { x with floor := max x.floor c.claim, seenAt := s.time.clk, lapsed := false }) }) s) s

/-- MSI-X vectors held while no port had CROWN_PORT 1 go out on the port that has it now (R281). -/
def flushHeld (s : State) : State :=
  let l := s.mbx.held
  l.foldl (fun s v => msix s.crown.holder v s) { s with mbx := { s.mbx with held := [] } }

/-- Watchdogs of owned commands take up again after a pause that began at `t` (R302, R438). -/
def resumeWatch (t : Nat) (s : State) : State :=
  let d := s.time.clk - t
  { s with mbx := { s.mbx with watch := s.mbx.watch.map (fun x => (x.1, x.2.map (· + d))) } }

/-- An activation pause ends without a resumption; the watchdogs have not counted in it (R301). -/
def endPause (s : State) : State :=
  match s.crown.activating with
  | some t => resumeWatch t (modCrown (fun c => { c with activating := none }) s)
  | none => s

/-- A command that ran on the old crown's port when its mailbox is answered: a TIER_MOVE whose descriptors run keeps them
running, without an answer, and discards those not started (R213); the ports of a LINK_BERT retrain. -/
def endRun (k : Nat) (rc : RunCmd) (s : State) : State :=
  if rc.opcode = 0x105 ∧ rc.moves.any (fun m => m.st = 1) then
    setRun (if 256 ≤ k then k else k + 256 * rc.arrival)
      (some { rc with moves := rc.moves.map (fun m => if m.st = 0 then { m with st := 5 } else m) }) s
  else if rc.opcode = 0x305 then
    (bitsOf rc.arg 64).foldl (fun s p => if (port s p).st = 6 then retrainQuiet p s else s) s
  else s

/-- A command's place on the old crown's port is freed (R319). -/
def vacate (x : Nat × Option RunCmd) (s : State) : State :=
  let s := setRun x.1 none s
  match x.2 with
  | some rc => endRun x.1 rc s
  | none => s

/-- Every command owned on the old crown's port is answered ST_TAKEOVER (R319, R432), and what ran there ends. -/
def answerTakeover (old : Half) (s : State) : State :=
  let s := (ownedKeys s old).foldl (fun s k => answerPage k stTakeover 0 [] s) s
  (s.mbx.run.filter (fun x => x.1 % 256 / 128 = old.num)).foldl (fun s x => vacate x s) s

-- ---------------------------------------------------------------- safe state (R437, R438)

/-- Every context's requests close as for a fenced context (R438, R474). -/
def closeAllReqs (cause : Nat) (s : State) : State :=
  (s.work.ctxs.map (·.1)).foldl (fun s c => hostEvent c 4 0 cause s) s

/-- Entry into the safe state. `bridge`: for a lasting bridge fault, which withdraws the module also where the safe state
already holds (R438). -/
def enterSafe (bridge : Bool) (s : State) : State :=
  if s.crown.safe then (if bridge then withdrawModule 0 (s.time.sup + 100000) 3 s else s)
  else
    let was := braked s
    let old := s.crown.holder.other
    let s := modCrown (fun c => { c with safe := true, req := none, latch := none }) s
    let s := capUpdate (brakeStart was s)
    let s := if bridge then s else event 2 9 0 0 s
    let s := closeAllReqs 1 (fenceAll 1 4 s)
    let m := mon s s.crown.holder
    let live := m.live && !m.halted
    let s :=
      if s.crown.takeover then
        let t := s.crown.takeAt
        let s := modCrown (fun c => { c with takeover := false, portA := live && c.holder = .a,
                                             portB := live && c.holder = .b }) s
        let s := vector0 s
        if live then flushHeld (answerTakeover old s) else resumeWatch t s
      else if live then s
      else if s.crown.portA || s.crown.portB then
        vector0 (modCrown (fun c => { c with portA := false, portB := false }) (endPause s))
      else endPause s
    let s := plEvent 4 (stsOf s 2).toNat s
    if bridge then withdrawModule 0 (s.time.sup + 100000) 3 s else s

-- ---------------------------------------------------------------- orderly shutdown (R443)

/-- An orderly shutdown from the present tick S. -/
def orderlyShutdown (s : State) : State :=
  if s.power.shutdown.isSome ∨ s.power.off then s
  else
    let was := braked s
    let s := { s with power := { s.power with shutdown := some s.time.clk } }
    let s := capUpdate (brakeStart was s)
    let s := plEvent 5 (stsOf s 3).toNat s
    let s := closeAllReqs 3 (fenceAll 3 4 s)
    let s := modLed (fun l => { l with shut := if l.running then some s.time.sup else none }) s
    withdrawModule 0 (s.time.sup + 1100000) 2 s

/-- What the rails feed is lost (R32): everything but the supervisor's own state. -/
def railsLost (s : State) : State :=
  { s with
    mbx := {}, work := { lastCtx := s.work.lastCtx, recSig := decide (setting s 0x0801 = 1),
                         recKey := settingB s 0x0802 }, comp := {},
    mem := { perHalf := decide (setting s 0x0201 = 1),
             windowGib := if s.ident.variant = .l then min (setting s 0x0203) 16 else setting s 0x0203 },
    obs := { win := (s.obs.win.filter (fun x => decide (2 ≤ x.1) && decide (x.1 < 6))).map (fun x =>
               (x.1, { x.2 with armed := false, checker := 0, mode := 0, target := 0 })),
             ctr := [] },
    fab := { tab := s.fab.tab, vcAlloc := (List.range 8).map (fun i => numAt (settingB s 0x0003) (2 * i) 2) }, eng := {},
    fw := { ctrlVer := if s.start.dir.ctrlSlot = 0 then s.start.dir.verA else s.start.dir.verB,
            tileVer := if s.start.dir.tileSlot = 0 then s.start.dir.tileA else s.start.dir.tileB },
    trA := { ringMib := setting s 0x0501 }, trB := { ringMib := setting s 0x0501 },
    taps := [], tapNext := 1, cxlA := {}, cxlB := {}, brRetrain := false }

/-- The MID at a module start (R325): SLOT_ID as it stands, and any recorded rack number. -/
def takeMid (s : State) : State :=
  let i := s.ident
  { s with ident := { i with mid := (i.pendRack.getD (i.mid / 64)) * 64 + i.slot % 64,
                             midValid := i.midValid || i.pendRack.isSome, pendSlot := none, pendRack := none } }

/-- The start sequencer from rail sequencing on (R533, R534). -/
def toRails (s : State) : State :=
  { s with
    start := { s.start with phase := 2, cause := 0, unit := 0, readyRt := 0, ready := false, rails := 0, waves := 0,
                            standbyImg := false, comps := [], digestDone := false, digValid := false, firstTry := none,
                            second := false, added := 0, defects := recordedDefects s, dropped := [], resetAt := none, arrived := false,
                            run := s.start.run.filter (fun x => x.1 = 1) },
    power := { s.power with rails := false } }

/-- A module reset is scheduled behind its withdrawal: of two causes the earlier tick stands (R61). -/
def scheduleReset (tick cause : Nat) (s : State) : State :=
  let s := withdrawModule 1 tick cause s
  { s with start := { s.start with resetAt := some (sched s 1).rt } }

/-- Module reset (R526): every context ends as at CLOSE; what R526 keeps is kept, the rest is cleared, and the start
runs again from rail sequencing. While MOD_RESET_N is low the module stays in reset (R527). -/
def moduleReset (s : State) : State :=
  let s := (s.work.ctxs.map (·.1)).foldl (fun s c => hostEvent c 5 0 2 (hostEvent c 4 0 2 s)) s
  let s := schedClear s
  let dir := { s.start.dir with pendRt := 0 }
  let s := { s with start := { s.start with dir := dir } }
  let s := railsLost (takeMid s)
  let s := modCrown (fun c => { claim := c.claim, holder := c.holder, stages := c.stages, last := c.last,
                                takeovers := c.takeovers, lastTakeRt := c.lastTakeRt }) s
  let s := { s with power := { s.power with hostCap := 0, shutdown := none, off := false, lowering := none,
                                            trip := false, alertOff := false } }
  let s := toRails s
  capUpdate { s with start := { s.start with inReset := !s.pins.modResetN } }

/-- Loss of the 52 V input, or the supervisor reset of R442: only the flash and the fuses stay (R486). -/
def powerLost (s : State) : State :=
  { pending := s.pending, ident := { variant := s.ident.variant, serial := s.ident.serial },
    pins := { s.pins with locateOn := false }, flash := s.flash, free := s.free }

-- ---------------------------------------------------------------- commands

/-- INPUT_LOSS_52V (R486, R442). -/
def execInputLoss52v (s : State) : Out := .next (powerLost s)

/-- AUX_3V3_LOSS (R33): AUX_LOST; no flash access until it returns. -/
def execAux3v3Loss (s : State) : Out :=
  .next (
    let s' := { s with pins := { s.pins with aux3v3 := false } }
    if s.power.v52 ∧ s.pins.aux3v3 then event 5 4 0 0 s' else s')

/-- SHUTDOWN_RAILS_OFF (R443, R439): 20 ms after S. -/
def execShutdownRailsOff (s : State) : Out :=
  .next (
    match s.power.shutdown with
    | none => s
    | some t =>
      let s := waitUntil (t + 2000000) s
      let s := schedClear (railsLost s)
      let s := modCrown (fun c => { claim := c.claim, holder := c.holder, stages := c.stages, last := c.last,
                                    takeovers := c.takeovers, lastTakeRt := c.lastTakeRt, supFail := c.supFail, tripped := c.supFail }) s
      capUpdate { s with
        power := { s.power with rails := false, off := true, shutdown := none, hostCap := 0, lowering := none },
        start := { s.start with ready := false, readyRt := 0, phase := 2, rails := 0, waves := 0, comps := [] } })

/-- WITHDRAW_DRAIN_END (R373): 100 µs after the tick of the withdrawal what remains is discarded; a pending module reset
begins. -/
def execWithdrawDrainEnd (s : State) : Out :=
  .next (
    match s.fab.drainEnd with
    | none => s
    | some d =>
      let s := modFab (fun f => { f with drainEnd := none }) (waitUntil d s)
      let s := (List.range 64).foldl (fun s p =>
        let n := (port s p).queue.length
        if n = 0 then s else setQueue p [] (count (0x80 + p) 46 n ((port s p).queue.foldl (fun s y => freeIn y.1 y.2 s) s))) s
      if s.start.resetAt.isSome then moduleReset s else s)

/-- MOD_RESET_N (R527, R459): low for 10 µs. The supervisor schedules the withdrawal 100,000 ticks ahead; a module that
is off after a thermal shutdown starts once THERM_ALERT_N is high. -/
def execModResetN (s : State) : Out :=
  .next (
    let s := { s with pins := { s.pins with modResetN := false } }
    if !s.power.v52 then s
    else if s.crown.tripped then s
    else if s.power.off then
      if (s.power.alertOff && s.pins.thermAlertN) || (s.power.trip && !s.power.alertOff) then moduleReset s else s
    else if s.start.phase = 7 ∨ s.start.inReset then s
    else if !s.power.rails then moduleReset s
    else
      scheduleReset (s.time.sup + 100000) 1 s)

/-- MOD_RESET_N_RELEASE (R527): the start runs on once the pin is high. -/
def execModResetNRelease (s : State) : Out :=
  .next { s with pins := { s.pins with modResetN := true }, start := { s.start with inReset := false } }

/-- RESET_MODULE (R316, R526). -/
def execResetModule (mb : Fin 128) (s : State) : Out :=
  .next (runOp 0x904 (fun _ _ pl _ s =>
    let t := numAt pl 0 8
    if t < now s + 100000 then badArg 0 s
    else okRep [] (scheduleReset t 0 s)) mb s)

/-- Firmware may take the last step of a partition reset: it serves, or it finishes within an activation pause a command
that started before it (R318, R520). -/
def mayRelease (s : State) (i : Nat) : Bool :=
  serving s || working s && runKeys s (fun r => [0x002, 0x202, 0x207, 0x901].contains r.opcode &&
    (r.part = some i || r.opcode = 2 && (match part? s i with | some p => p.ctx = r.ctx | none => false))) != []

/-- FENCE_RELEASE (R520): the last step of a partition reset. -/
def execFenceRelease (part : Fin 36) (s : State) : Out :=
  .next (
    match part? s part.val with
    | none => s
    | some p => match p.fence with
      | none => s
      | some f => if mayRelease s part.val then releaseFence part.val (waitUntil (f.at_ + 5000) s) else s)

end Sys2Proof.Machine
end

