-- ==== Sys2Proof/Machine/Port.lean ====
section
/-!
DEFINITION. The management port's answers (R594-R597): completion codes and response fields.
-/
namespace Sys2Proof.Machine

/-- Base completion codes of PLDM (log entry 13). -/
def ccOk : Nat := 0
def ccInvalidData : Nat := 2
def ccNotReady : Nat := 4

/-- The port answers from 100 ms after the 52 V input entered the operating range (R594). -/
def mgmtUp (s : State) : Bool := s.power.v52 && decide (10000000 ≤ s.time.clk)

/-- The last response of the endpoint. -/
def reply (cc : Nat) (fields : List Byte) (s : State) : State :=
  { s with mgmt := { s.mgmt with resp := natLe 1 cc ++ fields } }

/-- A request acts while the port answers; otherwise there is no answer and no effect. -/
def onMgmt (f : State → State) (s : State) : State := if mgmtUp s then f s else s

/-- The POWER_QUERY response (R311). -/
def powerQueryBytes (s : State) : List Byte :=
  natLe 4 (effective s) ++ natLe 1 (source s) ++ natLe 1 (b2n ((win s 3).sts.getLsbD 5)) ++ natLe 2 0 ++
  natLe 4 (mgmtInput s) ++ natLe 4 s.power.hostCap ++ natLe 4 s.power.thermalW ++ natLe 4 (leaseLeft s) ++
  natLe 4 s.power.peakW ++ natLe 4 s.power.avgW ++ natLe 8 s.power.winEnd

end Sys2Proof.Machine
end

