-- ==== Sys2Proof/Machine/Power.lean ====
section
/-!
DEFINITION. Power input, caps and thermal limits (R442-R464).
-/
namespace Sys2Proof.Machine

/-- Power, changed. -/
def modPower (f : Power → Power) (s : State) : State := { s with power := f s.power }

/-- A change of a brake cause: BRAKE_EVENT at an assertion of the input, then the caps (R455, R456). -/
def brakeChange (f : State → State) (s : State) : State :=
  let was := braked s; capUpdate (brakeStart was (f s))

-- ---------------------------------------------------------------- the input (R442, R443)

/-- INPUT_VOLTAGE_SAMPLE (R442): one 10 µs average. -/
def execInputVoltageSample (mv : Nat) (s : State) : Out :=
  .next (
    if !s.power.v52 then s
    else if mv < 32000 then powerLost s
    else
      let keep (p : Bool) (o : Option Nat) : Option Nat := if p then some (o.getD s.time.clk) else none
      let s := modPower (fun p => { p with
        mv := mv, marginal := marginalMv mv,
        goodAt := keep (46000 ≤ mv) p.goodAt, rangeAt := keep (46000 ≤ mv && mv ≤ 56000) p.rangeAt,
        lowRun := if mv < 40000 then p.lowRun + 1 else 0, highRun := if 57000 < mv then p.highRun + 1 else 0 }) s
      let s := if mv < 45000 ∧ !s.power.uvBrake then
          event 3 9 0 0 (brakeChange (fun s => modPower (fun p => { p with uvBrake := true }) s) s) else s
      if s.power.shutdown.isSome ∨ s.power.off then s
      else if 10 ≤ s.power.lowRun then orderlyShutdown (event 3 9 0 0 s)
      else if 10 ≤ s.power.highRun then orderlyShutdown (event 3 10 0 0 s)
      else s)

/-- UV_BRAKE_RELEASE (R442): the input has stayed at or above 46 V for 10 ms. -/
def execUvBrakeRelease (s : State) : Out :=
  .next (
    match s.power.uvBrake, s.power.goodAt with
    | true, some t => brakeChange (modPower (fun p => { p with uvBrake := false })) (waitUntil (t + 1000000) s)
    | _, _ => s)

/-- VOLTAGE_RESTART (R443): 1 s within 46 V to 56 V after a voltage shutdown. -/
def execVoltageRestart (s : State) : Out :=
  .next (
    match s.power.rangeAt with
    | some t =>
      if s.power.off ∧ !s.power.trip ∧ !s.power.alertOff ∧ !s.crown.tripped then moduleReset (waitUntil (t + 100000000) s)
      else s
    | none => s)

-- ---------------------------------------------------------------- the brake and the thermal inputs

/-- PWR_BRAKE_N_CHANGE (R455): low counted after 1 µs. -/
def execPwrBrakeNChange (high : Bool) (s : State) : Out :=
  .next (
    let f := fun (s : State) => { s with pins := { s.pins with pwrBrakeN := high } }
    if s.power.v52 then brakeChange f s else f s)

/-- THERM_ALERT_N_CHANGE (R455, R459). -/
def execThermAlertNChange (high : Bool) (s : State) : Out :=
  .next (
    let f := fun (s : State) => { s with pins := { s.pins with thermAlertN := high } }
    if !s.power.v52 then f s
    else if high then
      if s.pins.thermAlertN then s else brakeChange f (modPower (fun p => { p with highAt := some s.time.clk }) s)
    else if !s.pins.thermAlertN then s
    else
      let fresh := match s.power.stoppedAt with
        | some t => if s.time.clk ≤ t + 6000000000 then s.power.leftTicks else 500000000
        | none => 500000000
      let s := brakeChange (fun s => modPower (fun p => { p with
          highAt := none, countdown := some (p.countdown.getD (s.time.clk + fresh)) }) (f s)) s
      event 3 11 0 0 s)

/-- THERM_ALERT_CLEAR (R459): the pin has stayed high for 10 ms. -/
def execThermAlertClear (s : State) : Out :=
  .next (
    match s.power.countdown, s.power.highAt with
    | some d, some t =>
      if d ≤ t + 1000000 ∧ s.time.clk < t + 1000000 then s
      else
        let s := waitUntil (t + 1000000) s
        brakeChange (modPower (fun p => { p with countdown := none, leftTicks := d - s.time.clk,
                                                 stoppedAt := some s.time.clk })) s
    | _, _ => s)

/-- THERM_COUNTDOWN_EXPIRE (R459). -/
def execThermCountdownExpire (s : State) : Out :=
  .next (
    match s.power.countdown with
    | none => s
    | some d =>
      let stops := match s.power.highAt with | some t => decide (t + 1000000 < d) | none => false
      if stops then s
      else
        let s := orderlyShutdown (modPower (fun p => { p with alertOff := true }) (waitUntil d s))
        modPower (fun p => { p with countdown := none }) s)

/-- THERMAL_SENSOR_READ (R457, R460): a trip at 110 °C of a junction or 105 °C of a stack. -/
def execThermalSensorRead (tj tm : Nat) (s : State) : Out :=
  .next (
    if !s.power.v52 then s
    else
      let s := modPower (fun p => { p with tj := tj, tm := tm }) s
      if (110 ≤ tj ∨ 105 ≤ tm) ∧ !s.power.trip then
        let was := braked s
        let s := event 3 12 0 0 (modPower (fun p => { p with trip := true }) s)
        let s := plEvent 6 (max tj tm) (capUpdate (brakeStart was s))
        orderlyShutdown s
      else s)

/-- THERMAL_W at a frame start (R458). -/
def thermalUpdate (s : State) : State :=
  let p := s.power
  if 95 ≤ p.tj ∨ 95 ≤ p.tm then
    let w := max 650 (p.thermalW - 120)
    let s' := modPower (fun p => { p with thermalW := w }) s
    capUpdate (event 3 7 0 0 s')
  else if p.tj ≤ 92 ∧ p.tm ≤ 92 then capUpdate (modPower (fun p => { p with thermalW := min 2400 (p.thermalW + 24) }) s)
  else s

-- ---------------------------------------------------------------- caps (R447-R453)

/-- The value of source 5 (R447): the lower of LAPSE_W and the last management cap; a removed cap counts as 2,400 W. -/
def lapseValue (s : State) : Nat := min (setting s 0x0103) (if s.power.mgmtCap = 0 then 2400 else s.power.mgmtCap)

/-- The management cap takes effect (R453). -/
def mgmtEffect (capW ms : Nat) (s : State) : State :=
  modPower (fun p => { p with mgmtCap := capW, lapsed := false, leaseMs := ms,
                              leaseAt := some (s.time.clk + ms * 100000) }) s

/-- Effective cap and SOURCE as the management answers give them (R596). -/
def capAnswer (s : State) : List Byte :=
  natLe 2 (effective s) ++ natLe 1 (source s) ++ natLe 1 (b2n ((win s 3).sts.getLsbD 5))

/-- A LEASE_MS operand (R452): 0 stands for the setting. -/
def leaseOf (s : State) (ms : Nat) : Nat := if ms = 0 then setting s 0x0102 else ms

/-- After the pending cap of input `i` has been cancelled: the controller lowers on only toward the other input's cap. -/
def dropLowering (i : Nat) (s : State) : State :=
  let o := sched s (5 - i)
  let keep := o.st = 1 && o.action = 1 && s.power.lowering.all (fun w => fld o.arg 15 0 ≤ w)
  if keep then s else modPower (fun p => { p with lowering := none }) s

/-- A LEASE_MS operand lies in its range (R452). -/
def leaseOk (ms : Nat) : Bool := ms = 0 || 1000 ≤ ms && ms ≤ 60000

/-- SET_POWER_CAP (R452, R453, R596, R597). -/
def execSetPowerCap (capW leaseMs applyRt : Nat) (s : State) : Out :=
  .next (onMgmt (fun s =>
    if !leaseOk leaseMs ∨ 65535 < capW then reply ccInvalidData [] s
    else if applyRt ≠ 0 ∧ applyRt % 100000 ≠ 0 then reply 0x80 [] s
    else if applyRt ≠ 0 ∧ applyRt < s.time.sup + 1000 then reply 0x82 [] s
    else
      let ms := leaseOf s leaseMs
      let s := dropLowering 2 (schedEnd 2 4 s)
      let s :=
        if applyRt = 0 then capUpdate (mgmtEffect capW ms s)
        else schedPut 2 applyRt 1 2 (capW + 2 ^ 16 + ms * 2 ^ 32) false 0
          (modPower (fun p => { p with leaseMs := ms, leaseAt := some (s.time.clk + ms * 100000) }) s)
      reply ccOk (capAnswer s) s) s)

/-- RENEW_POWER_LEASE (R452, R453). -/
def execRenewPowerLease (leaseMs : Nat) (s : State) : Out :=
  .next (onMgmt (fun s =>
    if !leaseOk leaseMs then reply ccInvalidData [] s
    else
      let ms := leaseOf s leaseMs
      let s := modPower (fun p => { p with leaseMs := ms, leaseAt := some (s.time.clk + ms * 100000) }) s
      reply ccOk (capAnswer s) s) s)

/-- LEASE_EXPIRE (R453): the management input lapses. A scheduled cap of the same tick applies first and restarts the
lease (R450). -/
def execLeaseExpire (s : State) : Out :=
  .next (
    match s.power.leaseAt with
    | none => s
    | some d =>
      let s1 := waitUntil d s
      let e := sched s1 2
      if e.st = 1 ∧ e.rt ≤ s1.time.sup then s
      else
        let s := modPower (fun p => { p with leaseAt := none }) s1
        if s.power.lapsed then s
        else
          let s := modPower (fun p => { p with lapsed := true, lapseW := lapseValue s }) s
          capUpdate (plEvent 7 (setting s 0x0103) (event 3 6 0 0 s)))

/-- GET_POWER (R596). -/
def execGetPower (s : State) : Out := .next (onMgmt (fun s => reply ccOk (powerQueryBytes s) s) s)

/-- POWER_QUERY (R311). -/
def execPowerQuery (mb : Fin 128) (s : State) : Out :=
  .next (runOp 0x502 (fun _ _ _ _ s => okRep (powerQueryBytes s) s) mb s)

/-- A configuration function is stopped (R313). -/
def isStopped (s : State) (f : Nat) : Bool := (FMap.get none s.fw.stopped f).isSome

/-- POWER_SET (R451, R311, R66). -/
def execPowerSet (mb : Fin 128) (s : State) : Out :=
  .next (runOp 0x501 (fun _ _ pl _ s =>
    let cap := numAt pl 0 4
    let t := numAt pl 8 8
    if t ≠ 0 ∧ (t % 100000 ≠ 0 ∨ t < now s + 1000) then badArg 8 s
    else if isStopped s 1 then refuse stStopped 0 s
    else
      let s := dropLowering 3 (schedEnd 3 4 s)
      let s' := modPower (fun p => { p with hostCap := cap }) s
      let eff := effective s'
      let src := source s'
      let raisedCap := capRaised s'
      let s :=
        if t = 0 then capUpdate s'
        else schedPut 3 t 1 0 (min cap 65535 + 2 * 2 ^ 16) false 0 s
      let fl := raisedCap || (win s 3).sts.getLsbD 5
      .ans (if src = 2 ∧ !fl then stOk else stCapLimited) 0
        (natLe 4 eff ++ natLe 1 src ++ natLe 1 (b2n fl) ++ natLe 2 0) s) mb s)

/-- BEGIN_LOWERING (R449): 200 µs before the frame start of a scheduled lowering. -/
def execBeginLowering (s : State) : Out :=
  .next (
    let cap (i : Nat) : Option (Nat × State) :=
      let e := sched s i
      if e.st ≠ 1 ∨ e.action ≠ 1 then none
      else
        let w := fld e.arg 15 0
        let s' := if i = 2 then modPower (fun p => { p with mgmtCap := w, lapsed := false }) s
          else modPower (fun p => { p with hostCap := w }) s
        if effective s' < effective s then some (e.rt, s') else none
    let pick := match cap 2, cap 3 with
      | some a, some b => if b.1 < a.1 then some b else some a
      | some a, none => some a
      | none, b => b
    match pick with
    | some (rt, s') => modPower (fun p => { p with lowering := some (effective s') }) (waitCount (rt - 20000) s)
    | none => s)

/-- One dispatched POWER_TARGET applied to its input (R64, R453). -/
def applyTarget (arg : Nat) (s : State) : State :=
  if fld arg 18 16 = 1 then mgmtEffect (fld arg 15 0) (fld arg 63 32) s
  else modPower (fun p => { p with hostCap := fld arg 15 0 }) s

/-- POWER_TARGET (R63, R450): every dispatched power target acts; the effective cap is computed once. -/
def execPowerTarget (s : State) : Out :=
  .next (
    let l := s.sched.out.filter (fun d => d.action = 1)
    if l = [] then s
    else
      let s := { s with sched := { s.sched with out := s.sched.out.filter (fun d => d.action != 1) } }
      let low := s.power.lowering
      let s := capUpdate (l.foldl (fun s d => applyTarget d.arg s) s)
      modPower (fun p => { p with lowering := none, settleAt := if low.isSome then s.time.clk else p.settleAt }) s)

-- ---------------------------------------------------------------- limits and reports (R445, R446, R462)

/-- POWER_INTERVAL_END (R445): the average of P over a 100 µs interval. What the controller's clock, gating and slew
limit do within their ranges is not stated: free values (log entry 14). -/
def execPowerIntervalEnd (avgW : Nat) (s : State) : Out :=
  .next (
    if !s.power.v52 then s
    else
      let s := waitCount ((s.time.sup / 10000 + 1) * 10000) s
      let e := effective s
      let src := source s
      let exc := if src = 3 ∨ src = 4 then 0 else s.power.excW
      let clock := 450 + 25 * (freshNat 20 s % 55)
      let floor := clock = 450 ∧ freshNat 21 s % 2 = 1
      let held := freshNat 22 s % 2 = 1
      let s := takeFree s
      let settled := decide (s.power.settleAt ≤ s.time.clk)
      let above := if settled ∧ e < avgW then s.power.above + 1 else 0
      let hist := if settled then (avgW :: s.power.hist).take 1000 else []
      let breach := settled && (decide (e + exc < avgW) || decide (2900 < avgW) || decide (100 < above) ||
        (decide (hist.length = 1000) && decide (1000 * e < hist.sum)))
      let s := modPower (fun p => { p with above := above, hist := hist, clock := clock, peak := max p.peak avgW,
                                           sum := p.sum + avgW, ints := p.ints + 1, excW := setting s 0x0104 }) s
      let s := if breach then event 3 (if floor then 5 else 4) 0 0 s else s
      if held then event 3 3 0 0 s else s)

/-- A report window ends at the count it has reached (R462). A window in which no interval was measured leaves its
values open. -/
def endWindow (s : State) : State :=
  let p := s.power
  let none_ := p.ints = 0
  let pk := if none_ then freshNat 23 s % 65536 else p.peak
  let av := if none_ then freshNat 24 s % 65536 else p.sum / p.ints
  let s := if none_ then takeFree s else s
  modPower (fun p => { p with peakW := pk, avgW := av, winEnd := s.time.sup, peak := 0, sum := 0, ints := 0,
                              winMs := setting s 0x0105 }) s

/-- REPORT_WINDOW_END (R462). -/
def execReportWindowEnd (s : State) : Out :=
  .next (
    if !s.power.v52 ∨ s.power.winMs = 0 then s
    else
      let w := s.power.winMs * 100000
      endWindow (waitCount ((s.time.sup / w + 1) * w) s))

end Sys2Proof.Machine
end

