-- ==== Sys2Proof/Machine/Crown.lean ====
section
/-!
DEFINITION. The crown (R416-R441), the bridge (R24) and the control cores' caches (R515).
-/
namespace Sys2Proof.Machine

/-- STANDBY of the standby half taken afresh; the holder reports what it last heard (R424, R430). -/
def refreshStandby (s : State) : State :=
  let h := s.crown.holder.other
  let v := standbyNow s h
  modMon h (fun m => { m with standby := v }) (modCrown (fun c => { c with resync := c.resync && decide (v ≠ 0) }) s)

/-- Both paths are silent toward a half. -/
def deaf (s : State) (h : Half) : Bool := (mon s h).sil1 && (mon s h).sil2

/-- No valid heartbeat has arrived for 4 ms (R424). -/
def oldBeat (s : State) (t : Option Nat) : Bool := match t with | some u => decide (u + 400000 ≤ s.time.clk) | none => false

/-- Both paths are silent toward a half at this moment. -/
def deafNow (s : State) (h : Half) : Bool :=
  let m := mon s h
  (m.sil1 || oldBeat s m.rx1) && (m.sil2 || oldBeat s m.rx2)

/-- Ballot code of a half: 1 half A, 2 half B (R441). -/
def ballot (h : Half) : Nat := h.num + 1

/-- The ballot of a half's monitor (R426). -/
def monBallot (s : State) (h : Half) : Nat :=
  let hold := s.crown.holder
  if h = hold then (if (mon s h).live && !(mon s h).halted then ballot h else ballot h.other)
  else if deafNow s h && decide ((mon s h).standby = 0) then ballot h else ballot hold

/-- Channel C's ballot (R426). -/
def supBallot (s : State) : Nat :=
  let near := match s.crown.supRx with | some t => decide (s.time.clk ≤ t + 400000) | none => false
  if near then ballot s.crown.holder
  else if s.crown.supStandby = 0 then ballot s.crown.holder.other
  else 0

/-- The three ballots latched now (R427). -/
def latchNow (s : State) : Latch :=
  { a := monBallot s .a, b := monBallot s .b, c := supBallot s, at_ := s.time.clk, rt := s.time.sup }

/-- A monitor asks for a vote (R425, R427, R437): the ballots are latched; it joins a request that stands; during a takeover
it leads to the safe state; in the safe state none starts. -/
def askVote (h : Half) (s : State) : State :=
  if s.crown.safe ∨ s.crown.supFail then s
  else if s.crown.takeover then enterSafe false s
  else if s.crown.req.isSome then s
  else modCrown (fun c => { c with req := some h, reqAt := s.time.clk, latch := some (latchNow s) }) s

/-- After an UNCHANGED vote the standby asks again only once a heartbeat has come and stopped, or after 1 s (R425). -/
def mayAskAgain (s : State) : Bool :=
  match s.crown.votedAt with
  | some t => s.crown.beatSince || decide (t + 100000000 ≤ s.time.clk)
  | none => true

/-- The standby asks for a vote when both paths are silent and its STANDBY is 0 (R425). -/
def standbyAsks (s : State) : State :=
  let h := s.crown.holder.other
  if deaf s h ∧ (mon s h).standby = 0 ∧ mayAskAgain s then askVote h s else s

-- ---------------------------------------------------------------- heartbeats (R423-R425)

/-- HEARTBEAT_SEND (R423): the monitor's two heartbeats; the holder's monitor stops while its control complex is
failed. -/
def execHeartbeatSend (half : Half) (s : State) : Out :=
  .next (
    let m := mon s half
    if !s.power.rails then s
    else if half = s.crown.holder ∧ (!m.live ∨ m.halted) then modMon half (fun m => { m with beatsFrom := none }) s
    else modMon half (fun m => { m with seq1 := (m.seq1 + 1) % 65536, seq2 := (m.seq2 + 1) % 65536,
                                        beatsFrom := some (m.beatsFrom.getD s.time.clk) }) s)

/-- HEARTBEAT_ARRIVE (R424, R425, R421): at the supervisor, or at the other half's monitor. -/
def execHeartbeatArrive (src : Half) (path2 atSup : Bool) (hb : Heartbeat) (s : State) : Out :=
  .next (
    if !hb.crcOk ∨ !s.power.rails then s
    else if atSup then
      if src = s.crown.holder then modCrown (fun c => { c with supRx := some s.time.clk }) s
      else modCrown (fun c => { c with supStandby := hb.standby % 4 }) s
    else
      let r := src.other
      let s := modMon r (fun m =>
        if path2 then { m with rx2 := some s.time.clk, sil2 := false }
        else { m with rx1 := some s.time.clk, sil1 := false }) s
      let s := if src = s.crown.holder then
          modCrown (fun c => { c with beatSince := true, req := if c.req = some r ∧ c.latch = none then none else c.req }) s
        else modCrown (fun c => { c with standby := hb.standby % 4 }) s
      let s := modMon r (fun m => { m with heard := hb.claim % 2 ^ 32 }) s
      let m := mon s r
      if m.own ≠ 0 ∧ m.own < hb.claim then demote r s else refreshStandby s)

/-- PATH_SILENT (R425): no valid heartbeat on the path for 4 ms. -/
def execPathSilent (rcv : Half) (path2 : Bool) (s : State) : Out :=
  .next (
    if !s.power.rails then s
    else
      let m := mon s rcv
      let s := match (if path2 then m.rx2 else m.rx1) with
        | some t => waitUntil (t + 400000) s
        | none => s
      let s := modMon rcv (fun m => if path2 then { m with sil2 := true } else { m with sil1 := true }) s
      if !deaf s rcv then s
      else if rcv = s.crown.holder then modCrown (fun c => { c with standby := 2 }) s
      else standbyAsks s)

/-- LIVENESS_WRITE (R423); firmware that serves again takes up what waited for it. -/
def execLivenessWrite (half : Half) (s : State) : Out :=
  .next (
    let m := mon s half
    if m.halted ∨ m.cpFailed ∨ !s.power.rails then s
    else
      let was := serving s
      let s := modMon half (fun m => { m with lastWrite := s.time.clk, live := true, failedAt := none }) s
      let s := if half = s.crown.holder ∧ s.crown.req = some half ∧ s.crown.latch = none then modCrown (fun c => { c with req := none }) s else s
      if serving s ∧ !was then resumeService s else s)

/-- A control complex is regarded as failed (R423, R437, R438). -/
def complexFails (half : Half) (s : State) : State :=
  let s := modMon half (fun m => { m with live := false, failedAt := some s.time.clk, beatsFrom := none }) s
  if half ≠ s.crown.holder then s
  else if s.crown.takeover ∧ !s.crown.safe then enterSafe false s
  else if s.crown.safe ∧ (s.crown.portA ∨ s.crown.portB) then
    vector0 (modCrown (fun c => { c with portA := false, portB := false }) (endPause s))
  else s

/-- LIVENESS_EXPIRE (R423, R318): 2 ms without a write, 300 ms in an activation pause. -/
def execLivenessExpire (half : Half) (s : State) : Out :=
  .next (
    let m := mon s half
    if !m.live ∨ m.halted then s
    else
      let lim := if s.crown.activating.isSome ∧ half = s.crown.holder then 30000000 else 200000
      let s := event (8 + half.num) 4 0 0 (waitUntil (m.lastWrite + lim) s)
      complexFails half s)

/-- HOLDER_FAILED_VOTE_REQUEST (R425): 4 ms after the holder's complex failed. -/
def execHolderFailedVoteRequest (s : State) : Out :=
  .next (
    let h := s.crown.holder
    match (mon s h).failedAt with
    | none => s
    | some t => askVote h (waitUntil (t + 400000) s))

/-- VOTE_REQUEST_RETRY (R425): 1 s after an UNCHANGED vote while the silence goes on. -/
def execVoteRequestRetry (s : State) : Out :=
  .next (
    match s.crown.votedAt with
    | none => s
    | some t => if deaf s s.crown.holder.other then standbyAsks (waitUntil (t + 100000000) s) else s)

-- ---------------------------------------------------------------- the vote (R426, R427, R441)

/-- The takeover begins (R431, R434, R559): grant, no port serving, MB_STATE.TAKEOVER; an activation pause ends. -/
def beginTakeover (h : Half) (latchAt : Nat) (verified : List Bool) (s : State) : State :=
  let act := s.crown.activating.isSome && !s.fw.actFail
  let s := grant h true verified (endPause s)
  let s := modCrown (fun c => { c with takeover := true, takeAt := latchAt, restored := false, req := none,
                                       portA := false, portB := false, resync := false,
                                       supRx := none, supStandby := 2, beatSince := false, votedAt := none }) s
  let s := if act then plEvent 9 3 { s with start := { s.start with actResult := 3 } } else s
  vector0 s

/-- The tally of the latched ballots for a standing request (R427); a channel whose vote wires are silent counts as NONE
(R426). -/
def runVote (silent : Bool × Bool × Bool) (verified : List Bool) (s : State) : State :=
  match s.crown.req with
  | none => s
  | some q =>
    if s.crown.takeover ∨ s.crown.safe ∨ s.crown.supFail then s
    else
      let h := s.crown.holder
      let l := s.crown.latch.getD (latchNow s)
      let a := if silent.1 then 0 else l.a
      let b := if silent.2.1 then 0 else l.b
      let c := if silent.2.2 then 0 else l.c
      let votes (x : Nat) : Nat := ([a, b, c].filter (fun v => v = x)).length
      let unchanged := decide (2 ≤ votes (ballot h))
      let take := decide (2 ≤ votes (ballot h.other))
      let s := modCrown (fun c => { c with latch := none }) s
      let s :=
        if unchanged then
          modCrown (fun c => { c with req := none, votedAt := some s.time.clk, beatSince := false }) s
        else if take then beginTakeover h.other l.at_ verified s
        else
          let first := s.crown.last.outcome ≠ 3 ∨ s.crown.tallyAt < s.crown.reqAt
          event 2 12 0 0 (if first then modCrown (fun c => { c with reqAt := s.time.clk }) s else s)
      modCrown (fun k => { k with
        tallyAt := s.time.clk,
        last := { outcome := if unchanged then 1 else if take then 2 else 3, requester := q, ballotA := a,
                  ballotB := b, ballotC := c,
                  result := if unchanged then ballot h else if take then ballot h.other else 0,
                  claimAfter := k.claim, rt := l.rt } }) s

/-- VOTE_TALLY (R427): the vote that a request opens. -/
def execVoteTally (silent : Bool × Bool × Bool) (verified : List Bool) (s : State) : Out :=
  .next (runVote silent verified s)

/-- VOTE_REPEAT (R427): the vote again, 4 ms after an INCONCLUSIVE one while the request stands. -/
def execVoteRepeat (silent : Bool × Bool × Bool) (verified : List Bool) (s : State) : Out :=
  .next (
    if s.crown.req.isSome ∧ s.crown.last.outcome = 3 ∧ !s.crown.safe then
      runVote silent verified (waitUntil (s.crown.tallyAt + 400000) s)
    else s)

/-- INCONCLUSIVE_TIMEOUT (R437): INCONCLUSIVE outcomes have lasted 200 ms. -/
def execInconclusiveTimeout (s : State) : Out :=
  .next (
    if s.crown.req.isSome ∧ s.crown.last.outcome = 3 ∧ s.crown.reqAt ≤ s.crown.tallyAt ∧ !s.crown.safe ∧
        !s.crown.takeover then
      enterSafe false (waitUntil (s.crown.reqAt + 20000000) s)
    else s)

-- ---------------------------------------------------------------- stages (R418-R422)

/-- FLOOR_MESSAGE (R420): only a trusted source raises FLOOR. -/
def execFloorMessage (stage : Fin 6) (claim : Nat) (trusted : Bool) (s : State) : Out :=
  .next (
    if !trusted then s
    else modStage stage.val (fun x => { x with floor := max x.floor (claim % 2 ^ 32), seenAt := s.time.clk,
                                               lapsed := false }) s)

/-- FLOOR_BROADCAST (R420): the current claim number to every stage. -/
def execFloorBroadcast (s : State) : Out := .next (raiseFloors s)

/-- STAGE_LAPSE (R420): no floor message for 8 ms. -/
def execStageLapse (stage : Fin 6) (s : State) : Out :=
  .next (
    let x : Stage := FMap.get {} s.crown.stages stage.val
    modStage stage.val (fun x => { x with lapsed := true }) (waitUntil (x.seenAt + 800000) s))

-- ---------------------------------------------------------------- takeover (R431-R437)

/-- TAKEOVER_COMPLETE (R431, R433, R495): CROWN_PORT moves and the vectors held go out. -/
def execTakeoverComplete (s : State) : Out :=
  .next (
    if !s.crown.takeover ∨ !s.crown.restored ∨ s.crown.takeAt + 20000000 < s.time.clk then s
    else
      let t := s.crown.takeAt
      let s := modCrown (fun c => { c with takeover := false, restored := false, portA := c.holder = .a,
                                           portB := c.holder = .b, standby := 2, lastTakeRt := s.time.sup }) s
      let s := modMon s.crown.holder.other (fun m => { m with standby := 2, verified := false }) s
      let s := plEvent 3 s.crown.claim (event 2 8 0 0 (vector0 s))
      resumeService (flushHeld (resumeWatch t s)))

/-- TAKEOVER_TIMEOUT (R437): 200 ms from the latch. -/
def execTakeoverTimeout (s : State) : Out :=
  .next (if s.crown.takeover then enterSafe false (waitUntil (s.crown.takeAt + 20000000) s) else s)

-- ---------------------------------------------------------------- checkpoints and repair (R428-R435)

/-- CHECKPOINT_SNAPSHOT (R429): every 10 ms, into the slot that does not hold the last committed snapshot. -/
def execCheckpointSnapshot (s : State) : Out :=
  .next (
    let m := mon s s.crown.holder
    if !m.live ∨ m.halted ∨ s.crown.takeover ∨ s.crown.supFail ∨ !s.power.rails then s
    else
      let s := if s.crown.activating.isSome ∨ s.crown.ckptSeq = 0 then s else waitUntil (s.crown.ckptAt + 1000000) s
      modCrown (fun c => { c with ckptSeq := (c.ckptSeq + 1) % 2 ^ 32, ckptSlot := 1 - c.ckptSlot,
                                  ckptAt := s.time.clk, journal := 0 }) s)

/-- STANDBY_COMMIT_CHECK (R430): the standby's monitor checks the header at a commit. -/
def execStandbyCommitCheck (ok : Bool) (s : State) : Out :=
  .next (
    if !s.power.rails ∨ s.crown.ckptSeq = 0 then s
    else refreshStandby (modMon s.crown.holder.other (fun m => { m with verified := ok }) s))

/-- STANDBY_READY_LAPSE (R430): a heartbeat or a commit older than 500 ms ends readiness. -/
def execStandbyReadyLapse (s : State) : Out :=
  .next (
    let m := mon s s.crown.holder.other
    if m.standby ≠ 0 then s
    else
      let last : Option Nat := match m.rx1, m.rx2 with
        | some a, some b => some (max a b)
        | some a, none => some a
        | none, b => b
      match last with
      | none => refreshStandby s
      | some t => refreshStandby (waitUntil (min t s.crown.ckptAt + 50000001) s))

/-- RESYNC_START (R435): 100 ms of heartbeats from the half, at most once per minute. -/
def execResyncStart (s : State) : Out :=
  .next (
    let h := s.crown.holder.other
    let m := mon s h
    match m.beatsFrom with
    | none => s
    | some t =>
      let again : Bool := match s.crown.resyncAt with | some u => decide (s.time.clk < u + 6000000000) | none => false
      if !serving s ∨ s.crown.resync ∨ m.standby ≠ 2 ∨ again ∨ deaf s s.crown.holder then s
      else
        let s := waitUntil (t + 10000000) s
        let s := modMon h (fun m => { m with halted := true, live := false, demoted := false, cpFailed := false,
                                             verified := false, standby := 1, failedAt := none, own := 0 }) s
        modCrown (fun c => { c with resync := true, resyncAt := some s.time.clk, standby := 1 }) s)

/-- SUPERVISOR_FAILURE (R439). -/
def execSupervisorFailure (s : State) : Out :=
  .next (
    if s.crown.supFail ∨ !s.power.v52 then s
    else
      let m := mon s s.crown.holder
      let live := m.live && !m.halted
      let s := modCrown (fun c => { c with supFail := true, req := none, latch := none }) s
      let s := modLed (fun l => { l with running := false }) s
      let s :=
        if live then
          let s := fenceAll 1 4 s
          let t := s.time.sup + 1100000
          noticeAll 0 t [4, 5, 8] (modFab (fun f => { f with comps := f.comps ++
            [{ tick := t, kind := 0, own := true }] }) s)
        else s
      { s with power := { s.power with shutdown := some s.time.clk } })

/-- CROWN_QUERY (R316). -/
def execCrownQuery (mb : Fin 128) (s : State) : Out :=
  .next (runOp 0x905 (fun _ _ _ _ s =>
    okRep (natLe 1 s.crown.holder.num ++ natLe 1 s.crown.standby ++
      natLe 1 (b2n (!pathFault s false) + 2 * b2n (!pathFault s true)) ++ natLe 1 0 ++ natLe 4 s.crown.claim ++
      natLe 8 s.crown.lastTakeRt ++ natLe 4 s.crown.takeovers) s) mb s)

-- ---------------------------------------------------------------- caches and bridge

/-- CONTROL_CORE_CACHE_ERROR (R515, R507): corrected, cleared by the re-fetch, or lasting. -/
def execControlCoreCacheError (half : Half) (single : Bool) (ue : Retry) (s : State) : Out :=
  .next (
    let b := 8 + half.num
    let inj := injMode s b 0 (fun _ => true)
    let s := if inj.isSome then disarm b s else s
    let ev (bit : Nat) (s : State) : State := eventG inj.isSome half b bit 0 0 s
    if !s.power.rails then s
    else if inj = some 2 ∨ (inj.isNone ∧ single) then ev 1 s
    else match injRetry inj ue with
      | .clean => s
      | .transient => ev 2 s
      | .lasting =>
        let s := modMon half (fun m => { m with cpFailed := true }) (ev 3 s)
        if half = s.crown.holder then complexFails half s
        else modMon half (fun m => { m with live := false, standby := 2 }) (modCrown (fun c => { c with standby := 2 }) s))

/-- BRIDGE_MAINBAND_ERROR (R24, R506): the link-level retry, else one retrain. -/
def execBridgeMainbandError (half : Half) (retryOk : Bool) (s : State) : Out :=
  .next (
    let inj := injMode s 6 0 (fun _ => true)
    let s := if inj.isSome then disarm 6 s else s
    if !s.power.rails then s
    else if (match inj with | some 0 => true | some _ => false | none => retryOk) then
      eventG inj.isSome half 6 1 0 half.num s
    else { s with brRetrain := true })

end Sys2Proof.Machine
end

