-- ==== Sys2Proof/Machine/Start.lean ====
section
/-!
DEFINITION. The start sequence (R532-R541), the defect ledger at start (R542-R545) and the module's MID (R325).
-/
namespace Sys2Proof.Machine

/-- Start state, changed. -/
def modStart (f : Start → Start) (s : State) : State := { s with start := f s.start }

/-- A start ends FAILED (R541); the event goes to the tray controller (R599). -/
def startFailed (cause unit : Nat) (s : State) : State :=
  let s := modStart (fun x => { x with phase := 8, cause := cause, unit := unit }) s
  plEvent 2 (startSts s) s

/-- The claim record that a reader takes (R417): one that two records agree on, else the one of highest CLAIM. -/
def readClaims (l : List (Option ClaimRec)) : ClaimRec :=
  let v := l.filterMap id
  match v.find? (fun r => decide (2 ≤ (v.filter (fun x => x = r)).length)) with
  | some r => r
  | none => v.foldl (fun a r => if a.claim < r.claim then r else a) {}

/-- Retry of a flash read (R513). -/
def flashRead (r : Retry) (s : State) : State :=
  match r with
  | .clean => s
  | .transient => event 5 5 0 0 s
  | .lasting => event 5 6 0 0 s

/-- The bytes of a slot's starter. Slot A holds the starter of the factory until it is first written: its bytes are not
given by the manual (log entry 21). -/
def slotBytes (s : State) (i : Nat) : List Byte :=
  if i = 0 then (if s.flash.slotA = [] ∧ s.start.dir.verA ≠ 0 then Config.builtStarter else s.flash.slotA)
  else s.flash.slotB

/-- An entry of a starter's directory (R553): component `id`, 1 to 6. -/
def dirEntry (b : List Byte) (id : Nat) : List Byte := sliceB b (512 + 64 * (id - 1)) 64

/-- HASH of a component of a slot's starter, from its directory (R553). -/
def hashOf (s : State) (slot id : Nat) : List Byte := sliceB (dirEntry (slotBytes s slot) id) 32 32

/-- The supervisor opens its ledger epoch (R480, R482) and takes the settings in force. -/
def openEpoch (s : State) : State :=
  let ep := ((s.flash.epoch.read.getD 0) + 1) % 2 ^ 24
  let s := { s with flash := { s.flash with epoch := s.flash.epoch.write ep } }
  let key := ep + 1
  let cert := certOf s ep key
  let s := modLed (fun _ => { running := true, epoch := ep, cert := cert, key := key, prevHash := Config.sm3 cert,
                              method := setting s 0x0401, house := setting s 0x0402,
                              pools := [(0, some { since := s.time.sup })] }) s
  let s := { s with power := { s.power with winMs := setting s 0x0105, excW := setting s 0x0104, leaseMs := setting s 0x0102,
                                            lapseW := min (setting s 0x0103) 2400 } }
  let img := settingB s 0x0001
  modFab (fun f => { f with tab := if img = [] then {} else parseRoute img }) s

/-- Supervisor firmware of CTRL_SLOT runs and opens a ledger epoch (R480); the start goes on from rail sequencing. -/
def runStarter (s : State) : State :=
  toRails (railsLost (modStart (fun x => { x with run := [(1, hashOf s s.start.dir.ctrlSlot 1)] }) (openEpoch s)))

/-- The supervisor reads the flash and starts its firmware (R532, R480, R541). With no starter that verifies it is left in
RECOVERY, and no ledger epoch opens. -/
def supervisorStart (r : Retry) (s : State) : State :=
  let s := flashRead r s
  let fl := s.flash
  let cl := readClaims fl.claims
  let s := modCrown (fun c => { c with claim := cl.claim, holder := cl.holder, takeovers := cl.takeovers }) s
  let s := modStart (fun x => { x with
      arrived := false, dir := { fl.dir.read.getD {} with pendRt := 0 }, settings := fl.settings.read.getD [],
      defaulted := fl.settings.read.isNone, defects := fl.defects.read.getD [], defectLost := fl.defects.read.isNone,
      factory := fl.factory.read.getD [], factoryLost := fl.factory.read.isNone }) s
  let d := s.start.dir
  let ok (i : Nat) : Bool := if i = 0 then fl.starterOk.1 else fl.starterOk.2
  if ok d.ctrlSlot then runStarter s
  else if ok (1 - d.ctrlSlot) then
    let d' := { d with ctrlSlot := 1 - d.ctrlSlot, tileSlot := 1 - d.ctrlSlot }
    runStarter (modStart (fun x => { x with fallback := true }) (writeDir .clean d' s).2)
  else modStart (fun x => { x with phase := 7, cause := 1 }) s

/-- POWER_ON_52V (R532, R48, R585): rack time starts at 0 with TQ 1; without AUX_3V3 the supervisor waits in PHASE 1. -/
def execPowerOn52v (slotId : BitVec 6) (fr : Retry) (s : State) : Out :=
  .next (
    if s.power.v52 then s
    else
      let s := powerLost s
      let s := modPower (fun p => { p with v52 := true, mv := 52000, goodAt := some 0, rangeAt := some 0 }) s
      let s := { s with ident := { s.ident with mid := slotId.toNat, slot := slotId.toNat } }
      if s.pins.aux3v3 then supervisorStart fr s else modStart (fun x => { x with phase := 1, arrived := true }) s)

/-- AUX_3V3_RETURN (R585). -/
def execAux3v3Return (s : State) : Out :=
  .next (
    let s := { s with pins := { s.pins with aux3v3 := true } }
    if s.power.v52 ∧ s.start.arrived then supervisorStart .clean s else s)

/-- RAIL_SEQUENCE (R533, R541): transit, control, memory, host, core, 50 ms apart. -/
def execRailSequence (outcomes : List Retry) (s : State) : Out :=
  .next (
    if s.start.phase ≠ 2 ∨ !s.power.v52 ∨ s.start.inReset ∨ s.power.off ∨ s.power.rails ∨ s.crown.tripped then s
    else
      let s := advance 20000000 s
      match (List.range 5).find? (fun i => decide (outcomes[i]? = some Retry.lasting)) with
      | some i => startFailed 2 i s
      | none =>
        let s := modPower (fun p => { p with rails := true }) (modStart (fun x => { x with phase := 3, rails := 5 }) s)
        trainAll s)

/-- Grants a half at start and releases its cores (R535); vectors held until then go out (R281). -/
def startGrant (h : Half) (verified : List Bool) (s : State) : State :=
  let s := raiseFloors (grant h false verified s)
  let s := modMon h (fun m => { m with halted := false, live := false, lastWrite := s.time.clk }) s
  flushHeld (vector0 (modCrown (fun c => { c with portA := h = .a, portB := h = .b, standby := 1 })
    (modStart (fun x => { x with grantAt := s.time.clk }) s)))

/-- CROWN_START_GRANT (R535): the half that CROWN_PREFER names, else the last holder. -/
def execCrownStartGrant (verified : List Bool) (s : State) : Out :=
  .next (
    if s.start.phase ≠ 3 ∨ s.start.firstTry.isSome then s
    else
      let h := match setting s 0x0803 with | 1 => Half.a | 2 => Half.b | _ => s.crown.holder
      startGrant h verified (modStart (fun x => { x with firstTry := some h }) s))

/-- CROWN_START_LIVE_TIMEOUT (R535): 500 ms without LIVE; the other half, then FAILED. -/
def execCrownStartLiveTimeout (verified : List Bool) (s : State) : Out :=
  .next (
    match s.start.firstTry with
    | none => s
    | some h =>
      let cur := s.crown.holder
      if s.start.phase ≠ 3 ∨ (mon s cur).live then s
      else
        let s := waitUntil (s.start.grantAt + 50000000) s
        let s := modMon cur (fun m => { m with halted := true, cpFailed := true, standby := 2, own := 0 }) s
        if s.start.second then startFailed 3 0 s
        else
          let s := startGrant h.other verified (modStart (fun x => { x with second := true }) s)
          modCrown (fun c => { c with standby := 2 }) s)

/-- Components that must be loaded before training counts (R536): 5 only with an LPDDR5X tier. -/
def loadsDone (s : State) : Bool :=
  ((if s.ident.variant = .l then [2, 4, 6] else [2, 4, 5, 6]) : List Nat).all (fun c => s.start.comps.contains c)

/-- COMPONENT_LOAD (R536, R541). -/
def execComponentLoad (comp : Nat) (outcome : Retry) (s : State) : Out :=
  .next (
    if s.start.phase < 3 ∨ 5 < s.start.phase ∨ !(mon s s.crown.holder).live ∨ comp < 2 ∨ 6 < comp then s
    else if outcome = .lasting then startFailed 5 comp s
    else
      let d := s.start.dir
      let h := hashOf s (if comp = 3 then d.tileSlot else d.ctrlSlot) comp
      let s := modStart (fun x => { x with phase := max 4 x.phase, comps := x.comps ++ [comp], run := FMap.put x.run comp h,
                                           standbyImg := x.standbyImg || comp = 2 }) s
      if loadsDone s then modStart (fun x => { x with phase := 5 }) s else s)

/-- Clusters of proof wave k (R538). -/
def waveClusters (k : Nat) : List Nat := [2 * k, 2 * k + 1, 18 + 2 * k, 19 + 2 * k]

/-- PROOF_WAVE_POWER (R538): 2 ms after the wave before. -/
def execProofWavePower (k : Fin 9) (s : State) : Out :=
  .next (
    let before := k.val = 0 || (cluster s (2 * (k.val - 1))).powered
    if !s.power.rails ∨ s.start.phase < 4 ∨ 5 < s.start.phase ∨ !before ∨ (cluster s (2 * k.val)).powered then s
    else
      let s := if k.val = 0 then s else advance 200000 s
      (waveClusters k.val).foldl (fun s c => modCluster c (fun x => { x with powered := true, tileVer := s.fw.tileVer }) s) s)

/-- The physical tiles of a cluster that the defect ledger does not exclude, ascending (R75, R544). -/
def goodTiles (s : State) (c : Nat) : List Nat :=
  (List.range 68).filter (fun t => !s.start.defects.any (fun d => d.kind = 1 && d.loc = 256 * c + t))

/-- Positions mapped onto good tiles (R75). -/
def mapCluster (c : Nat) (s : State) : State :=
  let bad := s.start.defects.any (fun d => d.kind = 2 && d.loc = c)
  let l := (goodTiles s c).take 64
  modCluster c (fun x => { x with phys := l, badStore := bad, tested := true, retired := [] }) s

/-- PROOF_WAVE_TEST_DONE (R538, R543, R75). -/
def execProofWaveTestDone (k : Fin 9) (badTiles : List (Nat × Nat)) (badClusters : List Nat) (flash : Retry)
    (s : State) : Out :=
  .next (
    let cs := waveClusters k.val
    if !(cluster s (2 * k.val)).powered ∨ (cluster s (2 * k.val)).tested then s
    else
      let s := (badTiles.filter (fun x => cs.contains x.1 && x.2 < 68)).foldl (fun s x =>
        addDefect 1 1 (256 * x.1 + x.2) flash s) s
      let s := (badClusters.filter (fun c => cs.contains c)).foldl (fun s c => addDefect 2 1 c flash s) s
      let s := cs.foldl (fun s c => mapCluster c s) s
      modStart (fun x => { x with waves := x.waves ||| 2 ^ k.val }) s)

/-- The weights of the settings (R227). -/
def arbWeights (s : State) : List Nat := (List.range 8).map (fun i => numAt (settingB s 0x0202) (2 * i) 2 % 4096)

/-- Weights written to a stack controller, in the clock that its arbiter has reached (R227, R231). -/
def putWeights (w : List Nat) (m : Mc) : Mc :=
  let m := advanceTo (m.clock + 1) m
  { m with clock := m.clock + 1, weight := w, credit := (List.range 8).map (fun i => min (nth m.credit i) (nth w i)) }

/-- MEM_TRAIN_DONE (R223, R541): a failed stack ends the start; a failed LPDDR5X device disables the tier. -/
def execMemTrainDone (dev : Fin 24) (outcome : Retry) (s : State) : Out :=
  .next (
    let i := dev.val
    let comp := if i < 16 then 4 else 5
    if !s.power.rails ∨ !s.start.comps.contains comp ∨ (i ≥ 16 ∧ s.ident.variant = .l) ∨ (mcOf s i).trained ∨
        (mcOf s i).trainFail ∨ s.start.phase = 8 then s
    else if outcome ≠ .lasting then
      let w := arbWeights s
      modMc i (fun m => if i < 16 then putWeights w { m with trained := true } else { m with trained := true }) s
    else
      let s := modMc i (fun m => { m with trainFail := true }) s
      if i < 16 then startFailed 4 i s
      else { s with mem := { s.mem with tierOff := true, windowGib := min s.mem.windowGib 16 } })

/-- SETTINGS_DIGEST_COMPUTE (R549, R532). -/
def execSettingsDigestCompute (s : State) : Out :=
  .next (if (s.start.phase = 4 ∨ s.start.phase = 5) ∧ (mon s s.crown.holder).live then
    modStart (fun x => { x with digestDone := true }) s else s)

/-- Every condition of R539. -/
def readyNow (s : State) : Bool :=
  (List.range 16).all (fun i => (mcOf s i).trained) &&
  (s.ident.variant = .l || s.mem.tierOff || (List.range 8).all (fun i => (mcOf s (16 + i)).trained)) &&
  s.start.waves = 511 && s.start.standbyImg && s.start.digestDone

/-- READY (R539). -/
def execReady (s : State) : Out :=
  .next (
    if s.start.phase ≠ 5 ∨ s.start.ready ∨ !readyNow s then s
    else plEvent 1 0 (vector0 (modStart (fun x => { x with ready := true, readyRt := s.time.sup, phase := 6 }) s)))

/-- DEFECT_REWRITE_TIMER (R543): entries whose write failed are written again. -/
def execDefectRewriteTimer (flash : Retry) (s : State) : Out :=
  .next (
    if !s.start.dirty ∨ s.start.full then s
    else
      let (ok, s) := flashTry s.flash.defects 0x300000 0x80000 flash s
      let l := recordedDefects s
      { s with flash := { s.flash with defects := s.flash.defects.put ok s.pins.aux3v3 l },
               start := { s.start with dirty := !ok } })

/-- The MID that would be in force after the next start. -/
def nextMid (s : State) : Nat := s.ident.pendRack.getD (s.ident.mid / 64) * 64 + s.ident.pendSlot.getD (s.ident.mid % 64)

/-- SLOT_ID_SAMPLE (R325, R599). -/
def execSlotIdSample (slotId : BitVec 6) (s : State) : Out :=
  .next (
    if !s.power.v52 then s
    else
      let was := midPending s
      let old := nextMid s
      let s := { s with ident := { s.ident with slot := slotId.toNat } }
      if slotId.toNat = s.ident.mid % 64 then s
      else
        let s := { s with ident := { s.ident with pendSlot := some slotId.toNat } }
        if was ∧ nextMid s = old then s else plEvent 0xA (nextMid s) s)

/-- The limit of every port that holds in NEGOTIATE runs from MID_VALID (R325, R326). -/
def startNegotiation (s : State) : State :=
  (portsIn s [3]).foldl (fun s p => modPort p (fun x => { x with since := s.time.clk }) s) s

/-- SET_RACK_NUMBER (R325, R596). -/
def execSetRackNumber (rack : Nat) (s : State) : Out :=
  .next (onMgmt (fun s =>
    if 63 < rack then reply ccInvalidData [] s
    else if !s.ident.midValid then
      reply ccOk [] (startNegotiation { s with ident := { s.ident with mid := rack * 64 + s.ident.mid % 64, midValid := true } })
    else if rack = s.ident.mid / 64 then reply ccOk [] s
    else
      let s := { s with ident := { s.ident with pendRack := some rack } }
      reply ccOk [] (plEvent 0xA (nextMid s) s)) s)

end Sys2Proof.Machine
end

