-- ==== Sys2Proof/Machine/RackTime.lean ====
section
/-!
DEFINITION. Rack time (R42-R59, R71), the schedule table (R60-R70) and the frame start (R43, R44, R364-R368, R458).
-/
namespace Sys2Proof.Machine

/-- Rack time, changed. -/
def modTime (f : Time → Time) (s : State) : State := { s with time := f s.time }

/-- A W1C bit of RT_STATUS set by hardware (R72). -/
def rtFlag (bit : Nat) (s : State) : State := modTime (fun t => { t with w1c := t.w1c ||| BitVec.ofNat 32 (2 ^ bit) }) s

/-- A slip at the start of frame k (R49): flagged and counted; in two consecutive frames it is lasting. An edge belongs to
the frame whose start is nearest (DEDUCED, log 101). -/
def slip (k : Nat) (s : State) : State :=
  let lasting := decide (0 < k) && decide (s.time.lastSlip = some (k - 1))
  rtFlag 5 (modTime (fun t => { t with slips := t.slips + 1, lastSlip := some k,
                                       tq := if lasting then .freeLost else t.tq }) s)

/-- Pending entries end STEPPED when a set leaves free time, and what they would have done does not happen (R55). -/
def stepEntries (s : State) : State :=
  if !schedAny s (fun _ _ => true) then s
  else
    let reset := decide ((sched s 1).st = 1)
    let s := event 5 2 0 0 (schedEndAll 5 (fun _ _ => true) s)
    let s := modFab (fun f => { f with comps := f.comps.filter (fun c => !c.own) }) s
    { s with fw := { s.fw with pending := none }, power := { s.power with lowering := none },
             start := { s.start with dir := { s.start.dir with pendRt := 0 },
                                     resetAt := if reset then none else s.start.resetAt } }

/-- Entries that a forward move passes execute late (R56, R69). -/
def passEntries (v : Nat) (s : State) : State :=
  { s with sched := { s.sched with tab := s.sched.tab.map (fun x =>
      if x.2.st = 1 ∧ x.2.rt < v then (x.1, { x.2 with late := true }) else x) } }

/-- Prepared launches whose tick the new count has reached start late (R57). -/
def passLaunches (v : Nat) (s : State) : State :=
  (List.range 36).foldl (fun s i =>
    match headLaunch s i, part? s i with
    | some l, some p => if l.st = 1 ∧ l.tick ≤ v then modLaunch p.ctx l.id (fun x => { x with late := true }) s else s
    | _, _ => s) s

/-- The ledger at a set: frames follow the new count, open accounts take TIME_SET (R478), and what is stamped by then comes
before what is stamped later (log 110). -/
def ledgerSet (v : Nat) (s : State) : State :=
  let aged (l : List LedEvent) : List LedEvent := l.map (fun e => { e with old := true })
  modLed (fun l => { l with
    spanFrom := frameOf v - (l.nextFrame - l.spanFrom), nextFrame := frameOf v,
    spanT := l.spanT + (s.time.sup - l.spanAt), spanAt := v, reports := [],
    hostEv := aged l.hostEv, tileEv := aged l.tileEv, events := aged l.events,
    boundary := min l.boundary (v / 10000000 * 10000000),
    reqs := l.reqs.map (fun r => { r with timeSet := true }),
    pools := l.pools.map (fun x => (x.1, x.2.map (fun p => { p with timeSet := true }))) }) s

/-- Pending collectives whose start tick the new count has passed are late (R57, R403). -/
def passColls (old v : Nat) (s : State) : State :=
  (s.eng.colls.filter (fun c => c.slot.isNone && decide (old < c.startTick) && decide (c.startTick < v))).foldl
    (fun s c => event (0xC + c.half.num) 3 0 0 s) s

/-- RACK_TIME_LOAD (R53, R55-R57, R462): the three counters load V at the edge. A set at TQ 0 with V equal to the count
changes TIME_EPOCH and what reports the set, and nothing else (R56). -/
def loadTime (v : Nat) (s : State) : State :=
  let old := s.time.sup
  let moved := decide (v ≠ s.time.sup)
  let free := decide (s.time.tq ≠ .locked)
  if !moved && !free then modTime (fun t => { t with cntA := v, cntB := v, epoch := (t.epoch + 1) % 65536, setLast := v,
                                                     setResult := 1, armed := none }) s
  else
  let s := if moved then endWindow s else s
  let s := if free then stepEntries s else passEntries v s
  let s := ledgerSet v s
  let s := modTime (fun t => { t with sup := v, cntA := v, cntB := v, tq := .locked, epoch := (t.epoch + 1) % 65536,
                                      setLast := v, setResult := 1, armed := none, lastSlip := none, lastMiss := none,
                                      lastEdge := some (frameOf v), adjust := none }) s
  if moved then passColls old v (passLaunches v s) else s

/-- An armed set is cancelled (R54). -/
def cancelSet (result : Nat) (s : State) : State := modTime (fun t => { t with armed := none, setResult := result }) s

/-- A tick added or withheld within the following 1,000 ticks (R50); its moment is a free value. -/
def discipline (up : Bool) (s : State) : State :=
  takeFree (modTime (fun t => { t with adjust := some (up, t.clk + 1 + freshNat 1 s % 1000) }) s)

/-- RACK_SYNC_EDGE (R48-R50, R53-R56). The edge belongs to the nearest frame start, also where a slipped edge falls in the
frame before it (DEDUCED, log 101). -/
def execRackSyncEdge (s : State) : Out :=
  .next (
    let t := s.time
    let r := t.sup % 100000
    let k := if r ≤ 50000 then t.sup / 100000 else t.sup / 100000 + 1
    let off := if r ≤ 50000 then r else 100000 - r
    if !s.power.v52 ∨ !s.pins.rackClk then s
    else if t.tq = .locked ∧ 1 < off then slip k s
    else
      let s := if t.tq = .locked then
          let s := modTime (fun t => { t with lastEdge := some k }) s
          if off = 0 then s else discipline (decide (50000 < r)) s
        else s
      match t.armed with
      | none => s
      | some a =>
        if t.clk < a.doneAt + 10000 then s
        else if a.doneAt + 100000000 < t.clk then cancelSet 7 s
        else if t.tq = .locked ∧ a.v < t.sup then cancelSet 4 s
        else if t.tq = .locked ∧ t.sup < a.v ∧ !a.step then cancelSet 5 s
        else loadTime a.v s)

/-- RACK_CLK_LOSS (R49, R54): 1 µs without an edge. -/
def execRackClkLoss (s : State) : Out :=
  .next (
    let s := { s with pins := { s.pins with rackClk := false } }
    if !s.power.v52 then s
    else
      let s := advance 100 s
      let s := if s.time.tq = .locked then rtFlag 4 (modTime (fun t => { t with tq := .freeLost }) s) else s
      if s.time.armed.isSome then cancelSet 6 s else s)

/-- RACK_CLK_RETURN (R47, R50): the count goes on; TQ changes only through a set. -/
def execRackClkReturn (s : State) : Out := .next { s with pins := { s.pins with rackClk := true } }

/-- SYNC_MISSING (R49): no edge within ±1 tick of a frame start, found 1 tick after it. -/
def execSyncMissing (s : State) : Out :=
  .next (
    if s.time.tq ≠ .locked then s
    else
      let k := cdiv (s.time.sup - 1) 100000
      if s.time.lastEdge = some k ∨ s.time.lastMiss = some k then s
      else slip k (modTime (fun t => { t with lastMiss := some k }) (waitCount (k * 100000 + 1) s)))

/-- RACK_SET_TIMEOUT (R54): 1 s after the command's completion. -/
def execRackSetTimeout (s : State) : Out :=
  .next (
    match s.time.armed with
    | none => s
    | some a => cancelSet 7 (waitUntil (a.doneAt + 100000000) s))

/-- SET_RACK_TIME (R51-R53, R596, R597). -/
def execSetRackTime (v : Nat) (step : Bool) (s : State) : Out :=
  .next (onMgmt (fun s =>
    if v % 100000 ≠ 0 then reply 0x80 [] (modTime (fun t => { t with setResult := 2 }) s)
    else if !s.pins.rackClk then reply 0x81 [] (modTime (fun t => { t with setResult := 3 }) s)
    else reply ccOk [] (modTime (fun t => { t with armed := some { v := v % 2 ^ 64, step := step, doneAt := t.clk } }) s))
    s)

/-- GET_RACK_TIME (R596). -/
def execGetRackTime (s : State) : Out :=
  .next (onMgmt (fun s => reply ccOk (natLe 8 s.time.sup ++ natLe 8 s.time.setLast ++ natLe 2 s.time.epoch ++
    natLe 1 s.time.tq.code ++ natLe 1 (b2n s.time.armed.isSome) ++ natLe 1 s.time.setResult) s) s)

/-- TIME_QUERY (R310). -/
def execTimeQuery (mb : Fin 128) (s : State) : Out :=
  .next (runOp 0x401 (fun _ _ _ _ s => okRep (natLe 8 (now s) ++ natLe 8 s.time.setLast ++ natLe 2 s.time.epoch ++
    natLe 1 s.time.tq.code ++ natLe 1 0) s) mb s)

/-- RT_NOW_LOW_READ (R71): the port latches the high word. -/
def execRtNowLowRead (port : Half) (s : State) : Out :=
  .next (
    if !s.power.rails then s
    else match port with
      | .a => modTime (fun t => { t with latchA := now s / 2 ^ 32 }) s
      | .b => modTime (fun t => { t with latchB := now s / 2 ^ 32 }) s)

-- ---------------------------------------------------------------- the schedule table

/-- SCHED_ADD (R66, R310). -/
def execSchedAdd (mb : Fin 128) (s : State) : Out :=
  .next (runOp 0x402 (fun _ h pl _ s =>
    let w := leNat pl
    let rt := fld w 63 0
    let lateOk := bitOf w 72
    let arg := fld w 255 128
    if !lateOk ∧ rt < now s + 1000 then badArg 0 s
    else if fld w 71 64 ≠ 7 then badArg 8 s
    else if arg = 0 ∨ 255 < arg then badArg 16 s
    else match freeFrom s 32 224 with
      | none => refuse stNoResource 0 s
      | some i =>
        let s := schedPut i rt 7 1 arg lateOk h.ctx s
        okRep (natLe 4 (handleOf s i)) s) mb s)

/-- SCHED_CANCEL (R70, R310). At the entry's tick the dispatch wins, unless a backlog has left the entry behind. -/
def execSchedCancel (mb : Fin 128) (s : State) : Out :=
  .next (runOp 0x403 (fun _ h pl _ s =>
    match byHandle s (numAt pl 0 4) with
    | none => badArg 0 s
    | some i =>
      let e := sched s i
      let mine :=
        if h.ctx = 0 then e.owner = 0 ∧ (e.action = 2 ∨ e.action = 3 ∨ e.action = 4)
        else e.owner = 1 ∧ e.action = 7 ∧ e.ctx = h.ctx
      if e.st ≠ 1 ∨ !decide mine ∨ (e.rt = s.time.sup ∧ !e.late) then badArg 0 s
      else
        let s := schedEnd i 4 s
        if e.action = 2 then
          okRep [] { s with fw := { s.fw with pending := none },
                            start := { s.start with dir := { s.start.dir with pendRt := 0 } } }
        else okRep [] s) mb s)

/-- Dispatch order (R68): RT, then ACTION, then index. -/
def beforeEntry (a b : Nat × SchedEntry) : Bool :=
  a.2.rt < b.2.rt || a.2.rt = b.2.rt && (a.2.action < b.2.action || a.2.action = b.2.action && a.1 < b.1)

/-- Insertion in dispatch order. -/
def insertEntry (x : Nat × SchedEntry) : List (Nat × SchedEntry) → List (Nat × SchedEntry)
  | [] => [x]
  | y :: r => if beforeEntry x y then x :: y :: r else y :: insertEntry x r

/-- Pending entries that are due, in dispatch order; a FW_ACTIVATE entry waits for the control complex (R69). The table
stands in the supervisor (R60) and compares with the supervisor's counter (DEDUCED, log 100: R31 gives it the counter of its own
half). -/
def dueEntries (s : State) : List (Nat × SchedEntry) :=
  ((s.sched.tab.filter (fun x => x.2.st = 1 && x.2.rt ≤ s.time.sup && (x.2.action != 2 || serving s))).foldl
    (fun l x => insertEntry x l) [])

/-- One entry leaves the table for its executing block (R67, R69); it is late where its tick lies before `from_`, the count
from which the supervisor could have dispatched it at its tick. -/
def dispatchOne (from_ i : Nat) (s : State) : State :=
  let e := sched s i
  let late := e.late || decide (e.rt < from_)
  let s := setSched i { e with st := if late then 3 else 2, late := late, resultFree := decide (s.time.tq ≠ .locked) } s
  let s := if late then event 5 3 0 0 s else s
  if e.action = 6 then s
  else { s with sched := { s.sched with out := s.sched.out ++ [{ idx := i, action := e.action, arg := e.arg,
                                                                  rt := e.rt }] } }

/-- The earliest RT of a pending entry that can be dispatched, or that its tick will find waiting for the control
complex. -/
def nextRt (s : State) : Option Nat :=
  (s.sched.tab.filter (fun x => x.2.st = 1 && (x.2.action != 2 || serving s || !x.2.late))).foldl (fun m x =>
    match m with | none => some x.2.rt | some r => some (min r x.2.rt)) none

/-- Entries that may still be dispatched in the present microsecond: 16 in each (R67). -/
def dispatchRoom (s : State) : Nat := if s.sched.usAt = s.time.clk / 100 then 16 - s.sched.usN else 16

/-- SCHED_DISPATCH (R67-R69): up to 16 due entries in a microsecond, in the next one where this one's 16 are dispatched;
those left behind are late. A FW_ACTIVATE entry that waits for the control complex past its tick is late. -/
def execSchedDispatch (s : State) : Out :=
  .next (
    match nextRt s with
    | none => s
    | some t =>
      let c := s.time.sup
      let s := waitCount t s
      let s := if dispatchRoom s = 0 then advance (100 - s.time.clk % 100) s else s
      let room := dispatchRoom s
      let due := (dueEntries s).take room
      let s := due.foldl (fun s x => dispatchOne c x.1 s) s
      { s with sched := { s.sched with usAt := s.time.clk / 100, usN := 16 - room + due.length, tab := s.sched.tab.map (fun x =>
          if x.2.st = 1 ∧ x.2.rt ≤ s.time.sup then (x.1, { x.2 with late := true }) else x) } })

/-- The block that executes an action (R63): both trace actions act on the encoders. -/
def actionBlock (action : Nat) : Nat := if action = 4 then 3 else action

/-- The first dispatched entry of an action's block, taken from the way to it where it is of that action: entries of one
block execute in their dispatch order (R68). -/
def takeDispatch (action : Nat) (s : State) : Option (Dispatch × State) :=
  match s.sched.out.find? (fun d => actionBlock d.action = actionBlock action) with
  | none => none
  | some d => if d.action = action then some (d, { s with sched := { s.sched with out := s.sched.out.erase d } }) else none

/-- HOST_EVENT (R63, R64): the vector of ARG[7:0]. -/
def execHostEvent (s : State) : Out :=
  .next (
    match takeDispatch 7 s with
    | none => s
    | some (d, s) => msix s.crown.holder (fld d.arg 7 0) s)

/-- The own comparator with the lowest tick. -/
def ownComp (s : State) : Option Comparator :=
  (s.fab.comps.filter (fun c => c.own)).foldl (fun m c =>
    match m with | none => some c | some x => if c.tick < x.tick then some c else some x) none

/-- The pending TRANSIT_WITHDRAW entry of a comparator leaves PENDING at its tick (R67). -/
def endWithdrawEntry (c : Comparator) (s : State) : State :=
  { s with sched := { s.sched with tab := s.sched.tab.map (fun x =>
      if x.2.st = 1 ∧ x.2.action = 6 ∧ x.2.rt = c.tick ∧ fld x.2.arg 1 0 = c.kind ∧ fld x.2.arg 15 8 = c.port then
        (x.1, { x.2 with st := if x.2.late then 3 else 2, resultFree := decide (s.time.tq ≠ .locked) }) else x) } }

-- ---------------------------------------------------------------- the frame start

/-- A half's counter deviates by a fault of its own; a count is never negative. -/
def driftHalf (h : Half) (d : Int) (s : State) : State :=
  match h with
  | .a => modTime (fun t => { t with cntA := (t.cntA + d).toNat }) s
  | .b => modTime (fun t => { t with cntB := (t.cntB + d).toNat }) s

/-- The counter of a half against the supervisor's (R44): one that disagreed at the last comparison is loaded first.
`drift` is what a fault has added to the counter when it is compared. -/
def compareHalf (h : Half) (drift : Int) (s : State) : State :=
  let dis := match h with | .a => s.time.disA | .b => s.time.disB
  let s := if dis then
      let s := match h with
        | .a => modTime (fun t => { t with cntA := t.sup }) s
        | .b => modTime (fun t => { t with cntB := t.sup }) s
      event (0xA + h.num) 3 0 0 (rtFlag 6 s)
    else s
  let s := driftHalf h drift s
  let d := decide (cnt s h ≠ s.time.sup)
  let s := if dis && d then event (0xA + h.num) 4 0 0 s else s
  match h with
  | .a => modTime (fun t => { t with disA := d }) s
  | .b => modTime (fun t => { t with disB := d }) s

/-- A beacon of a port (R364, R365, R368): prefix in DEST_MASK, SEND_RT in TARGET_VA, BEACON_SEQ in SEQ, PORT in TAG,
DIGEST_VALID, PROTO and TQ in OP_ARG[4:0]. -/
def beaconPkt (s : State) (p : Nat) : Pkt :=
  let x := port s p
  { opcode := 0x0D, vc := 6, srcHalf := portHalf p, srcMid := s.ident.mid, destMid := 0xFFF,
    destMask := if x.proto = 1 then 0 else s.start.beaconPrefix, targetVa := cnt s (portHalf p), seq := x.beaconSeq,
    tag := p, opArg := s.time.tq.code + 4 * (x.proto % 4) + 16 * b2n (x.proto ≠ 1 && s.start.digValid) }

/-- Beacons out, and the frames without one in (R364, R366). -/
def beaconFrame (s : State) : State :=
  (portsIn s [4, 5, 8]).foldl (fun s p =>
    let s := sendOn p (beaconPkt s p) s
    let x := port s p
    let gap := if x.beaconIn then 0 else x.beaconGap + 1
    let s := modPort p (fun x => { x with beaconSeq := (x.beaconSeq + 1) % 2 ^ 32, beaconIn := false,
                                          beaconGap := if gap = 3 then 0 else gap }) s
    if gap = 3 then portEvent p 7 (count (0x80 + p) 38 1 s) else s) s

/-- FRAME_START (R43, R44, R364, R368, R458): the next frame start of the supervisor's count. -/
def execFrameStart (s : State) (driftA driftB : Int := 0) : Out :=
  .next (
    if !s.power.v52 then s
    else
      let s := waitCount ((s.time.sup / 100000 + 1) * 100000) s
      let s := thermalUpdate s
      if !s.power.rails then s
      else
        let s := compareHalf .b driftB (compareHalf .a driftA s)
        let s := { s with start := { s.start with digValid := s.start.digestDone,
                                                  beaconPrefix := prefixOf (fabDigest s) } }
        beaconFrame s)

end Sys2Proof.Machine
end

