-- ==== Sys2Proof/Machine/Frames.lean ====
section
/-!
DEFINITION. Frames and virtual ranges of contexts (R200-R206, R306): what is free, how an allocation is drawn, mapped and
freed. Which free frames and which free range firmware takes is its own choice: the search begins at a free value.
-/
namespace Sys2Proof.Machine

/-- The physical range that ALLOC draws from (R200). -/
def allocRange (s : State) (lp : Bool) : Nat × Nat :=
  let small := s.ident.variant = .l || s.mem.tierOff
  if lp then (0x10000000000, if small then 0x10000000000 else 0x18000000000 - s.mem.windowGib * 2 ^ 30)
  else (0, if small then 0x8800000000 else hbmTop)

/-- The frames of KIND 3 and 4 in the defect ledger, as ranges (R544). The -L ignores KIND 4. -/
def defectFrames (s : State) : List (Nat × Nat) :=
  s.start.defects.filterMap (fun d =>
    if d.kind = 3 ∨ (d.kind = 4 ∧ s.ident.variant ≠ .l) then some (d.loc * 0x200000, 0x200000) else none)

/-- Frames that contexts hold. -/
def ownedFrames (s : State) : List (Nat × Nat) :=
  s.work.ctxs.flatMap (fun x => match x.2 with | some c => c.allocs.flatMap (·.owned) | none => [])

/-- A list of ranges [lo, hi) less one range of (start, length). -/
def cutRange (l : List (Nat × Nat)) (u : Nat × Nat) : List (Nat × Nat) :=
  l.flatMap (fun r => [(r.1, min r.2 u.1), (max r.1 (u.1 + u.2), r.2)].filter (fun x => decide (x.1 < x.2)))

/-- The free ranges of a tier, those at or above `start` first. -/
def freeRanges (s : State) (lp : Bool) (start : Nat) : List (Nat × Nat) :=
  let r := allocRange s lp
  let l := (ownedFrames s ++ defectFrames s).foldl cutRange (if r.1 < r.2 then [r] else [])
  l.filterMap (fun x => if start < x.2 then some (max x.1 start, x.2) else none) ++
  l.filterMap (fun x => if x.1 < start then some (x.1, min x.2 start) else none)

/-- The whole pages of ranges. -/
def wholePages (pg : Nat) (l : List (Nat × Nat)) : List (Nat × Nat) :=
  (l.map (fun x => (cdiv x.1 pg * pg, x.2 / pg * pg))).filter (fun x => decide (x.1 < x.2))

/-- Draws `n` bytes from ranges as runs (address, bytes); none where they do not suffice. -/
def drawFrames : List (Nat × Nat) → Nat → Option (List (Nat × Nat))
  | [], n => if n = 0 then some [] else none
  | x :: r, n =>
    if n = 0 then some []
    else
      let k := min n (x.2 - x.1)
      (drawFrames r (n - k)).map (fun l => (x.1, k) :: l)

/-- Page size of a PAGE flag. -/
def pageSize (big : Bool) : Nat := if big then 0x40000000 else 0x200000

/-- Frames for `n` bytes of a tier (R200). -/
def findFrames (s : State) (lp big : Bool) (n : Nat) : Option (List (Nat × Nat)) :=
  let pg := pageSize big
  drawFrames (wholePages pg (freeRanges s lp (Config.freeNat 30 s.free % 2 ^ 41 / pg * pg))) n

/-- A virtual range is free of mappings. -/
def vaFree (c : Ctx) (va n : Nat) : Bool :=
  decide (va + n ≤ 2 ^ 48) && c.maps.all (fun m => decide (va + n ≤ m.va) || decide (m.va + m.len ≤ va))

/-- The virtual ranges that allocations without a mapping still stand for are kept free for them. -/
def vaUnused (c : Ctx) (va n : Nat) : Bool :=
  vaFree c va n && c.allocs.all (fun a => decide (va + n ≤ a.va) || decide (a.va + a.size ≤ va))

/-- A free page-aligned range for an allocation: from a free value on, else after some existing range. -/
def findVa (s : State) (c : Ctx) (pg n : Nat) : Option Nat :=
  let start := Config.freeNat 31 s.free % 2 ^ 48 / pg * pg
  let ends := c.maps.map (fun m => cdiv (m.va + m.len) pg * pg) ++ c.allocs.map (fun a => cdiv (a.va + a.size) pg * pg)
  (start :: 0 :: ends).find? (fun v => vaUnused c v n)

/-- Mappings of the runs from a virtual address on. -/
def mapRuns (big write : Bool) : Nat → List (Nat × Nat) → List Mapping
  | _, [] => []
  | va, (pa, n) :: r => { va := va, pa := pa, len := n, big := big, write := write } :: mapRuns big write (va + n) r

/-- Zeroes runs of frames (R306). -/
def zeroRuns (l : List (Nat × Nat)) (s : State) : State :=
  { s with mem := { s.mem with phys := l.foldl (fun m x => Memory.clear m x.1 x.2) s.mem.phys } }

-- ---------------------------------------------------------------- page tables (R201, R205)

/-- Addresses of free 4 KiB tables, from `a` upward. -/
def freeTables (used : List Nat) : Nat → Nat → Nat → List Nat
  | 0, _, _ => []
  | f + 1, a, k =>
    if k = 0 then []
    else if used.contains a then freeTables used f (a + 4096) k
    else a :: freeTables used f (a + 4096) (k - 1)

/-- The level-2 tables of all contexts. -/
def usedTables (s : State) : List Nat :=
  s.work.ctxs.flatMap (fun x => match x.2 with | some c => c.l2.map (·.2) | none => [])

/-- The level-1 entries under which a context has 2 MiB pages. -/
def smallGibs (c : Ctx) : List Nat :=
  (c.maps.filter (fun m => !m.big && decide (0 < m.len))).flatMap (fun m =>
    (List.range ((m.va + m.len - 1) / 2 ^ 30 + 1 - m.va / 2 ^ 30)).map (m.va / 2 ^ 30 + ·))

/-- Every level-1 entry with 2 MiB pages under it names a level-2 table: those that have none take free ones above the level-1
tables of the same working memory (log 109). -/
def growTables (s : State) (c : Ctx) : Ctx :=
  let need := (smallGibs c).eraseDups.filter (fun i => FMap.get 0 c.l2 i = 0)
  let used := usedTables s
  let base := workBase (if c.ptBase < 0x8E00000000 then .a else .b) + 0x40000000
  let new := need.zip (freeTables used (used.length + need.length) base need.length)
  { c with l2 := new.foldl (fun m x => FMap.set 0 m x.1 x.2) c.l2 }

/-- The virtual range that the entry at an address of a context's tables maps. -/
def entryRange (c : Ctx) (pa : Nat) : Option (Nat × Nat) :=
  if c.ptBase ≤ pa ∧ pa < c.ptBase + 0x200000 then some ((pa - c.ptBase) / 8 * 2 ^ 30, 2 ^ 30)
  else (c.l2.find? (fun y => y.2 ≤ pa && pa < y.2 + 4096)).map (fun y => (y.1 * 2 ^ 30 + (pa - y.2) / 8 * 2 ^ 21, 2 ^ 21))

/-- The mappings of a context change in a range: firmware writes the entries of the range, and every translation cache that
may hold one of the old ones is invalidated (R201, R205). -/
def setMaps (cx va n : Nat) (f : Ctx → Ctx) (s : State) : State :=
  let s := modCtx cx (fun c => growTables s (f c)) s
  let s := match ctx? s cx with
    | none => s
    | some c =>
      let stays (a : Nat) : Bool := match entryRange c a with
        | some (v, k) => decide (va + n ≤ v) || decide (v + k ≤ va)
        | none => true
      { s with mem := { s.mem with pte := s.mem.pte.filter (fun x => stays (8 * x.1)) } }
  cacheDrop cx va n s

/-- The place of a new context's level-1 table: the lowest free of the crown's working memory (log 109). -/
def tableBase (s : State) : Nat :=
  let base := workBase s.crown.holder
  let used := s.work.ctxs.filterMap (fun x => x.2.map (fun c => c.ptBase))
  (((List.range 65).map (fun i => base + 0x200000 * i)).find? (fun a => !used.contains a)).getD base

/-- An allocation drawn, zeroed and mapped in a context. -/
def place (cx recipe lp : Nat) (big write : Bool) (va n : Nat) (runs : List (Nat × Nat)) (s : State) : State :=
  takeFree (setMaps cx va n (fun c => { c with
    maps := c.maps ++ mapRuns big write va runs,
    allocs := c.allocs ++ [{ va := va, size := n, tier := lp, big := big, recipe := recipe, owned := runs }] })
    (zeroRuns runs s))

/-- The tier of a KIND or TIER field (R243, R306): 2 lies wholly in HBM3E, else wholly in LPDDR5X. -/
def pickTier (s : State) (t : Nat) (big : Bool) (n : Nat) : Option (Nat × List (Nat × Nat)) :=
  let hbm := (findFrames s false big n).map (fun l => (0, l))
  let lp := (findFrames s true big n).map (fun l => (1, l))
  if t = 0 then hbm else if t = 1 then lp else match hbm with | some x => some x | none => lp

/-- Mappings without a range: pieces on either side stay. -/
def unmapRange (va n : Nat) (l : List Mapping) : List Mapping :=
  l.flatMap (fun m =>
    (if m.va < va then [{ m with len := min m.len (va - m.va) }] else []) ++
    (if va + n < m.va + m.len then
      let b := max m.va (va + n); [{ m with va := b, pa := m.pa + (b - m.va), len := m.va + m.len - b }] else []))

/-- The mappings of a range, cut to it. -/
def insideRange (va n : Nat) (l : List Mapping) : List Mapping :=
  l.filterMap (fun m =>
    let b := max m.va va; let e := min (m.va + m.len) (va + n)
    if b < e then some { m with va := b, pa := m.pa + (b - m.va), len := e - b } else none)

/-- A range is wholly mapped, every piece as `p` asks. -/
def covered (va n : Nat) (p : Mapping → Bool) (l : List Mapping) : Bool :=
  let q := insideRange va n l
  decide ((q.map (·.len)).sum = n) && q.all p

/-- Frees an allocation: its mapping goes and its frames return (R205). -/
def freeAlloc (cx va : Nat) (s : State) : State :=
  match ((ctx? s cx).getD {}).allocs.find? (fun a => a.va = va) with
  | none => s
  | some a => setMaps cx a.va a.size (fun c => { c with
      maps := unmapRange a.va a.size c.maps, allocs := c.allocs.filter (fun b => b.va != va) }) s

end Sys2Proof.Machine
end

