-- ==== Sys2Proof/Machine/MemCmd.lean ====
section
/-!
DEFINITION. The memory commands: ALLOC, FREE, MAP, COPY and TIER_MOVE (R200-R215, R306, R307).
-/
namespace Sys2Proof.Machine

/-- The address of an 8-byte field: bits [47:0]. -/
def addrAt (pl : List Byte) (off : Nat) : Nat := numAt pl off 8 % 2 ^ 48

/-- A context of a command, present by the checks of R295. -/
def theCtx (s : State) (i : Nat) : Ctx := (ctx? s i).getD {}

/-- ALLOC (R306, R200). -/
def execAlloc (mb : Fin 128) (s : State) : Out :=
  .next (runOp 0x101 (fun _ h pl _ s =>
    let size := numAt pl 0 8
    let tier := numAt pl 8 1
    let big := decide (numAt pl 9 1 = 1)
    let pg := pageSize big
    let flags := numAt pl 10 2
    let fixed := bitOf flags 1
    let va := addrAt pl 16
    let n := cdiv size pg * pg
    let c := theCtx s h.ctx
    if size = 0 then badArg 0 s
    else if 2 < tier then badArg 8 s
    else if 1 < numAt pl 9 1 then badArg 9 s
    else if fixed ∧ va % pg ≠ 0 then badArg 16 s
    else if fixed ∧ !vaFree c va n then badArg 0 s
    else match pickTier s tier big n, (if fixed then some va else findVa s c pg n) with
      | some (t, runs), some va =>
        okRep (natLe 8 va ++ natLe 8 n ++ natLe 1 t) (place h.ctx 0 t big (bitOf flags 0) va n runs s)
      | _, _ => refuse stNoResource 0 s) mb s)

/-- A recipe of a context. -/
def recipe? (s : State) (cx i : Nat) : Option Recipe := FMap.get none (theCtx s cx).recipes i

/-- The size a bound argument must have, and whether it must be writable (R243). -/
def argNeeds (r : Recipe) (i : Nat) : Nat × Bool :=
  let l := r.segs.filter (fun g => g.kind = 3 && g.arg = i)
  ((l.map (·.size)).foldl max 0, l.any (·.write))

/-- A launch's bound arguments reach into a range of its context (R243, R255). -/
def launchUses (s : State) (cx : Nat) (l : Launch) (va n : Nat) : Bool :=
  match recipe? s cx l.recipe with
  | none => false
  | some r => (List.range r.args).any (fun i =>
      decide (nth l.args i < va + n) && decide (va < nth l.args i + (argNeeds r i).1))

/-- The running launches that use memory which their context frees or unmaps end FAILED (R206, R265). No tile raised a code:
FAULT_CODE is 0. -/
def failUsers (cx va n : Nat) (s : State) : State :=
  (ctxParts s cx).foldl (fun s i => match headLaunch s i with
    | some l => if l.st = 2 ∧ launchUses s cx l va n then failLaunch i 0 0 0 0 false s else s
    | none => s) s

/-- FREE (R205, R306): the address that ALLOC returned. -/
def execFree (mb : Fin 128) (s : State) : Out :=
  .next (runOp 0x102 (fun _ h pl _ s =>
    let va := addrAt pl 0
    match (theCtx s h.ctx).allocs.find? (fun a => a.va = va && a.recipe = 0) with
    | some a => okRep [] (failUsers h.ctx va a.size (freeAlloc h.ctx va s))
    | none => badArg 0 s) mb s)

/-- The allocation of ALLOC that holds a range of whole pages (R306). -/
def allocOf (c : Ctx) (va n : Nat) : Option Alloc :=
  c.allocs.find? (fun a => a.recipe = 0 && decide (a.va ≤ va) && decide (va + n ≤ a.va + a.size))

/-- SIZE and VA of a MAP command name whole pages of one allocation, or of one window mapping where `win`: the payload
offset at fault. -/
def mapFault (c : Ctx) (va n : Nat) (win : Bool) : Option Nat :=
  match allocOf c va n with
  | some a => if va % pageSize a.big ≠ 0 then some 0 else if n = 0 ∨ n % pageSize a.big ≠ 0 then some 8 else none
  | none =>
    if win ∧ n ≠ 0 ∧ covered va n (fun m => m.window) c.maps then
      (if va % 0x200000 ≠ 0 then some 0 else if n % 0x200000 ≠ 0 then some 8 else none)
    else some (if n = 0 then 8 else 0)

/-- MAP with OP 0, PROTECT (R306). An OP above 2 is refused here. -/
def execMapProtect (mb : Fin 128) (s : State) : Out :=
  .next (runCmd 0x103 (fun pl => numAt pl 16 1 != 1 && numAt pl 16 1 != 2) (fun _ h pl _ s =>
    let va := addrAt pl 0
    let n := numAt pl 8 8
    let perm := numAt pl 17 1
    let c := theCtx s h.ctx
    if numAt pl 16 1 ≠ 0 then badArg 16 s
    else match mapFault c va n false with
      | some o => badArg o s
      | none =>
        if !covered va n (fun _ => true) c.maps then badArg 0 s
        else okRep [] (setMaps h.ctx va n (fun c => { c with
          maps := unmapRange va n c.maps ++ (insideRange va n c.maps).map (fun m =>
            { m with read := bitOf perm 0, write := bitOf perm 1 }) }) s)) mb s)

/-- MAP with OP 1, UNMAP (R205, R306). -/
def execMapUnmap (mb : Fin 128) (s : State) : Out :=
  .next (runCmd 0x103 (fun pl => numAt pl 16 1 = 1) (fun _ h pl _ s =>
    let va := addrAt pl 0
    let n := numAt pl 8 8
    match mapFault (theCtx s h.ctx) va n true with
    | some o => badArg o s
    | none => okRep [] (failUsers h.ctx va n (setMaps h.ctx va n (fun c => { c with maps := unmapRange va n c.maps }) s))) mb s)

/-- MAP with OP 2, WINDOW (R215, R306): 2 MiB pages of the CXL.mem window. -/
def execMapWindow (mb : Fin 128) (s : State) : Out :=
  .next (runCmd 0x103 (fun pl => numAt pl 16 1 = 2) (fun _ h pl _ s =>
    let va := addrAt pl 0
    let n := numAt pl 8 8
    let perm := numAt pl 17 1
    let off := addrAt pl 24
    if va % 0x200000 ≠ 0 then badArg 0 s
    else if n = 0 ∨ n % 0x200000 ≠ 0 then badArg 8 s
    else if off % 0x200000 ≠ 0 then badArg 24 s
    else if !vaFree (theCtx s h.ctx) va n then badArg 0 s
    else if s.mem.windowGib * 2 ^ 30 < off + n then badArg 8 s
    else
      let m : Mapping := { va := va, pa := winBase s + off, len := n, read := bitOf perm 0, write := bitOf perm 1,
                           window := true }
      okRep [] (setMaps h.ctx va n (fun c => { c with maps := c.maps ++ [m] }) s)) mb s)

-- ---------------------------------------------------------------- data movement (R210-R212, R307)

/-- One side of a movement: an address space and an address. -/
structure Side where
  host : Bool
  va : Nat

/-- The bytes of one source line, or the code of the failure (R212, R307). -/
def readSide (ag : Agent) (cx : Nat) (env : MemEnv) (x : Side) (n : Nat) (s : State) : Except Fail (List Byte) :=
  if x.host then (if env.hostErr then .error ⟨8, x.va, 0⟩ else .ok (Memory.bytes s.mem.host x.va n))
  else match lineAt s ag cx env false x.va with
    | .error e => .error e
    | .ok (pa, _) => .ok (Memory.bytes s.mem.phys pa n)

/-- The bytes of one destination line written: the state and the failure. -/
def writeSide (ag : Agent) (cx : Nat) (env : MemEnv) (x : Side) (l : List Byte) (s : State) : State × Option Fail :=
  if x.host then ({ s with mem := { s.mem with host := Memory.store s.mem.host x.va l } }, none)
  else
    let s' := lineNote ag cx env true x.va l.length s
    match lineAt s ag cx env true x.va (splitsWord x.va l.length) with
    | .error e => (s', some e)
    | .ok (pa, _) => (storePhys pa l s', none)

/-- What the read of one source line leaves. -/
def sideNote (ag : Agent) (cx : Nat) (env : MemEnv) (x : Side) (n : Nat) (s : State) : State :=
  if x.host then s else lineNote ag cx env false x.va n s

/-- Moves `n` bytes line by line and stops at the first failing line: state, bytes written and the failure. Where the
ranges overlap (`ov`), the bytes written are free values. -/
def moveLines (ag : Agent) (cx : Nat) (env : MemEnv) (ov : Bool) : Nat → Side → Side → Nat → State →
    State × Nat × Option Fail
  | 0, _, _, _, s => (s, 0, none)
  | f + 1, a, b, n, s =>
    if n = 0 then (s, 0, none)
    else
      let k := min n (min (64 - a.va % 64) (64 - b.va % 64))
      let s' := sideNote ag cx env a k s
      match readSide ag cx env a k s with
      | .error e => (s', 0, some e)
      | .ok l =>
        let l := if ov then natLe k (freshNat 40 s) else l
        match writeSide ag cx env b l (if ov then takeFree s' else s') with
        | (s, some e) => (s, 0, some e)
        | (s, none) =>
          let (s, m, e) := moveLines ag cx env ov f { a with va := a.va + k } { b with va := b.va + k } (n - k) s
          (s, k + m, e)

/-- Source and destination overlap. -/
def overlaps (a b : Side) (n : Nat) : Bool := (a.host = b.host) && decide (a.va < b.va + n) && decide (b.va < a.va + n)

/-- The whole movement. -/
def moveAll (ag : Agent) (cx : Nat) (env : MemEnv) (a b : Side) (n : Nat) (s : State) :
    State × Nat × Option Fail :=
  moveLines ag cx env (overlaps a b n) (n / 32 + 4) a b n s

/-- The window lines that a movement reaches and the host may hold (R215). -/
def sideSnoops (s : State) (ag : Agent) (cx : Nat) (wr : Bool) (x : Side) (n : Nat) : List Nat :=
  if x.host then [] else snoopLines s ag cx wr x.va n

/-- A movement that crosses the bridge waits while the bridge retrains (R24). -/
def sideHeld (s : State) (ag : Agent) (cx : Nat) (wr : Bool) (x : Side) (n : Nat) : Bool :=
  !x.host && bridgeHolds s ag cx wr x.va n

/-- COPY (R306, R307): the movement runs until COPY_DONE. -/
def execCopy (mb : Fin 128) (s : State) : Out :=
  .next (runOp 0x104 (fun _ _ pl rc s =>
    let n := numAt pl 16 8
    if n = 0 ∨ 2 ^ 32 < n then badArg 16 s
    else if 1 < numAt pl 24 1 then badArg 24 s
    else if 1 < numAt pl 25 1 then badArg 25 s
    else .stay rc s) mb s)

/-- COPY_DONE (R212, R307): the lines move in hardware, in an activation pause too; the answer waits for firmware
(R318). -/
def execCopyDone (mb : Fin 128) (env : MemEnv) (s : State) : Out :=
  .next (
    match runKeyOf s mb 0x104 with
    | none => s
    | some (k, r) =>
      let a : Side := { host := numAt r.pl 24 1 = 1, va := addrAt r.pl 0 }
      let b : Side := { host := numAt r.pl 25 1 = 1, va := addrAt r.pl 8 }
      let n := numAt r.pl 16 8
      let ag : Agent := .host (crownHalf s)
      let sn := sideSnoops s ag r.ctx false a n ++ sideSnoops s ag r.ctx true b n
      if sn ≠ [] then issueSnoops sn s
      else if sideHeld s ag r.ctx false a n || sideHeld s ag r.ctx true b n then s
      else
        let (s, m, e) := moveAll ag r.ctx env a b n s
        respond k (if e.isNone then stOk else stAborted) ((e.map (·.code)).getD 0) (natLe 8 m) s)

-- ---------------------------------------------------------------- TIER_MOVE (R207-R213)

/-- Descriptor `i` of a TIER_MOVE (R208). -/
def moverDesc (pl : List Byte) (i : Nat) : Nat := numAt pl (64 * i) 64

/-- Partitions of a context whose reservation holds an engine counter. -/
def countersOf (s : State) (cx i : Nat) : List Nat :=
  (ctxParts s cx).filter (fun p => match part? s p with | some x => decide (i < x.feCnt) | none => false)

/-- The signal target of a mover descriptor lies in the context's partitions or engine allocation (R98, R209). -/
def moverTarget (s : State) (cx d : Nat) : Bool :=
  let t := fld d 239 228
  match fld d 218 217 with
  | 0 => true
  | 2 => decide (t / 64 < 36) && decide (fld d 227 219 < 64) && !absentPos s (t / 64) (t % 64) &&
      (match clCtx s (t / 64) with | some (_, k) => k = cx | none => false)
  | 3 => countersOf s cx (fld d 227 219) != []
  | _ => false

/-- The byte offset within a descriptor of the first field at fault (R209). -/
def moverFault (s : State) (cx d : Nat) : Option Nat :=
  if fld d 218 217 = 1 then some 27
  else if !moverTarget s cx d then some (if fld d 218 217 = 2 then 28 else 27)
  else if fld d 351 320 < 64 ∨ fld d 351 320 % 64 ≠ 0 then some 40
  else if fld d 431 384 % 64 ≠ 0 then some 48
  else if fld d 495 448 % 64 ≠ 0 then some 56
  else none

/-- TIER_MOVE (R209): every descriptor is checked before any starts. -/
def execTierMove (mb : Fin 128) (s : State) : Out :=
  .next (runOp 0x105 (fun _ h pl rc s =>
    let n := h.len / 64
    if h.len % 64 ≠ 0 ∨ n = 0 ∨ 62 < n then badArg 0x10006 s
    else match (List.range n).findSome? (fun i => (moverFault s h.ctx (moverDesc pl i)).map (64 * i + ·)) with
      | some o => badArg o s
      | none => .stay { rc with moves := List.replicate n {} } s) mb s)

/-- A mover runs a descriptor. -/
def moverBusy (s : State) (h : Half) (m : Nat) : Bool :=
  s.mbx.run.any (fun x => match x.2 with
    | some r => r.moves.any (fun d => d.st = 1 && d.half = h && d.mover = m) | none => false)

/-- TIER_MOVE_DESC_START (R207, R210): a free mover takes the descriptor; SYNC waits for every earlier one, START_RT for
its rack time. -/
def execTierMoveDescStart (mb : Fin 128) (i : Nat) (half : Half) (mover : Fin 4) (s : State) : Out :=
  .next (
    match runKeyOf s mb 0x105 with
    | none => s
    | some (k, r) =>
      let d := moverDesc r.pl i
      let early := (r.moves.take i).all (fun m => decide (2 ≤ m.st))
      match r.moves[i]? with
      | some m =>
        if m.st ≠ 0 ∨ moverBusy s half mover.val ∨ s.crown.takeover ∨ (bitOf d 128 ∧ !early) then s
        else
          let s := waitCount (fld d 319 256) s
          setRun k
            (some { r with moves := r.moves.set i { m with st := 1, half := half, mover := mover.val } }) s
      | none => s)

/-- The signal of a mover descriptor (R211) of the command of key `k`. Where several partitions of the context reserve the counter, the manual
does not say which one is meant: a free choice among them. -/
def moverSignal (k cx d : Nat) (s : State) : State :=
  let v := fld d 255 240
  match fld d 218 217 with
  | 2 =>
    let t := fld d 239 228
    match clCtx s (t / 64) with
    | some (p, _) => pushSignal { src := 8192 + k, part := p, tgt := t, cnt := fld d 227 219, val := v } s
    | none => s
  | 3 =>
    let l := countersOf s cx (fld d 227 219)
    if l = [] then s
    else takeFree (pushSignal { src := 8192 + k, eng := some (Half.ofNum (fld d 216 216)),
                                part := nth l (freshNat 41 s % l.length), tgt := 0, cnt := fld d 227 219, val := v } s)
  | _ => s

/-- A TIER_MOVE whose descriptors have all ended answers (R307); `arg` is 1 + the descriptor that failed first, whose code
the answer carries (R297). -/
def tierMoveEnd (k : Nat) (r : RunCmd) (s : State) : State :=
  if r.moves.all (fun m => decide (2 ≤ m.st)) then
    respond k (if r.moves.all (fun m => m.st = 2) then stOk else stAborted)
      (if r.moves.all (fun m => m.st = 2) then 0 else ((r.moves[r.arg - 1]?).map (·.reason)).getD 0)
      (movesResp r.moves) s
  else s

/-- TIER_MOVE_DESC_DONE (R210-R212): the descriptor's lines move; a failure discards the descriptors not started. -/
def execTierMoveDescDone (mb : Fin 128) (i : Nat) (env : MemEnv) (s : State) : Out :=
  .next (
    match runKeyOf s mb 0x105 with
    | none => s
    | some (k, r) =>
      match r.moves[i]? with
      | none => s
      | some m =>
        if m.st ≠ 1 then tierMoveEnd k r s
        else
          let d := moverDesc r.pl i
          let a : Side := { host := false, va := fld d 495 448 }
          let b : Side := { host := false, va := fld d 431 384 }
          let n := fld d 351 320
          let ag : Agent := .mover m.half
          let sn := sideSnoops s ag r.ctx false a n ++ sideSnoops s ag r.ctx true b n
          if sn ≠ [] then issueSnoops sn s
          else if sideHeld s ag r.ctx false a n || sideHeld s ag r.ctx true b n then s
          else
            let (s, done, e) := moveAll ag r.ctx env a b n s
            let code := (e.map (·.code)).getD 0
            let ms := r.moves.set i { m with st := if e.isNone then 2 else 3, reason := code, moved := done }
            let ms := if e.isNone then ms else ms.map (fun m => if m.st = 0 then { m with st := 5 } else m)
            let s := match e with
              | none => moverSignal k r.ctx d s
              | some x => event (0x10 + m.half.num) 0 x.code x.va s
            let s := count (0x10 + m.half.num) 32 done s
            let s := if e.isNone then count (0x10 + m.half.num) 33 1 s else s
            let r := { r with moves := ms, arg := if e.isSome && r.arg = 0 then i + 1 else r.arg }
            tierMoveEnd k r (setRun k (some r) s))

end Sys2Proof.Machine
end

