-- ==== Sys2Proof/Machine/Session.lean ====
section
/-!
DEFINITION. Session commands (R236-R238, R292, R294, R303-R305).
-/
namespace Sys2Proof.Machine

/-- Live contexts. -/
def liveCtxs (s : State) : Nat := s.work.ctxs.length

/-- The next CONTEXT_ID above the last one assigned, 0x0001 to 0xFFFE, that is not live (R236). -/
def nextCtxId (s : State) : Nat → Nat → Nat
  | i, 0 => i
  | i, n + 1 =>
    let j := if i < 0xFFFE then i + 1 else 1
    if (ctx? s j).isNone then j else nextCtxId s j n

/-- The highest supported version in a range (R293, R294). -/
def pickVer (lo hi : Nat) : Option Nat :=
  if lo ≤ 0x0101 ∧ 0x0101 ≤ hi then some 0x0101 else if lo ≤ 0x0100 ∧ 0x0100 ≤ hi then some 0x0100 else none

/-- A new context with its mailboxes and its ledger account (R236, R237, R292, R472). -/
def openCtx (i seed ver : Nat) (mbs : List Nat) (s : State) : State :=
  let s := setCtx i (some { seed := seed, ver := ver, ptBase := tableBase s, openSeq := s.led.seq, openRt := now s }) s
  let s := { s with work := { s.work with lastCtx := i },
                    mbx := { s.mbx with bind := mbs.foldl (fun m k => FMap.set 0 m k i) s.mbx.bind } }
  openPool i s

/-- OPEN (R303): version, mask, then the limit of 64 contexts. -/
def execOpenCmd (mb : Fin 128) (drawn : BitVec 64) (s : State) : Out :=
  .next (runOp 0x001 (fun k _ pl _ s =>
    match pickVer (numAt pl 0 2) (numAt pl 2 2) with
    | none => refuse stBadVersion 0 s
    | some v =>
      let mbs := bitsOf (numAt pl 16 16) 128
      if !mbs.contains (k % 128) ∨ mbs.any (fun m => FMap.get 0 s.mbx.bind m != 0) then badArg 16 s
      else if 64 ≤ liveCtxs s then refuse stNoResource 0 s
      else
        let i := nextCtxId s s.work.lastCtx 64
        let seed := if numAt pl 8 8 = 0 then drawn.toNat else numAt pl 8 8
        okRep (natLe 2 v ++ natLe 2 i) (openCtx i seed v mbs s)) mb s)

/-- A partition is to be destroyed at the end of its reset: fenced now, or by a reset in progress (R254, R522). -/
def resetToDestroy (cause : Nat) (i : Nat) (s : State) : State :=
  modPart i (fun p => { p with fence := p.fence.map (fun f => { f with destroy := true }) })
    (fencePart cause 5 0 false i s)

/-- CLOSE (R238): a CLOSE that runs already is joined. -/
def execCloseCmd (mb : Fin 128) (s : State) : Out :=
  .next (runOp 0x002 (fun _ h _ rc s =>
    let closing := match ctx? s h.ctx with | some c => c.closing | none => false
    if closing then .stay rc s
    else
      let s := modCtx h.ctx (fun c => { c with closing := true }) s
      let ps := ctxParts s h.ctx
      if ps = [] then okRep [] (finishClose h.ctx s)
      else .stay rc (ps.foldl (fun s i => resetToDestroy 2 i s) s)) mb s)

/-- Allocatable capacity of a tier in bytes (R200): the table's figure less the defect frames in it. -/
def allocatable (s : State) (lp : Bool) : Nat :=
  let r := allocRange s lp
  (r.2 - r.1) - ((defectFrames s).filter (fun x => r.1 ≤ x.1 && x.1 < r.2)).length * 0x200000

/-- A cluster is withheld by the partition-map setting (R252). -/
def withheld (s : State) (c : Nat) : Bool := bitOf (setting s 0x0301) c

/-- Format codes that MMA accepts: BF16, FP16, FP8, the MX formats, FP4 and INT8 (R137, R154). -/
def mmaFormats : Nat := bitsWord ((List.range 16).map (fun c => (c, decide (3 ≤ c ∧ c ≤ 14))))

/-- Highest minor version of a bundle that the module accepts (R246). -/
def minorMax : Nat := Config.recipeMinorMax % 65536

/-- Serial, capacities and versions of section 0 (R304). -/
def capsSummary (s : State) : List Byte :=
  natLe 1 (variantCode s.ident.variant) ++ natLe 1 0xB1 ++ natLe 2 (idUnits s) ++ natLe 2 0x0100 ++ natLe 2 0x0101 ++
  natLe 8 s.ident.serial ++ natLe 2 minorMax ++ natLe 2 64 ++ natLe 4 (allocatable s false / 2 ^ 30) ++
  natLe 4 (allocatable s true / 2 ^ 30) ++ natLe 1 s.mem.windowGib ++ natLe 1 (b2n s.mem.perHalf) ++
  natLe 1 (setting s 0x0201) ++ natLe 1 0

/-- The clusters of section 1. -/
def capsClusters (s : State) : List Byte :=
  (List.range 36).flatMap (fun c =>
    let p := (cluster s c).part
    natLe 1 (goodOf s c) ++ natLe 1 (if p.isSome then 1 else if withheld s c then 2 else 0) ++
    natLe 1 (p.getD 255) ++ natLe 1 0)

/-- A mask of the ports that `f` selects. -/
def portMask (s : State) (f : Port → Bool) : Nat := bitsWord ((List.range 64).map (fun p => (p, f (port s p))))

/-- QUERY_CAPS (R304). -/
def execQueryCaps (mb : Fin 128) (s : State) : Out :=
  .next (runOp 0x003 (fun _ _ pl _ s =>
    match numAt pl 0 2 with
    | 0 => okRep (capsSummary s) s
    | 1 => okRep (capsClusters s) s
    | 2 => okRep (natLe 2 mmaFormats ++ natLe 1 (if s.ident.variant = .l then 0 else 7) ++ natLe 1 0) s
    | 3 => okRep (natLe 8 (portMask s (fun x => x.st = 4)) ++
        natLe 8 (portMask s (fun x => (x.st = 4 || x.st = 5 || x.st = 8) && x.proto = 1)) ++ natLe 2 s.ident.mid) s
    | _ => badArg 0 s) mb s)

/-- Open requests of the module as firmware counts them. -/
def moduleOpen (s : State) : Nat := ((s.work.ctxs.map (fun x => (openTags s x.1).length)).sum)

/-- QUERY_STATUS WHAT 0 (R305). -/
def statusModule (s : State) : List Byte :=
  natLe 4 (mbState s (crownHalf s)) ++ natLe 4 s.crown.claim ++ natLe 8 (now s) ++ natLe 1 s.time.tq.code ++
  natLe 1 (source s) ++ natLe 2 0 ++ natLe 4 (effective s) ++ natLe 2 (liveCtxs s) ++ natLe 2 s.work.parts.length ++
  natLe 2 (moduleOpen s) ++ natLe 1 (b2n (s.fab.digMap.any (·.2))) ++ natLe 1 0

/-- QUERY_STATUS WHAT 1. A partition that has accepted no launch reads LAUNCH_ID 0 and STATE 0. -/
def statusPart (s : State) (p : Part) : List Byte :=
  let l := match p.recent with | x :: _ => launch? s p.ctx x.2 | [] => none
  let queued := (p.queue.filter (fun id => match launch? s p.ctx id with | some l => l.st = 0 | none => false)).length
  natLe 2 p.ctx ++ natLe 1 p.clusters.length ++ natLe 1 queued ++ natLe 4 ((l.map (·.id)).getD 0) ++
  natLe 1 ((l.map (·.st)).getD 0) ++ natLe 1 (b2n p.fence.isSome) ++ natLe 6 0 ++
  p.clusters.flatMap (fun c => natLe 1 c ++ natLe 1 (goodOf s c))

/-- Bytes a context holds in a tier. -/
def tierBytes (c : Ctx) (t : Nat) : Nat := ((c.allocs.filter (fun a => a.tier = t)).map (·.size)).sum

/-- QUERY_STATUS WHAT 2. -/
def statusCtx (s : State) (i : Nat) (c : Ctx) : List Byte :=
  natLe 8 (((ctxParts s i).map (fun p => 2 ^ p)).sum) ++ natLe 2 c.recipes.length ++ natLe 2 (openTags s i).length ++
  natLe 4 0 ++ natLe 8 (tierBytes c 0) ++ natLe 8 (tierBytes c 1)

/-- QUERY_STATUS (R305). -/
def execQueryStatus (mb : Fin 128) (s : State) : Out :=
  .next (runOp 0x004 (fun _ h pl _ s =>
    match numAt pl 0 1 with
    | 0 => okRep (statusModule s) s
    | 1 => match part? s (numAt pl 1 1) with
      | some p => if p.ctx = h.ctx then okRep (statusPart s p) s else badArg 1 s
      | none => badArg 1 s
    | 2 => match ctx? s h.ctx with
      | some c => okRep (statusCtx s h.ctx c) s
      | none => badArg 0x10010 s
    | _ => badArg 0 s) mb s)

end Sys2Proof.Machine
end

