-- ==== Sys2Proof/Machine/Recipe.lean ====
section
/-!
DEFINITION. The recipe bundle (R239-R245) and loading (R246-R248).
-/
namespace Sys2Proof.Machine

/-- A recipe in the course of a load: its record, with what the later steps need of the bundle. -/
structure Bundle where
  rcp : Recipe
  segs : List (Segment × Bool × Nat × Nat)     -- segment, PAGE_1G, INIT_OFF, INIT_BYTES
  relocs : List Nat
  dataOff : Nat
  dataBytes : Nat

/-- Step 1 of R246 on the header. -/
def bundleVersion (h : Nat) : Bool :=
  decide (fld h 31 0 = 0x50435254 ∧ fld h 63 48 = 1 ∧ fld h 47 32 ≤ minorMax)

/-- The signature of R240 where RECIPE_SIG requires one: over the trailer's hash, by the key in the settings. -/
def signatureOk (s : State) (b : List Byte) : Bool :=
  let n := b.length
  !s.work.recSig || decide (s.work.recKey ≠ []) && decide (96 ≤ n) &&
    Config.sm2Verify (BitVec.ofNat 512 (leNat s.work.recKey.reverse)) (sliceB b (n - 32) 32)
      (BitVec.ofNat 512 (leNat (sliceB b (n - 96) 64).reverse))

/-- A name in the string area: ended by a zero byte before the trailer, at most 256 bytes (R239). -/
def nameAt (b : List Byte) (a lim : Nat) : Option (List Byte) :=
  let l := (b.drop a).take (min 257 (lim - a))
  let nm := l.takeWhile (· != 0)
  if a < lim ∧ nm.length < l.length then some nm else none

/-- A segment entry (R243): the segment, PAGE_1G, INIT_OFF, INIT_BYTES. -/
def segEntry (e : Nat) : Segment × Bool × Nat × Nat :=
  ({ kind := fld e 199 192, size := fld e 63 0, write := bitOf e 200, arg := fld e 223 208 },
   bitOf e 201, fld e 127 64, fld e 191 128)

/-- The limits of R243 on a segment. -/
def segOk (args lim : Nat) (x : Segment × Bool × Nat × Nat) : Bool :=
  let g := x.1
  if g.kind = 3 then decide (g.arg < args) && decide (x.2.2.2 = 0)
  else decide (g.kind < 3) && decide (1 ≤ g.size) && decide (x.2.2.2 ≤ g.size) &&
    (decide (x.2.2.2 = 0) || decide (x.2.2.1 + x.2.2.2 ≤ lim))

/-- The limits of R242 on a base specification. -/
def baseOk (args : Nat) (segs : List (Segment × Bool × Nat × Nat)) (v : Nat) : Bool :=
  match fld v 63 62 with
  | 0 => true
  | 1 => match segs[fld v 61 48]? with | some x => decide (x.1.kind ≠ 3) | none => false
  | 2 => decide (fld v 51 48 < args)
  | _ => false

/-- A stream entry (R241). -/
def streamEntry (e : Nat) : Stream :=
  { cluster := fld e 15 0, pos := fld e 21 16, off := fld e 127 64, count := fld e 63 32,
    bases := (List.range 7).map (fun k => fld e (64 * (k + 1) + 127) (64 * (k + 1) + 64)) }

/-- Entries of a table in the bundle. -/
def tableOf (b : List Byte) (off size n : Nat) : List Nat := (List.range n).map (fun i => numAt b (off + size * i) size)

/-- Steps 2 to 4 of R246: the parsed bundle, or the status that refuses it. -/
def parseBundle (s : State) (b : List Byte) (given : Nat) : Except Nat Bundle :=
  let h := numAt b 0 128
  let n := b.length
  let lim := n - 32
  let ns := fld h 191 176; let ng := fld h 319 304; let ny := fld h 351 320; let nr := fld h 383 352
  let na := fld h 295 288; let nc := fld h 175 160
  let sdo := fld h 767 704; let sdb := fld h 831 768
  let sto := fld h 447 384; let sgo := fld h 511 448; let syo := fld h 575 512; let rlo := fld h 639 576
  let sro := fld h 703 640
  if fld h 127 64 ≠ given ∨ n < 160 ∨ hashBytes (Config.sm3 (b.take lim)) ≠ sliceB b lim 32 ∨ !signatureOk s b then
    .error stBadArg
  else if (bitOf h 128 ∧ s.ident.variant = .l) ∨ (bitOf h 129 ∧ (s.ident.variant = .l ∨ s.mem.tierOff)) ∨
      (bitOf h 130 ∧ s.ident.variant = .s) then .error stUnitAbsent
  else if !decide (1 ≤ ns ∧ ns ≤ 2304 ∧ 1 ≤ ng ∧ ng ≤ 4096 ∧ ny ≤ 65535 ∧ na ≤ 16 ∧ 1 ≤ nc ∧ nc ≤ 36 ∧
      fld h 287 272 ≤ 8192 ∧ fld h 271 256 ≤ 512 ∧ sdo % 64 = 0 ∧ sdb % 64 = 0 ∧ rlo % 16 = 0 ∧ syo % 32 = 0 ∧
      sgo % 32 = 0 ∧ sto % 16 = 0 ∧ sto + 80 * ns ≤ lim ∧ sgo + 32 * ng ≤ lim ∧ syo + 32 * ny ≤ lim ∧
      rlo + 16 * nr ≤ lim ∧ sdo + sdb ≤ lim) then .error stBadArg
  else
    let segs := (tableOf b sgo 32 ng).map segEntry
    let streams := (tableOf b sto 80 ns).map streamEntry
    let syms := tableOf b syo 32 ny
    let relocs := tableOf b rlo 16 nr
    let names := syms.map (fun y => nameAt b (sro + fld y 31 0) lim)
    let ok := segs.all (segOk na lim) &&
      streams.all (fun x => decide (1 ≤ x.count ∧ x.off % 64 = 0 ∧ x.off + 64 * x.count ≤ sdb ∧ x.cluster < nc) &&
        bitOf (numAt b (sdo + x.off + 64 * (x.count - 1)) 64) 16 && x.bases.all (baseOk na segs)) &&
      decide ((streams.map (fun x => 64 * x.cluster + x.pos)).Nodup) &&
      syms.all (fun y => match segs[fld y 45 32]? with
        | some g => decide (fld y 127 64 + fld y 191 128 ≤ g.1.size) | none => false) &&
      names.all (·.isSome) && decide names.Nodup &&
      relocs.all (fun r => decide (fld r 79 78 ≠ 3 ∧ fld r 77 64 < ng ∧ fld r 63 0 % 8 = 0 ∧ fld r 63 0 + 8 ≤ sdb))
    if !ok then .error stBadArg
    else .ok {
      rcp := { clusters := nc, feCnt := fld h 271 256, feTrig := fld h 287 272, args := na,
               win := (List.range 8).map (fun w => fld h (8 * w + 195) (8 * w + 193) * 2),
               streams := streams, segs := segs.map (·.1), syms := syms.map (fun y => (bitOf y 56, fld y 191 128)),
               streamVa := 0 },
      segs := segs, relocs := relocs, dataOff := sdo, dataBytes := sdb }

/-- One segment drawn and mapped under a recipe (R246 step 5): its address and runs. -/
def drawSeg (cx handle kind size : Nat) (big write : Bool) (s : State) : Option (Nat × List (Nat × Nat) × State) :=
  let pg := pageSize big
  let n := cdiv size pg * pg
  match pickTier s kind big n, findVa s (theCtx s cx) pg n with
  | some (t, runs), some va => some (va, runs, place cx handle t big write va n runs s)
  | _, _ => none

/-- Step 5 for every segment in table order: the addresses and runs. -/
def drawSegs (cx handle : Nat) : List (Segment × Bool × Nat × Nat) → State →
    Option (List (Nat × List (Nat × Nat)) × State)
  | [], s => some ([], s)
  | x :: r, s =>
    if x.1.kind = 3 then (drawSegs cx handle r s).map (fun (l, s) => ((0, []) :: l, s))
    else match drawSeg cx handle x.1.kind x.1.size x.2.1 x.1.write s with
      | none => none
      | some (va, runs, s) => (drawSegs cx handle r s).map (fun (l, s) => ((va, runs) :: l, s))

/-- Bytes written along runs of frames. -/
def storeRuns : List (Nat × Nat) → List Byte → State → State
  | [], _, s => s
  | (pa, n) :: r, l, s => storeRuns r (l.drop n) (storePhys pa (l.take n) s)

/-- A word of the stream data under a relocation (R245). -/
def relocWord (ty sum w : Nat) : Nat :=
  match ty with
  | 0 => sum
  | 1 => w % 65536 + sum % 2 ^ 48 * 65536
  | _ => w / 2 ^ 48 * 2 ^ 48 + sum % 2 ^ 48

/-- Step 6: the relocations in table order on the stream data; none where one names an ARGUMENT segment. -/
def relocate (segs : List (Segment × Bool × Nat × Nat)) (vas : List Nat) : List Nat → List Byte → Option (List Byte)
  | [], d => some d
  | r :: t, d =>
    let i := fld r 77 64
    match segs[i]? with
    | some x =>
      if x.1.kind = 3 then none
      else
        let sum := wrapI 64 ((nth vas i : Int) + sext 48 (fld r 127 80))
        let o := fld r 63 0
        relocate segs vas t (d.take o ++ natLe 8 (relocWord (fld r 79 78) sum (numAt d o 8)) ++ d.drop (o + 8))
    | none => none

/-- The first line that the load's writes of these runs fail at, its retry too (R218), and the lines up to it. -/
def badWrite (s : State) (env : MemEnv) (runs : List (Nat × Nat)) : List (Nat × Nat) × Bool :=
  let l := runs.flatMap (fun x => linesOf x.1 x.2)
  let ok := l.takeWhile (fun x => !memFails s env true false x.1)
  (ok ++ (l.drop ok.length).take 1, decide (ok.length < l.length))

/-- The whole load from the bundle's bytes (R246 steps 2 to 7): status, DETAIL, response, state. A failure leaves the
state before it. -/
def loadBundle (cx given : Nat) (env : MemEnv) (b : List Byte) (s : State) : Rep :=
  match parseBundle s b given with
  | .error st => .ans st (if st = stBadArg then 8 else 0) [] s
  | .ok p =>
    let c := theCtx s cx
    let handle := c.nextRecipe
    match drawSegs cx handle p.segs s with
    | none => refuse stNoResource 0 s
    | some (placed, s1) =>
      match drawSeg cx handle 0 p.dataBytes false false s1 with
      | none => refuse stNoResource 0 s
      | some (sva, sruns, s2) =>
        let (wl, wbad) := badWrite s env (sruns ++ placed.flatMap (·.2))
        if wbad then refuse stAborted 8 (writesNote (.host (crownHalf s)) env wl s)
        else match relocate p.segs (placed.map (·.1)) p.relocs (sliceB b p.dataOff p.dataBytes) with
        | none => badArg 8 s
        | some data =>
          if 256 ≤ c.recipes.length then refuse stNoResource 0 s
          else
            let s := (p.segs.zip placed).foldl (fun s x =>
              storeRuns x.2.2 (sliceB b x.1.2.2.1 x.1.2.2.2) s) (storeRuns sruns data (writesNote (.host (crownHalf s)) env wl s2))
            let rc := { p.rcp with streamVa := sva,
                                   segs := (p.rcp.segs.zip placed).map (fun x => { x.1 with va := x.2.1 }) }
            okRep (natLe 4 handle) (modCtx cx (fun c => { c with
              recipes := FMap.set none c.recipes handle (some rc), nextRecipe := c.nextRecipe + 1 }) s)

/-- Reads the bundle's source (R246): the bytes, or the status and DETAIL of a memory failure. -/
def readBundle (s : State) (cx : Nat) (env : MemEnv) (ctxMem : Bool) (addr n : Nat) : Except (Nat × Nat) (List Byte) :=
  if !ctxMem then (if env.hostErr then .error (stAborted, 8) else .ok (Memory.bytes s.mem.host addr n))
  else match readVa s (.host (crownHalf s)) cx env addr n with
    | (l, none) => .ok l
    | (_, some e) => if e.code = 6 ∨ e.code = 7 then .error (stBadArg, 8) else .error (stAborted, e.code)

/-- What that read leaves at the controllers and the translation cache. -/
def bundleNote (cx : Nat) (env : MemEnv) (ctxMem : Bool) (addr n : Nat) (s : State) : State :=
  if ctxMem then readNote (.host (crownHalf s)) cx env addr n s else s

/-- Commands that read window memory wait while the host may cache its lines (R215): the snoops go out first, once the
checks that every command shares have passed (R295). A read across the bridge waits while it retrains (R24). -/
def afterSnoops (mb : Fin 128) (op : Nat) (rng : List Byte → Option (Nat × Nat)) (f : State → State) (s : State) : State :=
  let k := mbKey (crownHalf s) mb.val
  let h := hdr (page s k)
  let pl := payload (page s k)
  let l := match rng pl with
    | some (va, n) => snoopLines s (.host (crownHalf s)) h.ctx false va n
    | none => []
  let held : Bool := match rng pl with
    | some (va, n) => bridgeHolds s (.host (crownHalf s)) h.ctx false va n
    | none => false
  if (l ≠ [] ∨ held) ∧ h.opcode = op ∧ mayStart s k ∧ serving s ∧ (headerCheck s k h pl).isNone then
    (if held then s else issueSnoops l s)
  else f s

/-- RECIPE_LOAD (R246, R308): the load runs until RECIPE_LOAD_DONE. -/
def execRecipeLoad (mb : Fin 128) (s : State) : Out :=
  .next (runOp 0x203 (fun _ _ pl rc s => if 1 < numAt pl 0 1 then badArg 0 s else .stay rc s) mb s)

/-- An ended command answered; one that changed module state is journalled (R429). -/
def answer (k op : Nat) : Rep → State
  | .ans st det r s =>
    let s := if (st = stOk ∨ st = stCapLimited) ∧ journalled op then
        { s with crown := { s.crown with journal := s.crown.journal + 1 } } else s
    respond k st det r s
  | .stay rc s => setRun k (some rc) s

/-- RECIPE_LOAD_DONE (R246): the header is read and checked first, then the whole bundle. A load whose mailbox has
answered by its watchdog leaves nothing behind (R320). -/
def execRecipeLoadDone (mb : Fin 128) (env : MemEnv) (s : State) : Out :=
  .next (
    match runKeyOf s mb 0x203 with
    | none => s
    | some (k, r) =>
      let src := decide (numAt r.pl 0 1 = 1)
      let addr := addrAt r.pl 8
      let n := numAt r.pl 16 8
      let ag : Agent := .host (crownHalf s)
      let noted (n : Nat) : State := if src then readNote ag r.ctx env addr n s else s
      if !serving s then s
      else if src ∧ snoopLines s ag r.ctx false addr n ≠ [] then issueSnoops (snoopLines s ag r.ctx false addr n) s
      else if src ∧ bridgeHolds s ag r.ctx false addr n then s
      else if 256 ≤ k then setRun k none s
      else if (ctx? s r.ctx).isNone then answer k 0x203 (badArg 0x10010 s)
      else match readBundle s r.ctx env src addr (min n 128) with
        | .error (st, det) => answer k 0x203 (refuse st det (noted (min n 128)))
        | .ok h =>
          if !bundleVersion (numAt h 0 128) then answer k 0x203 (refuse stBadVersion 0 (noted (min n 128)))
          else match readBundle s r.ctx env src addr n with
            | .error (st, det) => answer k 0x203 (refuse st det (noted n))
            | .ok b => answer k 0x203 (loadBundle r.ctx n env b (noted n)))

/-- A launch of the recipe is queued, prepared or running (R248). -/
def recipeBusy (s : State) (cx i : Nat) : Bool :=
  (theCtx s cx).launches.any (fun x => match x.2 with | some l => l.recipe = i && decide (l.st < 3) | none => false)

/-- RECIPE_UNLOAD (R248). -/
def execRecipeUnload (mb : Fin 128) (s : State) : Out :=
  .next (runOp 0x204 (fun _ h pl _ s =>
    let i := numAt pl 0 4
    if (recipe? s h.ctx i).isNone then badArg 0 s
    else if recipeBusy s h.ctx i then refuse stBusy 2 s
    else
      let own := (theCtx s h.ctx).allocs.filter (fun a => a.recipe = i)
      let s := own.foldl (fun s a => freeAlloc h.ctx a.va s) s
      okRep [] (modCtx h.ctx (fun c => { c with recipes := FMap.set none c.recipes i none }) s)) mb s)

end Sys2Proof.Machine
end

