-- ==== Sys2Proof/Machine/Work.lean ====
section
/-!
DEFINITION. Partitions and launches: PART_CREATE to ABORT, preparation, start and end of a launch, the progress watchdog,
and the resets of partitions, clusters and tiles (R249-R268, R308, R316, R516-R522).
-/
namespace Sys2Proof.Machine

-- ---------------------------------------------------------------- partitions (R249-R254)

/-- A cluster may join a partition: free, not withheld, tested, with g at least MIN_GOOD and not 0 (R250). -/
def mayJoin (s : State) (minGood c : Nat) : Bool :=
  (cluster s c).part.isNone && (cluster s c).tested && !withheld s c && decide (max 1 minGood ≤ goodOf s c)

/-- Alternates between two lists, starting with the first; the rest of one follows when the other has none left. -/
def alternate : List Nat → List Nat → List Nat
  | [], b => b
  | a :: r, b => match b with | [] => a :: r | x :: t => a :: x :: alternate r t

/-- The clusters that PART_CREATE takes, ascending, or none (R250). -/
def choose (s : State) (count place minGood : Nat) (list : List Nat) : Option (List Nat) :=
  if list ≠ [] then (if list.all (mayJoin s minGood) then some ((List.range 36).filter list.contains) else none)
  else
    let a := (List.range 18).filter (mayJoin s minGood)
    let b := ((List.range 18).map (· + 18)).filter (mayJoin s minGood)
    let order := match place with | 0 => a ++ b | 1 => a | 2 => b | _ => alternate a b
    let t := order.take count
    if t.length < count then none else some ((List.range 36).filter t.contains)

/-- The fabric-engine reservations of the partitions (R379). -/
def reserved (s : State) (f : Part → Nat) : Nat :=
  (s.work.parts.map (fun x => match x.2 with | some p => f p | none => 0)).sum

/-- A new partition: clusters zeroed, windows closed, reservation held (R251). No command maps a cluster store into a context's
translation, and none is mapped here (R84, log 103). -/
def createPart (i cx : Nat) (cs : List Nat) (cnt trig : Nat) (s : State) : State :=
  let s := cs.foldl (fun s c => modCluster c (fun x => { x with part := some i }) (closeWins c (zeroCluster c s))) s
  setPart i (some { ctx := cx, clusters := cs, feCnt := cnt, feTrig := trig, stallMs := setting s 0x0303 }) (resetEngine i s)

/-- The first payload field of PART_CREATE out of its range (R249, R308, R610). -/
def partFault (pl : List Byte) : Option Nat :=
  let n := numAt pl 3 1
  let l := (List.range n).map (fun i => numAt pl (8 + i) 1)
  if n = 0 ∧ (numAt pl 0 1 = 0 ∨ 36 < numAt pl 0 1) then some 0
  else if n = 0 ∧ 3 < numAt pl 1 1 then some 1
  else if 64 < numAt pl 2 1 then some 2
  else if 36 < n then some 3
  else if 512 < numAt pl 4 2 then some 4
  else if 8192 < numAt pl 6 2 then some 6
  else ((List.range n).find? (fun i => decide (36 ≤ nth l i) || (l.take i).contains (nth l i))).map (8 + ·)

/-- PART_CREATE (R249-R251, R308). A context that is being closed takes no new partition. -/
def execPartCreate (mb : Fin 128) (s : State) : Out :=
  .next (runOp 0x201 (fun _ h pl _ s =>
    match partFault pl with
    | some o => badArg o s
    | none =>
      let n := numAt pl 3 1
      let l := (List.range n).map (fun i => numAt pl (8 + i) 1)
      let mg := if numAt pl 2 1 = 0 then 64 else numAt pl 2 1
      let cnt := numAt pl 4 2
      let trig := numAt pl 6 2
      if (theCtx s h.ctx).closing then refuse stFenced 0 s
      else match choose s (numAt pl 0 1) (numAt pl 1 1) mg l, FMap.freeKey none s.work.parts 0 36 with
        | some cs, some i =>
          if 512 < reserved s (·.feCnt) + cnt ∨ 8192 < reserved s (·.feTrig) + trig then refuse stNoResource 0 s
          else
            okRep (natLe 1 i ++ natLe 1 cs.length ++ natLe 6 0 ++ cs.flatMap (natLe 1 ·) ++
              List.replicate (36 - cs.length) 0) (createPart i h.ctx cs cnt trig s)
        | _, _ => refuse stNoResource 0 s) mb s)

/-- The partition a command names, if it is the context's. -/
def ownPart (s : State) (cx i : Nat) : Option Part :=
  match part? s i with | some p => if p.ctx = cx then some p else none | none => none

/-- PART_DESTROY (R254, R522). -/
def execPartDestroy (mb : Fin 128) (s : State) : Out :=
  .next (runOp 0x202 (fun _ h pl rc s =>
    let i := numAt pl 0 1
    match ownPart s h.ctx i with
    | none => badArg 0 s
    | some p =>
      if bitOf (numAt pl 1 1) 0 then .stay rc (resetToDestroy 1 i s)
      else if p.fence.isSome then refuse stFenced 0 s
      else if p.queue ≠ [] then refuse stBusy 2 s
      else okRep [] (destroyPart i s)) mb s)

-- ---------------------------------------------------------------- launches (R255-R264)

/-- The first argument that does not lie in suitably mapped memory (R256). -/
def argFault (s : State) (cx : Nat) (r : Recipe) (args : List Nat) : Option Nat :=
  (List.range r.args).find? (fun i =>
    let (n, w) := argNeeds r i
    !covered (nth args i) n (fun m => m.read && (!w || m.write)) (theCtx s cx).maps)

/-- A member of a group of the partition has its digest bit set in either map (R256, R551). -/
def digestBlocked (s : State) (i : Nat) : Bool :=
  decide (setting s 0x0004 = 1) && s.eng.groups.any (fun x => match x.2 with
    | some g => g.part = i && g.members.any (fun m => !m.bl1 && (FMap.get false s.fab.digMap m.mid ||
        FMap.get false s.fab.digMap (4096 + m.mid)))
    | none => false)

/-- The cluster number of a partition index. -/
def clusterOf (p : Part) (i : Nat) : Nat := nth p.clusters i

/-- Tile number 64 c + n of a stream's tile. -/
def streamTile (p : Part) (x : Stream) : Nat := 64 * clusterOf p x.cluster + x.pos

/-- Launches of a partition in state QUEUED. -/
def queuedOf (s : State) (p : Part) : Nat :=
  (p.queue.filter (fun id => match launch? s p.ctx id with | some l => l.st = 0 | none => false)).length

/-- The refusals of R256 after the duplicate check, in the order of R295: status and DETAIL. NARGS, which a rule joins with
RECIPE, comes after the fields wrong by themselves (R610). -/
def launchFault (s : State) (cx i : Nat) (p : Part) (pl : List Byte) (args : List Nat) : Option (Nat × Nat) :=
  let rt := numAt pl 16 8
  let hsn := numAt pl 8 8
  if bitOf (numAt pl 1 1) 1 ∧ numAt pl 2 1 = 0 then some (stBadArg, 2)
  else match recipe? s cx (numAt pl 4 4) with
    | none => some (stBadArg, 4)
    | some r =>
      let low : Bool := match p.recent with | x :: _ => decide (hsn ≤ x.1) | [] => false
      if p.clusters.length < r.clusters ∨ p.feCnt < r.feCnt ∨ p.feTrig < r.feTrig then some (stBadArg, 4)
      else if low then some (stBadArg, 8)
      else if rt ≠ 0 ∧ rt + 100000000 < now s then some (stBadArg, 16)
      else match argFault s cx r args with
        | some a => some (stBadArg, 32 + 8 * a)
        | none =>
          if numAt pl 3 1 ≠ r.args then some (stBadArg, 3)
          else if p.fence.isSome then some (stFenced, 0)
          else if digestBlocked s i then some (stDigest, 0)
          else if r.streams.any (fun x => absentPos s (clusterOf p x.cluster) x.pos) ∨ 16 ≤ queuedOf s p then
            some (stNoResource, 0)
          else none

/-- The LAUNCH_ID after one (R259). -/
def nextLaunchId (l : Nat) : Nat := if l = 0xFFFFFFFF then 1 else l + 1

/-- LAUNCH (R255-R259, R308). SEED 0 with SEED_SET draws a seed: a free value (R152). -/
def execLaunch (mb : Fin 128) (s : State) : Out :=
  .next (runOp 0x205 (fun _ h pl _ s =>
    let i := numAt pl 0 1
    match ownPart s h.ctx i with
    | none => badArg 0 s
    | some p =>
      let hsn := numAt pl 8 8
      match p.recent.find? (fun x => x.1 = hsn) with
      | some x =>
        okRep (natLe 4 x.2 ++ natLe 1 (((launch? s h.ctx x.2).map (·.st)).getD 0) ++ natLe 1 1) s
      | none =>
        let args := (List.range 16).map (fun k => addrAt pl (32 + 8 * k))
        match launchFault s h.ctx i p pl args with
        | some (st, det) => refuse st det s
        | none =>
          let set := bitOf (numAt pl 1 1) 0
          let sd := numAt pl 24 8
          let seed := if !set then (theCtx s h.ctx).seed else if sd = 0 then freshNat 42 s % 2 ^ 64 else sd
          let s := if set ∧ sd = 0 then takeFree s else s
          let id := nextLaunchId (theCtx s h.ctx).lastLaunch
          let l : Launch := { id := id, hsn := hsn, part := i, recipe := numAt pl 4 4, startRt := numAt pl 16 8,
                              args := args, notify := if bitOf (numAt pl 1 1) 1 then numAt pl 2 1 else 0, seed := seed }
          let s := modCtx h.ctx (fun c => { c with seed := seed, lastLaunch := id,
                                                   launches := FMap.set none c.launches id (some l) }) s
          let s := setPart i (some { p with queue := p.queue ++ [id], recent := ((hsn, id) :: p.recent).take 16 }) s
          okRep (natLe 4 id ++ natLe 1 0 ++ natLe 1 0) s) mb s)

/-- The value of a base register (R242). -/
def baseValue (r : Recipe) (args : List Nat) (v : Nat) : Nat :=
  match fld v 63 62 with
  | 0 => fld v 61 0
  | 1 => (((r.segs[fld v 61 48]?).map (·.va)).getD 0 + fld v 47 0) % 2 ^ 64
  | _ => (nth args (fld v 51 48) + fld v 47 0) % 2 ^ 64

/-- Base registers and stream address of one tile (R87, R260). -/
def loadTile (p : Part) (r : Recipe) (args : List Nat) (x : Stream) (s : State) : State :=
  modTile (streamTile p x) (fun t => { t with
    base := (List.range 7).foldl (fun m k => FMap.set 0 m (k + 1) (baseValue r args (nth x.bases k))) [],
    streamVa := r.streamVa + x.off }) s

/-- LAUNCH_PREPARE (R260): the row is the end of the preparation. -/
def execLaunchPrepare (part : Fin 36) (s : State) : Out :=
  .next (
    match part? s part.val, headLaunch s part.val with
    | some p, some l =>
      match recipe? s p.ctx l.recipe with
      | none => s
      | some r =>
        if l.st ≠ 0 ∨ p.fence.isSome ∨ !serving s then s
        else
          let s := p.clusters.foldl (fun s c => modCluster c (fun x => { x with win := r.win }) s) s
          let s := r.streams.foldl (fun s x => loadTile p r l.args x s) s
          let passed := decide (l.startRt ≤ now s)
          modLaunch p.ctx l.id (fun y => { y with
            st := 1, tick := if passed then now s + 1 else l.startRt, tileVer := s.fw.tileVer,
            late := y.late || (passed && decide (l.startRt ≠ 0)) }) s
    | _, _ => s)

/-- The boundary counters of a cluster reset, their snapshots taken (R498, R575). -/
def boundaryReset (c : Nat) (s : State) : State :=
  let b := 2048 * (0x40 + c)
  let mine := s.obs.ctr.filter (fun x => decide (b + 64 ≤ x.1) && decide (x.1 < b + 1024))
  let rest := s.obs.ctr.filter (fun x => !(decide (b + 64 ≤ x.1) && decide (x.1 < b + 1024)) &&
    !(decide (b + 1088 ≤ x.1) && decide (x.1 < b + 2048)))
  { s with obs := { s.obs with ctr := mine.foldl (fun m x => FMap.put m (x.1 + 1024) x.2) rest } }

/-- A tile with work begins (R87, R261). -/
def beginTile (l : Launch) (t : Nat) (s : State) : State :=
  modTile t (fun x => { base := x.base, streamVa := x.streamVa, tapArm := x.tapArm, tapCnt := x.tapCnt,
                        rtFree := x.rtFree, launchRt := l.tick, phase := 1 }) s

/-- The clusters of a half start at the tick: fault codes and boundary counters clear, the tile firmware of the launch is
in force, and tiles with work begin. -/
def beginHalf (h : Half) (p : Part) (r : Recipe) (l : Launch) (s : State) : State :=
  let s := (p.clusters.filter (fun c => clHalf c = h)).foldl (fun s c =>
    modCluster c (fun x => { x with codes := [], tileVer := l.tileVer }) (boundaryReset c s)) s
  (r.streams.filter (fun x => clHalf (clusterOf p x.cluster) = h)).foldl (fun s x => beginTile l (streamTile p x) s) s

/-- The halves that hold clusters of a partition. -/
def partHalves (p : Part) : List Half := [Half.a, Half.b].filter (fun h => p.clusters.any (fun c => clHalf c = h))

/-- Has a half of the launch begun. -/
def begun (l : Launch) (h : Half) : Bool := match h with | .a => l.runA | .b => l.runB

/-- Starts every half whose own count has reached the start tick (R261). -/
def startHalves (i : Nat) (p : Part) (r : Recipe) (id : Nat) (s : State) : State :=
  (partHalves p).foldl (fun s h =>
    match launch? s p.ctx id with
    | some l =>
      if begun l h ∨ cnt s h < l.tick then s
      else
        let ms := setting s 0x0302
        let s := beginHalf h p r l s
        let s := modPart i (fun q => { q with lastTick := l.tick, stallMs := setting s 0x0303 }) s
        modLaunch p.ctx id (fun y => { y with
          st := 2, runA := y.runA || h = .a, runB := y.runB || h = .b,
          wdMs := if y.st = 2 then y.wdMs else ms,
          wdAt := if y.st = 2 then y.wdAt else s.time.clk + ms * 100000 }) s
    | none => s) s

/-- LAUNCH_START (R261): time passes to the start tick by the count of the half that reaches it first. -/
def execLaunchStart (part : Fin 36) (s : State) : Out :=
  .next (
    match part? s part.val, headLaunch s part.val with
    | some p, some l =>
      match recipe? s p.ctx l.recipe with
      | none => s
      | some r =>
        let wait := ((partHalves p).filter (fun h => !begun l h)).map (fun h => ticksTo s (cnt s h) l.tick)
        match wait with
        | [] => s
        | w :: ws =>
          if (l.st ≠ 1 ∧ l.st ≠ 2) ∨ p.fence.isSome then s
          else startHalves part.val p r l.id (advance (ws.foldl min w) s)
    | _, _ => s)

/-- Every tile with work has completed its END descriptor. -/
def allEnded (s : State) (p : Part) (r : Recipe) : Bool :=
  r.streams.all (fun x => (tile s (streamTile p x)).phase = 2)

/-- LAUNCH_DONE (R262): DONE is latched in the hardware with its end tick; firmware records it when it serves. -/
def execLaunchDone (part : Fin 36) (s : State) : Out :=
  .next (
    match part? s part.val, headLaunch s part.val with
    | some p, some l =>
      if l.st ≠ 2 ∨ l.endRt = 0 ∨ p.fence.isSome ∨ !serving s then s else endLaunch p.ctx l.id 3 s
    | _, _ => s)

/-- WAIT (R263, R308). -/
def execWaitCmd (mb : Fin 128) (s : State) : Out :=
  .next (runOp 0x206 (fun _ h pl rc s =>
    let id := numAt pl 0 4
    match launch? s h.ctx id with
    | none => badArg 0 s
    | some l =>
      if 60000 < numAt pl 4 4 then badArg 4 s
      else if 3 ≤ l.st then okRep (recordOf l) s
      else .stay { rc with arg := id, deadline := s.time.clk + numAt pl 4 4 * 100000 } s) mb s)

/-- WAIT_TIMEOUT (R263): the record carries the current state. -/
def execWaitTimeout (mb : Fin 128) (s : State) : Out :=
  .next (
    match runKeyOf s mb 0x206 with
    | none => s
    | some (k, r) =>
      let s := waitUntil r.deadline s
      match launch? s r.ctx r.arg with
      | some l => respond k stTimeout 0 (recordOf l) s
      | none => respond k stTimeout 0 [] s)

-- ---------------------------------------------------------------- abort and resets (R265-R267, R316, R517-R522)

/-- The launch of a partition that has ended in the hardware and is not yet recorded, or whose start tick is this one, is
brought to that state before an ABORT acts (R266). -/
def settleHead (i : Nat) (s : State) : State :=
  match part? s i, headLaunch s i with
  | some p, some l =>
    match recipe? s p.ctx l.recipe with
    | some r =>
      if p.fence.isSome then s
      else if l.st = 1 then startHalves i p r l.id s
      else if l.st = 2 ∧ l.endRt ≠ 0 then endLaunch p.ctx l.id 3 s
      else s
    | none => s
  | _, _ => s

/-- ABORT of one launch (R266). -/
def abortOne (id : Nat) (rc : RunCmd) (cx : Nat) (s : State) : Rep :=
  match launch? s cx id with
  | none => badArg 4 s
  | some l0 =>
    let s := if l0.st < 3 then settleHead l0.part s else s
    let l := (launch? s cx id).getD l0
    let rec_ (s : State) : Rep := okRep (match launch? s cx id with | some x => recordOf x | none => []) s
    let fenced := match part? s l.part with | some p => p.fence.isSome | none => false
    if 3 ≤ l.st then rec_ s
    else if fenced then .stay { rc with arg := id } s
    else if l.st = 2 then .stay { rc with arg := id } (fencePart 1 5 0 false l.part s)
    else rec_ (endLaunch cx id 6 s)

/-- ABORT of every launch of a partition (R266). -/
def abortAll (i : Nat) (rc : RunCmd) (cx : Nat) (s : State) : Rep :=
  match ownPart s cx i with
  | none => badArg 1 s
  | some _ =>
    let s := settleHead i s
    let p := (part? s i).getD { ctx := cx, clusters := [], feCnt := 0, feTrig := 0 }
    let n := p.queue.length
    let runs := match headLaunch s i with | some l => decide (l.st = 2) | none => false
    if p.fence.isSome then .stay { rc with deadline := n } s
    else if runs then .stay { rc with deadline := n } (fencePart 1 5 0 false i s)
    else okRep (natLe 4 n) (p.queue.foldl (fun s id => endLaunch cx id 6 s) s)

/-- ABORT (R266, R522). -/
def execAbortCmd (mb : Fin 128) (s : State) : Out :=
  .next (runOp 0x207 (fun _ h pl rc s =>
    match numAt pl 0 1 with
    | 0 => abortOne (numAt pl 4 4) rc h.ctx s
    | 1 => abortAll (numAt pl 1 1) rc h.ctx s
    | _ => badArg 0 s) mb s)

/-- PROGRESS_WATCHDOG (R517, R265): acted on when the crown serves. -/
def execProgressWatchdog (part : Fin 36) (s : State) : Out :=
  .next (
    match headLaunch s part.val with
    | none => s
    | some l =>
      if l.st ≠ 2 ∨ l.endRt ≠ 0 ∨ !serving s then s
      else failLaunch part.val 0 0 0 0 true (waitUntil l.wdAt s))

/-- RESET_PART (R316, R520, R522): a reset in progress is joined. -/
def execResetPart (mb : Fin 128) (s : State) : Out :=
  .next (runOp 0x901 (fun _ h pl rc s =>
    let i := numAt pl 0 1
    match ownPart s h.ctx i with
    | none => badArg 0 s
    | some _ => .stay rc (fencePart 1 5 0 false i s)) mb s)

/-- The checks of RESET_CLUSTER and RESET_TILE on the cluster (R316, R519): DETAIL of ST_BAD_ARG is 0. A cluster in no
partition is open to a management mailbox with CONTEXT 0 or its bound context (R291). -/
def unitFault (s : State) (m cx c : Nat) : Option (Nat × Nat) :=
  if 36 ≤ c then some (stBadArg, 0)
  else match (cluster s c).part with
    | none => if cx = 0 ∨ m < 16 ∧ FMap.get 0 s.mbx.bind m = cx then none else some (stBadArg, 0)
    | some i =>
      match part? s i with
      | none => some (stBadArg, 0)
      | some p => if cx = 0 ∨ p.ctx ≠ cx then some (stBadArg, 0) else none

/-- The state of the partition that forbids the reset of its units (R519). -/
def unitBusy (s : State) (c : Nat) : Option (Nat × Nat) :=
  match (cluster s c).part with
  | none => none
  | some i =>
    let fenced := match part? s i with | some p => p.fence.isSome | none => false
    let runs := match headLaunch s i with | some l => decide (l.st = 1 ∨ l.st = 2) | none => false
    if fenced then some (stFenced, 0) else if runs then some (stBusy, 2) else none

/-- RESET_CLUSTER (R316, R518, R519). -/
def execResetCluster (mb : Fin 128) (s : State) : Out :=
  .next (runOp 0x902 (fun k h pl _ s =>
    let c := numAt pl 0 1
    match unitFault s (k % 128) h.ctx c with
    | some (st, det) => refuse st det s
    | none => match unitBusy s c with
      | some (st, det) => refuse st det s
      | none => okRep [] (closeWins c (zeroCluster c s))) mb s)

/-- RESET_TILE (R316, R518, R519). -/
def execResetTile (mb : Fin 128) (s : State) : Out :=
  .next (runOp 0x903 (fun k h pl _ s =>
    let c := numAt pl 0 1
    let n := numAt pl 1 1
    match unitFault s (k % 128) h.ctx c with
    | some (st, det) => refuse st det s
    | none =>
      if 64 ≤ n ∨ absentPos s c n then badArg 1 s
      else match unitBusy s c with
        | some (st, det) => refuse st det s
        | none => okRep [] (zeroTile (64 * c + n) s)) mb s)

end Sys2Proof.Machine
end

