-- ==== Sys2Proof/Machine/Settings.lean ====
section
/-!
DEFINITION. Configuration and settings commands (R312, R313, R546-R551): records, the stop of a function, and what a
CONFIG_START applies.
-/
namespace Sys2Proof.Machine

-- ---------------------------------------------------------------- records (R312, R547, R548)

/-- The window sizes a variant takes (R214). -/
def windowSizes : Variant → List Nat
  | .l => [0, 16]
  | _ => [0, 16, 32, 48, 64]

/-- A value lies in the range of its key (R547, R461, R214, R323, R516). -/
def valueOk (s : State) (k : Nat) (v : List Byte) : Bool :=
  let n := leNat v
  match k with
  | 0x0002 => (List.range 64).all (fun p => decide (n / 4 ^ p % 4 ≠ 3) && (p < 48 || decide (n / 4 ^ p % 4 ≠ 1)))
  | 0x0004 => n < 2
  | 0x0101 => 650 ≤ n && n ≤ 2400
  | 0x0102 => 1000 ≤ n && n ≤ 60000
  | 0x0103 => 650 ≤ n && n ≤ 2400
  | 0x0104 => n ≤ 500
  | 0x0105 => 100 ≤ n && n ≤ 60000 && decide (n % 100 = 0)
  | 0x0201 => n < 2
  | 0x0202 => (List.range 8).all (fun i => decide (numAt v (2 * i) 2 ≤ 4095))
  | 0x0203 => (windowSizes s.ident.variant).contains n
  | 0x0301 => n < 2 ^ 36
  | 0x0302 => 10 ≤ n && n ≤ 60000
  | 0x0303 => 10 ≤ n && n ≤ 10000
  | 0x0401 => n = 1 || n = 2
  | 0x0402 => n < 2
  | 0x0501 => n ≤ 1024
  | 0x0801 => n < 2
  | 0x0803 => n < 3
  | 0xF005 => 550 ≤ n && n ≤ 900
  | _ => true

/-- Reads `n` records at an offset of a payload and checks each (R548): the records and the offset after the last, or
the field that DETAIL names. -/
def readRecords (s : State) (f : Nat) (pl : List Byte) : Nat → Nat → Except Nat (List (Nat × List Byte) × Nat)
  | 0, off => .ok ([], off)
  | n + 1, off =>
    if pl.length < off + 4 then .error 0x10006
    else
      let k := numAt pl off 2
      let len := numAt pl (off + 2) 2
      let v := sliceB pl (off + 4) len
      let good : Bool := match keyInfo k with
        | some (g, l, _) => g = f && l = len && k != 0x0001 && valueOk s k v
        | none => false
      if !good then .error off
      else if pl.length < off + 4 + (len + 3) / 4 * 4 then .error 0x10006
      else match readRecords s f pl n (off + 4 + (len + 3) / 4 * 4) with
        | .ok (r, e) => .ok ((k, v) :: r, e)
        | .error e => .error e

/-- The records of a payload from offset 8, COUNT of them at an offset; they fill the payload (R312). -/
def recordsOf (s : State) (f cntOff : Nat) (pl : List Byte) : Except Nat (List (Nat × List Byte)) :=
  if pl.length < 8 then .error 0x10006
  else match readRecords s f pl (numAt pl cntOff 2) 8 with
    | .ok (r, e) => if e = pl.length then .ok r else .error 0x10006
    | .error e => .error e

/-- Records laid over a map in their order (R548). -/
def layRecords (l : List (Nat × List Byte)) (m : FMap (List Byte)) : FMap (List Byte) :=
  l.foldl (fun m x => FMap.put m x.1 x.2) m

/-- A settings change written to the flash; a change of the fabric-set digest clears DIGEST_MAP (R530, R551). -/
def recordSettings (r : Retry) (l : List (Nat × List Byte)) (s : State) : Bool × State :=
  let old := fabDigest s
  let (ok, s) := writeSettings r (layRecords l s.start.settings) s
  (ok, if fabDigest s = old then s else modFab (fun f => { f with digMap := [] }) s)

-- ---------------------------------------------------------------- what a start applies (R547, R548)

/-- A port whose role changes leaves routing and trains anew; an UNUSED one reads DISABLED (R323, R326). -/
def changeRole (p : Nat) (s : State) : State :=
  let r := roleOf s p
  if (port s p).role = r then s
  else
    let active := [4, 5, 8].contains (port s p).st
    let s := modPort p (fun x => { x with role := r, ctlOff := false }) s
    if r = 0 then setPortSt p 0 (modPort p (fun x => { x with reason := 7 }) s)
    else if active then retrainQuiet p s
    else train p (modPort p (fun x => { x with tries := 0, retrain := false }) s)

/-- A new ring size in force (R564): TR_WRITE 0 and TR_EPOCH up on both halves. -/
def newRing (mib : Nat) (s : State) : State :=
  let f (t : Trace) : Trace := { t with ringMib := mib, sizePend := none, write := 0, epoch := (t.epoch + 1) % 65536 }
  modTr .b f (modTr .a f s)

/-- A recorded ring size (R564): at once with capture off, else when capture next stops. -/
def ringSize (mib : Nat) (s : State) : State :=
  if s.trA.capture ∨ s.trB.capture then
    let f (t : Trace) : Trace := { t with sizePend := if mib = t.ringMib then none else some mib }
    modTr .b f (modTr .a f s)
  else if mib = s.trA.ringMib then s
  else newRing mib s

/-- A changed method takes effect at the first frame start after the present one (R471). -/
def nextMethod (s : State) : State :=
  modLed (fun l => { l with pendMethod := some (now s / 100000 + 1, setting s 0x0401, setting s 0x0402) }) s

/-- One key applied as the last column of R547 states. -/
def applyKey (k : Nat) (s : State) : State :=
  match k with
  | 0x0002 => if s.ident.variant = .s then s else (List.range 64).foldl (fun s p => changeRole p s) s
  | 0x0101 => capUpdate s
  | 0x0103 => if s.power.lapsed then capUpdate (modPower (fun p => { p with lapseW := lapseValue s }) s) else s
  | 0x0202 => (List.range 16).foldl (fun s i => modMc i (putWeights (arbWeights s)) s) s
  | 0x0401 => nextMethod s
  | 0x0402 => nextMethod s
  | 0x0501 => ringSize (setting s 0x0501) s
  | _ => s

-- ---------------------------------------------------------------- the commands

/-- Who holds a stop: the session, or the management mailbox where CONTEXT is 0 (R313). -/
def holderOf (k : Nat) (h : Hdr) : Nat := if h.ctx ≠ 0 then h.ctx else 65536 + k % 128

/-- The stop of a function. -/
def stopOf (s : State) (f : Nat) : Option Stopped := FMap.get none s.fw.stopped f

/-- The same, written. -/
def setStop (f : Nat) (x : Option Stopped) (s : State) : State :=
  { s with fw := { s.fw with stopped := FMap.set none s.fw.stopped f x } }

/-- CONFIG_STOP (R312, R313). -/
def execConfigStop (mb : Fin 128) (s : State) : Out :=
  .next (runOp 0x601 (fun k h pl _ s =>
    let f := numAt pl 0 1
    if 5 < f then badArg 0 s
    else match stopOf s f with
      | some x => if x.holder = holderOf k h then okRep [] s else refuse stBusy 3 s
      | none => okRep [] (setStop f (some { holder := holderOf k h }) s)) mb s)

/-- CONFIG_WRITE (R312, R313, R548). -/
def execConfigWrite (mb : Fin 128) (s : State) : Out :=
  .next (runOp 0x602 (fun k h pl _ s =>
    let f := numAt pl 0 1
    if pl.length < 8 then badArg 0x10006 s
    else if 5 < f then badArg 0 s
    else match recordsOf s f 2 pl with
      | .error o => badArg o s
      | .ok l => match stopOf s f with
        | none => refuse stStopped 0 s
        | some x =>
          if x.holder ≠ holderOf k h then refuse stBusy 3 s
          else okRep [] (setStop f (some { x with staged := layRecords l x.staged }) s)) mb s)

/-- The rule of R334 on a staged split. -/
def splitOk (v : List Byte) : Bool :=
  let n (i : Nat) := numAt v (2 * i) 2
  (List.range 6).all (fun i => decide (65 ≤ n i)) && decide (4 ≤ n 6) && decide (33 ≤ n 7) &&
    decide (((List.range 8).map n).sum = 2048)

/-- CONFIG_START (R548). -/
def execConfigStart (mb : Fin 128) (flash : Retry) (s : State) : Out :=
  .next (runOp 0x603 (fun k h pl _ s =>
    let f := numAt pl 0 1
    if 5 < f then badArg 0 s
    else match stopOf s f with
      | none => refuse stStopped 0 s
      | some x =>
        let vc := FMap.get [] x.staged 0x0003
        if x.holder ≠ holderOf k h then refuse stBusy 3 s
        else if x.staged = [] then okRep (hashBytes (digest s)) (setStop f none s)
        else if vc ≠ [] ∧ !splitOk vc then badArg 0 s
        else match recordSettings flash x.staged s with
          | (false, s) => refuse stAborted 0 s
          | (true, s) =>
            let s := setStop f none (x.staged.foldl (fun s y => applyKey y.1 s) s)
            okRep (hashBytes (digest s)) s) mb s)

/-- SETTINGS_WRITE (R312): keys of no function, in force from the next module start. -/
def execSettingsWrite (mb : Fin 128) (flash : Retry) (s : State) : Out :=
  .next (runOp 0x604 (fun _ _ pl _ s =>
    match recordsOf s 6 0 pl with
    | .error o => badArg o s
    | .ok [] => okRep (hashBytes (digest s)) s
    | .ok l => match recordSettings flash l s with
      | (false, s) => refuse stAborted 0 s
      | (true, s) => okRep (hashBytes (digest s)) s) mb s)

/-- MISMATCH of DIGEST_QUERY: bit n for a neighbour of port n that disagrees (R312, R367). -/
def mismatchMask (s : State) : Nat :=
  bitsWord ((List.range 64).map (fun p => (p, (port s p).digMismatch)))

/-- DIGEST_QUERY (R312, R549). -/
def execDigestQuery (mb : Fin 128) (s : State) : Out :=
  .next (runOp 0x605 (fun _ _ _ _ s =>
    okRep (hashBytes (digest s) ++ natLe 8 (prefixOf (fabDigest s)) ++ natLe 8 (mismatchMask s)) s) mb s)

/-- METHOD_SET (R311, R471): written to the flash, then in force from its frame. -/
def execMethodSet (mb : Fin 128) (flash : Retry) (s : State) : Out :=
  .next (runOp 0x506 (fun _ _ pl _ s =>
    let m := numAt pl 0 2
    let hs := numAt pl 2 1
    let t := numAt pl 8 8
    if m ≠ 1 ∧ m ≠ 2 then badArg 0 s
    else if 1 < hs then badArg 2 s
    else if t % 100000 ≠ 0 then badArg 8 s
    else if isStopped s 4 then refuse stStopped 0 s
    else match recordSettings flash [(0x0401, natLe 2 m), (0x0402, natLe 1 hs)] s with
      | (false, s) => refuse stAborted 0 s
      | (true, s) =>
        okRep [] (modLed (fun l => { l with pendMethod := some (max (t / 100000) (now s / 100000 + 1), m, hs) }) s)) mb s)

end Sys2Proof.Machine
end

