-- ==== Sys2Proof/Machine/Firmware.lean ====
section
/-!
DEFINITION. Firmware packages (R552-R555, R561), staging (R556) and activation (R557-R560, R562). Numbers inside the named
cryptographic standards are big-endian; a 512-bit key or signature is r or x, then s or y.
-/
namespace Sys2Proof.Machine

-- ---------------------------------------------------------------- packages (R552-R555)

/-- Big-endian value of bytes, used inside the named cryptographic standards only. -/
def beNat (l : List Byte) : Nat := leNat l.reverse

/-- The component of an entry: OFFSET counts from the start of the package (log entry 21). -/
def component (b : List Byte) (id : Nat) : List Byte :=
  let e := dirEntry b id; sliceB b (numAt e 8 8) (min (numAt e 16 8) b.length)

/-- Every component HASH of a starter matches (R555). -/
def componentsOk (b : List Byte) : Bool :=
  [1, 2, 3, 4, 5, 6].all (fun id => hashBytes (Config.sm3 (component b id)) = sliceB (dirEntry b id) 32 32)

/-- KIND of a package. -/
def pkgKind (b : List Byte) : Nat := numAt b 6 2

/-- A package verifies (R555). -/
def verifyPkg (s : State) (b : List Byte) : Bool :=
  let k := pkgKind b
  let key := BitVec.ofNat 512 (beNat (sliceB b 192 64))
  Config.sm2Verify Config.rootKey (sliceB b 192 128) (BitVec.ofNat 512 (beNat (sliceB b 320 64))) &&
  bitOf (numAt b 256 4) (if k = 3 then 1 else 0) &&
  Config.sm2Verify key (sliceB b 0 128) (BitVec.ofNat 512 (beNat (sliceB b 128 64))) &&
  decide (hashBytes (Config.sm3 (b.drop 512)) = sliceB b 72 32) &&
  decide (s.flash.svnMin ≤ numAt b 16 4) &&
  (k != 1 || componentsOk b)

/-- The operations of a feed from an offset (R554): the output, or none where an OP fails. -/
def feedOps (base : List Byte) : Nat → List Byte → Option (List Byte)
  | 0, _ => none
  | n + 1, b =>
    if b.length < 16 then none
    else
      let w := numAt b 0 16
      let len := fld w 63 32
      match fld w 7 0 with
      | 1 =>
        if base.length < fld w 127 64 + len then none
        else (feedOps base n (b.drop 16)).map (sliceB base (fld w 127 64) len ++ ·)
      | 2 =>
        if b.length < 16 + len then none
        else (feedOps base n (b.drop (16 + (len + 15) / 16 * 16))).map (sliceB b 16 len ++ ·)
      | 3 => some []
      | _ => none

/-- The starter that a package gives (R554, R556): the package itself, or the output of a feed of the same versions. -/
def starterOf (s : State) (b : List Byte) : Option (List Byte) :=
  if pkgKind b = 1 then some b
  else match feedOps (slotBytes s s.start.dir.ctrlSlot) (b.length / 16 + 1) (b.drop 512) with
    | some o =>
      if pkgKind o = 1 ∧ numAt o 0 4 = 0x4B504B41 ∧ numAt o 8 4 = numAt b 8 4 ∧ numAt o 12 4 = numAt b 12 4 then some o
      else none
    | none => none

-- ---------------------------------------------------------------- factory packets (R561)

/-- The keys a factory packet may hold, with a check of the value (R547, R561). -/
def factoryKeyOk (s : State) (k : Nat) (v : List Byte) : Bool :=
  if k = 0xF010 then decide (v.length % 8 = 0)
  else if k = 0xF011 then decide (v.length = 4)
  else match keyInfo k with
    | some (7, l, _) => decide (l = v.length) && valueOk s k v
    | _ => false

/-- The records of a factory packet's body, none where one is malformed. -/
def factoryRecords (s : State) : Nat → List Byte → Option (List (Nat × List Byte))
  | _, [] => some []
  | 0, _ => none
  | n + 1, b =>
    let k := numAt b 0 2
    let len := numAt b 2 2
    let v := sliceB b 4 len
    if b.length < 4 + (len + 3) / 4 * 4 ∨ !factoryKeyOk s k v then none
    else (factoryRecords s n (b.drop (4 + (len + 3) / 4 * 4))).map ((k, v) :: ·)

/-- The packet names this module, its sequence is above the recorded one, and its records are well formed. -/
def factoryOk (s : State) (b : List Byte) : Bool :=
  decide (numAt b 32 8 = s.ident.serial ∧ setting s 0xF004 < numAt b 8 4) &&
    (factoryRecords s b.length (b.drop 512)).isSome

/-- The entries that a DEFECT_REMOVE value lists. -/
def removals (v : List Byte) : List (Nat × Nat) :=
  (List.range (v.length / 8)).map (fun i => let w := numAt v (8 * i) 8; (fld w 59 56, fld w 47 0))

/-- One record of a factory packet takes effect. Removed defects stay applied until the next module start. -/
def applyFactory (x : Nat × List Byte) (s : State) : State :=
  if x.1 = 0xF010 then
    let s := { s with start := { s.start with dropped := s.start.dropped ++ removals x.2 } }
    let l := recordedDefects s
    { s with flash := { s.flash with defects := s.flash.defects.write l } }
  else if x.1 = 0xF011 then { s with flash := { s.flash with svnMin := max s.flash.svnMin (leNat x.2) } }
  else { s with start := { s.start with factory := FMap.put s.start.factory x.1 x.2 } }

/-- A factory packet written at once (R561); the recorded FACTORY_SEQ becomes the packet's VERSION. -/
def takeFactory (b : List Byte) (s : State) : State :=
  let l := (factoryRecords s b.length (b.drop 512)).getD []
  let s := (l ++ [(0xF004, natLe 4 (numAt b 8 4))]).foldl (fun s x => applyFactory x s) s
  { s with flash := { s.flash with factory := s.flash.factory.write s.start.factory },
           start := { s.start with factoryLost := false } }

-- ---------------------------------------------------------------- staging (R556)

/-- The slot into which a starter is built: neither CTRL_SLOT nor TILE_SLOT. -/
def targetSlot (s : State) : Option Nat :=
  let d := s.start.dir; if d.ctrlSlot = d.tileSlot then some (1 - d.ctrlSlot) else none

/-- Steps 1 to 5 of R556 on a package of `n` bytes: the failing status and DETAIL. -/
def stageFault (s : State) (b : List Byte) (n : Nat) : Option (Nat × Nat) :=
  let k := pkgKind b
  if s.fw.staging.isSome ∨ s.fw.pending.isSome then some (stBusy, 2)
  else if numAt b 0 4 ≠ 0x4B504B41 ∨ numAt b 4 2 ≠ 1 then some (stBadVersion, 0)
  else if k = 0 ∨ 3 < k then some (stBadArg, 8)
  else if n ≠ numAt b 24 8 ∨ n < 512 ∨ (if k = 1 then 0x3000000 else 0x1000000) < n then some (stBadArg, 16)
  else if !verifyPkg s b ∨
      (k = 2 ∧ sliceB b 40 32 ≠ hashBytes (Config.sm3 (slotBytes s s.start.dir.ctrlSlot))) ∨
      (k = 3 ∧ !factoryOk s b) then some (stBadArg, 8)
  else if k ≠ 3 ∧ (targetSlot s).isNone then some (stBusy, 2)
  else none

/-- First flash byte of a starter slot (R529). -/
def slotBase (i : Nat) : Nat := if i = 0 then 0x1000000 else 0x4000000

/-- A slot holds a starter that verifies, or nothing (R556). -/
def fillSlot (i : Nat) (o : Option (List Byte)) (fl : Flash) : Flash :=
  if i = 0 then { fl with slotA := o.getD [], starterOk := (o.isSome, fl.starterOk.2) }
  else { fl with slotB := o.getD [], starterOk := (fl.starterOk.1, o.isSome) }

/-- The directory's versions of a slot so filled (R531). An empty slot is not STAGED. -/
def slotEntry (i : Nat) (o : Option (List Byte)) (d : SlotDir) : SlotDir :=
  let v := numAt (o.getD []) 8 4
  let t := numAt (o.getD []) 12 4
  let d := if i = 0 then { d with verA := v, tileA := t } else { d with verB := v, tileB := t }
  { d with staged := if o.isSome then i + 1 else if d.staged = i + 1 then 0 else d.staged }

/-- A slot filled or emptied, and the directory written with it. -/
def writeSlot (i : Nat) (o : Option (List Byte)) (dir : Retry) (s : State) : Bool × State :=
  writeDir dir (slotEntry i o s.start.dir) { s with flash := fillSlot i o s.flash }

/-- Steps 6 to 8 of R556 for a starter or feed: status, DETAIL and response. The writes are those of the staging area (a feed
only), of the slot and of the directory; a lasting failure of one ends the command there. -/
def stageSlot (b : List Byte) (area slot dir : Retry) (s : State) : Rep :=
  match targetSlot s with
  | none => refuse stBusy 2 s
  | some i =>
    let (put, s) := if pkgKind b = 2 then flashImage 0x7000000 0x1000000 area s else (true, s)
    if !put then refuse stAborted 0 s
    else
      let s := if pkgKind b = 2 then { s with flash := { s.flash with staging := b } } else s
      let (ok, s) := flashImage (slotBase i) 0x3000000 slot s
      let o := match starterOf s b with | some o => if ok && verifyPkg s o then some o else none | none => none
      let (kept, s) := writeSlot i o dir s
      if o.isNone ∨ !kept then refuse stAborted 0 s
      else okRep (natLe 1 i ++ natLe 3 0 ++ natLe 4 (numAt b 8 4)) s

/-- Steps 6 and R561 for a factory packet. -/
def stageFactory (b : List Byte) (flash : Retry) (s : State) : Rep :=
  let (ok, s) := flashImage 0x7000000 0x1000000 flash s
  if !ok then refuse stAborted 0 s
  else
    let s := takeFactory b { s with flash := { s.flash with staging := b } }
    okRep (natLe 1 0xFF ++ natLe 3 0 ++ natLe 4 (setting s 0xF004)) s

/-- FW_STAGE (R314, R556): the package is read and checked; a factory packet ends here, a starter or feed runs until
FW_STAGE_DONE. -/
def execFwStage (mb : Fin 128) (flash : Retry) (s : State) : Out :=
  .next (afterSnoops mb 0x701 (fun pl => if numAt pl 0 1 = 1 then some (addrAt pl 8, min (numAt pl 16 8) 0x3000001) else none)
    (fun s => runOp 0x701 (fun k h pl rc s =>
      let n := numAt pl 16 8
      if 1 < numAt pl 0 1 then badArg 0 s
      else if numAt pl 0 1 = 1 ∧ h.ctx = 0 then badArg 0x10010 s
      else
        let src := decide (numAt pl 0 1 = 1)
        let s' := bundleNote h.ctx {} src (addrAt pl 8) (min n 0x3000001) s
        match readBundle s h.ctx {} src (addrAt pl 8) (min n 0x3000001), s' with
        | .error (st, det), s => refuse st det s
        | .ok b, s => match stageFault s b n with
          | some (st, det) => refuse st det s
          | none =>
            if pkgKind b = 3 then stageFactory b flash s
            else .stay { rc with pl := b } { s with fw := { s.fw with staging := some k } }) mb s) s)

/-- FW_STAGE_DONE (R556): the slot is written, verified and recorded. -/
def execFwStageDone (mb : Fin 128) (area : Retry) (s : State) (slot dir : Retry := .clean) : Out :=
  .next (
    match runKeyOf s mb 0x701 with
    | none => s
    | some (k, r) =>
      if !serving s ∨ !stageOpen s 5 then s
      else answer k 0x701 (stageSlot r.pl area slot dir { s with fw := { s.fw with staging := none } }))

-- ---------------------------------------------------------------- activation (R557-R560, R562)

/-- Control version of a slot. -/
def slotVer (d : SlotDir) (i : Nat) : Nat := if i = 0 then d.verA else d.verB

/-- Tile version of a slot. -/
def slotTile (d : SlotDir) (i : Nat) : Nat := if i = 0 then d.tileA else d.tileB

/-- SLOT is STAGED, CTRL_SLOT or TILE_SLOT (R557). -/
def slotAccepted (d : SlotDir) (i : Nat) : Bool :=
  i < 2 && (d.staged = i + 1 || d.ctrlSlot = i || d.tileSlot = i)

/-- The parts WHAT names that an activation of a slot would change: control, tile. -/
def partsChanged (d : SlotDir) (i what : Nat) : Bool × Bool :=
  (what != 1 && d.ctrlSlot != i, what != 0 && d.tileSlot != i)

/-- The answer of FW_ACTIVATE (R557): a status, or the handle of the entry. -/
def activate (slot what rt : Nat) (s : State) : Rep :=
  let d := s.start.dir
  if !slotAccepted d slot then badArg 0 s
  else if 2 < what then badArg 1 s
  else if partsChanged d slot what = (false, false) then badArg 0 s
  else if rt ≠ 0 ∧ rt < now s + 10000000 then badArg 8 s
  else if s.fw.pending.isSome then refuse stBusy 2 s
  else
    let t := if rt = 0 then now s + 10000000 else rt
    let s := schedPut 4 t 2 0 (slot + 256 * what + 2 ^ 32 * slotVer d slot) false 0 s
    let hd := handleOf s 4
    okRep (natLe 4 hd) { s with fw := { s.fw with pending := some hd }, start := { s.start with dir := { d with pendRt := t } } }

/-- FW_ACTIVATE (R314, R557). -/
def execFwActivate (mb : Fin 128) (s : State) : Out :=
  .next (runOp 0x702 (fun _ _ pl _ s => activate (numAt pl 0 1) (numAt pl 1 1) (numAt pl 8 8) s) mb s)

/-- FW_QUERY (R314, R562). -/
def execFwQuery (mb : Fin 128) (s : State) : Out :=
  .next (runOp 0x703 (fun _ _ _ _ s =>
    let d := s.start.dir
    okRep (natLe 1 (d.ctrlSlot + 2 * d.tileSlot) ++ natLe 1 d.staged ++ natLe 2 0 ++ natLe 4 d.verA ++ natLe 4 d.verB ++
      natLe 4 0 ++ natLe 8 d.pendRt) s) mb s)

/-- The outcome of an activation, reported (R540, R599). -/
def actDone (r : Nat) (s : State) : State := plEvent 9 r { s with start := { s.start with actResult := r } }

/-- A tile activation at its tick (R560): clusters in no partition switch at once. -/
def activateTiles (slot : Nat) (s : State) : State :=
  let d := { s.start.dir with tileSlot := slot }
  let v := slotTile d slot
  let s := (writeDir .clean d s).2
  let s := { s with start := { s.start with dir := d, run := FMap.put s.start.run 3 (hashOf s slot 3) },
                    fw := { s.fw with tileVer := v } }
  (List.range 36).foldl (fun s c =>
    if (cluster s c).part.isNone then modCluster c (fun x => { x with tileVer := v }) s else s) s

/-- The control part at its tick (R318, R558): commands that have not started, and loads that have not finished, are
answered ST_BUSY_ACTIVATE; ACTIVATING becomes 1. -/
def activateControl (slot : Nat) (s : State) : State :=
  let s := (runKeys s (fun r => r.opcode = 0x203 || r.opcode = 0x701)).foldl (fun s k => respond k stBusyActivate 0 [] s) s
  let s := (ownedKeys s (crownHalf s)).foldl (fun s k =>
    if (running s k).isNone then answerPage k stBusyActivate 0 [] s else s) s
  let s := { s with fw := { s.fw with staging := none, actSlot := slot, actFail := false } }
  let s := modMon s.crown.holder (fun m => { m with lastWrite := s.time.clk }) s
  vector0 (modCrown (fun c => { c with activating := some s.time.clk }) s)

/-- FW_ACTIVATE_EXECUTE (R63, R557, R558, R560). -/
def execFwActivateExecute (s : State) : Out :=
  .next (
    match takeDispatch 2 s with
    | none => s
    | some (x, s) =>
      let slot := fld x.arg 7 0
      let s := { s with fw := { s.fw with pending := none }, start := { s.start with dir := { s.start.dir with pendRt := 0 } } }
      let d := s.start.dir
      let ch := partsChanged d slot (fld x.arg 15 8)
      if slotVer d slot ≠ fld x.arg 63 32 ∨ 1 < slot then actDone 2 s
      else
        let s := if ch.2 then activateTiles slot s else s
        if !ch.1 then actDone 1 s
        else if s.crown.standby ≠ 0 then actDone 2 s
        else activateControl slot s)

/-- CONTROL_ACTIVATION_RESUME (R558): within 300 ms of the tick a snapshot has been committed, the new firmware is live,
commands are served again, and the standby is reloaded. -/
def execControlActivationResume (s : State) : Out :=
  .next (
    match s.crown.activating with
    | none => s
    | some t =>
      let h := s.crown.holder
      if t + 30000000 < s.time.clk ∨ !(mon s h).live ∨ s.fw.actFail then s
      else
        let slot := s.fw.actSlot
        let d := { s.start.dir with ctrlSlot := slot }
        let s := (writeDir .clean d s).2
        let s := { s with start := { s.start with dir := d, run := FMap.put s.start.run 2 (hashOf s slot 2) },
                          fw := { s.fw with ctrlVer := slotVer d slot } }
        let s := if s.crown.ckptAt < t then modCrown (fun c => { c with
            ckptSeq := (c.ckptSeq + 1) % 2 ^ 32, ckptSlot := 1 - c.ckptSlot, ckptAt := s.time.clk, journal := 0 }) s else s
        let s := modMon h (fun m => { m with lastWrite := s.time.clk, halted := false }) s
        let s := modMon h.other (fun m => { m with halted := true, live := false, demoted := false, cpFailed := false,
                                                   verified := false, standby := 1, failedAt := none }) s
        let s := modCrown (fun c => { c with activating := none, resync := true, standby := 1 }) s
        actDone 1 (resumeService (resumeWatch t (vector0 s))))

/-- ACTIVATION_TIMEOUT (R559): no liveness by tick + 300 ms; the directory is unchanged and the vote logic turns to the
standby. -/
def execActivationTimeout (s : State) : Out :=
  .next (
    match s.crown.activating with
    | none => s
    | some t =>
      let h := s.crown.holder
      if s.fw.actFail then s
      else
        let s := waitUntil (t + 30000000) s
        let s := if (mon s h).live then complexFails h (event (8 + h.num) 4 0 0 s) else s
        actDone 3 { s with fw := { s.fw with actFail := true } })

end Sys2Proof.Machine
end

