-- ==== Sys2Proof/Machine/Links.lean ====
section
/-!
DEFINITION. Links: training (R326-R330), codewords and flow control (R331-R334), beacons (R364-R368), withdrawal and join
(R372-R376), bit-error tests (R377), the routing image commands (R345), aborts across a job (R523-R525).
-/
namespace Sys2Proof.Machine

-- ---------------------------------------------------------------- bit-error tests, command side (R377)

/-- The LINK_BERT whose test has ended completes once every tested port has settled (R377). -/
def bertSettle (s : State) : State :=
  (runKeys s (fun r => r.opcode = 0x305 && r.deadline = 0)).foldl (fun s k =>
    match running s k with
    | some r =>
      if (bitsOf r.arg 64).any (fun p => [1, 2, 3, 6].contains (port s p).st) then s
      else respond k stOk 0 r.pl s
    | none => s) s

-- ---------------------------------------------------------------- training (R326-R330)

/-- PHY_TRAIN_DONE (R326). -/
def execPhyTrainDone (p : Fin 64) (s : State) : Out := .next (onlyIf ((port s p).st = 1) (setPortSt p 2) s)

/-- FEC_LOCK_DONE (R326). -/
def execFecLockDone (p : Fin 64) (s : State) : Out := .next (onlyIf ((port s p).st = 2) (setPortSt p 3) s)

/-- A trained port with a peer it does not expect (R327, R366). -/
def isolate (p : Nat) (s : State) : State :=
  setPortSt p 8 (modPort p (fun x => freshLink s { x with reason := 4, retrain := false, tries := 0 }) s)

/-- NEGOTIATE_DONE (R327-R329): a link that settles on BL1 trains once more at that rate. -/
def execNegotiateDone (p : Fin 64) (cap : CapWord) (s : State) : Out :=
  .next (
    let x := port s p
    if x.st ≠ 3 ∨ !s.ident.midValid then s
    else
      let mid := if cap.isSwitch then 0xFFF else cap.mid % 4096
      let s := modPort p (fun x => { x with linkDelay := cap.linkDelay % 65536, peerMid := mid, peerSwitch := cap.isSwitch,
                                            credit := (List.range 8).map (nth cap.buffer) }) s
      if cap.protoMask % 4 = 0 then bertSettle (setPortSt p 7 (modPort p (fun x => { x with reason := 3 }) s))
      else if cap.protoMask % 4 = 1 ∧ x.proto ≠ 1 then setPortSt p 1 (modPort p (fun x => { x with proto := 1 }) s)
      else
        let s := modPort p (fun x => { x with proto := if cap.protoMask % 4 = 1 then 1 else 2 }) s
        bertSettle (if peerOk s p cap.isSwitch (cap.mid % 4096) then becomeActive p s else isolate p s))

/-- Limit of a training state in ticks (R326). -/
def trainLimit (x : Port) : Nat :=
  match x.st with
  | 1 => if x.retrain ∨ x.proto = 1 then 5000000 else 40000000
  | 2 => 100000
  | _ => 200000

/-- TRAIN_STATE_TIMEOUT (R326, R328). REASON of a NEGOTIATE that exceeds its limit is not stated: a free value. -/
def execTrainStateTimeout (p : Fin 64) (s : State) : Out :=
  .next (
    let x := port s p
    if x.st = 0 ∨ 3 < x.st ∨ (x.st = 3 ∧ !s.ident.midValid) then s
    else
      let s := waitUntil (x.since + trainLimit x) s
      let r := if x.st = 3 then freshNat 50 s % 256 else x.st
      let s := if x.st = 3 then takeFree s else s
      bertSettle (attemptFailed p r s))

/-- A port whose link no longer carries anything trains again (R328). -/
def linkLost (p : Nat) (s : State) : State :=
  match (port s p).st with
  | 4 => retrain p s
  | 5 => train p s
  | 6 => if (port s p).test.isNone then retrainQuiet p s else s
  | _ => s

/-- FEC_LOCK_LOSS (R328). -/
def execFecLockLoss (p : Fin 64) (s : State) : Out := .next (linkLost p s)

/-- UNCORR_CODEWORD_BURST (R328). -/
def execUncorrCodewordBurst (p : Fin 64) (s : State) : Out := .next (onlyIf ((port s p).st = 4) (retrain p) s)

/-- CODEWORD_ARRIVE (R331): corrected symbols are counted; an uncorrectable codeword is dropped whole, and every packet
that had a flit in it is discarded where its header would be routed. -/
def execCodewordArrive (p : Fin 64) (corrected : Option Nat) (pkts : List (Pkt × Nat)) (s : State) : Out :=
  .next (
    if ! [3, 4, 5, 8].contains (port s p).st then s
    else match corrected with
      | some n => count (0x80 + p.val) 30 n s
      | none => portEvent p 3 (count (0x80 + p.val) 31 1 (modPort p (fun x => { x with hit := x.hit ++ pkts }) s)))

/-- Difference of two cumulative counts modulo 2^16. -/
def since16 (new old : Nat) : Nat := (new + 65536 - old % 65536) % 65536

/-- LINK_CONTROL_FLIT (R332, R333, R377): credits returned, flits lost, which are returned as well, and the peer's
requests. A port that LINK_CTL trained is back in routing once neither end holds it (R376). -/
def execLinkControlFlit (p : Fin 64) (f : CtrlFlit) (s : State) : Out :=
  .next (
    let x := port s p
    if !f.crcOk ∨ ! [4, 5, 8].contains x.st then s
    else
      let gone := (List.range 8).map (fun v => since16 (nth f.sent v % 65536) (nth x.rxFlits v))
      let s := if gone.sum = 0 then s else count (0x80 + p.val) 32 gone.sum s
      let s := modPort p (fun x => { x with
        rxFlits := (List.range 8).map (fun v => nth f.sent v % 65536),
        freed := (List.range 8).map (fun v => (nth x.freed v + nth gone v) % 65536),
        credit := (List.range 8).map (fun v => nth x.credit v + since16 (nth f.ret v % 65536) (nth x.retSeen v)),
        retSeen := (List.range 8).map (fun v => nth f.ret v % 65536),
        testReq := f.testReq, retrainReq := f.retrainReq, peerHeld := f.withdrawn,
        byCtl := x.byCtl && (f.withdrawn || x.st != 4) }) s
      let s := drainPort p s
      if f.testReq ∧ x.st = 4 then setPortSt p 6 (modPort p (fun x => { x with test := none }) s)
      else if f.retrainReq then linkLost p s
      else s)

/-- Flits that stand in a port's receive buffer of a VC (R334). -/
def bufFlits (x : Port) (v : Nat) : Nat := since16 (nth x.rxFlits v) (nth x.freed v)

/-- Flits of a VC received on a port. -/
def rxCount (p v n : Nat) (s : State) : State :=
  modPort p (fun x => { x with rxFlits := modNth x.rxFlits v (fun c => (c + n) % 65536) }) s

-- ---------------------------------------------------------------- beacons (R59, R364-R368)

/-- A one-hop packet received on a port (R371). -/
def rxOne (p : Nat) (s : State) : State :=
  modPort p (fun x => { x with freed := modNth x.freed 6 (fun c => (c + 1) % 65536) })
    (rxCount p 6 1 (count (0x80 + p) 3 64 (count (0x80 + p) 1 1 s)))

/-- The rack time of a beacon disagrees with the own count, in sixteenths of a tick (R59). The rack part of SRC_MID decides the
tolerance, for a switch's beacon too (DEDUCED, log 102). -/
def rtDisagrees (s : State) (p : Nat) (b : Beacon) : Bool :=
  let own := 16 * cnt s (portHalf p)
  let far := 16 * b.sendRt + (port s p).linkDelay
  let d := max own far - min own far
  decide ((if b.srcMid / 64 = s.ident.mid / 64 then 32 else 160) < d)

/-- DIGEST_MAP of a half (R551). -/
def setDigBit (h : Half) (mid : Nat) (v : Bool) (s : State) : State :=
  modFab (fun f => { f with digMap := FMap.set false f.digMap (4096 * h.num + mid) v }) s

/-- The digest part of a beacon's check (R367, R368, R551). -/
def beaconDigest (p : Nat) (b : Beacon) (s : State) : State :=
  if b.proto = 1 ∨ (b.isSwitch ∧ !b.digestValid) then modPort p (fun x => { x with digUnchecked := true, digMismatch := false }) s
  else if !b.digestValid ∨ !s.start.digValid then s
  else
    let bad := decide (b.digestPrefix ≠ prefixOf (fabDigest s))
    let s := modPort p (fun x => { x with digMismatch := bad, digUnchecked := false }) s
    let s := if b.isSwitch then s else setDigBit (portHalf p) (b.srcMid % 4096) bad s
    if bad then portEvent p 8 s else s

/-- BEACON_ARRIVE (R366, R367, R59). -/
def execBeaconArrive (p : Fin 64) (b : Beacon) (s : State) : Out :=
  .next (
    if ! [4, 5, 8].contains (port s p).st then s
    else
      let s := rxOne p (modPort p (fun x => { x with beaconIn := true }) s)
      let s := if peerOk s p b.isSwitch (b.srcMid % 4096) then s
        else portEvent p 9 (count (0x80 + p.val) 40 1 (setPortSt p 8 (modPort p (fun x => { x with reason := 4 }) s)))
      let s := if b.tq = 0 ∧ rtDisagrees s p b then
          count (0x80 + p.val) 39 1 (rtFlag 7 s)
        else s
      beaconDigest p b s)

-- ---------------------------------------------------------------- notices (R372-R376)

/-- A notice arms a comparator; one whose TICK has passed is discarded and counted. A second of the same kind from the
same peer replaces the first (R372). -/
def armNotice (p kind : Nat) (k : Pkt) (s : State) : State :=
  if ! [4, 5, 8].contains (port s p).st ∨ k.opArg % 4 ≠ kind ∨ k.opcode ≠ 0x0B then s
  else
    let s := rxOne p s
    if k.destMask ≤ cnt s (portHalf p) then count (0x80 + p) 46 1 s
    else
      let port := if kind = 1 then p else 0
      modFab (fun f => { f with comps := f.comps.filter (fun c =>
          !(!c.own && c.kind = kind && c.peer = k.srcMid && c.port = port)) ++
        [{ tick := k.destMask, kind := kind, port := port, peer := k.srcMid }] }) s

/-- NOTICE_WITHDRAW_MODULE (R372). -/
def execNoticeWithdrawModule (p : Fin 64) (pkt : Pkt) (s : State) : Out := .next (armNotice p 0 pkt s)

/-- NOTICE_WITHDRAW_PORT (R376). -/
def execNoticeWithdrawPort (p : Fin 64) (pkt : Pkt) (s : State) : Out := .next (armNotice p 1 pkt s)

/-- NOTICE_JOIN (R375). -/
def execNoticeJoin (p : Fin 64) (pkt : Pkt) (s : State) : Out := .next (armNotice p 2 pkt s)

/-- A port that its peer has withdrawn comes back (R375). -/
def joinPort (p : Nat) (s : State) : State :=
  let s := modPort p (fun x => { x with withdrawn := false }) s
  if (port s p).st = 5 then setPortSt p 4 s else s

/-- LINK_CTL enable or retrain of a port (R326, R376): it returns to routing once ACTIVE at both ends, unless its peer has
withdrawn it (R375). A retrain has the limit of one from any state. -/
def trainByCtl (enable : Bool) (p : Nat) (s : State) : State :=
  let x := port s p
  if x.role = 0 then s
  else if enable then
    (if x.st = 0 ∨ x.st = 7 then
      train p (modPort p (fun x => { x with ctlOff := false, byCtl := true, retrain := false, tries := 0 }) s)
    else s)
  else if x.st = 0 ∨ x.st = 6 then s
  else retrainQuiet p (modPort p (fun x => { x with byCtl := true }) s)

/-- The image is recorded, then in force; PATH_BAD clears (R345, R547, R551). A lasting flash failure leaves the old table. -/
def swapTable (flash : Retry) (s : State) : State :=
  match s.fab.shadow with
  | none => s
  | some (_, tab) =>
    match recordSettings flash [(0x0001, tab.raw)] (modFab (fun f => { f with shadow := none }) s) with
    | (false, s) => s
    | (true, s) => event 0xB 0 0 0 (event 0xA 0 0 0 (modFab (fun f => { f with tab := tab, pathBad := [] }) s))

/-- A swap due by a tick comes before a withdrawal or join of that tick, which then meets the new table (R346). -/
def swapDue (tick : Nat) (flash : Retry) (s : State) : State :=
  match s.fab.shadow with
  | some (t, _) => if t ≤ tick then swapTable flash s else s
  | none => s

/-- TRANSIT_COMPARATOR_TICK (R346, R374-R376); `flash` is how a swap due by then is recorded. -/
def execTransitComparatorTick (i : Nat) (s : State) (flash : Retry := .clean) : Out :=
  .next (
    match s.fab.comps[i]? with
    | none => s
    | some c =>
      if c.own then s
      else
        let s := swapDue c.tick flash (modFab (fun f => { f with comps := f.comps.erase c }) (waitCount c.tick s))
        match c.kind with
        | 0 => (portsTo s c.peer).foldl (fun s p => withdrawPort p s) s
        | 1 => disablePort c.port s
        | 2 => (portsTo s c.peer).foldl (fun s p => joinPort p s) s
        | _ => trainByCtl (decide (c.cause = 1)) c.port s)

/-- RETURN of every port stands still from here on, VC6 apart (R373). -/
def holdCredits (s : State) : State :=
  (List.range 64).foldl (fun s p => modPort p (fun x => { x with retHeld := some x.freed }) s) s

/-- TRANSIT_WITHDRAW_TICK (R346, R373, R376): the module withholds its credits and drains for 100 µs, or a port is
withdrawn and disabled. -/
def execTransitWithdrawTick (s : State) (flash : Retry := .clean) : Out :=
  .next (
    match ownComp s with
    | none => s
    | some c =>
      let s := swapDue c.tick flash (waitCount c.tick s)
      let s := endWithdrawEntry c (modFab (fun f => { f with comps := f.comps.erase c }) s)
      if c.kind = 0 then
        holdCredits (modFab (fun f => { f with withdrawn := true, drainEnd := some (s.time.clk + 10000) }) s)
      else disablePort c.port s)

/-- JOIN_NOTICE_SEND (R375): after a module start, with TQ 0 and every port settled. -/
def execJoinNoticeSend (s : State) : Out :=
  .next (
    if s.fab.joined ∨ s.time.tq ≠ .locked ∨ !s.power.rails ∨ s.ident.variant = .s ∨
        !(List.range 64).all (fun p => let x := port s p; x.role = 0 || [4, 7, 8].contains x.st) then s
    else noticeAll 2 (s.time.sup + 100000) [4] (modFab (fun f => { f with joined := true }) s))

-- ---------------------------------------------------------------- LINK_CTL (R376)

/-- The checks that every LINK_CTL shares: PORT, OP, APPLY_RT (R309, R66). -/
def linkFault (s : State) (pl : List Byte) : Option Nat :=
  let t := numAt pl 8 8
  if 63 < numAt pl 0 1 then some 0
  else if 2 < numAt pl 1 1 then some 1
  else if t ≠ 0 ∧ t < now s + 1000 then some 8
  else none

/-- LINK_CTL_DISABLE (R376): a notice to the peer, then a withdrawal entry for the tick; an OP beyond 2 is refused here. -/
def execLinkCtlDisable (mb : Fin 128) (s : State) : Out :=
  .next (runCmd 0x304 (fun pl => numAt pl 1 1 = 0 || decide (2 < numAt pl 1 1)) (fun _ _ pl _ s =>
    match linkFault s pl with
    | some o => badArg o s
    | none =>
      let p := numAt pl 0 1
      let t := if numAt pl 8 8 = 0 then now s + 1000 else numAt pl 8 8
      match freeFrom s 5 27 with
      | none => refuse stNoResource 0 s
      | some i =>
        let s := schedPut i t 6 0 (1 + 2 ^ 8 * p + 2 ^ 16 * 4) false 0 s
        let s := if [4, 5, 8].contains (port s p).st then sendOn p (noticePkt s p 1 p t) s else s
        okRep (natLe 1 (port s p).st) s) mb s)

/-- LINK_CTL enable or retrain: at once, or at its tick by a comparator. -/
def linkTrain (enable : Bool) (pl : List Byte) (s : State) : Rep :=
  match linkFault s pl with
  | some o => badArg o s
  | none =>
    let p := numAt pl 0 1
    let t := numAt pl 8 8
    if enable ∧ (port s p).role = 0 then badArg 0 s
    else
      let s := if t = 0 then trainByCtl enable p s
        else modFab (fun f => { f with comps := f.comps ++ [{ tick := t, kind := 3, port := p, cause := b2n enable }] }) s
      okRep (natLe 1 (port s p).st) s

/-- LINK_CTL_ENABLE (R376). -/
def execLinkCtlEnable (mb : Fin 128) (s : State) : Out :=
  .next (runCmd 0x304 (fun pl => numAt pl 1 1 = 1) (fun _ _ pl _ s => linkTrain true pl s) mb s)

/-- LINK_CTL_RETRAIN (R376). -/
def execLinkCtlRetrain (mb : Fin 128) (s : State) : Out :=
  .next (runCmd 0x304 (fun pl => numAt pl 1 1 = 2) (fun _ _ pl _ s => linkTrain false pl s) mb s)

-- ---------------------------------------------------------------- LINK_BERT (R377)

/-- A port that can be tested: trained, or FAILED by a lasting retrain. -/
def testable (x : Port) : Bool := [4, 5, 8].contains x.st || x.st = 7 && x.reason = 5

/-- LINK_BERT (R309, R377): every named port leaves routing and asks its peer. Those whose peer enters TEST are tested for
DURATION_MS; the others are left after 10 ms. -/
def execLinkBert (mb : Fin 128) (peerTests : BitVec 64) (s : State) : Out :=
  .next (runOp 0x305 (fun _ _ pl rc s =>
    let ms := numAt pl 8 4
    if ms = 0 ∨ 60000 < ms then badArg 8 s
    else
      let l := (bitsOf (numAt pl 0 8) 64).filter (fun p => testable (port s p))
      let till (p : Nat) : Nat := s.time.clk + (if peerTests.getLsbD p then ms * 100000 else 1000000)
      let mask (b : Bool) : Nat := bitsWord ((l.filter (fun p => peerTests.getLsbD p = b)).map (fun p => (p, true)))
      let first := (l.map till).foldl min (s.time.clk + ms * 100000)
      let s := l.foldl (fun s p => setPortSt p 6 (modPort p (fun x => { x with test := some (till p), retrain := false }) s)) s
      .stay { rc with arg := mask true + 2 ^ 64 * mask false, deadline := first } s) mb s)

/-- The LINK_BERT response: BITS and ERRORS by port, zeros where not tested. -/
def bertBytes (l : List Nat) (counts : List (Nat × Nat)) : List Byte :=
  (List.range 64).flatMap (fun p =>
    match (List.range l.length).find? (fun i => decide (nth l i = p)) with
    | some i => let c := counts.getD i (0, 0); natLe 8 c.1 ++ natLe 8 c.2
    | none => natLe 16 0)

/-- A port of a bit-error test at its end retrains (R377). -/
def testEnds (s : State) (p : Nat) : State :=
  match (port s p).test with
  | some t => if t ≤ s.time.clk then retrainQuiet p s else s
  | none => s

/-- LINK_BERT_END (R377): the next end among the command's ports, of a test or of the wait for a peer; they retrain. After
the last, the command completes once every tested port has settled. -/
def execLinkBertEnd (mb : Fin 128) (counts : List (Nat × Nat)) (s : State) : Out :=
  .next (
    match runKeyOf s mb 0x305 with
    | none => s
    | some (k, r) =>
      if r.deadline = 0 then bertSettle s
      else
        let s := waitUntil r.deadline s
        let l := bitsOf (r.arg % 2 ^ 64) 64
        let all := l ++ bitsOf (r.arg / 2 ^ 64) 64
        let s := all.foldl testEnds s
        match all.filterMap (fun p => (port s p).test) with
        | [] => bertSettle (setRun k (some { r with deadline := 0, arg := r.arg % 2 ^ 64, pl := bertBytes l counts }) s)
        | t :: ts => setRun k (some { r with deadline := ts.foldl min t }) s)

-- ---------------------------------------------------------------- the routing image (R345)

/-- ROUTE_LOAD (R309, R345). -/
def execRouteLoad (mb : Fin 128) (env : MemEnv) (s : State) : Out :=
  .next (afterSnoops mb 0x303 (fun pl => if numAt pl 0 1 = 1 then some (addrAt pl 8, 21056) else none) (fun s =>
    runOp 0x303 (fun _ h pl _ s =>
      let t := numAt pl 24 8
      if 1 < numAt pl 0 1 then badArg 0 s
      else if numAt pl 0 1 = 1 ∧ h.ctx = 0 then badArg 0x10010 s
      else if numAt pl 16 4 ≠ 21056 then badArg 16 s
      else
        let img := readBundle s h.ctx env (decide (numAt pl 0 1 = 1)) (addrAt pl 8) 21056
        let bad : Bool := match img with
          | .error (st, _) => st = stBadArg
          | .ok b => !routeOk b
        let s := bundleNote h.ctx env (decide (numAt pl 0 1 = 1)) (addrAt pl 8) 21056 s
        if bad then badArg 8 s
        else if t ≠ 0 ∧ t < now s + 1000 then badArg 24 s
        else if isStopped s 0 then refuse stStopped 0 s
        else match img with
          | .error (st, det) => refuse st det s
          | .ok b =>
            okRep [] (modFab (fun f => { f with shadow := some (if t = 0 then now s else t, parseRoute b) }) s)) mb s) s)

/-- ROUTE_TABLE_SWAP (R345): at its tick the pending image comes into force. -/
def execRouteTableSwap (flash : Retry) (s : State) : Out :=
  .next (match s.fab.shadow with | none => s | some (t, _) => swapTable flash (waitCount t s))

-- ---------------------------------------------------------------- aborts (R523-R525)

/-- The groups an ABORT names. -/
def abortGroups (k : Pkt) : List Nat :=
  k.groupId :: (List.range (min 4 (fld k.opArg 18 16))).map (fun i => fld k.destMask (16 * i + 15) (16 * i))

/-- a is later than b among 48-bit counts. -/
def later48 (a b : Nat) : Bool := let d := (a + 2 ^ 48 - b % 2 ^ 48) % 2 ^ 48; decide (0 < d ∧ d < 2 ^ 47)

/-- ABORT_PACKET_ARRIVE (R524). -/
def execAbortPacketArrive (p : Fin 64) (pkt : Pkt) (s : State) : Out :=
  .next (
    let h := portHalf p
    let id := fld pkt.opArg 15 0
    if ! [4, 5].contains (port s p).st ∨ pkt.opcode ≠ 0x0A then s
    else
      let s := rxOne p s
      if 64 ≤ pkt.hops ∨ s.fab.abortSeen.any (fun x => x.1 = pkt.srcMid && x.2.1 = id && decide (s.time.clk < x.2.2 + 1000000)) then s
      else
        let s := modFab (fun f => { f with abortSeen := ((pkt.srcMid, id, s.time.clk) :: f.abortSeen).take 1024 }) s
        let origin := pkt.targetVa % 2 ^ 48
        if s.time.tq = .locked ∧ later48 (cnt s h % 2 ^ 48) ((origin + 100000) % 2 ^ 48) then event (0xA + h.num) 6 0 0 s
        else
          let s := count (0xA + h.num) 33 1 s
          let s := ((portsIn s [4, 5]).filter (· != p.val)).foldl (fun s q => sendOn q { pkt with hops := pkt.hops + 1 } s) s
          let hit := (List.range 36).filter (fun i => match part? s i with
            | some x => (partGroups s i).any (fun g => (abortGroups pkt).contains g) && !later48 x.lastTick origin &&
                x.fence.isNone
            | none => false)
          hit.foldl (fun s i => event (0xA + h.num) 7 0 0 (fencePart 1 4 0 true i s)) s)

end Sys2Proof.Machine
end

