-- ==== Sys2Proof/Machine/Transport.lean ====
section
/-!
DEFINITION. End-to-end delivery, source side (R354, R357-R359, R361, R362): numbering, resend buffers, PATH_BAD, the window
of VC7, and the packets that an engine sends.
-/
namespace Sys2Proof.Machine

/-- The VC of a flow: ring flows count VC2 and VC3 as one (R354). -/
def flowVc (v : Nat) : Nat := if v = 3 then 2 else v

/-- Key of the sending flow of a packet of this module (R354). -/
def txKey (k : Pkt) : Nat :=
  (((2 * k.srcHalf.num + k.destHalf.num) * 8 + flowVc k.vc) * 2 + b2n k.mcast) * 65536 +
    (if k.mcast then k.groupId % 65536 else k.destMid % 4096)

/-- PATH_BAD of a half (R359). -/
def pathBad (s : State) (h : Half) (mid : Nat) : Bool := FMap.get false s.fab.pathBad (4096 * h.num + mid)

/-- PATH_BAD set; a change sets PATH_BAD_NEW (R358, R359). -/
def setPathBad (h : Half) (mid : Nat) (s : State) : State :=
  if pathBad s h mid then s
  else event (0xA + h.num) 1 0 0
    (modFab (fun f => { f with pathBad := FMap.set false f.pathBad (4096 * h.num + mid) true }) s)

/-- Routes a packet of the own engines. -/
def routeOwn (k : Pkt) (s : State) : State × Option Nat := route 64 k s

/-- The mask of positions, as MIDs of a packet's destinations (R351). -/
def destsOf (k : Pkt) : List Nat :=
  if k.mcast then (bitsOf k.destMask 64).map (fun i => k.destMid / 64 * 64 + i) else [k.destMid]

/-- The ports by which a packet of the own engines would leave (R342, R352). -/
def outPorts (s : State) (k : Pkt) : List Nat :=
  let one (h : Hop) : List Nat := match h with | .send p => [p] | _ => []
  if !k.mcast then one (hop s 64 k)
  else if k.destMid / 64 ≠ s.ident.mid / 64 then one (tableHop s k)
  else [1, 3, 0, 2].flatMap (fun d =>
    let m := splitMask (s.ident.mid % 64) k.destMask d
    if m = 0 then [] else one (takePort s (eligible s (sideMask d) (some 1)) none { k with destMask := m }))

/-- ALT is set on every new packet for a destination whose path is bad (R358). -/
def withAlt (s : State) (k : Pkt) : Pkt := { k with alt := k.alt || (destsOf k).any (pathBad s k.srcHalf) }

/-- A port by which a packet would leave has a full resend buffer (R357). -/
def bufferFull (s : State) (k : Pkt) : Bool :=
  (outPorts s (withAlt s k)).any (fun p => decide (2 ^ 21 < resendBytes s p + 64 * flits k))

/-- The window of 64 unacknowledged VC7 packets of a source-destination pair is full (R362). -/
def windowFull (s : State) (k : Pkt) : Bool :=
  k.vc = 7 && decide (64 ≤ (s.fab.resend.filter (fun r => r.pkt.vc = 7 && r.pkt.destMid = k.destMid)).length)

/-- A packet is numbered, kept until acknowledged, and sent (R354, R357, R358). It stands in the buffer of the port by which
it leaves, 64 while it has found none. -/
def sendNow (k : Pkt) (s : State) : State :=
  let key := txKey k
  let n := FMap.get 0 s.fab.txSeq key
  let k := { withAlt s k with seq := n }
  let s := modFab (fun f => { f with
    txSeq := FMap.set 0 f.txSeq key ((n + 1) % 2 ^ 32),
    resend := f.resend ++ [{ pkt := k, port := 64, sentAt := s.time.clk, waiting := if k.mcast then k.destMask else 0 }] }) s
  (routeOwn k (count (0xC + k.srcHalf.num) 35 k.payload.length s)).1

/-- A packet that an engine hands to the transit domain: sent, or waiting un-numbered behind a full window or buffer. -/
def sendOwn (k : Pkt) (s : State) : State :=
  if windowFull s k ∨ bufferFull s k ∨ s.fab.txWait.any (fun x => txKey x = txKey k) then
    modFab (fun f => { f with txWait := f.txWait ++ [k] }) s
  else sendNow k s

/-- Packets that waited are tried again in their order. -/
def pumpTx (s : State) : State :=
  s.fab.txWait.foldl (fun s k => sendOwn k s) (modFab (fun f => { f with txWait := [] }) s)

/-- VC of an acknowledgement (R356, R361). -/
def ackVc (v : Nat) : Nat := if v = 7 then 7 else 1

/-- An ACK or NACK (R356, R389): never numbered, never resent. A multicast flow is marked by DEST_MASK 1 with its
GROUP_ID (log entry 22). -/
def ackPkt (s : State) (op : Nat) (f : RxFlow) (seq : Nat) : Pkt :=
  { opcode := op, vc := ackVc f.vc, srcHalf := f.destHalf, destHalf := f.srcHalf, srcMid := s.ident.mid,
    destMid := f.srcMid, seq := seq, opArg := f.vc % 8, groupId := f.mcast.getD 0,
    destMask := b2n f.mcast.isSome }

/-- A packet of the module that needs no resend buffer. -/
def sendLoose (k : Pkt) (s : State) : State := (routeOwn k s).1

/-- A packet of which a dropped codeword held a flit is discarded with the flits of it that were received (R331). -/
def dropHit (p : Nat) (k : Pkt) (lost : Nat) (s : State) : State :=
  let n := flits k - lost
  let add (l : List Nat) : List Nat := modNth l k.vc (fun c => (c + n) % 65536)
  rxCount p k.vc n (modPort p (fun x => { x with hit := x.hit.erase (k, lost), freed := add x.freed }) s)

/-- PACKET_ROUTE (R342): a header at the front of an input port, or of the own engine. The packet stands in the port's
receive buffer, which a sender that holds to its credits never overruns (R333, R334, log 111), until it leaves. -/
def execPacketRoute (p : Option (Fin 64)) (pkt : Pkt) (s : State) : Out :=
  .next (
    match p with
    | none => if s.ident.variant = .s ∨ !s.power.rails then s else sendOwn pkt s
    | some p =>
      let x := port s p
      if ! [4, 5].contains x.st ∨ [0xA, 0xB, 0xD].contains pkt.opcode then s
      else match x.hit.find? (fun y => y.1 = pkt) with
      | some (_, lost) => dropHit p pkt lost s
      | none =>
        let n := flits pkt
        if nth s.fab.vcAlloc pkt.vc < bufFlits x pkt.vc + n then s
        else
          let s := rxCount p pkt.vc n (count (0x80 + p.val) 3 (64 * n) (count (0x80 + p.val) 1 1 s))
          let s := if pkt.destMid = s.ident.mid ∧ !pkt.mcast then s else count (0xA + (portHalf p).num) 32 n s
          let s := (route p pkt s).1
          if pkt.mcast then freeBuf p pkt s else s)

end Sys2Proof.Machine
end

