-- ==== Sys2Proof/Machine/Engine.lean ====
section
/-!
DEFINITION. Fabric engines (R379-R396): engine counters, trigger entries, point-to-point operations and their failures, and
the group commands.
-/
namespace Sys2Proof.Machine

/-- The engines, changed. -/
def modEng (f : Eng → Eng) (s : State) : State := { s with eng := f s.eng }

/-- Status block of the engine of a half. -/
def feBlk (h : Half) : Nat := 0xC + h.num

/-- A group. -/
def group? (s : State) (g : Nat) : Option Group := FMap.get none s.eng.groups g

/-- A group, changed. -/
def modGroup (g : Nat) (f : Group → Group) (s : State) : State :=
  match group? s g with
  | some x => modEng (fun e => { e with groups := FMap.set none e.groups g (some (f x)) }) s
  | none => s

/-- A group of a partition. -/
def ownGroup (s : State) (p g : Nat) : Option Group :=
  match group? s g with | some x => if x.part = p then some x else none | none => none

/-- Is the group mixed (R396). -/
def mixedGroup (g : Group) : Bool := g.members.any (·.bl1)

-- ---------------------------------------------------------------- failure (R393, R394)

/-- An operation of an entry fails: FE_ERR, OP_FAIL, and the running launch (R394). -/
def engineFail (h : Half) (p idx grp peer code : Nat) (s : State) : State :=
  let e := code + 2 ^ 8 * p + 2 ^ 20 * (peer % 4096) + 2 ^ 35 * idx + 2 ^ 48 * grp
  let s := match h with
    | .a => modEng (fun x => { x with errA := if x.errA = 0 then e else x.errA }) s
    | .b => modEng (fun x => { x with errB := if x.errB = 0 then e else x.errB }) s
  let s := event (feBlk h) 0 code (match h with | .a => s.eng.errA | .b => s.eng.errB) s
  match part? s p, headLaunch s p with
  | some x, some l =>
    if l.st ≠ 2 ∨ l.endRt ≠ 0 then s
    else if serving s then fencePart 1 4 code false p s
    else modLaunch x.ctx l.id (fun y => { y with failing := true }) s
  | _, _ => s

/-- GROUP_ID of an entry, by TYPE (R385-R387, R398). -/
def entryGroup (e : Nat) : Nat :=
  match fld e 3 0 with
  | 3 => fld e 95 80
  | 6 => fld e 223 208
  | 4 => fld e 175 160
  | 5 => fld e 175 160
  | _ => fld e 127 112

/-- RANK of an entry, by TYPE. -/
def entryRank (e : Nat) : Nat :=
  match fld e 3 0 with
  | 3 => fld e 79 68
  | 6 => fld e 207 196
  | _ => fld e 111 100

-- ---------------------------------------------------------------- signals (R384)

/-- A tile of the partition: the cluster is the partition's and the position is present (R98). -/
def tileOf (s : State) (p c n : Nat) : Bool :=
  decide ((cluster s c).part = some p) && !absentPos s c n

/-- The completion signal of an entry names a counter that exists (R384). -/
def doneOk (s : State) (p e : Nat) : Bool :=
  match fld e 18 17 with
  | 0 => true
  | 1 => decide (fld e 27 19 < ((part? s p).map (·.feCnt)).getD 0)
  | 2 => decide (fld e 27 19 < 64) && decide (fld e 39 34 < 36) && tileOf s p (fld e 39 34) (fld e 33 28)
  | _ => false

/-- The completion signal of an entry leaves (R384, R392). -/
def doneSignal (h : Half) (p e : Nat) (s : State) : State :=
  match fld e 18 17 with
  | 1 => pushSignal { src := 4096 + h.num, eng := some h, part := p, tgt := 0, cnt := fld e 27 19, val := 1 } s
  | 2 => pushSignal { src := 4096 + h.num, part := p, tgt := 64 * fld e 39 34 + fld e 33 28, cnt := fld e 27 19, val := 1 } s
  | _ => s

-- ---------------------------------------------------------------- starting an operation (R383, R388, R389)

/-- The pieces of an operation: offset and length, at most `max` bytes each. -/
def cuts : Nat → Nat → Nat → Nat → List (Nat × Nat)
  | 0, _, _, _ => []
  | f + 1, mx, off, left =>
    if left = 0 then [] else (off, min mx left) :: cuts f mx (off + min mx left) (left - min mx left)

/-- All pieces of an operation of `n` bytes. -/
def piecesOf (mx n : Nat) : List (Nat × Nat) := cuts (n / mx + 1) mx 0 n

/-- VC of a point-to-point operation (R388): a GET with BULK too sends its requests on VC5, and a COUNTER_ADD keeps VC0,
since VC7 does not carry it (R361, R338; log 112). -/
def p2pVc (s : State) (g : Group) (mid : Nat) (bulk : Bool) : Nat :=
  if mixedGroup g ∨ bitOf (routeEntry s mid) 29 ∨ bitOf (routeEntry s mid) 28 then 7 else if bulk then 5 else 0

/-- Code of a failed local access (R393). -/
def localCode (f : Fail) : Nat := if f.code = 8 ∨ f.code = 0x11 then 7 else 6

/-- TRIG_CNT of an entry lies outside the reservation, or its completion signal names no counter (R384). -/
def badHeader (s : State) (p e : Nat) : Bool := !doneOk s p e || decide (((part? s p).map (·.feCnt)).getD 0 ≤ fld e 16 8)

/-- An invalid field of a point-to-point entry (R383-R387): any of them fails it with BAD_ENTRY. -/
def badEntry (s : State) (p e : Nat) : Bool :=
  let rank : Bool := match ownGroup s p (entryGroup e) with
    | some g => decide (g.members.length ≤ entryRank e)
    | none => true
  let cnts := ((part? s p).map (·.feCnt)).getD 0
  badHeader s p e ||
  (match fld e 3 0 with
   | 1 => rank || decide (fld e 159 128 = 0)
   | 2 => rank || decide (fld e 159 128 = 0) || bitOf e 90
   | 3 => rank || decide (fld e 67 66 = 3) || decide (fld e 207 160 % (if fld e 67 66 = 2 then 4 else 8) ≠ 0)
   | 6 => if bitOf e 185 then decide (cnts ≤ fld e 195 187) else rank || bitOf e 184
   | _ => true)

/-- Packets of a PUT, GET, ATOMIC_ADD or remote COUNTER_ADD (R388, R389), or the code of a local failure. -/
def opPackets (s : State) (h : Half) (p e tag : Nat) : Except Nat (List Pkt) :=
  match ownGroup s p (entryGroup e), part? s p with
  | some g, some x =>
    let mid := ((g.members[entryRank e]?).map (·.mid)).getD 0
    let base : Pkt := { srcHalf := h, srcMid := s.ident.mid, destMid := mid, groupId := entryGroup e, tag := tag }
    let ty := fld e 3 0
    if ty = 3 then
      let k : Pkt := { base with
        opcode := 4, vc := p2pVc s g mid false, destHalf := Half.ofNum (fld e 64 64), targetVa := fld e 207 160,
        opArg := fld e 67 66 + 4 * b2n (bitOf e 65), payload := natLe 8 (fld e 159 96) }
      .ok [k]
    else if ty = 6 then
      let k : Pkt := { base with
        opcode := 0xC, vc := 0, destHalf := Half.ofNum (fld e 186 186), targetVa := fld e 195 187, opArg := fld e 255 224 }
      .ok [k]
    else
      let vc := p2pVc s g mid (bitOf e 88)
      let n := fld e 159 128
      let l := piecesOf (if vc = 7 then 2048 else 4096) n
      let base := { base with vc := vc, destHalf := Half.ofNum (fld e 89 89) }
      if ty = 2 then
        .ok (l.map (fun c => { base with opcode := 2, targetVa := fld e 207 160 + c.1, opArg := c.2 }))
      else match readVa s (.engine p h) x.ctx {} (fld e 255 208) n with
        | (_, some f) => .error (localCode f)
        | (b, none) => .ok (l.map (fun c =>
          { base with
            opcode := 1, targetVa := fld e 207 160 + c.1, payload := sliceB b c.1 c.2,
            opArg := if c.1 + c.2 = n then 1 + 2 * b2n (bitOf e 90) + 4 * fld e 99 91 else 0 }))
  | _, _ => .error 8

/-- Operation contexts in use on a half (R379). -/
def opsOf (s : State) (h : Half) : List Op := s.eng.ops.filter (fun o => o.half = h)

/-- An entry becomes EMPTY. -/
def clearEntry (h : Half) (p i : Nat) (s : State) : State :=
  modEng (fun e => { e with ent := FMap.set none e.ent (entKey h p i) none }) s

/-- A point-to-point entry fires (R383, R392). A COUNTER_ADD with LOCAL completes at firing. -/
def startOp (h : Half) (p i e : Nat) (s : State) : State :=
  let s := count (feBlk h) 32 1 (clearEntry h p i s)
  if badEntry s p e then engineFail h p i (entryGroup e) 0 8 s
  else if fld e 3 0 = 6 ∧ bitOf e 185 then
    doneSignal h p e (pushSignal { src := 4096 + h.num, eng := some h, part := p, tgt := 0, cnt := fld e 195 187,
                                   val := fld e 255 224, set := bitOf e 184 } (count (feBlk h) 33 1 s))
  else
    let tag := s.eng.nextTag
    let pk := opPackets s h p e tag
    let s := if fld e 3 0 = 1 then readNote (.engine p h) (((part? s p).map (·.ctx)).getD 0) {} (fld e 255 208) (fld e 159 128) s else s
    match pk with
    | .error c => engineFail h p i (entryGroup e) 0 c s
    | .ok l =>
      let left := if fld e 3 0 = 2 then fld e 159 128
        else if fld e 3 0 = 3 ∧ bitOf e 65 then (if fld e 67 66 = 2 then 4 else 8) else 0
      let o : Op := { half := h, part := p, idx := i, entry := e, tag := tag, acks := l.length, left := left }
      let s := modEng (fun x => { x with nextTag := (tag + 1) % 32768, ops := x.ops ++ [o] }) s
      l.foldl (fun s k => sendOwn k s) s

-- ---------------------------------------------------------------- collectives, posting (R397-R402)

/-- Tick at which a launch of the partition began (R402). -/
def launchTick (s : State) (p : Nat) : Nat := ((part? s p).map (·.lastTick)).getD 0

/-- COLL and member rank decide whether a REDUCE_RECV is posted (R397). -/
def needsRecv (coll root rank : Nat) : Bool :=
  match coll with
  | 4 => rank != root
  | 5 => rank = root
  | _ => true

/-- A REDUCE_SEND with an invalid field (R383, R397, R398). -/
def badSend (s : State) (h : Half) (p e : Nat) : Bool :=
  match ownGroup s p (entryGroup e) with
  | none => true
  | some g =>
    let coll := fld e 83 81
    let fmt := fld e 75 72
    let es := bitsOfFmt fmt / 8
    let n := fld e 207 176
    badHeader s p e || coll = 0 || coll = 7 || decide (4 < fld e 80 78) || decide ((g.members[g.rank]?).map (·.half) ≠ some h) ||
    ! [1, 2, 3, 4, 5, 6, 0xF].contains fmt ||
    ((coll = 1 || coll = 2 || coll = 5) && (fld e 77 76 = 3 || decide (n % es ≠ 0))) ||
    (coll = 2 && decide (n % (g.members.length * es) ≠ 0)) ||
    ((coll = 4 || coll = 5) && decide (g.members.length ≤ fld e 95 84)) || (coll = 6 && decide (n ≠ 0))

/-- A REDUCE_RECV with an invalid field. -/
def badRecv (s : State) (h : Half) (p e : Nat) : Bool :=
  match ownGroup s p (entryGroup e) with
  | none => true
  | some g => badHeader s p e || decide ((g.members[g.rank]?).map (·.half) ≠ some h)

/-- Is this collective the one that an entry belongs to. -/
def sameColl (h : Half) (p e : Nat) (c : Coll) : Bool :=
  c.half = h && c.part = p && c.group = entryGroup e && c.seq = fld e 159 128

/-- A collective of a half, changed. -/
def modColl (h : Half) (grp sq : Nat) (f : Coll → Coll) (s : State) : State :=
  modEng (fun x => { x with colls := x.colls.map (fun c => if c.half = h ∧ c.group = grp ∧ c.seq = sq then f c else c) }) s

/-- The collective of a half by group and sequence number. -/
def coll? (s : State) (h : Half) (grp sq : Nat) : Option Coll :=
  s.eng.colls.find? (fun c => c.half = h && c.group = grp && c.seq = sq)

/-- Its own rank and its required entries have all fired (R402). -/
def allPosted (s : State) (c : Coll) : Bool :=
  match c.send, group? s c.group with
  | some (_, e), some g => c.recv.isSome || !needsRecv (fld e 83 81) (fld e 95 84) g.rank
  | _, _ => false

/-- A collective fails (R415): its slot is released, and every other collective of the group on the half fails with it. -/
def collFail (h : Half) (grp sq peer code : Nat) (s : State) : State :=
  match coll? s h grp sq with
  | none => s
  | some c =>
    let all := c :: s.eng.colls.filter (fun x => x.half = h && x.group = grp && x.seq ≠ sq && x.slot.isNone)
    let s := modEng (fun x => { x with colls := x.colls.filter (fun y => !all.contains y) }) s
    all.foldl (fun s x =>
      engineFail h x.part (((x.send.or x.recv).map (·.1)).getD 0) grp peer code s) s

/-- The BYTES of the two entries suit each other (R397). -/
def bytesOk (s : State) (c : Coll) : Bool :=
  match c.send, c.recv, group? s c.group with
  | some (_, e), some (_, r), some g =>
    let n := fld e 207 176
    let m := fld r 207 176
    (match fld e 83 81 with
     | 2 => m * g.members.length = n
     | 3 => m = g.members.length * n
     | _ => m = n)
  | _, _, _ => true

/-- A REDUCE_SEND or REDUCE_RECV fires into the pending list (R383, R401-R403). -/
def postColl (h : Half) (p i e : Nat) (s : State) : State :=
  let s := count (feBlk h) 32 1 (clearEntry h p i s)
  let snd := decide (fld e 3 0 = 4)
  let grp := entryGroup e
  let sq := fld e 159 128
  if (if snd then badSend s h p e else badRecv s h p e) then engineFail h p i grp 0 8 s
  else
    let next := ((group? s grp).map (·.nextSeq)).getD 0
    if 2 ^ 31 ≤ (sq + 2 ^ 32 - next % 2 ^ 32) % 2 ^ 32 then engineFail h p i grp 0 9 s
    else
      let s := if (coll? s h grp sq).isSome then s
        else modEng (fun x => { x with colls := x.colls ++ [{ half := h, part := p, group := grp, seq := sq }] }) s
      let s := modColl h grp sq (fun c => if snd then { c with send := some (i, e) } else { c with recv := some (i, e) }) s
      match coll? s h grp sq with
      | none => s
      | some c =>
        if !allPosted s c then s
        else if !bytesOk s c then
          engineFail h p i grp 0 8 (modEng (fun x => { x with colls := x.colls.filter (· ≠ c) }) s)
        else
          let off := (c.send.map (fun x => fld x.2 127 96)).getD 0
          let st := if off = 0 then cnt s h else launchTick s p + off
          let s := modColl h grp sq (fun c => { c with startTick := st }) s
          if off ≠ 0 ∧ st < cnt s h then event (feBlk h) 3 0 0 s else s

-- ---------------------------------------------------------------- counters and firing (R381-R383)

/-- An engine counter. -/
def engCnt (s : State) (h : Half) (p i : Nat) : Nat := FMap.get 0 s.eng.cnt (cntKey h p i)

/-- The condition of an armed entry holds. -/
def fires (s : State) (h : Half) (p e : Nat) : Bool := decide (fld e 63 40 ≤ engCnt s h p (fld e 16 8))

/-- One armed entry whose condition holds fires; a point-to-point entry needs a free operation context, and local window
lines that the host may cache are snooped first (R215, R383). A read across the bridge waits while it retrains (R24). -/
def fireEntry (h : Half) (p i : Nat) (s : State) : State :=
  match FMap.get none s.eng.ent (entKey h p i) with
  | none => s
  | some e =>
    if !fires s h p e then s
    else
      let ty := fld e 3 0
      if ty = 4 ∨ ty = 5 then postColl h p i e s
      else if 1024 ≤ (opsOf s h).length then s
      else
        let cx := ((part? s p).map (·.ctx)).getD 0
        let ag : Agent := .engine p h
        let sn := if ty = 1 then snoopLines s ag cx false (fld e 255 208) (fld e 159 128) else []
        if ty = 1 ∧ bridgeHolds s ag cx false (fld e 255 208) (fld e 159 128) then s
        else if sn ≠ [] then issueSnoops sn s
        else startOp h p i e s

/-- Armed entries of a half that `q` selects, in ascending engine-wide index (R382). -/
def armed (s : State) (h : Half) (q : Nat → Nat → Bool) : List (Nat × Nat) :=
  s.eng.ent.filterMap (fun x =>
    let k := x.1 / 8192
    match x.2 with
    | some e => if k / 36 = h.num ∧ q (k % 36) e then some (k % 36, x.1 % 8192) else none
    | none => none)

/-- Every armed entry that `q` selects and whose condition holds fires. -/
def fireAll (h : Half) (q : Nat → Nat → Bool) (s : State) : State :=
  (armed s h q).foldl (fun s x => fireEntry h x.1 x.2 s) s

/-- One cycle of an engine counter (R381, R382): its sets, then the sum of its adds, saturating; then entries. A counter
outside the reservation does not exist. -/
def counterCycle (h : Half) (p i : Nat) (sets adds : List Nat) (s : State) : State :=
  if ((part? s p).map (·.feCnt)).getD 0 ≤ i then s
  else
    let v := (sets.getLast?.map (· % 2 ^ 32)).getD (engCnt s h p i)
    let t := v + adds.sum
    let s := modEng (fun e => { e with cnt := FMap.set 0 e.cnt (cntKey h p i) (min t 0xFFFFFFFF) }) s
    let s := if 0xFFFFFFFF < t then event (feBlk h) 1 0 0 s else s
    fireAll h (fun q e => q = p && fld e 16 8 = i) s

/-- ENGINE_COUNTER_ADD (R381, R382): the sets and adds that reach a counter in one cycle. -/
def execEngineCounterAdd (half : Half) (part : Fin 36) (cnt : Nat) (sets : List Nat) (adds : List Nat) (s : State) : Out :=
  .next (counterCycle half part.val cnt sets adds s)

/-- FABRIC_TRIG arms an entry, evaluated at once (R127, R383). -/
def armEntry (h : Half) (p i e : Nat) (s : State) : State :=
  fireEntry h p i (modEng (fun x => { x with ent := FMap.set none x.ent (entKey h p i) (some e) }) s)

-- ---------------------------------------------------------------- completion (R383, R392)

/-- The operation has met the condition of R392. -/
def opDone (o : Op) : Bool :=
  !o.freed && (match fld o.entry 3 0 with
    | 2 => o.left = 0
    | 3 => if bitOf o.entry 65 then o.left = 0 else o.acks = 0
    | _ => o.acks = 0)

/-- An operation of a half, changed. -/
def modOp (h : Half) (tag : Nat) (f : Op → Op) (s : State) : State :=
  modEng (fun e => { e with ops := e.ops.map (fun o => if o.half = h ∧ o.tag = tag then f o else o) }) s

/-- ENGINE_OP_COMPLETE (R392): the i-th operation of the half sends its completion signal. -/
def execEngineOpComplete (half : Half) (i : Nat) (s : State) : Out :=
  .next (
    match (opsOf s half)[i]? with
    | none => s
    | some o =>
      if !opDone o then s
      else doneSignal half o.part o.entry (modOp half o.tag (fun o => { o with freed := true }) (count (feBlk half) 33 1 s)))

/-- OP_CONTEXT_FREE (R383): the context of an ended operation frees, and waiting entries fire in ascending index. -/
def execOpContextFree (half : Half) (i : Nat) (s : State) : Out :=
  .next (
    match (opsOf s half)[i]? with
    | none => s
    | some o =>
      if !o.freed then s
      else
        let s := modEng (fun e => { e with ops := e.ops.filter (fun x => !(x.half = half && x.tag = o.tag)) }) s
        fireAll half (fun _ e => ! [4, 5].contains (fld e 3 0)) s)

/-- An operation fails: no signal, its context ends (R394). -/
def opFail (h : Half) (tag peer code : Nat) (s : State) : State :=
  match s.eng.ops.find? (fun o => o.half = h && o.tag = tag && !o.freed) with
  | none => s
  | some o =>
    engineFail h o.part o.idx (entryGroup o.entry) peer code (modOp h tag (fun o => { o with freed := true }) s)

-- ---------------------------------------------------------------- groups (R395, R396)

/-- A member entry (R395). -/
def memberOf (w : Nat) : Member :=
  { mid := fld w 11 0, half := Half.ofNum (fld w 12 12), bl1 := bitOf w 13, scratch := fld w 63 28 * 4096 }

/-- The table of a GROUP_CREATE read into a record, without its checks. -/
def groupOf (part rank : Nat) (b : List Byte) : Group :=
  { part := part, rank := rank, members := (List.range (numAt b 0 2)).map (fun i => memberOf (numAt b (64 + 8 * i) 8)),
    ringId := numAt b 2 1, tree := decide (numAt b 3 1 = 1), battBytes := numAt b 4 4, battWin := numAt b 8 1,
    scratchBytes := numAt b 12 4 }

/-- The table's own checks (R395, R396). -/
def groupOk (g : Group) (b : List Byte) (n : Nat) : Bool :=
  let mids := g.members.map (·.mid)
  let batt := g.battBytes
  decide (numAt b 0 2 = n) && (g.ringId < 32 || g.ringId = 0xFF) && decide (numAt b 3 1 < 2) &&
  (if g.tree then 16384 ≤ batt && batt ≤ 262144 && decide (batt % 4096 = 0) else batt = 0) &&
  1 ≤ g.battWin && g.battWin ≤ 8 && decide (mids.Nodup)

/-- The member at RANK is this module, with its scratch region mapped (R395, R396). -/
def ownMemberOk (s : State) (cx : Nat) (g : Group) : Bool :=
  match g.members[g.rank]? with
  | some m => decide (m.mid = s.ident.mid) && (g.scratchBytes = 0 || covered m.scratch g.scratchBytes (·.write) (theCtx s cx).maps)
  | none => false

/-- GROUP_CREATE (R309, R395, R396). Fields wrong by themselves come before the rules that join several (R610). -/
def execGroupCreate (mb : Fin 128) (s : State) : Out :=
  .next (afterSnoops mb 0x301 (fun pl => some (addrAt pl 8, 64 + 8 * min 4096 (numAt pl 4 2))) (fun s =>
    runOp 0x301 (fun _ h pl _ s =>
      let id := numAt pl 0 2
      let pi := numAt pl 2 1
      let n := numAt pl 4 2
      let rank := numAt pl 6 2
      if (group? s id).isSome then badArg 0 s
      else match ownPart s h.ctx pi with
        | none => badArg 2 s
        | some p =>
          if n = 0 ∨ 4096 < n then badArg 4 s
          else match readBundle s h.ctx {} true (addrAt pl 8) (64 + 8 * n), bundleNote h.ctx {} true (addrAt pl 8) (64 + 8 * n) s with
            | .error (st, det), s => refuse st det s
            | .ok b, s =>
              let g := groupOf pi rank b
              let used := (s.eng.groups.map (fun x => match x.2 with | some y => y.members.length | none => 0)).sum
              if !groupOk g b n then badArg 8 s
              else if mixedGroup g ∧ !bitOf (numAt pl 3 1) 0 then badArg 3 s
              else if n ≤ rank then badArg 4 s
              else if !ownMemberOk s h.ctx g then badArg 8 s
              else if p.fence.isSome then refuse stFenced 0 s
              else if 256 ≤ s.eng.groups.length ∨ 65536 < used + n then refuse stNoResource 0 s
              else okRep [] (modEng (fun e => { e with groups := FMap.set none e.groups id (some g) }) s)) mb s) s)

/-- GROUP_DESTROY (R309, R396). -/
def execGroupDestroy (mb : Fin 128) (s : State) : Out :=
  .next (runOp 0x302 (fun _ h pl _ s =>
    let id := numAt pl 0 2
    match group? s id with
    | none => badArg 0 s
    | some g =>
      if (ownPart s h.ctx g.part).isNone then badArg 0 s
      else if s.eng.colls.any (fun c => c.group = id) then refuse stBusy 2 s
      else okRep [] (modEng (fun e => { e with groups := FMap.set none e.groups id none }) s)) mb s)

end Sys2Proof.Machine
end

