-- ==== Sys2Proof/Machine/Collective.lean ====
section
/-!
DEFINITION. Collectives (R397-R415): slots, algorithms and their data paths, wire formats, completion and stall.
-/
namespace Sys2Proof.Machine

-- ---------------------------------------------------------------- parameters of a collective

/-- What the two entries and the group say of a collective, with its vector of `len` elements of `unit` bytes: bytes for
the moving collectives, one empty element for BARRIER. -/
structure Par where
  half : Half
  part : Nat
  ctx : Nat
  grp : Nat
  seq : Nat
  g : Group
  coll : Nat
  op : Nat
  fmt : Nat
  algo : Nat                         -- in use
  ask : Nat                          -- ALGO as posted
  compact : Bool
  sat : Bool
  root : Nat
  src : Nat
  dst : Nat
  unit : Nat
  len : Nat
  mid : Nat                          -- MID of this module
  deriving DecidableEq, Repr

/-- MEMBERS. -/
def Par.n (p : Par) : Nat := p.g.members.length

/-- The own rank. -/
def Par.rank (p : Par) : Nat := p.g.rank

/-- A collective that reduces. -/
def Par.red (p : Par) : Bool := p.coll = 1 || p.coll = 2 || p.coll = 5

/-- The parameters of a posted collective. -/
def parOf (s : State) (c : Coll) : Option Par :=
  match c.send, group? s c.group, part? s c.part with
  | some (_, e), some g, some x =>
    let co := fld e 83 81
    let n := g.members.length
    let unit := if co = 3 ∨ co = 4 then 1 else if co = 6 then 0 else bitsOfFmt (fld e 75 72) / 8
    let b := fld e 207 176
    some { half := c.half, part := c.part, ctx := x.ctx, grp := c.group, seq := c.seq, g := g, coll := co,
           op := fld e 77 76, fmt := fld e 75 72, algo := c.algo, ask := fld e 80 78,
           compact := bitOf e 71 || decide (c.algo = 4), sat := bitOf e 70, root := fld e 95 84, src := fld e 255 208,
           dst := (c.recv.map (fun r => fld r.2 255 208)).getD 0, unit := unit,
           len := if co = 6 then 1 else if co = 3 then n * b else b / unit, mid := s.ident.mid }
  | _, _, _ => none

/-- Elements of a chunk: ⌈N ÷ n⌉ (R407). -/
def Par.per (p : Par) : Nat := cdiv p.len p.n

/-- First element of chunk `i`. -/
def Par.at_ (p : Par) (i : Nat) : Nat := min (i * p.per) p.len

/-- Length of chunk `i`; the last is shorter or empty. -/
def Par.size (p : Par) (i : Nat) : Nat := min p.per (p.len - p.at_ i)

/-- Input elements that the member takes. -/
def Par.need (p : Par) : Nat :=
  if p.red then p.len else if p.coll = 3 then p.size p.rank else if p.coll = 4 ∧ p.rank = p.root then p.len else 0

/-- The member writes element `i` of the result (R397). -/
def Par.keeps (p : Par) (i : Nat) : Bool :=
  match p.coll with
  | 1 => true
  | 2 => p.at_ p.rank ≤ i && i < p.at_ p.rank + p.size p.rank
  | 3 => true
  | 4 => p.rank != p.root
  | 5 => p.rank = p.root
  | _ => false

/-- Result elements that the member writes. -/
def Par.wants (p : Par) : Nat :=
  match p.coll with
  | 1 => p.len
  | 2 => p.size p.rank
  | 3 => p.len
  | 4 => if p.rank = p.root then 0 else p.len
  | 5 => if p.rank = p.root then p.len else 0
  | _ => 0

-- ---------------------------------------------------------------- wire formats (R409-R411)

/-- A SUM carried widened. -/
def Par.wide (p : Par) : Bool := p.red && p.op = 0 && !p.compact

/-- Bytes of a carried element (R409). -/
def Par.carried (p : Par) : Nat :=
  if p.wide then (match p.fmt with | 1 => 16 | 2 => 8 | 0xF => 8 | _ => 4) else p.unit

/-- The exact value of a double-double image. -/
def ddNum (x : Nat) : Num := Num.add (fp64.decode (fld x 63 0)) (fp64.decode (fld x 127 64))

/-- A double-double image holds a finite exact sum `e` of operands within R409: |low| ≤ half an ulp of high, and an
error of at most 2^−104 of the operands' magnitudes. -/
def ddOk (x y e : Num) (img : Nat) : Bool :=
  match fp64.decode (fld img 63 0), fp64.decode (fld img 127 64) with
  | .fin a m g, .fin b k j =>
    let v := Num.add (.fin a m g) (.fin b k j)
    let lowOk := decide (fp64.op v = fp64.op (.fin a m g))
    let err := Num.abs (Num.add v (Num.neg e))
    let lim := Num.shift (-104) (Num.add (Num.abs x) (Num.abs y))
    lowOk && !Num.lt lim err
  | _, _ => false

/-- Sum of two double-double elements. Its rounding is not given beyond the bound of R409: any image within the bound. -/
def ddAdd (x y : Nat) : Nat :=
  let e := Num.add (ddNum x) (ddNum y)
  let hi := (fp64.round 0 false 0 e).code
  match fp64.decode hi with
  | .fin .. =>
    let free := Config.ddSum x y % 2 ^ 128
    if ddOk (ddNum x) (ddNum y) e free then free
    else hi + 2 ^ 64 * (fp64.round 0 false 0 (Num.add e (Num.neg (fp64.decode hi)))).code
  | _ => hi

/-- An element of FMT in the carried format. -/
def Par.widen (p : Par) (x : Nat) : Nat :=
  if !p.wide then x
  else match p.fmt with
    | 1 => x
    | 2 => (fp64.round 0 false 0 (fp32.decode x)).code
    | 0xF => wrapI 64 (sext 32 x)
    | f => (fp32.round 0 false 0 (elemNum f x)).code

/-- Two carried elements combined by OP (R409, R411). -/
def Par.comb (p : Par) (x y : Nat) : Nat :=
  if p.wide then
    match p.fmt with
    | 1 => ddAdd x y
    | 2 => (fp64.round 0 false 0 (Num.add (fp64.decode x) (fp64.decode y))).code
    | 0xF => (x + y) % 2 ^ 64
    | _ => (fp32.round 0 false 0 (Num.add (fp32.decode x) (fp32.decode y))).code
  else
    let a := elemNum p.fmt x
    let b := elemNum p.fmt y
    (convert p.fmt 0 false 0 (match p.op with | 0 => Num.add a b | 1 => Num.max a b | _ => Num.min a b)).code

/-- A carried element rounded into FMT (R411), and whether an INT64 sum saturated. -/
def Par.final (p : Par) (x : Nat) : Nat × Bool :=
  if !p.wide then (x, false)
  else match p.fmt with
    | 1 => ((fp64.round 0 p.sat 0 (ddNum x)).code, false)
    | 2 => ((fp32.round 0 p.sat 0 (fp64.decode x)).code, false)
    | 0xF => let (i, o) := satInt 32 (sext 64 x); (wrapI 32 i, o)
    | f => ((convert f 0 p.sat 0 (fp32.decode x)).code, false)

/-- Elements of `w` bytes in a list of bytes; with `w` 0 there is one empty element. -/
def elems (w : Nat) (b : List Byte) : List Nat :=
  if w = 0 then [0] else (List.range (b.length / w)).map (fun i => numAt b (w * i) w)

/-- The agent that reads and writes for a collective. -/
def Par.agent (p : Par) : Agent := .engine p.part p.half

/-- Address of the own input element `i`. -/
def Par.ownAt (p : Par) (i : Nat) : Nat := p.src + p.unit * (i - if p.coll = 3 then p.at_ p.rank else 0)

/-- The member's own input elements from index `i`, in FMT. -/
def ownElems (s : State) (p : Par) (i k : Nat) : Except Nat (List Nat) :=
  if p.unit = 0 then .ok (List.replicate k 0)
  else match readVa s p.agent p.ctx {} (p.ownAt i) (p.unit * k) with
    | (_, some f) => .error (localCode f)
    | (b, none) => .ok (elems p.unit b)

/-- What that read leaves at the controllers. -/
def ownNote (p : Par) (r : Nat × Nat) (s : State) : State :=
  if p.unit = 0 then s else readNote p.agent p.ctx {} (p.ownAt r.1) (p.unit * r.2) s

-- ---------------------------------------------------------------- what an arrival makes a member do

/-- Elements for a member: carried sums, or final values in FMT (`result`). -/
structure Emit where
  dest : Nat
  result : Bool
  start : Nat
  xs : List Nat
  deriving DecidableEq, Repr

/-- Elements that were taken, seen and written, and what leaves. -/
structure Act where
  use : Nat := 0
  seen : Nat := 0
  wr : List (Nat × List Nat) := []
  out : List Emit := []
  sats : Nat := 0
  acc : Option (FMap (Option Nat)) := none
  deriving DecidableEq, Repr

/-- Two acts one after the other. -/
def Act.join (a b : Act) : Act :=
  { use := a.use + b.use, seen := a.seen + b.seen, wr := a.wr ++ b.wr, out := a.out ++ b.out, sats := a.sats + b.sats,
    acc := b.acc.or a.acc }

/-- Final values of carried sums, with the count of saturated ones. -/
def finals (p : Par) (xs : List Nat) : List Nat × Nat :=
  let l := xs.map p.final; (l.map (·.1), (l.filter (·.2)).length)

/-- The run of a result that the member writes. -/
def keepRun (p : Par) (start : Nat) (xs : List Nat) : List (Nat × List Nat) :=
  let k := ((List.range xs.length).filter (fun i => p.keeps (start + i)))
  match k.head? with
  | some i => [(start + i, (xs.drop i).take k.length)]
  | none => []

/-- The next member of the logical ring. -/
def Par.succ (p : Par) : Nat := (p.rank + 1) % p.n

/-- The member before. -/
def Par.pred (p : Par) : Nat := (p.rank + p.n - 1) % p.n

/-- The chunk of an element. -/
def Par.chunk (p : Par) (i : Nat) : Nat := if p.per = 0 then 0 else i / p.per

/-- RING, a partial sum (R407): combined and passed on, or completed by the chunk's own rank. -/
def ringSum (p : Par) (start : Nat) (xs own : List Nat) : Act :=
  let ys := List.zipWith (fun x y => p.comb x (p.widen y)) xs own
  if p.chunk start = p.rank then
    let (f, k) := finals p ys
    { use := xs.length, sats := k, wr := keepRun p start f,
      out := if p.coll = 1 then [⟨p.succ, true, start, f⟩]
             else if p.coll = 5 ∧ p.rank ≠ p.root then [⟨p.root, true, start, f⟩] else [] }
  else { use := xs.length, out := [⟨p.succ, false, start, ys⟩] }

/-- RING, final values: written and passed on until the member before their owner (R407). -/
def ringPass (p : Par) (start : Nat) (xs : List Nat) : Act :=
  let stop := match p.coll with | 4 => p.root | 5 => p.succ | _ => p.chunk start
  { wr := keepRun p start xs, out := if p.succ = stop then [] else [⟨p.succ, true, start, xs⟩] }

-- ---------------------------------------------------------------- MESH2D (R405, R408)

/-- Column and row of a MID inside its block (R324). -/
def xyOf (mid : Nat) : Nat × Nat := (mid % 8, mid / 8 % 8)

/-- Width of the members' rectangle: the members of the first row. -/
def meshW (g : Group) : Nat :=
  match g.members.head? with
  | some m => (g.members.filter (fun x => (xyOf x.mid).2 = (xyOf m.mid).2)).length
  | none => 0

/-- The members fill a rectangle of w × h, w, h ≥ 2, ranked row by row from the north-west. -/
def meshFits (g : Group) : Bool :=
  let w := meshW g
  let n := g.members.length
  match g.members.head? with
  | none => false
  | some m =>
    let o := xyOf m.mid
    2 ≤ w && 2 * w ≤ n && decide (n % w = 0) && g.members.all (fun x => x.mid / 64 = m.mid / 64) &&
    (List.range n).all (fun i => (g.members[i]?).map (fun x => xyOf x.mid) = some (o.1 + i % w, o.2 + i / w))

/-- Width and position in the rectangle. -/
def Par.w (p : Par) : Nat := meshW p.g
def Par.h (p : Par) : Nat := p.n / p.w
def Par.x (p : Par) : Nat := p.rank % p.w
def Par.y (p : Par) : Nat := p.rank / p.w

/-- Elements that flow east. -/
def Par.east (p : Par) : Nat := cdiv p.len 2

/-- Borders of the quarters: eastward ones flow south, then north, then westward ones south, then north. -/
def Par.q1 (p : Par) : Nat := cdiv p.east 2
def Par.q3 (p : Par) : Nat := p.east + cdiv (p.len - p.east) 2

/-- Does element `i` flow east along its row, and south along its column. -/
def Par.goesEast (p : Par) (i : Nat) : Bool := i < p.east
def Par.goesSouth (p : Par) (i : Nat) : Bool := if i < p.east then i < p.q1 else i < p.q3

/-- The member one step along a row or a column, if the rectangle has one. -/
def Par.step (p : Par) (row up : Bool) : Option Nat :=
  if row then (if up then (if p.x + 1 < p.w then some (p.rank + 1) else none) else (if 0 < p.x then some (p.rank - 1) else none))
  else (if up then (if p.y + 1 < p.h then some (p.rank + p.w) else none) else (if 0 < p.y then some (p.rank - p.w) else none))

/-- An emission to a member that exists. -/
def emitTo (d : Option Nat) (result : Bool) (start : Nat) (xs : List Nat) : List Emit :=
  match d with | some r => if xs = [] then [] else [⟨r, result, start, xs⟩] | none => []

/-- Final values of a reduction at their column's end, or passing along the column: written, and back along the row. -/
def meshBack (p : Par) (start : Nat) (xs : List Nat) : Act :=
  { seen := xs.length, wr := keepRun p start xs,
    out := emitTo (p.step false (!p.goesSouth start)) true start xs ++ emitTo (p.step true (!p.goesEast start)) true start xs }

/-- Sums along a column: the last member completes them. -/
def meshCol (p : Par) (start : Nat) (xs : List Nat) : Act :=
  match p.step false (p.goesSouth start) with
  | some d => { out := [⟨d, false, start, xs⟩] }
  | none => let (f, k) := finals p xs; { meshBack p start f with sats := k }

/-- Consecutive indices as runs. -/
def runs : List (Nat × Nat) → List (Nat × List Nat)
  | [] => []
  | (i, x) :: r =>
    match runs r with
    | (j, l) :: t => if j = i + 1 then (i, x :: l) :: t else (i, [x]) :: (j, l) :: t
    | [] => [(i, [x])]

/-- A row's sum, or a column's partial sum, at a member of an end column: each element waits for its other part. -/
def meshMeet (p : Par) (acc : FMap (Option Nat)) (isCol : Bool) (start : Nat) (xs : List Nat) : Act :=
  let ix := (List.range xs.length).map (fun i => (start + i, nth xs i))
  let other (i : Nat) : Option Nat := FMap.get none acc (2 * i + b2n (!isCol))
  let ready := ix.filterMap (fun x => (other x.1).map (fun y => (x.1, if isCol then p.comb x.2 y else p.comb y x.2)))
  let acc := ix.foldl (fun a x => if (other x.1).isSome then FMap.set none a (2 * x.1 + b2n (!isCol)) none
    else FMap.set none a (2 * x.1 + b2n isCol) (some x.2)) acc
  ((runs ready).map (fun r => meshCol p r.1 r.2)).foldl Act.join { acc := some acc }

/-- A row's sum is complete at the end of the row: the first member of the column starts the column. -/
def meshRowEnd (p : Par) (acc : FMap (Option Nat)) (start : Nat) (xs : List Nat) : Act :=
  if (p.step false (!p.goesSouth start)).isNone then meshCol p start xs else meshMeet p acc false start xs

/-- MESH2D, a partial sum from another member. -/
def meshSum (p : Par) (acc : FMap (Option Nat)) (src start : Nat) (xs own : List Nat) : Act :=
  if src / p.w = p.y then
    let ys := List.zipWith (fun x y => p.comb x (p.widen y)) xs own
    let a : Act := match p.step true (p.goesEast start) with
      | some d => { out := [⟨d, false, start, ys⟩] }
      | none => meshRowEnd p acc start ys
    { a with use := xs.length }
  else meshMeet p acc true start xs

/-- MESH2D, final values from another member. -/
def meshPass (p : Par) (src start : Nat) (xs : List Nat) : Act :=
  if p.red ∨ p.coll = 6 then
    if src / p.w = p.y then
      { seen := xs.length, wr := keepRun p start xs, out := emitTo (p.step true (!p.goesEast start)) true start xs }
    else meshBack p start xs
  else if src / p.w = p.y then
    { seen := xs.length, wr := keepRun p start xs,
      out := emitTo (p.step true (src < p.rank)) true start xs ++ emitTo (p.step false true) true start xs ++
             emitTo (p.step false false) true start xs }
  else { seen := xs.length, wr := keepRun p start xs, out := emitTo (p.step false (src < p.rank)) true start xs }

/-- Members that send this one data under MESH2D (R406, R408): what moves comes from the neighbours on the side of its
source; sums and results come from both sides of a row, and of a column at its ends. -/
def meshPeers (p : Par) : List Nat :=
  let row := [p.step true true, p.step true false].filterMap id
  let col := [p.step false true, p.step false false].filterMap id
  let rx := p.root % p.w
  let ry := p.root / p.w
  if p.len = 0 then []
  else match p.coll with
    | 3 => row ++ col
    | 4 =>
      if p.y = ry then (if p.x = rx then [] else [p.step true (p.x < rx)].filterMap id)
      else [p.step false (p.y < ry)].filterMap id
    | _ => row ++ (if p.x + 1 = p.w ∨ p.x = 0 ∧ p.east < p.len then col else [])

-- ---------------------------------------------------------------- TREE (R412)

/-- First element and length of the member's contribution under TREE. -/
def Par.contrib (p : Par) : Nat × Nat :=
  if p.coll = 3 then (p.at_ p.rank, p.size p.rank)
  else if p.coll = 4 then (0, if p.rank = p.root then p.len else 0)
  else (0, p.len)

/-- Elements of a batt. -/
def Par.batt (p : Par) : Nat := if p.carried = 0 then 1 else min 262144 p.g.battBytes / p.carried

/-- Start and length of the b-th batt of the contribution, aligned from element 0 of it. -/
def Par.battAt (p : Par) (b : Nat) : Nat × Nat :=
  let (o, n) := p.contrib
  (o + min (b * p.batt) n, min p.batt (n - min (b * p.batt) n))

/-- Batts of the contribution. -/
def Par.batts (p : Par) : Nat := if p.batt = 0 then 0 else cdiv p.contrib.2 p.batt

/-- TREE, a returned result: written, rounding once if WIDE is set, and counted for its batt. -/
def treePass (p : Par) (acc : FMap (Option Nat)) (wide : Bool) (start : Nat) (xs : List Nat) : Act :=
  let (f, k) := if wide then finals p xs else (xs, 0)
  let (o, n) := p.contrib
  let b := (start - o) / p.batt
  let a := if o ≤ start ∧ start < o + n then FMap.set none acc b (some ((FMap.get none acc b).getD 0 + xs.length)) else acc
  { seen := xs.length, sats := k, wr := keepRun p start f, acc := some a }

/-- Batts whose results have not all returned. -/
def openBatts (p : Par) (c : Coll) : Nat :=
  ((List.range c.batts).filter (fun b => (FMap.get none c.acc b).getD 0 < (p.battAt b).2)).length

-- ---------------------------------------------------------------- sending and writing

/-- The collective of a set of parameters, changed. -/
def modP (p : Par) (f : Coll → Coll) (s : State) : State := modColl p.half p.grp p.seq f s

/-- Progress (R415). -/
def moved (p : Par) (s : State) : State := modP p (fun c => { c with moveAt := s.time.clk }) s

/-- Failure of a set of parameters' collective. -/
def failP (p : Par) (peer code : Nat) (s : State) : State := collFail p.half p.grp p.seq peer code s

/-- Tag of a packet that belongs to a collective. -/
def collTag (c : Coll) : Nat := 32768 + c.slot.getD 0

/-- A packet of a collective leaves, or waits for the RNDV_READY of its destination (R406). -/
def sendColl (p : Par) (rank : Nat) (rndv : Bool) (k : Pkt) (s : State) : State :=
  let seen := match group? s p.grp with | some g => g.ready.contains (p.seq, rank) | none => false
  if rndv ∧ !seen then modP p (fun c => { c with wait := c.wait ++ [(rank, k)] }) s
  else moved p (sendOwn k (modP p (fun c => { c with sent := c.sent + 1 }) s))

/-- Packets that waited for a rank leave. -/
def flushWait (p : Par) (rank : Nat) (s : State) : State :=
  match coll? s p.half p.grp p.seq with
  | none => s
  | some c =>
    let l := c.wait.filter (fun x => x.1 = rank)
    let s := modP p (fun c => { c with wait := c.wait.filter (fun x => x.1 ≠ rank) }) s
    l.foldl (fun s x => sendColl p rank true x.2 s) s

/-- OP_ARG of a REDUCE (R389). -/
def redArg (p : Par) (result : Bool) : Nat :=
  p.fmt + 16 * p.op + 64 * b2n (p.wide && !result) + 128 * b2n result + 512 * p.coll + 4096 * p.ask + 65536 * p.rank

/-- REDUCE packets of an emission: at most 4,096 bytes each (R409). -/
def redPkts (p : Par) (c : Coll) (e : Emit) : List Pkt :=
  let w := if e.result then p.unit else p.carried
  let m := p.g.members[e.dest]?
  let tree := p.algo = 3
  let base : Pkt := { opcode := 6, vc := if p.algo = 1 then 2 else 4, srcHalf := p.half, srcMid := p.mid,
                      destMid := if tree then p.mid else (m.map (·.mid)).getD 0,
                      destHalf := if tree then p.half else (m.map (·.half)).getD .a,
                      ringId := if p.algo = 1 then p.g.ringId else 0, groupId := p.grp, groupSeq := p.seq,
                      tag := collTag c, opArg := redArg p e.result }
  (piecesOf (if w = 0 then 4096 else 4096 / w) e.xs.length).map (fun q =>
    { base with targetVa := e.start + q.1, payload := ((e.xs.drop q.1).take q.2).flatMap (natLe w) })

/-- The PUT packets of a finished chunk into ROOT's DST under RING and DIRECT (R407). Only ROOT knows the address of DST:
TARGET_VA counts from it, and DEST_MASK 1 says so (log 113). -/
def putPkts (s : State) (p : Par) (c : Coll) (e : Emit) : List Pkt :=
  let m := p.g.members[e.dest]?
  let mid := (m.map (·.mid)).getD 0
  let base : Pkt := { opcode := 1, vc := p2pVc s p.g mid false, srcHalf := p.half, srcMid := p.mid, destMid := mid,
                      destHalf := (m.map (·.half)).getD .a, groupId := p.grp, groupSeq := p.seq, tag := collTag c, destMask := 1 }
  let b := e.xs.flatMap (natLe p.unit)
  (piecesOf (if base.vc = 7 then 2048 else 4096) b.length).map (fun q =>
    { base with targetVa := p.unit * e.start + q.1, payload := sliceB b q.1 q.2, opArg := b2n (decide (q.1 + q.2 = b.length)) })

/-- An emission leaves. -/
def sendEmit (p : Par) (e : Emit) (s : State) : State :=
  match coll? s p.half p.grp p.seq with
  | none => s
  | some c =>
    let l := if e.result ∧ p.coll = 5 ∧ (p.algo = 1 ∨ p.algo = 4) then putPkts s p c e else redPkts p c e
    l.foldl (fun s k => sendColl p e.dest (decide (p.algo = 1 ∨ p.algo = 2)) k s) s

/-- Final values written into DST (R407): chunk r of a REDUCE_SCATTER stands at its start. -/
def writeRes (p : Par) (w : Nat × List Nat) (s : State) : State × Option Fail :=
  let off := if p.coll = 2 then w.1 - p.at_ p.rank else w.1
  if p.unit = 0 then (s, none)
  else
    let (s, _, f) := writeVa p.agent p.ctx {} (p.dst + p.unit * off) (w.2.flatMap (natLe p.unit)) s
    (s, f)

/-- Completion signals of the two entries (R392, R400): SRC is no longer read, the result is visible. A REDUCE_RECV with
BYTES 0 signals when the collective completes. -/
def signalDone (p : Par) (s : State) : State :=
  match coll? s p.half p.grp p.seq with
  | none => s
  | some c =>
    let s := if !c.sigS ∧ p.need ≤ c.used then
        modP p (fun c => { c with sigS := true }) (match c.send with | some (_, e) => doneSignal p.half p.part e s | none => s)
      else s
    if !c.sigR ∧ p.wants ≤ c.got ∧ (c.recv.isNone ∨ 0 < p.wants) then
      modP p (fun c => { c with sigR := true }) (match c.recv with | some (_, e) => doneSignal p.half p.part e s | none => s)
    else s

/-- An act is carried out: writes, counts, emissions, signals. A failed local address fails the collective (R415). -/
def doAct (p : Par) (a : Act) (s : State) : State :=
  let (s, f) := a.wr.foldl (fun (x : State × Option Fail) w => match x.2 with
    | some _ => x
    | none => writeRes p w x.1) (s, none)
  match f with
  | some f => failP p 0 (localCode f) s
  | none =>
    let got := (a.wr.map (fun w => w.2.length)).sum
    let s := modP p (fun c => { c with used := c.used + a.use, got := c.got + got, back := c.back + a.seen,
                                       acc := a.acc.getD c.acc }) s
    let s := (List.range a.sats).foldl (fun s _ => event (feBlk p.half) 2 0 0 s) s
    signalDone p (moved p (a.out.foldl (fun s e => sendEmit p e s) s))

/-- Batts leave while fewer than BATT_WINDOW are open (R412). -/
def pumpBatts (p : Par) : Nat → State → State
  | 0, s => s
  | f + 1, s =>
    match coll? s p.half p.grp p.seq with
    | none => s
    | some c =>
      if p.batts ≤ c.batts ∨ p.g.battWin ≤ openBatts p c then s
      else
        let (o, n) := p.battAt c.batts
        match ownElems s p o n, ownNote p (o, n) s with
        | .error code, s => failP p 0 code s
        | .ok l, s =>
          let s := modP p (fun c => { c with batts := c.batts + 1 }) s
          pumpBatts p f (doAct p { use := if p.coll = 6 then 0 else n, out := [⟨p.rank, false, o, l.map p.widen⟩] } s)

-- ---------------------------------------------------------------- DIRECT (R408)

/-- The i-th 64 KiB piece of a BROADCAST: start and length in bytes (R407). -/
def Par.piece (p : Par) (i : Nat) : Nat × Nat := let a := min (65536 * i) p.len; (a, min 65536 (p.len - a))

/-- Pieces of a BROADCAST. -/
def Par.pieceN (p : Par) : Nat := cdiv p.len 65536

/-- C: the chunk in bytes, rounded up to 64; the piece of a BROADCAST; nothing for a BARRIER. -/
def Par.c (p : Par) : Nat :=
  match p.coll with
  | 6 => 0
  | 4 => cdiv (p.piece 0).2 64 * 64
  | _ => cdiv (p.per * p.unit) 64 * 64

/-- Steps of the collective on each member (R407, log 62): reduce-scatter and allgather take n − 1 each; every piece of a
BROADCAST goes n − 1 hops, one step apart; a BARRIER goes twice around the ring. -/
def Par.steps (p : Par) : Nat :=
  match p.coll with
  | 1 => 2 * (p.n - 1)
  | 4 => p.pieceN + p.n - 2
  | 6 => 2 * p.n
  | _ => p.n - 1

/-- Scratch region of a rank. -/
def Par.scratch (p : Par) (r : Nat) : Nat := ((p.g.members[r]?).map (·.scratch)).getD 0

/-- Distance from ROOT along the ring. -/
def Par.dist (p : Par) : Nat := (p.rank + p.n - p.root % p.n) % p.n

/-- A signed word of the own scratch region. -/
def scratchWord (s : State) (p : Par) (off : Nat) : Except Nat Int :=
  match readVa s p.agent p.ctx {} (p.scratch p.rank + off) 8 with
  | (_, some f) => .error (localCode f)
  | (b, none) => .ok (sext 64 (leNat b))

/-- What the read of that word leaves. -/
def wordNote (p : Par) (off : Nat) (s : State) : State := readNote p.agent p.ctx {} (p.scratch p.rank + off) 8 s

/-- A packet of DIRECT to a rank. -/
def directPkt (s : State) (p : Par) (c : Coll) (r : Nat) : Pkt :=
  let m := p.g.members[r]?
  let mid := (m.map (·.mid)).getD 0
  { vc := p2pVc s p.g mid false, srcHalf := p.half, srcMid := p.mid, destMid := mid, destHalf := (m.map (·.half)).getD .a,
    groupId := p.grp, groupSeq := p.seq, tag := collTag c }

/-- An atomic add of 1 to a word of a rank's scratch region. -/
def directAdd (p : Par) (r off : Nat) (s : State) : State :=
  match coll? s p.half p.grp p.seq with
  | none => s
  | some c => sendColl p r false { directPkt s p c r with opcode := 4, targetVa := p.scratch r + off, payload := natLe 8 1 } s

/-- Does step `t` of the collective carry data to the next member: a BROADCAST, piece t − distance. -/
def Par.sends (p : Par) (t : Nat) : Bool :=
  if p.c = 0 then false
  else if p.coll = 4 then p.dist ≤ t && t - p.dist < p.pieceN && p.succ != p.root else true

/-- The steps of group number `k` begin with a PUT of the chunk into the successor's buffer; an empty one goes straight to
the ATOMIC. -/
def directPut (p : Par) (k : Nat) (c : Coll) (s : State) : State :=
  if p.sends c.step then
    let base := directPkt s p c p.succ
    let b := sliceB c.cur 0 p.c
    let l := (piecesOf (if base.vc = 7 then 2048 else 4096) p.c).map (fun q =>
      { base with opcode := 1, targetVa := p.scratch p.succ + 0x40 + k % 2 * p.c + q.1, payload := sliceB b q.1 q.2,
                  opArg := if q.1 + q.2 = p.c then 1 else 0 })
    let s := modP p (fun c => { c with stage := 1, back := l.length }) s
    l.foldl (fun s k => sendColl p p.succ false k s) s
  else directAdd p p.succ 0 (modP p (fun c => { c with stage := 2 }) s)

/-- Bytes of chunk `i` of the own SRC, which are taken. -/
def srcChunk (s : State) (p : Par) (i : Nat) : Except Nat (List Nat) := ownElems s p (p.at_ i) (p.size i)

/-- Own elements that step `t` takes: the own part of the sum, or the next piece at ROOT. -/
def takeReads (p : Par) (t : Nat) : List (Nat × Nat) :=
  if p.coll = 4 then (if p.dist = 0 ∧ t + 1 < p.pieceN then [p.piece (t + 1)] else [])
  else if p.red ∧ t < p.n - 1 then let i := (p.rank + 2 * p.n - t - 2) % p.n; [(p.at_ i, p.size i)]
  else []

/-- What consuming the buffer in step `t` does: the act, and the bytes of the next step. A finished chunk of a REDUCE
goes to ROOT's DST (R407). -/
def directTake (s : State) (p : Par) (t : Nat) (buf : List Byte) : Except Nat (Act × List Byte) :=
  let enc (l : List Nat) : List Byte := l.flatMap (natLe p.unit)
  let pass (a n : Nat) : Except Nat (Act × List Byte) :=
    let xs := elems p.unit (sliceB buf 0 (p.unit * n))
    .ok ({ wr := keepRun p a xs }, enc xs)
  if p.coll = 6 then .ok ({}, [])
  else if p.coll = 4 then
    if p.dist = 0 then
      if t + 1 < p.pieceN then
        (ownElems s p (p.piece (t + 1)).1 (p.piece (t + 1)).2).map (fun l => ({ use := l.length }, enc l))
      else .ok ({}, [])
    else if p.dist ≤ t + 1 ∧ t + 1 - p.dist < p.pieceN then
      let q := p.piece (t + 1 - p.dist)
      pass q.1 q.2
    else .ok ({}, [])
  else if p.red ∧ t < p.n - 1 then
    let i := (p.rank + 2 * p.n - t - 2) % p.n
    (srcChunk s p i).map (fun own =>
      let ys := List.zipWith p.comb (elems p.unit (sliceB buf 0 (p.unit * p.size i))) own
      let done := decide (i = p.rank)
      ({ use := own.length, wr := if done then keepRun p (p.at_ i) ys else [],
         out := if done && p.coll = 5 && p.rank != p.root then [⟨p.root, true, p.at_ i, ys⟩] else [] }, enc ys))
  else
    let t := if p.red then t - (p.n - 1) else t
    let i := (p.rank + 2 * p.n - t - 1) % p.n
    pass (p.at_ i) (p.size i)

/-- One member's scheme of R408, as far as its words allow: wait for FREED, send, wait for ARRIVED, consume. -/
def directGo (p : Par) : Nat → State → State
  | 0, s => s
  | f + 1, s =>
    match coll? s p.half p.grp p.seq, group? s p.grp with
    | some c, some g =>
      let k := g.step
      if c.stage = 1 ∨ p.steps ≤ c.step then s
      else if c.stage = 0 then
        match scratchWord s p 8, wordNote p 8 s with
        | .error code, s => failP p 0 code s
        | .ok v, s => if (k : Int) - 1 ≤ v then directGo p f (directPut p k c s) else s
      else
        match scratchWord s p 0, wordNote p 0 s with
        | .error code, s => failP p 0 code s
        | .ok v, s =>
          if v < (k : Int) + 1 then s
          else
            let at_ := p.scratch p.rank + 0x40 + k % 2 * p.c
            match readVa s p.agent p.ctx {} at_ p.c, readNote p.agent p.ctx {} at_ p.c s with
            | (_, some e), s => failP p 0 (localCode e) s
            | (buf, none), s =>
              match directTake s p c.step buf, (takeReads p c.step).foldl (fun s r => ownNote p r s) s with
              | .error code, s => failP p 0 code s
              | .ok (a, cur), s =>
                let s := modGroup p.grp (fun g => { g with step := k + 1 }) s
                let s := modP p (fun c => { c with step := c.step + 1, stage := 0, cur := cur }) s
                directGo p f (doAct p a (directAdd p p.pred 8 s))
    | _, _ => s

/-- DIRECT tried again after a word or an acknowledgement may have changed (R408: polled at most every 1 µs). -/
def directPoke (p : Par) (s : State) : State := directGo p (2 * p.steps + 2) s

/-- Every DIRECT collective that holds a slot tried again. -/
def pokeAll (s : State) : State :=
  s.eng.colls.foldl (fun s c =>
    if c.slot.isSome ∧ c.algo = 4 then (match parOf s c with | some p => directPoke p s | none => s) else s) s

-- ---------------------------------------------------------------- the start of a collective (R403, R405-R408)

/-- RING's requirement (R405): one block, and a ring that passes the members in rank order. -/
def ringFits (s : State) (g : Group) : Bool :=
  match FMap.get none s.fab.tab.rings g.ringId, g.members.head? with
  | some r, some m =>
    let n := g.members.length
    let at_ (x : Member) : Nat := r.pos.findIdx (· = x.mid % 64)
    let ix := g.members.map at_
    let l := r.pos.length
    -- Each member stands on the ring, and the n hops from member to member go once around it.
    g.ringId < 32 && g.members.all (fun x => x.mid / 64 = m.mid / 64 && decide (at_ x < l)) &&
    decide (((List.range n).map (fun i =>
      let d := (nth ix ((i + 1) % n) + l - nth ix i) % l
      if d = 0 then l else d)).sum = l)
  | _, _ => false

/-- DIRECT's requirement: scratch of at least 64 + 2C. -/
def directFits (p : Par) : Bool := 64 + 2 * p.c ≤ p.g.scratchBytes

/-- The members lie in more than one block. -/
def manyBlocks (g : Group) : Bool :=
  match g.members.head? with | some m => g.members.any (fun x => x.mid / 64 ≠ m.mid / 64) | none => false

/-- The algorithm in use (R405, R414): none where the group does not suit it. -/
def pickAlgo (s : State) (p : Par) : Option Nat :=
  let fit (a : Nat) : Option Nat :=
    if (match a with
        | 1 => ringFits s p.g
        | 2 => meshFits p.g
        | 3 => p.g.tree && !mixedGroup p.g
        | _ => directFits p) then some a else none
  if mixedGroup p.g then
    if [1, 3, 4, 6].contains p.coll ∧ (p.coll = 6 ∨ [2, 3, 4, 0xF].contains p.fmt) then fit 4 else none
  else if p.ask ≠ 0 then fit p.ask
  else if p.g.tree ∧ manyBlocks p.g then some 3
  else if meshFits p.g ∧ 16 ≤ p.n then some 2
  else if ringFits s p.g then some 1
  else fit 4

/-- Some chunk that the member before sends on has elements. -/
def Par.fed (p : Par) (skip : Nat) : Bool := (List.range p.n).any (fun i => i != skip && decide (0 < p.size i))

/-- Members that send this one data, to which it sends RNDV_READY (R406). -/
def feeders (p : Par) : List Nat :=
  if p.n = 1 then []
  else match p.algo with
    | 1 =>
      (match p.coll with
       | 1 => if 0 < p.len then [p.pred] else []
       | 3 => if p.fed p.rank then [p.pred] else []
       | 4 => if p.rank ≠ p.root ∧ 0 < p.len then [p.pred] else []
       | 5 =>
         let done := if p.rank = p.root then (List.range p.n).filter (fun r => r ≠ p.rank && decide (0 < p.size r)) else []
         if p.fed p.pred ∧ !done.contains p.pred then p.pred :: done else done
       | 6 => [p.pred]
       | _ => if p.fed p.pred then [p.pred] else [])
    | 2 => meshPeers p
    | _ => []

/-- RNDV_READY (R389, R406). -/
def rndvPkt (s : State) (p : Par) (c : Coll) (r : Nat) : Pkt :=
  let m := p.g.members[r]?
  { opcode := 7, vc := 1, srcHalf := p.half, srcMid := p.mid, destMid := (m.map (·.mid)).getD 0,
    destHalf := (m.map (·.half)).getD .a, groupId := p.grp, groupSeq := p.seq, tag := collTag c,
    opArg := p.rank + 4096 * b2n s.start.digValid, destMask := s.start.beaconPrefix }

/-- What a member does as its slot is allocated, under RING. -/
def ringStart (s : State) (p : Par) : Except Nat Act :=
  match p.coll with
  | 3 => (srcChunk s p p.rank).map (fun l =>
      { use := l.length, wr := keepRun p (p.at_ p.rank) l, out := emitTo (some p.succ) true (p.at_ p.rank) l })
  | 4 => if p.rank = p.root then (ownElems s p 0 p.len).map (fun l =>
      { use := l.length, out := (piecesOf 65536 l.length).map (fun q => ⟨p.succ, true, q.1, (l.drop q.1).take q.2⟩) })
    else .ok {}
  | 6 => .ok { out := if p.rank = 0 then [⟨p.succ, true, 0, [0]⟩] else [] }
  | _ => (srcChunk s p p.pred).map (fun l =>
      { use := l.length, out := emitTo (some p.succ) false (p.at_ p.pred) (l.map p.widen) })

/-- The same under MESH2D: the first members of the rows start the sums; owners start what moves. -/
def meshStart (s : State) (p : Par) : Except Nat Act :=
  match p.coll with
  | 3 => (srcChunk s p p.rank).map (fun l =>
      let o := p.at_ p.rank
      { use := l.length, seen := l.length, wr := keepRun p o l,
        out := [(true, true), (true, false), (false, true), (false, false)].flatMap (fun d => emitTo (p.step d.1 d.2) true o l) })
  | 4 => if p.rank = p.root then (ownElems s p 0 p.len).map (fun l =>
      { use := l.length, seen := l.length,
        out := [(true, true), (true, false), (false, true), (false, false)].flatMap (fun d => emitTo (p.step d.1 d.2) true 0 l) })
    else .ok {}
  | _ =>
    let quarter (a b : Nat) : Except Nat Act :=
      if (p.step true (!p.goesEast a)).isSome ∨ b ≤ a then .ok {}
      else (ownElems s p a (b - a)).map (fun l =>
        { use := if p.coll = 6 then 0 else l.length, out := emitTo (p.step true (p.goesEast a)) false a (l.map p.widen) })
    match quarter 0 p.q1, quarter p.q1 p.east, quarter p.east p.q3, quarter p.q3 p.len with
    | .ok a, .ok b, .ok c, .ok d => .ok (((a.join b).join c).join d)
    | .error e, _, _, _ => .error e
    | _, .error e, _, _ => .error e
    | _, _, .error e, _ => .error e
    | _, _, _, .error e => .error e

/-- A group of one member. -/
def soloStart (s : State) (p : Par) : Except Nat Act :=
  if p.coll = 6 then .ok { seen := 1 }
  else (ownElems s p 0 p.len).map (fun l =>
    let (f, k) := if p.red then finals p (l.map p.widen) else (l, 0)
    { use := l.length, seen := l.length, wr := keepRun p 0 f, sats := k })

/-- Own elements that a member reads as its slot is allocated. -/
def startReads (p : Par) : List (Nat × Nat) :=
  let ring : List (Nat × Nat) := [(p.at_ p.pred, p.size p.pred)]
  if p.coll = 6 ∨ p.n ≠ 1 ∧ p.algo = 3 then []
  else if p.n = 1 then [(0, p.len)]
  else if p.coll = 3 then [(p.at_ p.rank, p.size p.rank)]
  else if p.coll = 4 then (if p.rank ≠ p.root then [] else if p.algo = 4 then [p.piece 0] else [(0, p.len)])
  else if p.algo = 2 then
    [(0, p.q1), (p.q1, p.east), (p.east, p.q3), (p.q3, p.len)].filterMap (fun q =>
      if (p.step true (!p.goesEast q.1)).isSome ∨ q.2 ≤ q.1 then none else some (q.1, q.2 - q.1))
  else ring

/-- DIRECT: the first chunk to send (R408). -/
def directStart (p : Par) (s : State) : State :=
  let first : Except Nat (List Nat × List (Nat × List Nat)) :=
    match p.coll with
    | 6 => .ok ([], [])
    | 3 => (srcChunk s p p.rank).map (fun l => (l, keepRun p (p.at_ p.rank) l))
    | 4 => if p.rank = p.root then (ownElems s p 0 (p.piece 0).2).map (fun l => (l, [])) else .ok ([], [])
    | _ => (srcChunk s p p.pred).map (fun l => (l, []))
  match first, (startReads p).foldl (fun s r => ownNote p r s) s with
  | .error code, s => failP p 0 code s
  | .ok (l, w), s =>
    let s := modP p (fun c => { c with step := 0, stage := 0, cur := l.flatMap (natLe p.unit) }) s
    directPoke p (doAct p { use := l.length, wr := w } s)

/-- A collective takes a slot and starts (R403, R405-R408). -/
def startColl (c : Coll) (slot : Nat) (s : State) : State :=
  match parOf s c with
  | none => s
  | some p =>
    let mixed := mixedGroup p.g
    match pickAlgo s p with
    | none => collFail c.half c.group c.seq 0 0xC s
    | some a =>
      let s := modColl c.half c.group c.seq (fun c => { c with slot := some slot, algo := a, mixed := mixed, moveAt := s.time.clk }) s
      let held := (s.eng.colls.filter (fun x => x.half = c.half && x.slot.isSome)).length
      let s := setCtr (feBlk c.half) 37 (max held (ctr s (feBlk c.half) 37)) s
      let down := mixed && (p.ask != 0 && p.ask != 4 || p.red && p.op = 0 && !p.compact)
      let s := if down then event (feBlk c.half) 5 0 0 s else s
      match coll? s c.half c.group c.seq with
      | none => s
      | some c =>
        match parOf s c with
        | none => s
        | some p =>
          let s := (feeders p).foldl (fun s r => sendColl p r false (rndvPkt s p c r) s) s
          let s' := (startReads p).foldl (fun s r => ownNote p r s) s
          let go (r : Except Nat Act) : State := match r with | .ok x => doAct p x s' | .error e => failP p 0 e s'
          if p.n = 1 then go (soloStart s p)
          else match p.algo with
            | 1 => go (ringStart s p)
            | 2 => go (meshStart s p)
            | 3 => signalDone p (pumpBatts p 8 s)
            | _ => directStart p s

/-- The key of R402: start tick, GROUP_ID, GROUP_SEQ. -/
def keyLt (a b : Coll) : Bool :=
  a.startTick < b.startTick || a.startTick = b.startTick &&
    (a.group < b.group || a.group = b.group && a.seq < b.seq)

/-- Eligible pending collectives of a half (R401, R402). -/
def eligibles (s : State) (h : Half) : List Coll :=
  s.eng.colls.filter (fun c => c.half = h && c.slot.isNone && allPosted s c &&
    decide ((group? s c.group).map (·.nextSeq) = some c.seq))

/-- The smallest of a list by key. -/
def leastColl : List Coll → Option Coll
  | [] => none
  | c :: r => match leastColl r with | some d => if keyLt d c then some d else some c | none => some c

/-- Slots of a half that are free. -/
def freeSlots (s : State) (h : Half) : List Nat :=
  (List.range 32).filter (fun i => !s.eng.colls.any (fun c => c.half = h && c.slot = some i))

/-- Window lines of SRC and DST that the host may cache are snooped first (R215). -/
def collSnoops (s : State) (c : Coll) : List Nat :=
  match part? s c.part with
  | none => []
  | some x =>
    let f (e : Option (Nat × Nat)) : List Nat :=
      match e with
      | some (_, e) => snoopLines s (.engine c.part c.half) x.ctx (decide (fld e 3 0 = 5)) (fld e 255 208) (fld e 207 176)
      | none => []
    f c.send ++ f c.recv

/-- SRC or DST of a collective lies across the bridge while it retrains (R24). -/
def collHeld (s : State) (c : Coll) : Bool :=
  match part? s c.part with
  | none => false
  | some x => [c.send, c.recv].any (fun e => match e with
    | some (_, e) => bridgeHolds s (.engine c.part c.half) x.ctx (decide (fld e 3 0 = 5)) (fld e 255 208) (fld e 207 176)
    | none => false)

/-- COLLECTIVE_SLOT_ALLOC (R402, R403, R405, R406): time passes to the start tick of the smallest key; with a free slot
that collective starts, else each that waits counts once in SLOT_WAIT. -/
def execCollectiveSlotAlloc (half : Half) (s : State) : Out :=
  .next (
    match leastColl (eligibles s half) with
    | none => s
    | some c =>
      let s := waitHalf half c.startTick s
      match freeSlots s half with
      | [] =>
        (eligibles s half).foldl (fun s d =>
          if d.waited ∨ cnt s half < d.startTick then s
          else event (feBlk half) 4 0 0 (modColl half d.group d.seq (fun x => { x with waited := true }) s)) s
      | i :: _ =>
        if collHeld s c then s
        else if collSnoops s c ≠ [] then issueSnoops (collSnoops s c) s
        else startColl c i s)

-- ---------------------------------------------------------------- data that arrives

/-- The differences that R399 looks for in a REDUCE packet. -/
def redDiffers (p : Par) (k : Pkt) : Bool :=
  let a := k.opArg
  let result := bitOf a 7
  let w := if result && !bitOf a 6 then p.unit else p.carried
  let n := if w = 0 then 1 else k.payload.length / w
  fld a 3 0 ≠ p.fmt || fld a 5 4 ≠ p.op || fld a 11 9 ≠ p.coll || fld a 15 12 ≠ p.ask ||
  (!result && bitOf a 6 != p.wide) || p.len < k.targetVa + n

/-- A REDUCE packet applied (R399, R407-R412): a packet of no collective in progress changes nothing. -/
def reduceApply (k : Pkt) (s : State) : State :=
  match coll? s k.destHalf k.groupId k.groupSeq with
  | none => s
  | some c =>
    match c.slot, parOf s c with
    | some _, some p =>
      let s := moved p s
      let result := bitOf k.opArg 7
      let wide := bitOf k.opArg 6
      let src := fld k.opArg 27 16
      if bitOf k.opArg 8 then failP p 0xFFF 0xD s
      else if redDiffers p k then failP p k.srcMid 0xA s
      else
        let xs := elems (if result && !wide then p.unit else p.carried) k.payload
        let i := k.targetVa
        if p.algo = 3 then
          if result then pumpBatts p 8 (doAct p (treePass p c.acc wide i xs) s) else s
        else if p.algo = 1 ∧ p.coll = 6 then
          let s := modP p (fun c => { c with step := c.step + 1 }) s
          if p.rank = 0 ∧ c.step = 1 then s else sendEmit p ⟨p.succ, true, 0, [0]⟩ s
        else if result then doAct p (if p.algo = 1 then ringPass p i xs else meshPass p src i xs) s
        else
          let col := decide (p.algo = 2) && decide (src / p.w ≠ p.y)
          match (if col then .ok [] else ownElems s p i xs.length : Except Nat (List Nat)),
              (if col then s else ownNote p (i, xs.length) s) with
          | .error e, s => failP p 0 e s
          | .ok own, s =>
            let a := if p.algo = 1 then ringSum p i xs own else meshSum p c.acc src i xs own
            doAct p (if p.coll = 6 then { a with use := 0 } else a) s
    | _, _ => s

/-- The REDUCE that a PUT of a finished chunk belongs to, at ROOT (R407). -/
def chunkPut (s : State) (k : Pkt) : Option Par :=
  if k.destMask ≠ 1 ∨ k.tag < 32768 then none
  else match coll? s k.destHalf k.groupId k.groupSeq with
    | some c => match parOf s c with
      | some p => if c.slot.isSome ∧ p.coll = 5 ∧ p.rank = p.root then some p else none
      | none => none
    | none => none

/-- The chunk is written into DST. -/
def chunkApply (p : Par) (k : Pkt) (s : State) : State :=
  doAct p { wr := [(k.targetVa / max 1 p.unit, elems p.unit k.payload)] } s

/-- A packet of a collective is acknowledged (R392, R401, R408). -/
def collAcked (k : Pkt) (s : State) : State :=
  match coll? s k.srcHalf k.groupId k.groupSeq with
  | none => s
  | some c =>
    if k.tag ≠ collTag c then s
    else match parOf s c with
      | none => s
      | some p =>
        let s := moved p (modP p (fun c => { c with sent := c.sent - 1 }) s)
        if k.opcode = 1 ∧ c.stage = 1 then
          let s := modP p (fun c => { c with back := c.back - 1 }) s
          if c.back = 1 then directPoke p (directAdd p p.succ 0 (modP p (fun c => { c with stage := 2 }) s)) else s
        else s

-- ---------------------------------------------------------------- completion and stall

/-- The member's part of the data path is finished. -/
def pathDone (p : Par) (c : Coll) : Bool :=
  p.need ≤ c.used && p.wants ≤ c.got && c.wait = [] && decide (c.sent = 0) &&
  (if p.n = 1 then true
   else match p.algo with
     | 1 => p.coll != 6 || c.step = 2
     | 4 => p.steps ≤ c.step
     | _ => p.len ≤ c.back)

/-- COLLECTIVE_COMPLETE (R400, R401): both entries have signalled and every packet is acknowledged: the slot frees and
NEXT_SEQ increments. -/
def execCollectiveComplete (half : Half) (slot : Nat) (s : State) : Out :=
  .next (
    match s.eng.colls.find? (fun c => c.half = half && c.slot = some slot) with
    | none => s
    | some c =>
      match parOf s c with
      | none => s
      | some p =>
        if !pathDone p c then s
        else
          let s := if c.sigS then s else match c.send with | some (_, e) => doneSignal half c.part e s | none => s
          let s := if c.sigR then s else match c.recv with | some (_, e) => doneSignal half c.part e s | none => s
          let s := count (feBlk half) 34 1 (modEng (fun e => { e with colls := e.colls.filter (· ≠ c) }) s)
          modGroup c.group (fun g => { g with nextSeq := (g.nextSeq + 1) % 2 ^ 32,
                                              ready := g.ready.filter (fun x => x.1 ≠ c.seq) }) s)

/-- COLLECTIVE_STALL (R415, R516): no progress for the collective-stall time of the partition. -/
def execCollectiveStall (half : Half) (slot : Nat) (s : State) : Out :=
  .next (
    match s.eng.colls.find? (fun c => c.half = half && c.slot = some slot) with
    | none => s
    | some c =>
      let ms := ((part? s c.part).map (·.stallMs)).getD 500
      if ms = 0 then s
      else collFail half c.group c.seq 0 0xB (waitUntil (c.moveAt + ms * 100000) s))

end Sys2Proof.Machine
end

