-- ==== Sys2Proof/Machine/Arrive.lean ====
section
/-!
DEFINITION. End-to-end delivery at the destination and at the source (R353-R362), and what each data opcode does where it
is applied (R389-R393, R406).
-/
namespace Sys2Proof.Machine

-- ---------------------------------------------------------------- receiving flows (R354-R356)

/-- The multicast flow a packet belongs to. A copy resent as unicast keeps its mask position (R353, log entry 22). -/
def mcastOf (k : Pkt) : Option Nat :=
  if k.mcast ∨ (k.vc = 4 ∧ k.destMask ≠ 0 ∧ (k.opcode = 1 ∨ k.opcode = 6)) then some k.groupId else none

/-- Is this the flow of a packet. -/
def sameFlow (k : Pkt) (f : RxFlow) : Bool :=
  f.srcMid = k.srcMid && f.srcHalf = k.srcHalf && f.destHalf = k.destHalf && f.vc = flowVc k.vc && decide (f.mcast = mcastOf k)

/-- The flow of a packet, with its place in the list; a new flow starts at SEQ 0. -/
def rxFlow (s : State) (k : Pkt) : RxFlow :=
  (s.fab.rx.find? (sameFlow k)).getD
    { srcMid := k.srcMid, srcHalf := k.srcHalf, destHalf := k.destHalf, vc := flowVc k.vc, mcast := mcastOf k }

/-- The flow of a packet, written. -/
def setFlow (k : Pkt) (f : RxFlow) (s : State) : State :=
  if s.fab.rx.any (sameFlow k) then modFab (fun x => { x with rx := x.rx.map (fun g => if sameFlow k g then f else g) }) s
  else modFab (fun x => { x with rx := x.rx ++ [f] }) s

/-- The ACK of all that a flow has applied (R356). -/
def sendAck (k : Pkt) (s : State) : State :=
  let f := rxFlow s k
  sendLoose (ackPkt s 8 f ((f.next + 2 ^ 32 - 1) % 2 ^ 32)) (setFlow k { f with unacked := 0, ackAt := none } s)

/-- An ACK that reports a refusal (R389). -/
def sendRefusal (k : Pkt) (code : Nat) (s : State) : State :=
  let f := rxFlow s k
  let a := ackPkt s 8 f k.seq
  sendLoose { a with opArg := a.opArg + 8 + 256 * code, tag := k.tag }
    (setFlow k { f with unacked := 0, ackAt := none } s)

/-- Bytes held for reordering on a half (R355). -/
def heldBytes (s : State) (h : Half) : Nat :=
  ((s.fab.rx.filter (fun f => f.destHalf = h)).map (fun f => (f.held.map (fun x => 64 * flits x.2)).sum)).sum

-- ---------------------------------------------------------------- applying (R389, R390, R392, R406)

/-- The operation in progress that a response names. -/
def opOf (s : State) (h : Half) (tag : Nat) : Option Op :=
  s.eng.ops.find? (fun o => o.half = h && o.tag = tag && !o.freed)

/-- The partition that a packet names, or the refusal (R360, R393). -/
def targetOf (s : State) (k : Pkt) : Except Nat (Nat × Part) :=
  match group? s k.groupId with
  | none => .error 4
  | some g =>
    match part? s g.part with
    | none => .error 1
    | some p => if p.fence.isSome then .error 1 else .ok (g.part, p)

/-- The local range that a packet reads or writes: context, address, bytes. -/
def reach (s : State) (k : Pkt) : Option (Nat × Nat × Nat) :=
  match targetOf s k with
  | .error _ => none
  | .ok (_, p) =>
    match k.opcode with
    | 1 => some (p.ctx, k.targetVa, k.payload.length)
    | 2 => some (p.ctx, k.targetVa, fld k.opArg 12 0)
    | 4 => some (p.ctx, k.targetVa, if k.opArg % 4 = 2 then 4 else 8)
    | 3 => (opOf s k.destHalf k.tag).map (fun o => (p.ctx, fld o.entry 255 208 + (k.targetVa - fld o.entry 207 160), k.payload.length))
    | 5 => (opOf s k.destHalf k.tag).map (fun o => (p.ctx, fld o.entry 255 208, if fld o.entry 67 66 = 2 then 4 else 8))
    | _ => none

/-- The packet writes the local range that it reaches. -/
def reachWrites (k : Pkt) : Bool := k.opcode != 2

/-- Window lines that the packet reaches and that the host may cache (R215). -/
def pktSnoops (s : State) (k : Pkt) : List Nat :=
  if k.opcode = 6 ∨ (chunkPut s k).isSome then
    (match coll? s k.destHalf k.groupId k.groupSeq with | some c => collSnoops s c | none => [])
  else match targetOf s k, reach s k with
    | .ok (pi, _), some (cx, va, n) => snoopLines s (.engine pi k.destHalf) cx (reachWrites k) va n
    | _, _ => []

/-- The packet's access crosses the bridge while it retrains (R24). -/
def pktHeld (s : State) (k : Pkt) : Bool :=
  if k.opcode = 6 ∨ (chunkPut s k).isSome then
    (match coll? s k.destHalf k.groupId k.groupSeq with | some c => collHeld s c | none => false)
  else match targetOf s k, reach s k with
    | .ok (pi, _), some (cx, va, n) => bridgeHolds s (.engine pi k.destHalf) cx (reachWrites k) va n
    | _, _ => false

/-- The first line of a write that fails. -/
def badLine (s : State) (ag : Agent) (cx : Nat) (env : MemEnv) (va n : Nat) : Option Fail :=
  (linesOf va n).findSome? (fun x => match lineAt s ag cx env true x.1 (splitsWord x.1 x.2) with | .error e => some e | .ok _ => none)

/-- What the lines of a write that is refused leave, up to the one that fails; no byte is written. -/
def refusedNote (ag : Agent) (cx : Nat) (env : MemEnv) : List (Nat × Nat) → State → State
  | [], s => s
  | (va, n) :: r, s =>
    let s' := lineNote ag cx env true va n s
    match lineAt s ag cx env true va (splitsWord va n) with
    | .error _ => s'
    | .ok _ => refusedNote ag cx env r s'

/-- Refusal code of a failed access at the target (R393). -/
def refCode (f : Fail) : Nat := if f.code = 8 ∨ f.code = 0x11 then 3 else 2

/-- A response to a request: same TAG, group and address, on VC1; on VC7 to a request on VC7, in a mixed group, and where
the route to the requester crosses BL1 (R361, R388). -/
def respPkt (s : State) (k : Pkt) : Pkt :=
  let e := routeEntry s k.srcMid
  let mixed : Bool := match group? s k.groupId with | some g => mixedGroup g | none => false
  { vc := if k.vc = 7 ∨ mixed ∨ bitOf e 29 ∨ bitOf e 28 then 7 else 1, srcHalf := k.destHalf, destHalf := k.srcHalf,
    srcMid := s.ident.mid, destMid := k.srcMid, targetVa := k.targetVa, tag := k.tag, groupId := k.groupId }

/-- The sum that an ATOMIC stores, by AFMT (R390). -/
def atomicSum (fmt old operand : Nat) : Nat :=
  match fmt with
  | 1 => (fp64.round 0 false 0 (Num.add (fp64.decode old) (fp64.decode operand))).code
  | 2 => (fp32.round 0 false 0 (Num.add (fp32.decode old) (fp32.decode (operand % 2 ^ 32)))).code
  | _ => (old + operand) % 2 ^ 64

/-- A PUT at its target: all of its bytes or a refusal; then the bump (R390). -/
def applyPut (pi : Nat) (p : Part) (k : Pkt) (s : State) : State × Option Nat :=
  let ag : Agent := .engine pi k.destHalf
  match badLine s ag p.ctx {} k.targetVa k.payload.length with
  | some f => (refusedNote ag p.ctx {} (linesOf k.targetVa k.payload.length) s, some (refCode f))
  | none =>
    let s := (writeVa ag p.ctx {} k.targetVa k.payload s).1
    (if bitOf k.opArg 0 ∧ bitOf k.opArg 1 then counterCycle k.destHalf pi (fld k.opArg 10 2) [] [1] s else s, none)

/-- A GET_REQ at its target. -/
def applyGet (env : MemEnv) (pi : Nat) (p : Part) (k : Pkt) (s : State) : State × Option Nat :=
  let ag : Agent := .engine pi k.destHalf
  let n := fld k.opArg 12 0
  match readVa s ag p.ctx env k.targetVa n, readNote ag p.ctx env k.targetVa n s with
  | (_, some f), s => (s, some (refCode f))
  | (b, none), s => (sendOwn { respPkt s k with opcode := 3, opArg := k.opArg, payload := b } s, none)

/-- An ATOMIC at its target. -/
def applyAtomic (env : MemEnv) (pi : Nat) (p : Part) (k : Pkt) (s : State) : State × Option Nat :=
  let ag : Agent := .engine pi k.destHalf
  let fmt := k.opArg % 4
  let n := if fmt = 2 then 4 else 8
  match readVa s ag p.ctx env k.targetVa n, readNote ag p.ctx env k.targetVa n s with
  | (_, some f), s => (s, some (refCode f))
  | (b, none), s =>
    match badLine s ag p.ctx {} k.targetVa n with
    | some f => (refusedNote ag p.ctx {} (linesOf k.targetVa n) s, some (refCode f))
    | none =>
      let s := (writeVa ag p.ctx {} k.targetVa (natLe n (atomicSum fmt (leNat b) (leNat k.payload))) s).1
      (if bitOf k.opArg 2 then sendOwn { respPkt s k with opcode := 5, payload := natLe 8 (leNat b) } s else s, none)

/-- Response data written locally for an operation (R392). A response for an abandoned operation is discarded (R521). -/
def applyResp (pi : Nat) (k : Pkt) (s : State) : State :=
  match opOf s k.destHalf k.tag, reach s k with
  | some o, some (cx, va, n) =>
    if o.part ≠ pi then s
    else
      let (s, _, f) := writeVa (.engine pi k.destHalf) cx {} va (sliceB k.payload 0 n) s
      match f with
      | some f => opFail k.destHalf k.tag 0 (localCode f) s
      | none => modOp k.destHalf k.tag (fun o => { o with left := o.left - n }) s
  | _, _ => s

/-- RNDV_READY: the waiting packets leave; digest prefixes are compared outside mixed groups (R406, R414, R551). -/
def applyRndv (k : Pkt) (s : State) : State :=
  let r := fld k.opArg 11 0
  let s := modGroup k.groupId (fun g => { g with ready := if g.ready.contains (k.groupSeq, r) then g.ready else g.ready ++ [(k.groupSeq, r)] }) s
  let mixed : Bool := match group? s k.groupId with | some g => mixedGroup g | none => true
  let s :=
    if mixed ∨ !bitOf k.opArg 12 ∨ !s.start.digValid then s
    else
      let bad := decide (k.destMask ≠ s.start.beaconPrefix)
      let s := setDigBit k.destHalf (k.srcMid % 4096) bad s
      if bad then event (feBlk k.destHalf) 6 0 0 s else s
  match coll? s k.destHalf k.groupId k.groupSeq with
  | none => s
  | some c => match parOf s c with | some p => flushWait p r (moved p s) | none => s

/-- A PUT or an ATOMIC of a collective received is progress of it (R415). -/
def collTouched (k : Pkt) (s : State) : State :=
  if k.tag < 32768 then s else modColl k.destHalf k.groupId k.groupSeq (fun c => { c with moveAt := s.time.clk }) s

/-- A packet applied (R355, R390): the refusal code, if it is refused. -/
def applyPkt (env : MemEnv) (k : Pkt) (s : State) : State × Option Nat :=
  match targetOf s k with
  | .error c => (s, some c)
  | .ok (pi, p) =>
    let s := count (feBlk k.destHalf) 36 k.payload.length s
    let s := if k.opcode = 1 ∨ k.opcode = 4 then collTouched k s else s
    match k.opcode with
    | 1 => (match chunkPut s k with
      | some q => (chunkApply q k s, none)
      | none => let r := applyPut pi p k s; (pokeAll r.1, r.2))
    | 2 => applyGet env pi p k s
    | 3 => (applyResp pi k s, none)
    | 4 => let r := applyAtomic env pi p k s; (pokeAll r.1, r.2)
    | 5 => (applyResp pi k s, none)
    | 6 => (reduceApply k s, none)
    | 7 => (applyRndv k s, none)
    | 0xC => (counterCycle k.destHalf pi (k.targetVa % 512) [] [k.opArg] s, none)
    | _ => (s, none)

/-- The packets of a flow that form an unbroken run are applied (R355) and acknowledged after every eighth (R356). One
that reaches window lines the host may cache waits for their snoops (R215), one that crosses the bridge for its retrain
(R24). -/
def runFlow (env : MemEnv) (k : Pkt) : Nat → State → State
  | 0, s => s
  | n + 1, s =>
    let f := rxFlow s k
    match f.held.find? (fun x => x.2.seq = f.next) with
    | none => setFlow k { f with gapAt := if f.held = [] then none else f.gapAt.or (some s.time.clk) } s
    | some (p, x) =>
      if pktHeld s x then s
      else if pktSnoops s x ≠ [] then issueSnoops (pktSnoops s x) s
      else
        let s := setFlow k { f with held := f.held.erase (p, x), next := (f.next + 1) % 2 ^ 32, unacked := f.unacked + 1,
                                    ackAt := f.ackAt.or (some s.time.clk), gapAt := none, nackAt := none } s
        let (s, r) := applyPkt env x s
        let s := match r with
          | some c => sendRefusal x c s
          | none => if 8 ≤ (rxFlow s k).unacked then sendAck k s else s
        runFlow env k n s

/-- The BL1 busy acknowledgement of a VC7 packet that cannot be taken (R362). Its BL1 form is not given: OP_ARG[16] marks it
(log 114). -/
def sendBusy (k : Pkt) (s : State) : State :=
  let a := ackPkt s 8 (rxFlow s k) k.seq
  sendLoose { a with opArg := a.opArg + 65536 } s

/-- A packet arrives at its destination (R355). -/
def arrive (op : Nat) (p : Nat) (k : Pkt) (env : MemEnv) (s : State) : State :=
  let own := s.ident.mid
  let forUs := if k.mcast then decide (k.destMid / 64 = own / 64) && bitOf k.destMask (own % 64) else decide (k.destMid = own)
  if k.opcode ≠ op ∨ !forUs ∨ !s.power.rails ∨ s.ident.variant = .s then s
  else if !k.crcOk then portEvent p 6 (count (0x80 + p) 33 1 s)
  else
    let f := rxFlow s k
    let d := (k.seq + 2 ^ 32 - f.next) % 2 ^ 32
    if 2 ^ 31 ≤ d then sendAck k s
    else if d = 0 ∨ (d ≤ 255 ∧ heldBytes s k.destHalf + 64 * flits k ≤ 2 ^ 22) then
      if f.held.any (fun x => x.2.seq = k.seq) then runFlow env k 256 s
      else runFlow env k 256 (setFlow k { f with held := f.held ++ [(p, k)] } s)
    else
      let s := count (0x80 + p) 35 1 s
      if k.vc = 7 then sendBusy k s else s

/-- PUT_ARRIVE (R355, R389, R390). -/
def execPutArrive (p : Fin 64) (pkt : Pkt) (s : State) : Out := .next (arrive 1 p pkt {} s)

/-- GET_REQ_ARRIVE (R389). -/
def execGetReqArrive (p : Fin 64) (pkt : Pkt) (env : MemEnv) (s : State) : Out := .next (arrive 2 p pkt env s)

/-- GET_RESP_ARRIVE (R392). -/
def execGetRespArrive (p : Fin 64) (pkt : Pkt) (s : State) : Out := .next (arrive 3 p pkt {} s)

/-- ATOMIC_ARRIVE (R390). -/
def execAtomicArrive (p : Fin 64) (pkt : Pkt) (env : MemEnv) (s : State) : Out := .next (arrive 4 p pkt env s)

/-- ATOMIC_RESP_ARRIVE (R392). -/
def execAtomicRespArrive (p : Fin 64) (pkt : Pkt) (s : State) : Out := .next (arrive 5 p pkt {} s)

/-- REDUCE_ARRIVE (R399, R407-R412). -/
def execReduceArrive (p : Fin 64) (pkt : Pkt) (s : State) : Out := .next (arrive 6 p pkt {} s)

/-- RNDV_READY_ARRIVE (R406). -/
def execRndvReadyArrive (p : Fin 64) (pkt : Pkt) (s : State) : Out := .next (arrive 7 p pkt {} s)

/-- COUNTER_ADD_ARRIVE (R390). -/
def execCounterAddArrive (p : Fin 64) (pkt : Pkt) (s : State) : Out := .next (arrive 0xC p pkt {} s)

/-- ACK_TIMER (R356): 1 µs after the oldest application not acknowledged. -/
def execAckTimer (flow : Nat) (s : State) : Out :=
  .next (
    match s.fab.rx[flow]? with
    | none => s
    | some f =>
      match f.ackAt with
      | none => s
      | some t =>
        let s := waitUntil (t + 100) s
        let s := modFab (fun x => { x with rx := modNth x.rx flow (fun f => { f with unacked := 0, ackAt := none }) }) s
        sendLoose (ackPkt s 8 f ((f.next + 2 ^ 32 - 1) % 2 ^ 32)) s)

/-- SEQ_GAP_NACK (R356): a gap of 2 µs, at most one NACK every 20 µs. -/
def execSeqGapNack (flow : Nat) (s : State) : Out :=
  .next (
    match s.fab.rx[flow]? with
    | none => s
    | some f =>
      match f.gapAt with
      | none => s
      | some t =>
        let s := waitUntil (max (t + 200) ((f.nackAt.map (· + 2000)).getD 0)) s
        let s := modFab (fun x => { x with rx := modNth x.rx flow (fun f => { f with nackAt := some s.time.clk }) }) s
        let s := match f.held.head? with | some (p, _) => count (0x80 + p) 34 1 s | none => s
        sendLoose (ackPkt s 9 f f.next) s)

-- ---------------------------------------------------------------- the source (R356-R358, R362)

/-- A kept packet goes to one position of a multicast packet: a copy resent as unicast (R353). -/
def isCopy (k : Pkt) : Bool := !k.mcast && k.vc = 4 && k.destMask != 0 && (k.opcode = 1 || k.opcode = 6)

/-- Is a kept packet of the flow that an acknowledgement names. -/
def ackedFlow (k : Pkt) (r : Resend) : Bool :=
  r.pkt.srcHalf = k.destHalf && r.pkt.destHalf = k.srcHalf && flowVc r.pkt.vc = flowVc (k.opArg % 8) &&
  (if k.destMask = 1 then
     r.pkt.groupId = k.groupId && (r.pkt.mcast && bitOf r.waiting (k.srcMid % 64) || isCopy r.pkt && r.pkt.destMid = k.srcMid)
   else !r.pkt.mcast && !isCopy r.pkt && r.pkt.destMid = k.srcMid)

/-- The operation or collective that sent a packet fails (R394, R415). -/
def ownerFail (k : Pkt) (peer code : Nat) (s : State) : State :=
  match k.opcode with
  | 3 => s
  | 5 => s
  | _ => if 32768 ≤ k.tag then collFail k.srcHalf k.groupId k.groupSeq peer code s else opFail k.srcHalf k.tag peer code s

/-- An event and a counter at the port of sending, where there was one; `inj`: an injection caused it (R501). -/
def atPort (p ctrIdx bit : Nat) (inj : Bool) (s : State) : State :=
  if p < 64 then eventG inj (portHalf p) (0x80 + p) bit 0 (port s p).peerMid (count (0x80 + p) ctrIdx 1 s) else s

/-- Positions of the same multicast packet are still kept. -/
def othersKept (k : Pkt) (s : State) : Bool :=
  (k.mcast || isCopy k) && s.fab.resend.any (fun r =>
    (r.pkt.mcast || isCopy r.pkt) && r.pkt.srcHalf = k.srcHalf && r.pkt.groupId = k.groupId && r.pkt.seq = k.seq)

/-- A kept packet is acknowledged: its buffer frees, a first resend that cleared the fault counts, and its sender goes on
(R356-R358, R392), a multicast one once every position has acknowledged it (R353). -/
def freeResend (r : Resend) (s : State) : State :=
  let s := modFab (fun f => { f with resend := f.resend.filter (· ≠ r) }) s
  let s := if r.resends = 1 then atPort r.port 28 4 r.inj s else s
  if [3, 5].contains r.pkt.opcode ∨ othersKept r.pkt s then s
  else if 32768 ≤ r.pkt.tag then collAcked r.pkt s
  else modOp r.pkt.srcHalf r.pkt.tag (fun o => { o with acks := o.acks - 1 }) s

/-- An acknowledgement of one kept packet: a refusal fails its operation, whatever other positions still wait (R360,
R389). -/
def ackOne (k : Pkt) (r : Resend) (s : State) : State :=
  let refused := bitOf k.opArg 3 && r.pkt.seq = k.seq && r.pkt.tag = k.tag
  let s := if refused then ownerFail r.pkt k.srcMid (fld k.opArg 15 8) s else s
  let left := r.waiting - (if r.pkt.mcast then 2 ^ (k.srcMid % 64) else 0)
  if r.pkt.mcast ∧ left ≠ 0 then
    modFab (fun f => { f with resend := f.resend.map (fun x => if x = r then { r with waiting := left } else x) }) s
  else if refused then modFab (fun f => { f with resend := f.resend.filter (· ≠ r) }) s
  else freeResend r s

/-- ACK_ARRIVE (R353, R356-R358, R389): cumulative. -/
def execAckArrive (p : Fin 64) (pkt : Pkt) (s : State) : Out :=
  .next (
    if pkt.opcode ≠ 8 ∨ pkt.destMid ≠ s.ident.mid ∨ bitOf pkt.opArg 16 then s
    else if !pkt.crcOk then portEvent p 6 (count (0x80 + p.val) 33 1 s)
    else
      let hit := s.fab.resend.filter (fun r => ackedFlow pkt r && decide ((pkt.seq + 2 ^ 32 - r.pkt.seq % 2 ^ 32) % 2 ^ 32 < 2 ^ 31))
      pumpTx (hit.foldl (fun s r => ackOne pkt r s) s))

/-- A packet is sent again (R357): routed afresh, kept by the port it leaves by. -/
def sendAgain (r : Resend) (s : State) : State :=
  (routeOwn r.pkt (modFab (fun f => { f with resend := f.resend ++ [{ r with port := 64, sentAt := s.time.clk, busy := false }] }) s)).1

/-- A NACK or a timeout of a kept packet: resent; then lasting, with the path marked and ALT set; then failed (R358). -/
def resendStep (r : Resend) (s : State) : State :=
  let s := modFab (fun f => { f with resend := f.resend.filter (· ≠ r) }) s
  if r.busy then sendAgain r s
  else match r.resends with
    | 0 => sendAgain { r with resends := 1 } s
    | 1 =>
      let s := setPathBad r.pkt.srcHalf r.pkt.destMid (atPort r.port 29 5 r.inj s)
      if ! [2, 3].contains r.pkt.vc ∧ fld (routeEntry s r.pkt.destMid) 23 16 ≠ 255 then
        sendAgain { r with resends := 2, pkt := { r.pkt with alt := true } } s
      else pumpTx (ownerFail r.pkt r.pkt.destMid 5 s)
    | _ => pumpTx (ownerFail r.pkt r.pkt.destMid 5 s)

/-- The same for a position of a kept packet: of a multicast one, it goes on as a unicast copy of its own with the same SEQ
(R353). -/
def resendAt (r : Resend) (i : Nat) (s : State) : State :=
  if !r.pkt.mcast then resendStep r s
  else
    let left := if bitOf r.waiting i then r.waiting - 2 ^ i else r.waiting
    let s := modFab (fun f => { f with resend := f.resend.flatMap (fun x =>
      if x.pkt = r.pkt ∧ x.pkt.mcast then (if left = 0 then [] else [{ x with waiting := left }]) else [x]) }) s
    let k : Pkt := { r.pkt with mcast := false, destMid := r.pkt.destMid / 64 * 64 + i, destMask := 2 ^ i }
    resendStep { r with waiting := 0, pkt := k } s

/-- Every position that a kept packet still waits for. -/
def resendAll (r : Resend) (s : State) : State :=
  if !r.pkt.mcast then resendStep r s
  else (bitsOf r.waiting 64).foldl (fun s i =>
    match s.fab.resend.find? (fun x => x.pkt = r.pkt && x.pkt.mcast) with
    | some x => resendAt x i s
    | none => s) s

/-- NACK_ARRIVE (R353, R357, R358). -/
def execNackArrive (p : Fin 64) (pkt : Pkt) (s : State) : Out :=
  .next (
    if pkt.opcode ≠ 9 ∨ pkt.destMid ≠ s.ident.mid then s
    else if !pkt.crcOk then portEvent p 6 (count (0x80 + p.val) 33 1 s)
    else match s.fab.resend.find? (fun r => ackedFlow pkt r && r.pkt.seq = pkt.seq) with
      | some r => resendAt r (pkt.srcMid % 64) s
      | none => s)

/-- RESEND_TIMEOUT (R357, R358): 20 µs after the last sending of the i-th kept packet. -/
def execResendTimeout (i : Nat) (s : State) : Out :=
  .next (
    match s.fab.resend[i]? with
    | some r => resendAll r (waitUntil (r.sentAt + 2000) s)
    | none => s)

/-- BL1_BUSY_ACK (R362): the VC7 packet is resent 20 µs later, outside the classes of R358. -/
def execBl1BusyAck (p : Fin 64) (pkt : Pkt) (s : State) : Out :=
  .next (
    let _ := p
    modFab (fun f => { f with resend := f.resend.map (fun r =>
      if r.pkt.vc = 7 ∧ r.pkt.destMid = pkt.srcMid ∧ r.pkt.srcHalf = pkt.destHalf ∧ r.pkt.destHalf = pkt.srcHalf ∧
          r.pkt.seq = pkt.seq then { r with busy := true, sentAt := s.time.clk } else r) }) s)

end Sys2Proof.Machine
end

