-- ==== Sys2Proof/Machine/Trace.lean ====
section
/-!
DEFINITION. Observation: control-core trace (R563-R571), counters (R572-R576), tensor taps (R577-R580) and injection
(R499-R501).
-/
namespace Sys2Proof.Machine

-- ---------------------------------------------------------------- trace rings (R564, R568)

/-- First byte of a half-local region (R196). -/
def halfLocal (h : Half) : Nat := match h with | .a => 0x8C00000000 | .b => 0x8E00000000

/-- Records of the ring in force. -/
def ringRecords (t : Trace) : Nat := t.ringMib * 65536

/-- Records that the encoder may still write in the present interval of 1,000 ticks (R568). -/
def traceRoom (s : State) (h : Half) : Nat :=
  let t := tr s h
  if t.intv = cnt s h / 1000 then 184320 - t.written else 184320

/-- One record becomes visible in the ring, through port 7 (R564, R568, R574). -/
def ringWrite (h : Half) (r : Nat) (s : State) : State :=
  let t := tr s h
  let n := cnt s h / 1000
  let s := putOwn (.host h) (halfLocal h + 0x100000000 + t.write % ringRecords t * 16) (natLe 16 r) s
  let s := modTr h (fun t => { t with write := t.write + 1, intv := n, written := if t.intv = n then t.written + 1 else 1 }) s
  count (8 + h.num) 32 1 s

/-- Records leave the FIFO for the ring while the interval's allowance lasts (R568). -/
def traceFlow (h : Half) (s : State) : State :=
  let t := tr s h
  let k := if ringRecords t = 0 then 0 else min t.fifo.length (traceRoom s h)
  let s := (t.fifo.take k).foldl (fun s r => ringWrite h r s) s
  modTr h (fun t => { t with fifo := t.fifo.drop k }) s

/-- The FIFO drained, in the next interval where this one's allowance is spent. -/
def traceDrain (h : Half) (s : State) : State :=
  let s := traceFlow h s
  if (tr s h).fifo = [] then s else traceFlow h (waitHalf h ((cnt s h / 1000 + 1) * 1000) s)

/-- A SYNC record of a core (R566). -/
def syncRec (s : State) (h : Half) (core pc : Nat) : Nat := 1 + 32 * core + 2 ^ 7 * (pc / 2 % 2 ^ 57) + 2 ^ 64 * cnt s h

/-- A core's place in a list of four. -/
def setCore {α : Type} (l : List α) (c : Nat) (v : α) : List α := l.set c v

/-- A record takes an unreserved place of the FIFO, or is discarded with the core's later ones (R569). -/
def tracePut (h : Half) (core r : Nat) (isSync : Bool) (s : State) : State :=
  let t := tr s h
  if t.lost.getD core false ∨ 4091 ≤ t.fifo.length then
    count (8 + h.num) 33 1 (modTr h (fun t => { t with lost := setCore t.lost core true, dropped := t.dropped + 1 }) s)
  else
    traceFlow h (modTr h (fun t => { t with
      fifo := t.fifo ++ [r], sinceSync := setCore t.sinceSync core (if isSync then 0 else nth t.sinceSync core + 1) }) s)

/-- A SYNC of a core at a PC. -/
def putSync (h : Half) (core pc : Nat) (s : State) : State := tracePut h core (syncRec s h core pc) true s

/-- The next instruction's PC, where the trace event does not give it, is the core's own affair: a free value. -/
def putSyncFree (h : Half) (core : Nat) (s : State) : State := putSync h core (freshNat 60 s % 2 ^ 58) (takeFree s)

/-- The pending branch outcomes of a core as a BRANCH record (R567). -/
def flushBranch (h : Half) (core : Nat) (s : State) : State :=
  let t := tr s h
  let n := nth t.bcnt core
  if n = 0 then s
  else
    let r := 2 + 32 * core + 2 ^ 7 * n + 2 ^ 16 * nth t.bmap core
    tracePut h core r false (modTr h (fun t => { t with bmap := t.bmap.set core 0, bcnt := t.bcnt.set core 0 }) s)

/-- A SYNC falls due after 256 records of the core that are not SYNC (R567). -/
def dueSync (h : Half) (core : Nat) (s : State) : State :=
  if 256 ≤ nth (tr s h).sinceSync core then putSyncFree h core s else s

/-- TRACE_RECORD (R566, R567, R569): an event of a running core while capture is on. -/
def execTraceRecord (half : Half) (core : Fin 4) (ev : TraceEvent) (s : State) : Out :=
  .next (
    let c := core.val
    let low (s : State) : Nat := 2 ^ 96 * (cnt s half % 2 ^ 32)
    if !(tr s half).capture ∨ (mon s half).halted then s
    else match ev with
      | .branch taken =>
        let t := tr s half
        let n := nth t.bcnt c
        let s := modTr half (fun t => { t with bmap := t.bmap.set c (nth t.bmap c + b2n taken * 2 ^ n),
                                               bcnt := t.bcnt.set c (n + 1) }) s
        if n + 1 = 112 then dueSync half c (flushBranch half c s) else s
      | .indirect pc =>
        let s := flushBranch half c s
        let s := tracePut half c (3 + 32 * c + 2 ^ 7 * (pc / 2 % 2 ^ 57) + 2 ^ 64 * (cnt s half % 2 ^ 32)) false s
        if 256 ≤ nth (tr s half).sinceSync c then putSync half c pc s else s
      | .exception int cause pc =>
        let s := flushBranch half c s
        let r := 4 + 32 * c + 2 ^ 7 * (pc / 2 % 2 ^ 57) + 2 ^ 64 * (cause % 65536) + 2 ^ 80 * b2n int + low s
        putSyncFree half c (tracePut half c r false s)
      | .frameSync pc => putSync half c pc (flushBranch half c s))

/-- CRUMB and SYNCs, for which five places are kept (R569). -/
def crumb (h : Half) (pcs : List Nat) (s : State) : State :=
  let t := tr s h
  let cores := (List.range 4).filter (fun c => t.lost.getD c false)
  if cores = [] ∨ 4096 < t.fifo.length + 1 + cores.length then s
  else
    let map := (cores.map (fun c => 2 ^ c)).sum
    let r := 5 + 2 ^ 8 * map + 2 ^ 32 * min t.dropped 0xFFFFFFFF + 2 ^ 64 * cnt s h
    let s := modTr h (fun t => { t with
      fifo := t.fifo ++ (r :: cores.map (fun c => syncRec s h c (pcs.getD c 0))), lost := [false, false, false, false],
      dropped := 0, sinceSync := (List.range 4).map (fun c => if cores.contains c then 0 else nth t.sinceSync c) }) s
    traceFlow h (count (8 + h.num) 34 1 s)

/-- TRACE_CRUMB (R569). -/
def execTraceCrumb (half : Half) (pcs : List Nat) (s : State) : Out :=
  .next (if (tr s half).capture then crumb half pcs (traceFlow half s) else s)

/-- A MARK (R566), which belongs to no core. -/
def putMark (h : Half) (stop : Bool) (s : State) : State :=
  traceFlow h (modTr h (fun t => { t with fifo := t.fifo ++ [6 + 256 * b2n stop + 2 ^ 64 * cnt s h] }) s)

/-- Capture starts on a half (R565, R567). -/
def startCapture (h : Half) (s : State) : State :=
  if (tr s h).capture ∨ (tr s h).ringMib = 0 then s
  else
    let s := modTr h (fun t => { t with
      capture := true, fifo := [], dropped := 0, lost := [false, false, false, false], bmap := [0, 0, 0, 0],
      bcnt := [0, 0, 0, 0], sinceSync := [0, 0, 0, 0] }) s
    let s := putMark h false s
    if (mon s h).halted then s else (List.range 4).foldl (fun s c => putSyncFree h c s) s

/-- Capture stops on a half: FIFO drained, records lost are told, closing MARK (R565, R567). -/
def stopCapture (h : Half) (s : State) : State :=
  if !(tr s h).capture then s
  else
    let s := traceDrain h s
    let s := if (tr s h).lost.any id then crumb h ((List.range 4).map (fun i => Config.freeNat 61 (s.free + i) % 2 ^ 58)) (takeFree s) else s
    let s := traceDrain h (putMark h true s)
    modTr h (fun t => { t with capture := false }) s

/-- Both encoders stop, and a pending size takes effect (R564, R565). -/
def stopTrace (s : State) : State :=
  let s := stopCapture .b (stopCapture .a s)
  match s.trA.sizePend with | some m => newRing m s | none => s

/-- TRACE_OPEN (R68, R565): a dispatched entry of action 0x03. -/
def execTraceOpen (s : State) : Out :=
  .next (match takeDispatch 3 s with | some (_, s) => startCapture .b (startCapture .a s) | none => s)

/-- TRACE_CLOSE (R565). -/
def execTraceClose (s : State) : Out :=
  .next (match takeDispatch 4 s with | some (_, s) => stopTrace s | none => s)

/-- ARG of an entry, written once the other entry's HANDLE is known (R64). -/
def setArg (i a : Nat) (s : State) : State := setSched i { sched s i with arg := a } s

/-- TRACE_CTL_WINDOW (R313, R564, R565, R610): OP 0, and the check of OP. -/
def execTraceCtlWindow (mb : Fin 128) (s : State) : Out :=
  .next (runCmd 0x801 (fun pl => decide (numAt pl 0 1 ≠ 1 ∧ numAt pl 0 1 ≠ 2)) (fun _ _ pl _ s =>
    let o := numAt pl 8 8
    let c := numAt pl 16 8
    let rt := if o = 0 then now s else o
    if numAt pl 0 1 ≠ 0 then badArg 0 s
    else if s.trA.ringMib = 0 then badArg 0 s
    else if o ≠ 0 ∧ o < now s + 1000 then badArg 8 s
    else if c ≠ 0 ∧ c < now s + 1000 then badArg 16 s
    else if c ≠ 0 ∧ c ≤ rt then badArg 8 s
    else if isStopped s 5 then refuse stStopped 0 s
    else match freeFrom s 5 27 with
      | none => refuse stNoResource 0 s
      | some i =>
        if c = 0 then
          let s := schedPut i rt 3 0 0 (o = 0) 0 s
          okRep (natLe 4 (handleOf s i) ++ natLe 4 0) s
        else match freeFrom s (i + 1) (31 - i) with
          | none => refuse stNoResource 0 s
          | some j =>
            let s := schedPut j c 4 0 0 false 0 (schedPut i rt 3 0 0 (o = 0) 0 s)
            let s := setArg j (handleOf s i) (setArg i (handleOf s j) s)
            okRep (natLe 4 (handleOf s i) ++ natLe 4 (handleOf s j)) s) mb s)

/-- TRACE_CTL_CLOSE_ALL (R313, R565). -/
def execTraceCtlCloseAll (mb : Fin 128) (s : State) : Out :=
  .next (runCmd 0x801 (fun pl => numAt pl 0 1 = 1) (fun _ _ _ _ s =>
    if isStopped s 5 then refuse stStopped 0 s
    else okRep (natLe 8 0) (stopTrace (schedEndAll 4 (fun _ e => e.action = 3 || e.action = 4) s))) mb s)

/-- TRACE_CTL_RING_SIZE (R547, R564, R565). -/
def execTraceCtlRingSize (mb : Fin 128) (flash : Retry) (s : State) : Out :=
  .next (runCmd 0x801 (fun pl => numAt pl 0 1 = 2) (fun _ _ pl _ s =>
    let m := numAt pl 4 4
    if 1024 < m then badArg 4 s
    else if isStopped s 5 then refuse stStopped 0 s
    else match recordSettings flash [(0x0501, natLe 4 m)] s with
      | (false, s) => refuse stAborted 0 s
      | (true, s) => okRep (natLe 8 0) (ringSize m s)) mb s)

-- ---------------------------------------------------------------- taps (R577-R580)

/-- The tap in a slot. -/
def tapAt (s : State) (i : Nat) : Option Tap := FMap.get none s.taps i

/-- The same, written. -/
def setTap (i : Nat) (t : Option Tap) (s : State) : State := { s with taps := FMap.set none s.taps i t }

/-- First byte of a slot's buffer of 128 MiB (R578). -/
def tapBase (i : Nat) : Nat := halfLocal (if i < 8 then .a else .b) + 0x140000000 + 0x8000000 * (i % 8)

/-- The lowest free slot, first on the half that holds more of the clusters (R578). -/
def tapSlot (s : State) (p : Part) : Option Nat :=
  let b := (p.clusters.filter (fun c => clHalf c = .b)).length
  let free (i : Nat) : Bool := (tapAt s i).isNone
  let lo := (List.range 8).find? free
  let hi := ((List.range 8).map (· + 8)).find? free
  if p.clusters.length < 2 * b then hi.or lo else lo.or hi

/-- The recipe of a partition's latest accepted launch (R577). -/
def latestRecipe (s : State) (p : Part) : Option Recipe :=
  match p.recent with
  | [] => none
  | (_, id) :: _ =>
    match launch? s p.ctx id, ctx? s p.ctx with
    | some l, some c => FMap.get none c.recipes l.recipe
    | _, _ => none

/-- The partition of a context that a payload names. -/
def partOf (s : State) (cx i : Nat) : Option Part :=
  match part? s i with | some p => if p.ctx = cx then some p else none | none => none

/-- TAP_ARM (R315, R577). -/
def execTapArm (mb : Fin 128) (s : State) : Out :=
  .next (runOp 0x802 (fun _ h pl _ s =>
    let pi := numAt pl 0 1
    let sym := numAt pl 4 4
    let step := numAt pl 8 4
    let rt := numAt pl 16 8
    match partOf s h.ctx pi with
    | none => badArg 0 s
    | some p =>
      match latestRecipe s p with
      | none => badArg 0 s
      | some r =>
        match r.syms[sym]? with
        | none => badArg 4 s
        | some y =>
          if !y.1 then badArg 4 s
          else if rt ≠ 0 ∧ rt < now s + 1000 then badArg 16 s
          else if p.fence.isSome then refuse stFenced 0 s
          else if s.taps.any (fun x => match x.2 with | some t => t.part = pi && t.sym = sym | none => false) then
            refuse stBusy 2 s
          else match tapSlot s p, freeFrom s 5 27 with
            | some k, some i =>
              let arg := sym + 2 ^ 32 * step + 2 ^ 64 * pi + 2 ^ 72 * k
              let s := schedPut i (if rt = 0 then now s else rt) 5 0 arg (rt = 0) h.ctx s
              let s := setTap k (some { handle := s.tapNext, ctx := h.ctx, part := pi, sym := sym, step := step }) s
              okRep (natLe 4 s.tapNext) { s with tapNext := (s.tapNext + 1) % 2 ^ 32 }
            | _, _ => refuse stNoResource 0 s) mb s)

/-- TAP_ENABLE (R63, R134, R577): the partition's tiles count the symbol from 0 and arm the step. -/
def execTapEnable (s : State) : Out :=
  .next (
    match takeDispatch 5 s with
    | none => s
    | some (d, s) =>
      let sym := fld d.arg 31 0
      let pi := fld d.arg 71 64
      match tapAt s (fld d.arg 75 72), part? s pi with
      | some t, some p =>
        if t.part ≠ pi ∨ t.sym ≠ sym ∨ t.gone ∨ t.taken then s
        else p.clusters.foldl (fun s c => (List.range 64).foldl (fun s n =>
          if absentPos s c n then s
          else modTile (64 * c + n) (fun x => { x with tapArm := FMap.set none x.tapArm sym (some (fld d.arg 63 32)),
                                                       tapCnt := FMap.set 0 x.tapCnt sym 0 }) s) s) s
      | _, _ => s)

/-- TAKEN of a tap (R579). -/
def takenOf (t : Tap) : Nat := if !t.taken then 0 else if t.failed then 3 else if t.dropped then 2 else 1

/-- TAP_READ (R315, R579, R580). A buffer line that cannot be read ends it as R297 has a memory failure end a command. -/
def execTapRead (mb : Fin 128) (s : State) : Out :=
  .next (runOp 0x803 (fun _ h pl _ s =>
    let id := numAt pl 0 4
    let mx := numAt pl 16 8
    match s.taps.find? (fun x => match x.2 with | some t => t.handle = id && t.ctx = h.ctx | none => false) with
    | some (k, some t) =>
      if t.gone then refuse stAborted 0 (setTap k none s)
      else if !t.taken then okRep (natLe 8 0 ++ natLe 1 0) s
      else if mx = 0 then okRep (natLe 8 0 ++ natLe 1 (takenOf t)) (setTap k none s)
      else
        let n := min mx t.used
        let b := Memory.bytes s.mem.phys (tapBase k) n
        let bad := physBad s (tapBase k) n
        let s := physNote (.host (crownHalf s)) (tapBase k) n s
        if bad then refuse stAborted 8 s
        else okRep (natLe 8 n ++ natLe 1 (takenOf t))
          { s with mem := { s.mem with host := Memory.store s.mem.host (addrAt pl 8) b } }
    | _ => badArg 0 s) mb s)

-- ---------------------------------------------------------------- counters (R572-R576)

/-- Controller of a block number. -/
def blkMc (blk : Nat) : Option Nat := if 0x20 ≤ blk ∧ blk < 0x38 then some (blk - 0x20) else none

/-- A counter as it reads (R226, R572). -/
def ctrRead (s : State) (blk i : Nat) : Nat :=
  if absentBlk s blk then 0
  else match blkMc blk with
    | some m =>
      if 32 ≤ i ∧ i < 40 then nth (mcOf s m).grant (i - 32)
      else if 40 ≤ i ∧ i < 48 then nth (mcOf s m).starve (i - 40)
      else if 48 ≤ i ∧ i < 56 then nth (mcOf s m).waitMax (i - 48)
      else ctr s blk i
    | none => ctr s blk i

/-- A counter zeroed by a clear; queue depths are gauges (R576). -/
def ctrClear (blk i : Nat) (s : State) : State :=
  match blkMc blk with
  | some m =>
    let f (mc : Mc) : Mc :=
      if 32 ≤ i ∧ i < 40 then { mc with grant := modNth mc.grant (i - 32) (fun _ => 0) }
      else if 40 ≤ i ∧ i < 48 then { mc with starve := modNth mc.starve (i - 40) (fun _ => 0) }
      else if 48 ≤ i ∧ i < 56 then { mc with waitMax := modNth mc.waitMax (i - 48) (fun _ => 0) }
      else mc
    setCtr blk i 0 (modMc m f s)
  | none => if 0x80 ≤ blk ∧ 4 ≤ i ∧ i < 12 then s else setCtr blk i 0 s

/-- COUNTER_READ (R315, R576), in the order of R295; DETAIL by R610. -/
def execCounterRead (mb : Fin 128) (s : State) : Out :=
  .next (runOp 0x804 (fun _ _ pl _ s =>
    let blk := numAt pl 0 2
    let i := numAt pl 2 2
    let n := numAt pl 4 2
    let clear := bitOf (numAt pl 6 2) 0
    if !isBlock blk then badArg 0 s
    else if n = 0 ∨ 495 < n then badArg 4 s
    else if 2048 < i + n ∨ (clear ∧ 1024 < i + n) then badArg 2 s
    else
      let l := (List.range n).map (fun k => ctrRead s blk (i + k))
      let r := natLe 8 (now s) ++ l.flatMap (natLe 8)
      okRep r (if clear then (List.range n).foldl (fun s k => ctrClear blk (i + k) s) s else s)) mb s)

-- ---------------------------------------------------------------- injection (R499, R500)

/-- The checkers of R500: whether ONE_BIT is possible, none for a pair that is not in the table. -/
def checkerOf (blk chk : Nat) : Option Bool :=
  if 0x20 ≤ blk ∧ blk < 0x38 then (match chk with | 0 => some true | 1 => some false | _ => none)
  else if 0x40 ≤ blk ∧ blk < 0x64 then (match chk with | 0 => some true | 1 => some true | 2 => some false | _ => none)
  else if 0x80 ≤ blk ∧ blk < 0xC0 then (match chk with | 0 => some false | 1 => some false | _ => none)
  else if blk = 6 ∨ blk < 2 ∨ blk = 5 then (if chk = 0 then some false else none)
  else if blk = 8 ∨ blk = 9 then (if chk = 0 then some true else none)
  else none

/-- INJECT (R315, R499, R500), in the order of R295; a rule that joins fields names BLOCK, the first (R610). -/
def execInject (mb : Fin 128) (s : State) : Out :=
  .next (runOp 0x805 (fun _ _ pl _ s =>
    let blk := numAt pl 0 2
    let chk := numAt pl 2 2
    let a := numAt pl 8 8
    let mode := fld a 63 62
    if isBlock blk ∧ mode = 3 then badArg 8 s
    else match checkerOf blk chk with
    | none => badArg 0 s
    | some one =>
      if mode = 2 ∧ !one then badArg 0 s
      else if (win s blk).armed then refuse stBusy 2 s
      else okRep [] (setWin blk { win s blk with armed := true, checker := chk, mode := mode, target := fld a 41 0 } s)) mb s)

end Sys2Proof.Machine
end

