-- ==== Sys2Proof/Machine/Registers.lean ====
section
/-!
DEFINITION. Register accesses at BAR0 (R9, R276, R489-R497, R571, R609).
-/
namespace Sys2Proof.Machine

/-- After a write to STS, EN or VEC that leaves a block pending, one message (R495). -/
def resend (port : Half) (blk : Nat) (s : State) : State :=
  let w := win s blk
  if winPending w then msix port w.vec s else s

/-- A write of 1s to STS clears those W1C bits (R9, R497). -/
def clearSts (port : Half) (blk data : Nat) (s : State) : State :=
  let w := win s blk
  resend port blk (setWin blk { w with sts := w.sts &&& ~~~(BitVec.ofNat 32 data) } s)

/-- FIRST_SRC.VALID written 1 (R492). -/
def clearFirst (blk data : Nat) (s : State) : State :=
  if !bitOf data 31 then s
  else
    let s := setWin blk { win s blk with valid := false, injected := false, code := 0, bit := 0, rt := 0, info := 0 } s
    if blk = 0xC then { s with eng := { s.eng with errA := 0 } }
    else if blk = 0xD then { s with eng := { s.eng with errB := 0 } }
    else s

/-- OVF written 1 (R492). -/
def clearOvf (blk data : Nat) (s : State) : State :=
  if bitOf data 31 then setWin blk { win s blk with ovf := false, later := 0 } s else s

/-- ERRLOG_CLR (R609). -/
def clearLog (mc data : Nat) (s : State) : State :=
  if bitOf data 0 then modMc mc (fun m => { m with log := [] }) s else s

/-- A status window takes writes through the crown's port only; absent units take none (R490, R496). -/
def takesWrite (s : State) (port : Half) (blk : Nat) : Bool :=
  s.power.rails && crownPort s port && isBlock blk && !absentBlk s blk

/-- STATUS_W1C_WRITE (R496, R497). -/
def execStatusW1cWrite (port : Half) (blk : Nat) (data : BitVec 32) (s : State) : Out :=
  .next (onlyIf (takesWrite s port blk) (clearSts port blk data.toNat) s)

/-- FIRST_SRC_CLEAR (R492). -/
def execFirstSrcClear (port : Half) (blk : Nat) (data : BitVec 32) (s : State) : Out :=
  .next (onlyIf (takesWrite s port blk) (clearFirst blk data.toNat) s)

/-- OVF_CLEAR (R492). -/
def execOvfClear (port : Half) (blk : Nat) (data : BitVec 32) (s : State) : Out :=
  .next (onlyIf (takesWrite s port blk) (clearOvf blk data.toNat) s)

/-- ERRLOG_CLR (R609). -/
def execErrlogClr (port : Half) (mc : Fin 24) (data : BitVec 32) (s : State) : Out :=
  .next (onlyIf (takesWrite s port (mcBlk mc)) (clearLog mc data.toNat) s)

/-- A 4-byte write at an offset of a status window (R489, R609). -/
def winWrite (port : Half) (blk off data : Nat) (s : State) : State :=
  let w := win s blk
  match off with
  | 0x000 => clearSts port blk data s
  | 0x100 => if blk = 2 ∨ blk = 3 ∨ blk = 4 then clearSts port blk data s else s
  | 0x008 => resend port blk (setWin blk { w with en := BitVec.ofNat 32 data } s)
  | 0x00C => setWin blk { w with latchEn := BitVec.ofNat 32 data } s
  | 0x010 => clearFirst blk data s
  | 0x028 => clearOvf blk data s
  | 0x038 => resend port blk (setWin blk { w with vec := data % 256 } s)
  | 0x600 => match blkMc blk with | some m => clearLog m data s | none => s
  | _ => s

/-- A 4-byte write at a BAR0 offset (R275, R276): the MSI-X table of the port's function, status windows, RT_STATUS,
TR_APER. Every other register is read-only to the host, has a row of its own, or is unassigned. -/
def barWrite (port : Half) (off data : Nat) (s : State) : State :=
  if 0x80000 ≤ off ∧ off < 0x81000 then
    msixWrite port ((off - 0x80000) / 4) data s
  else if 0x200000 ≤ off ∧ off < 0x1000000 then
    let blk := (off - 0x200000) / 0x1000
    onlyIf (takesWrite s port blk) (winWrite port blk (off % 0x1000) data) s
  else if !crownPort s port then s
  else if off = 0x1000008 then
    { s with time := { s.time with w1c := s.time.w1c &&& ~~~(BitVec.ofNat 32 (data &&& 0xF0)) } }
  else if off = 0x2FF0000 then modTr .a (fun t => { t with aper := data % 128 }) s
  else if off = 0x2FF0008 then modTr .b (fun t => { t with aper := data % 128 }) s
  else s

/-- REGISTER_WRITE (R9, R276): aligned writes of 4 or 8 bytes; any other changes nothing. -/
def execRegisterWrite (port : Half) (off size data : Nat) (s : State) : Out :=
  .next (
    if !s.power.rails ∨ (size ≠ 4 ∧ size ≠ 8) ∨ off % size ≠ 0 then s
    else
      let s := barWrite port off (data % 2 ^ 32) s
      if size = 8 then barWrite port (off + 4) (data / 2 ^ 32 % 2 ^ 32) s else s)

end Sys2Proof.Machine
end

