-- ==== Sys2Proof/Machine/Memctl.lean ====
section
/-!
DEFINITION. Memory controllers (R193-R235, R609): reads, writes and scrub, the stack arbiter, and the CXL.mem window with its
snoops.
-/
namespace Sys2Proof.Machine

/-- The requester of a line as an agent; the partition plays no part at a controller. -/
def requester : Requester → Agent
  | .cluster c => .tile 0 c.val
  | .engine h => .engine 0 h
  | .mover h => .mover h
  | .host h => .host h

/-- The bridge holds a line access that crosses it while it retrains (R24, R195). -/
def lineHeld (s : State) (mc : Nat) (ag : Agent) : Bool := s.brRetrain && decide (agentHalf ag ≠ mcHalf mc)

/-- MEM_READ (R195, R216, R217, R219): a line read of a requester, at its port; an access that reaches no backed position sets
ADDR_ERR. -/
def execMemRead (mc : Fin 24) (pa : Nat) (ode ce : Bool) (ue : Retry) (s : State) (who : Requester := .host .a) : Out :=
  .next (
    if !s.power.rails ∨ absentBlk s (mcBlk mc) ∨ lineHeld s mc (requester who) then s
    else if !backed s pa then event (mcBlk mc) 4 0 pa s
    else if !atMc s mc pa then s
    else memNote (requester who) false false pa ode ce ue .clean s)

/-- The bytes that a mask writes, at consecutive addresses. -/
def maskWrite (pa : Nat) : List (Option Byte) → Memory → Memory
  | [], m => m
  | none :: r, m => maskWrite (pa + 1) r m
  | some b :: r, m => maskWrite (pa + 1) r (Memory.write m pa b)

/-- The mask covers whole 8-byte words (R194). -/
def wholeWords (l : List (Option Byte)) : Bool :=
  (List.range 8).all (fun w => let c := (l.drop (8 * w)).take 8; c.all (·.isSome) && decide (c.length = 8) || c.all (·.isNone))

/-- A word of memory with the bytes that a mask writes. -/
def maskWord (w : Nat) (l : List (Option Byte)) : Nat :=
  leNat ((List.range 8).map (fun i => ((l[i]?).getD none).getD (BitVec.ofNat 8 (w / 2 ^ (8 * i)))))

/-- A write into firmware working memory changes the page-table entries that it reaches (R199, R201). -/
def tableWrite (pa : Nat) (l : List (Option Byte)) (s : State) : State :=
  if !(workBase .a ≤ pa && pa < workBase .a + 0x80000000) && !(workBase .b ≤ pa && pa < workBase .b + 0x80000000) then s
  else (List.range 8).foldl (fun s i =>
    let c := (l.drop (8 * i)).take 8
    let a := pa + 8 * i
    if c.all (·.isNone) then s
    else { s with mem := { s.mem with
      pte := FMap.set none s.mem.pte (a / 8) (some (maskWord (tableWord s a (fwWord s a)) c)) } }) s

/-- MEM_WRITE (R194, R195, R218, R219): a masked write that is no read-modify-write goes directly; an uncorrectable read fails
the write; a parity error is retried once. -/
def execMemWrite (mc : Fin 24) (pa : Nat) (bytes : List (Option Byte)) (parity rmwRead : Retry) (s : State)
    (who : Requester := .host .a) (ode ce : Bool := false) : Out :=
  .next (
    let l := bytes.take 64
    if !s.power.rails ∨ absentBlk s (mcBlk mc) ∨ pa % 64 ≠ 0 ∨ lineHeld s mc (requester who) then s
    else if !backed s pa then event (mcBlk mc) 4 0 pa s
    else if !atMc s mc pa then s
    else
      let rmw := !wholeWords l
      let s' := memNote (requester who) true rmw pa ode ce rmwRead parity s
      if (rmw ∧ readEnd s mc pa rmwRead = .lasting) ∨ writeEnd s mc pa parity = .lasting then s'
      else
        let s' := if l.length = 64 && l.all (·.isSome) then clearBad pa s' else s'
        tableWrite pa l { s' with mem := { s'.mem with phys := maskWrite pa l s'.mem.phys } })

/-- SCRUB_READ (R219, R220, R229): in a slot of the controller's own. -/
def execScrubRead (mc : Fin 24) (pa : Nat) (ce : Bool) (ue : Retry) (s : State) (ode : Bool := false) : Out :=
  .next (
    if !s.power.rails ∨ absentBlk s (mcBlk mc) ∨ !backed s pa ∨ !atMc s mc pa then s
    else readOutcome mc pa ode ce ue 12 5 5 (modMc mc takeSlot (count (mcBlk mc) 58 1 s)))

/-- STACK_TEMP_REPORT (R221). -/
def execStackTempReport (stack : Fin 16) (temp : Nat) (s : State) : Out :=
  .next (
    if !s.power.rails then s
    else
      let hot := decide (85 < temp)
      let s := if hot ∧ !(mcOf s stack).refresh2 then event (mcBlk stack) 14 0 0 s else s
      modMc stack (fun m => { m with refresh2 := hot }) s)

-- ---------------------------------------------------------------- the arbiter (R224-R235)

/-- ARB_WINDOW_REFILL (R230). -/
def execArbWindowRefill (stack : Fin 16) (clock : Nat) (s : State) : Out :=
  .next (onlyIf s.power.rails (modMc stack (advanceTo clock)) s)

/-- ARB_WEIGHT_WRITE (R227, R231, R232): a write that lands in clock `clock` counts from the next; a decision or a refill in
`clock` uses the old weight and the credits as they stood. -/
def execArbWeightWrite (stack : Fin 16) (n : Fin 8) (weight : BitVec 12) (clock : Nat) (s : State) : Out :=
  .next (onlyIf s.power.rails (modMc stack (fun m =>
    let m := advanceTo clock m
    { m with writes := m.writes ++ [(clock, n.val, weight.toNat)], clock := max m.clock clock })) s)

/-- The port that wins a decision (R228): the largest CREDIT, the lower number among equals; on LPDDR5X the first from the
rotating port (R235). -/
def winner (m : Mc) (lp : Bool) (ask : List Nat) : Option Nat :=
  if lp then ((List.range 8).map (fun i => (m.rot + i) % 8)).find? (fun i => ask.contains i)
  else ask.foldl (fun b i => match b with
    | none => some i
    | some j => if nth m.credit j < nth m.credit i then some i else some j) none

/-- Clocks of the data path that a burst takes (R193, R225). -/
def slotsOf (lp : Bool) (lines : Nat) : Nat := if lp then lines else cdiv lines 8

/-- A request of consecutive lines split into bursts, each within one granule of 16 lines (R225). -/
def splitBursts (who at_ : Nat) : Nat → Nat → Nat → List Burst
  | 0, _, _ => []
  | f + 1, line, n =>
    if n = 0 then []
    else
      let k := min n (16 - line % 16)
      { who := who, gran := line / 16, lines := k, at_ := at_ } :: splitBursts who at_ f (line + k) (n - k)

/-- A request joins its port behind those already there (R224). -/
def arrives (m : Mc) (a : Arrival) : Mc :=
  { m with ports := modNth m.ports a.port (· ++ splitBursts a.who a.clock (a.lines / 16 + 2) a.line a.lines) }

/-- The burst at the head of a port. -/
def headBurst (m : Mc) (i : Nat) : Option Burst := (m.ports.getD i []).head?

/-- The burst at the head leaves its port; the next one is at the head from this clock on (R234). -/
def popBurst (clock : Nat) : List Burst → List Burst
  | _ :: b :: r => { b with at_ := max b.at_ clock } :: r
  | _ => []

/-- One decision in a clock (R228, R234, R235): among the ports whose head request came before the clock. -/
def decideAt (lp : Bool) (clock : Nat) (m : Mc) : Mc :=
  let ask := (List.range 8).filter (fun i => match headBurst m i with | some b => decide (b.at_ < clock) | none => false)
  let asked := (List.range 8).map (fun i => ask.contains i && (!m.decided || m.asked.getD i false))
  match winner m lp ask with
  | none => { m with clock := clock + 1, decided := true, asked := asked }
  | some w =>
    let b := (headBurst m w).getD { who := 0, gran := 0, lines := 0, at_ := clock }
    let n := slotsOf lp b.lines
    { m with
      clock := clock + 1, pathFree := clock + 1 + n, rot := (w + 1) % 8, decided := true, asked := asked,
      ports := modNth m.ports w (popBurst clock),
      credit := if lp then m.credit else modNth m.credit w (fun c => c - n),
      grant := modNth m.grant w (fun c => (c + 1) % 2 ^ 64),
      waitMax := modNth m.waitMax w (fun c => max c (min (clock - b.at_) 0xFFFFFFFF)),
      won := (List.range 8).map (fun i => decide (i = w) || m.won.getD i false) }

/-- ARB_DECISION (R228-R235): in a clock with the data path free in the next. `own`: a slot of the controller's own, such as a
refresh, takes the clock, which then decides nothing (R229). -/
def execArbDecision (stack : Fin 24) (clock : Nat) (arrivals : List Arrival) (s : State) (own : Bool := false) : Out :=
  .next (
    let lp := decide (16 ≤ stack.val)
    let m := mcOf s stack
    if !s.power.rails ∨ absentBlk s (mcBlk stack) ∨ clock < m.clock ∨ clock + 1 < m.pathFree then s
    else modMc stack (fun m =>
      let m := arrivals.foldl arrives (if lp then m else advanceTo clock m)
      if own then { m with clock := clock + 1, pathFree := max m.pathFree (clock + 1) } else decideAt lp clock m) s)

-- ---------------------------------------------------------------- the window and its snoops (R214, R215, R222)

/-- The window offset of a line's address, as a line number. -/
def lineOfPa (s : State) (pa : Nat) : Nat := (pa - winBase s) / 64

/-- WIN_SNOOP_TIMEOUT (R222): 1 ms without an answer; the access that waits fails. -/
def execWinSnoopTimeout (mc : Fin 24) (pa : Nat) (s : State) : Out :=
  .next (
    let k := lineOfPa s pa
    if pa < winBase s ∨ !s.mem.snoops.contains k ∨ !atMc s mc pa then s
    else event (mcBlk mc) 5 0 pa { s with mem := { s.mem with
      snoops := s.mem.snoops.filter (· ≠ k), snoopBad := s.mem.snoopBad ++ [k] } })

/-- What waits inside the engines is tried again. -/
def wakeEngines (s : State) : State :=
  let s := fireAll .b (fun _ _ => true) (fireAll .a (fun _ _ => true) s)
  pokeAll (s.fab.rx.foldl (fun s f =>
    match f.held.head? with | some (_, k) => runFlow {} k 256 s | none => s) s)

/-- BACK_INVALIDATE_RESPONSE (R215): the line leaves the filter, dirty data is written, and the waiting access can
proceed. -/
def execBackInvalidateResponse (off : Nat) (dirty : Option (List Byte)) (s : State) : Out :=
  .next (
    let k := off / 64
    if !s.mem.snoops.contains k ∧ !s.mem.snoopBad.contains k then s
    else
      let s := match dirty with
        | some b => putOwn (.host (if s.cxlA.committed then .a else .b)) (winBase s + 64 * k) (b.take 64) s
        | none => s
      wakeEngines { s with mem := { s.mem with
        filter := s.mem.filter.filter (· ≠ k), snoops := s.mem.snoops.filter (· ≠ k),
        snoopBad := s.mem.snoopBad.filter (· ≠ k) } })

/-- What waited for the bridge goes on: the packets in their order, then what the engines hold. -/
def bridgeOpens (s : State) : State :=
  wakeEngines (s.fab.bridge.foldl (fun s x => (routeOn x.1 x.2 s).1) (modFab (fun f => { f with bridge := [] }) s))

/-- BRIDGE_RETRAIN_DONE (R24, R437). -/
def execBridgeRetrainDone (half : Half) (ok : Bool) (s : State) : Out :=
  .next (
    if !s.brRetrain then s
    else
      let s := bridgeOpens { s with brRetrain := false }
      if ok then eventG false half 6 2 0 half.num s
      else enterSafe true (eventG false half 6 3 0 half.num s))

/-- An access of a port's host path crosses the bridge while it retrains (R24). -/
def bridgeWaits (s : State) (port : Half) (pa : Nat) : Bool := s.brRetrain && decide (homeOf s pa ≠ some port)

/-- WINDOW_HOST_ACCESS (R214, R215, R592), at arbiter port 7: untranslated, through the port whose HDM decoder is committed. A read leaves
the line possibly cached by the host; with a full filter its oldest entry is back-invalidated first. -/
def execWindowHostAccess (port : Half) (off : Nat) (write : Option (List Byte)) (s : State) (env : MemEnv := {}) : Out :=
  .next (
    let c := cxl s port
    let k := off / 64
    if !s.power.rails ∨ !c.up ∨ !c.enabled ∨ !c.committed ∨ s.mem.windowGib * 2 ^ 30 ≤ off then s
    else
      let pa := winBase s + 64 * k
      let env' (s : State) (wr : Bool) : State :=
        memNote (.host port) wr false pa (namesLine env.ode pa) (namesLine env.ce pa) (envRead env pa) (envWrite env pa) s
      if bridgeWaits s port pa then s
      else match write with
      | some b => if memFails s env true false pa then env' s true else clearBad pa (storePhys pa (b.take 64) (env' s true))
      | none =>
        if !s.mem.filter.contains k ∧ 1048576 ≤ s.mem.filter.length then issueSnoops (s.mem.filter.take 1) s
        else
          let fails := memFails s env false false pa
          let s := env' s false
          if s.mem.filter.contains k ∨ fails then s
          else { s with mem := { s.mem with filter := s.mem.filter ++ [k] } })

end Sys2Proof.Machine
end

