-- ==== Sys2Proof/Machine/Manage.lean ====
section
/-!
DEFINITION. The CXL ports (R589-R592), the function enables (R319, R418), and the management port: its address, the MCTP,
PLDM and SPDM requests, platform events and the LEDs (R594-R603).
-/
namespace Sys2Proof.Machine

-- ---------------------------------------------------------------- CXL ports (R591, R592)

/-- The serving port no longer serves the window: its snoop-filter entries are dropped, and what waits for a snoop goes
on (R592). -/
def dropFilter (s : State) : State :=
  wakeEngines { s with mem := { s.mem with filter := [], snoops := [], snoopBad := [] } }

/-- A port's link or function stops: the filter entries of a serving port are dropped (R592). -/
def portStops (h : Half) (f : Cxl → Cxl) (s : State) : State :=
  if (cxl s h).committed then dropFilter (modCxl h f s) else modCxl h f s

/-- PERST_N (R591): the port's link, configuration space and BAR2 registers, the HDM decoder among them. -/
def execPerstN (port : Half) (s : State) : Out :=
  .next (if s.power.rails then
    portStops port (fun c => { c with up := false, width := 0, gts := 0, committed := false }) s else s)

/-- HDM_COMMIT (R592): only one port serves the window; a commit on the other fails. After a decommit either may commit. -/
def execHdmCommit (port : Half) (s : State) (on : Bool := true) : Out :=
  .next (
    let c := cxl s port
    if !s.power.rails ∨ !c.up ∨ !c.enabled ∨ on ∧ (cxl s port.other).committed then s
    else modCxl port (fun c => { c with committed := on }) s)

/-- CXL_LINK_DOWN (R592): the decoder stays committed; the filter entries are dropped. -/
def execCxlLinkDown (port : Half) (s : State) : Out :=
  .next (if s.power.rails ∧ (cxl s port).up then
    portStops port (fun c => { c with up := false, width := 0, gts := 0 }) s else s)

/-- CXL_LINK_RETRAIN (R510, R590): below 32 GT/s the link stays down; a link at x4 is degraded. -/
def execCxlLinkRetrain (port : Half) (width gts : Nat) (s : State) : Out :=
  .next (
    let blk := 0x12 + port.num
    if !s.power.rails then s
    else
      let s := if (cxl s port).up then event blk 1 0 0 s else s
      if gts < 32 then
        if (cxl s port).up then portStops port (fun c => { c with up := false, width := 0, gts := 0 }) s else s
      else
        let s := modCxl port (fun c => { c with up := true, width := width, gts := gts }) s
        if width ≤ 4 then event blk 2 0 0 s else s)

-- ---------------------------------------------------------------- the function enables (R319, R418, R419)

/-- The half whose CXL function a stage enables: stage 1 port A, stage 2 port B. -/
def enableHalf (stage : Nat) : Option Half := if stage = 1 then some .a else if stage = 2 then some .b else none

/-- An accepted write of an enable stage takes effect; the other stages' effects belong to the commands that write them. -/
def applyStage (stage : Nat) (enable : Bool) (s : State) : State :=
  match enableHalf stage with
  | none => s
  | some h => if enable then modCxl h (fun c => { c with enabled := true }) s
              else portStops h (fun c => { c with enabled := false }) s

/-- A write to a stage (R419, R421): accepted, or rejected as LAPSED, STALE or FORGED; a stale half demotes itself. -/
def writeStage (half : Half) (stage claim : Nat) (enable : Bool) (s : State) : State :=
  match judge s stage claim with
  | .lapsed => rejectWrite stage s
  | .stale => demote half (event (8 + half.num) 5 0 0 (rejectWrite stage s))
  | .forged => event (8 + half.num) 6 0 0 (rejectWrite stage s)
  | .accepted => applyStage stage enable s

/-- STAGE_WRITE (R419, R421). -/
def execStageWrite (half : Half) (stage : Fin 6) (claim : Nat) (enable : Bool) (s : State) : Out :=
  .next (writeStage half stage.val claim enable s)

/-- The floors of a grant have reached every stage that hears the vote logic (R420, R431). -/
def floorsArrive (s : State) : State :=
  (List.range 6).foldl (fun s i => if (stageOf s i).lapsed then s else
    modStage i (fun x => { x with floor := max x.floor s.crown.claim, seenAt := s.time.clk }) s) s

/-- TAKEOVER_RESTORE (R431, R319-R321): the floors have arrived; the new holder's cores run and stops and staged records are
discarded. The old port's commands are answered; where that mailbox hardware does not answer, or its stage does not take
the new claim (R320), its pages stay and its function is disabled. -/
def execTakeoverRestore (answers : Bool) (s : State) : Out :=
  .next (
    if !s.crown.takeover ∨ s.crown.restored then s
    else
      let s := floorsArrive s
      let h := s.crown.holder
      let s := modMon h (fun m => { m with halted := false, live := true, failedAt := none, lastWrite := s.time.clk }) s
      let t := answerTakeover h.other s
      let s :=
        if answers ∧ portTakes s h.other s.crown.claim then t
        else writeStage h (1 + h.other.num) s.crown.claim false
          { t with mbx := { t.mbx with pages := s.mbx.pages, msixOut := s.mbx.msixOut, msixPend := s.mbx.msixPend,
                                       held := s.mbx.held } }
      let s := { s with fw := { s.fw with stopped := [], staging := none } }
      modCrown (fun c => { c with restored := true }) s)

-- ---------------------------------------------------------------- the endpoint (R594, R595)

/-- The management endpoint's state, changed. -/
def modMgmt (f : Mgmt → Mgmt) (s : State) : State := { s with mgmt := f s.mgmt }

/-- ENTDAA (R594): the dynamic address; the provisional ID answers. -/
def execEntdaa (addr : BitVec 7) (s : State) : Out :=
  .next (onMgmt (fun s =>
    modMgmt (fun m => { m with dynAddr := addr.toNat,
                               resp := natLe 6 (0x4B1 * 2 ^ 33 + 2 ^ 32 + s.ident.serial % 2 ^ 32) }) s) s)

/-- SET_ENDPOINT_ID (R595). EIDs 0 and 255 are no endpoint's (log entry 13). -/
def execSetEndpointId (eid : BitVec 8) (s : State) : Out :=
  .next (onMgmt (fun s =>
    if eid = 0 ∨ eid = 255 then reply ccInvalidData [] s
    else reply ccOk [eid] (modMgmt (fun m => { m with eid := eid.toNat }) s)) s)

/-- GET_ENDPOINT_ID (R595). -/
def execGetEndpointId (s : State) : Out := .next (onMgmt (fun s => reply ccOk (natLe 1 s.mgmt.eid) s) s)

/-- GET_MCTP_VERSION_SUPPORT (R595): the versions are not stated, so one free entry. -/
def execGetMctpVersionSupport (s : State) : Out :=
  .next (onMgmt (fun s => reply ccOk (natLe 1 1 ++ natLe 4 (freshNat 70 s)) (takeFree s)) s)

/-- GET_MESSAGE_TYPE_SUPPORT (R595): control, PLDM and SPDM (codes: log entry 13). -/
def execGetMessageTypeSupport (s : State) : Out := .next (onMgmt (fun s => reply ccOk [3, 0, 1, 5] s) s)

-- ---------------------------------------------------------------- PLDM type 63 (R596)

/-- GET_STATUS (R596); MB_STATE as the crown's port shows it. -/
def execGetStatus (s : State) : Out :=
  .next (onMgmt (fun s =>
    reply ccOk (natLe 4 (mbState s s.crown.holder) ++ natLe 4 (startSts s) ++ natLe 4 (stsOf s 2).toNat ++
      natLe 4 (stsOf s 3).toNat ++ natLe 4 (stsOf s 4).toNat ++ natLe 4 (stsOf s 5).toNat ++
      natLe 8 s.start.readyRt ++ natLe 4 s.crown.claim) s) s)

/-- GET_LINKS (R596). -/
def execGetLinks (s : State) : Out :=
  .next (onMgmt (fun s => reply ccOk ((List.range 64).flatMap (fun p => natLe 8 (portState s p))) s) s)

/-- LOCATE (R596, R603). -/
def execLocate (on : Bool) (s : State) : Out :=
  .next (onMgmt (fun s => reply ccOk [] { s with pins := { s.pins with locateOn := on } }) s)

/-- LOCATE_N_CHANGE (R585, R603). -/
def execLocateNChange (high : Bool) (s : State) : Out := .next { s with pins := { s.pins with locateN := high } }

/-- LEDGER_READ on the management port (R484, R596, R597): KIND 1 or 2 of R311. -/
def execPldmLedgerRead (kind fromSeq max : Nat) (s : State) : Out :=
  .next (onMgmt (fun s =>
    if (kind ≠ 1 ∧ kind ≠ 2) ∨ max = 0 ∨ 30 < max then reply ccInvalidData [] s
    else
      let (st, _, r, s') := ledgerRead kind fromSeq max none s
      if st = stOk then reply ccOk r s' else if st = stBusy then reply 0x83 [] s else reply ccInvalidData [] s) s)

-- ---------------------------------------------------------------- platform events (R599)

/-- SET_EVENT_RECEIVER (R599). -/
def execSetEventReceiver (eid : BitVec 8) (s : State) : Out :=
  .next (onMgmt (fun s => reply ccOk [] (modMgmt (fun m => { m with receiver := some eid.toNat }) s)) s)

/-- PLATFORM_EVENT_RETRY (R599): the oldest event is accepted, or after 100 ms sent once more and then dropped. -/
def execPlatformEventRetry (accepted : Bool) (s : State) : Out :=
  .next (onMgmt (fun s =>
    match s.mgmt.receiver, s.mgmt.events with
    | some _, e :: r =>
      if accepted then modMgmt (fun m => { m with events := r }) s
      else
        let s := advance 10000000 s
        if e.tried then countSat 5 40 1 (modMgmt (fun m => { m with events := r }) s)
        else modMgmt (fun m => { m with events := { e with tried := true } :: r }) s
    | _, _ => s) s)

-- ---------------------------------------------------------------- firmware update (R600)

/-- A package staged for the crown (R556): the completion code of the update and the state. -/
def stagePldm (component : Nat) (b : List Byte) (area slot dir : Retry) (s : State) : Nat × State :=
  let k := pkgKind b
  if (component = 1 ∧ k = 3) ∨ (component = 2 ∧ k ≠ 3) ∨ component = 0 ∨ 2 < component then (ccInvalidData, s)
  else match stageFault s b b.length with
    | some (st, _) => (if st = stBusy then 0x86 else ccInvalidData, s)
    | none =>
      match (if k = 3 then stageFactory b area s else stageSlot b area slot dir s) with
      | .ans st _ _ s => (if st = stOk then ccOk else 1, modMgmt (fun m => { m with update := if st = stOk then component else 0 }) s)
      | .stay _ s => (1, s)

/-- RECOVERY takes a whole starter only, into the slot that CTRL_SLOT names (R600, R541). -/
def stageRecovery (component : Nat) (b : List Byte) (slot dir : Retry) (s : State) : Nat × State :=
  if component ≠ 1 ∨ pkgKind b ≠ 1 ∨ numAt b 0 4 ≠ 0x4B504B41 ∨ numAt b 4 2 ≠ 1 ∨ b.length ≠ numAt b 24 8 ∨
      0x3000000 < b.length ∨ !verifyPkg s b then (ccInvalidData, s)
  else
    let i := s.start.dir.ctrlSlot
    let (ok, s) := flashImage (slotBase i) 0x3000000 slot s
    if !ok then (1, s)
    else
      let d := { slotEntry i (some b) s.start.dir with tileSlot := i, staged := 0 }
      let (kept, s) := writeDir dir d { s with flash := fillSlot i (some b) s.flash }
      (if kept then ccOk else 1, modMgmt (fun m => { m with update := if kept then 1 else m.update }) s)

/-- REQUEST_UPDATE (R600): the transferred package passes to the crown while the module is READY, or to the supervisor in
RECOVERY. The writes are those of the staging area, the slot and the directory. -/
def execRequestUpdate (component : Nat) (pkg : List Byte) (area : Retry) (s : State) (slot dir : Retry := .clean) : Out :=
  .next (onMgmt (fun s =>
    if s.start.phase = 7 then
      let (cc, s) := stageRecovery component pkg slot dir s
      reply cc [] s
    else if !serving s ∨ !stageOpen s 5 then reply ccNotReady [] s
    else
      let (cc, s) := stagePldm component pkg area slot dir s
      reply cc [] s) s)

/-- ACTIVATE_FIRMWARE (R600): FW_ACTIVATE for the staged slot with WHAT 2 at once; in RECOVERY the module starts from rail
sequencing. -/
def execActivateFirmware (s : State) : Out :=
  .next (onMgmt (fun s =>
    if s.start.phase = 7 then
      if s.mgmt.update = 1 then reply ccOk [] (runStarter (modMgmt (fun m => { m with update := 0 }) s)) else reply 0x84 [] s
    else if !serving s then reply ccNotReady [] s
    else if s.start.dir.staged = 0 then reply 0x84 [] s
    else match activate (s.start.dir.staged - 1) 2 0 s with
      | .ans st _ _ s =>
        if st = stOk then reply ccOk [] (modMgmt (fun m => { m with update := 0 }) s)
        else reply (if st = stBusy then 0x86 else ccInvalidData) [] s
      | .stay _ s => s) s)

-- ---------------------------------------------------------------- SPDM (R601, R602)

/-- SPDM error codes (log entry 13). -/
def spdmInvalid : Nat := 1
def spdmUnexpected : Nat := 4

/-- A request that the negotiation must precede. -/
def afterSpdm (n : Nat) (f : State → State) (s : State) : State :=
  onMgmt (fun s => if s.mgmt.spdm < n then reply spdmUnexpected [] s else f s) s

/-- Signature of the fused identity key (R601). -/
def idSign (m : List Byte) : List Byte := natBe 64 (Config.sm2Sign 0 m).toNat

/-- GET_VERSION (R601): 1.3 only. -/
def execGetVersion (s : State) : Out :=
  .next (onMgmt (fun s => reply ccOk [0x13] (modMgmt (fun m => { m with spdm := 1 }) s)) s)

/-- GET_CAPABILITIES (R601): certificates, challenge, signed measurements and chunked transfer (bits: log entry 13). -/
def execGetCapabilities (s : State) : Out :=
  .next (afterSpdm 1 (fun s => reply ccOk (natLe 4 0x20016) (modMgmt (fun m => { m with spdm := max m.spdm 2 }) s)) s)

/-- NEGOTIATE_ALGORITHMS (R601): SM2_P256 and SM3_256, also for measurements (codes: log entry 13). -/
def execNegotiateAlgorithms (s : State) : Out :=
  .next (afterSpdm 2 (fun s => reply ccOk (natLe 4 (2 ^ 9) ++ natLe 4 (2 ^ 6) ++ natLe 4 (2 ^ 7))
    (modMgmt (fun m => { m with spdm := 3 }) s)) s)

/-- GET_DIGESTS (R601): slot 0 only. -/
def execGetDigests (s : State) : Out :=
  .next (afterSpdm 3 (fun s => reply ccOk (natLe 1 1 ++ hashBytes (Config.sm3 Config.certChain)) s) s)

/-- GET_CERTIFICATE (R601): a part of the chain, with its length and what remains. -/
def execGetCertificate (slot off len : Nat) (s : State) : Out :=
  .next (afterSpdm 3 (fun s =>
    if slot ≠ 0 ∨ Config.certChain.length < off then reply spdmInvalid [] s
    else
      let p := (Config.certChain.drop off).take len
      reply ccOk (natLe 2 p.length ++ natLe 2 (Config.certChain.length - off - p.length) ++ p) s) s)

/-- CHALLENGE (R601): signed with the fused identity key. -/
def execChallenge (slot : Nat) (nonce : BitVec 256) (s : State) : Out :=
  .next (afterSpdm 3 (fun s =>
    if slot ≠ 0 then reply spdmInvalid [] s
    else
      let r := hashBytes (Config.sm3 Config.certChain)
      reply ccOk (r ++ idSign (hashBytes nonce ++ r)) s) s)

/-- A measurement (R602); none for an index that is not measured. -/
def measurement (s : State) (i : Nat) : Option (List Byte) :=
  if 1 ≤ i ∧ i ≤ 6 then some (sliceB (FMap.get [] s.start.run i) 0 32)
  else if i = 7 then some (hashBytes (digest s))
  else if i = 8 then some (hashBytes (fabDigest s))
  else if i = 9 then
    some (natLe 1 0xB1 ++ natLe 4 s.flash.svnMin ++ natLe 1 (s.start.dir.ctrlSlot + 2 * s.start.dir.tileSlot))
  else if i = 10 then some (hashBytes (Config.sm3 s.led.cert))
  else none

/-- The measurement blocks of a request: index 0 the count, 255 all. -/
def measureBytes (s : State) (index : Nat) : Option (List Byte) :=
  if index = 0 then some (natLe 1 10)
  else if index = 255 then
    some ((List.range 10).flatMap (fun i => natLe 1 (i + 1) ++ (measurement s (i + 1)).getD []))
  else (measurement s index).map (natLe 1 index ++ ·)

/-- GET_MEASUREMENTS (R601, R602). -/
def execGetMeasurements (index : Nat) (signed : Bool) (nonce : BitVec 256) (s : State) : Out :=
  .next (afterSpdm 3 (fun s =>
    match measureBytes s index with
    | none => reply spdmInvalid [] s
    | some r => reply ccOk (if signed then r ++ idSign (hashBytes nonce ++ r) else r) s) s)

-- ---------------------------------------------------------------- LEDs (R603)

/-- What the status LED shows. -/
inductive StatusLed where
  | off
  | amberSteady
  | amberSlow
  | amberFast
  | greenBlink
  | greenSteady
  deriving DecidableEq, Repr

/-- The status LED (R603): the first state that holds. -/
def statusLed (s : State) : StatusLed :=
  if !s.power.v52 then .off
  else if s.start.phase = 8 ∨ s.crown.safe ∨ s.crown.supFail ∨ s.power.trip ∨ shutdownPending s then .amberSteady
  else if s.start.phase = 7 then .amberSlow
  else if !s.start.ready then .amberFast
  else if s.crown.takeover ∨ s.crown.activating.isSome then .greenBlink
  else .greenSteady

/-- The locate LED (R603). -/
def locateLit (s : State) : Bool := !s.pins.locateN || s.pins.locateOn

end Sys2Proof.Machine
end

