-- ==== Sys2Proof/Machine/Approx.lean ====
section
/-!
DEFINITION. The exact functions of the nonlinear-function unit (R168-R170), approximated in fixed point far below the bound
that R169 gives each result, so that the bound can be tested. An integer i stands for i × 2^−256.
-/
namespace Sys2Proof.Machine

/-- 1 in fixed point. -/
def fixOne : Int := 2 ^ 256

/-- The fixed-point image of a value; exact for every FP32 value. -/
def fixOf (neg : Bool) (m : Nat) (e : Int) : Int := signedOf neg (toUnits 1 0 m e (-256))

/-- Product, rounded down. -/
def fixMul (a b : Int) : Int := a * b / fixOne

/-- Quotient, rounded down. -/
def fixDiv (a b : Int) : Int := a * fixOne / b

/-- `n` terms of a series from term `k`, each formed from the one before: x + next k x + … -/
def series (next : Nat → Int → Int) : Nat → Nat → Int → Int
  | 0, _, _ => 0
  | n + 1, k, x => x + series next n (k + 1) (next k x)

/-- The same with term k divided by 2k + 1: the odd series of the inverse tangents and of erf. -/
def oddSeries (next : Nat → Int → Int) : Nat → Nat → Int → Int
  | 0, _, _ => 0
  | n + 1, k, x => x / ((2 * k + 1 : Nat) : Int) + oddSeries next n (k + 1) (next k x)

/-- artanh z for 0 ≤ z ≤ 1/3. -/
def fixArtanh (z : Int) : Int := let q := fixMul z z; oddSeries (fun _ x => fixMul x q) 90 0 z

/-- arctan z for 0 ≤ z ≤ 1/5. -/
def fixArctan (z : Int) : Int := let q := fixMul z z; oddSeries (fun _ x => -(fixMul x q)) 60 0 z

/-- ln 2 = 2 artanh (1/3). -/
def fixLn2 : Int := 2 * fixArtanh (fixOne / 3)

/-- π by Machin's formula. -/
def fixPi : Int := 16 * fixArctan (fixOne / 5) - 4 * fixArctan (fixOne / 239)

/-- The square root of a value below 4, bit by bit. -/
def fixSqrt (v : Int) : Int :=
  (((List.range 257).reverse).foldl (fun (r : Nat) b =>
    if (r + 2 ^ b) * (r + 2 ^ b) ≤ v.toNat * 2 ^ 256 then r + 2 ^ b else r) 0 : Nat)

/-- e^x for |x| ≤ 200: e^r × 2^k with x = k ln 2 + r. -/
def fixExp (x : Int) : Int :=
  let k := x / fixLn2
  let r := x - k * fixLn2
  let y := series (fun k t => fixMul t r / ((k + 1 : Nat) : Int)) 60 0 fixOne
  if 0 ≤ k then y * 2 ^ k.toNat else y / 2 ^ (-k).toNat

/-- x held to −200 … 200: beyond, e^−|x| is 0 in fixed point. -/
def fixClamp (x : Int) : Int := max (-200 * fixOne) (min (200 * fixOne) x)

/-- 1 ÷ (1 + e^−x). -/
def fixSigmoid (x : Int) : Int :=
  let u := fixExp (-((fixClamp x).natAbs : Int))
  if 0 ≤ x then fixDiv fixOne (fixOne + u) else fixDiv u (fixOne + u)

/-- tanh x. -/
def fixTanh (x : Int) : Int :=
  let u := fixExp (-2 * ((max (-100 * fixOne) (min (100 * fixOne) x)).natAbs : Int))
  let y := fixDiv (fixOne - u) (fixOne + u)
  if 0 ≤ x then y else -y

/-- erf x by its power series; ±1 from |x| = 7 on, where erf differs from it by less than 2^−74. -/
def fixErf (x : Int) : Int :=
  if 7 * fixOne ≤ (x.natAbs : Int) then (if 0 ≤ x then fixOne else -fixOne)
  else
    let q := fixMul x x
    fixMul (fixSqrt (4 * fixOne * fixOne / fixPi))
      (oddSeries (fun k t => -(fixMul t q) / ((k + 1 : Nat) : Int)) 260 0 x)

/-- ln of m × 2^e > 0: the significand in 1 … 2 by artanh, and the exponent times ln 2. -/
def fixLog (m : Nat) (e : Int) : Int :=
  let x := fixOf false m (-(m.log2 : Int))
  2 * fixArtanh (fixDiv (x - fixOne) (x + fixOne)) + topExp m e * fixLn2

/-- sin x (`cosine` false) or cos x, by the nearest multiple of π/2 below. -/
def fixSin (cosine : Bool) (x : Int) : Int :=
  let half := fixPi / 2
  let k := (2 * x + half) / (2 * half)
  let r := x - k * half
  let q := fixMul r r
  let quad := (k + (if cosine then 1 else 0)) % 4
  let sin := series (fun k t => -(fixMul t q) / (((2 * k + 2) * (2 * k + 3) : Nat) : Int)) 32 0 r
  let cos := series (fun k t => -(fixMul t q) / (((2 * k + 1) * (2 * k + 2) : Nat) : Int)) 32 0 fixOne
  if quad = 0 then sin else if quad = 1 then cos else if quad = 2 then -sin else -cos

/-- The FP32 constants of GELU_TANH (R169): 0.797_884_56 and 0.044_715. -/
def geluC : Int := fixOf false 13386282 (-24)
def geluD : Int := fixOf false 12003091 (-28)

/-- f(t) of R169 for t = ±m × 2^e ≠ 0, in fixed point: EXP, EXP2, LOG, LOG2, TANH, SIGMOID, SILU, GELU_TANH, GELU_ERF, ERF,
SIN and COS. EXP and EXP2 are taken at 200 where t lies beyond, which overflows FP32 as well. -/
def nlfFix (fn : Nat) (neg : Bool) (m : Nat) (e : Int) : Int :=
  let x := fixOf neg m e
  match fn with
  | 1 => fixExp (fixClamp x)
  | 2 => fixExp (fixMul (fixClamp x) fixLn2)
  | 3 => fixLog m e
  | 4 => fixDiv (fixLog m e) fixLn2
  | 8 => fixTanh x
  | 9 => fixSigmoid x
  | 0xA => fixMul x (fixSigmoid x)
  | 0xB => fixMul x (fixSigmoid (2 * fixMul geluC (x + fixMul geluD (fixMul x (fixMul x x)))))
  | 0xC => fixMul x (fixOne + fixErf (fixMul x (fixSqrt (fixOne / 2)))) / 2
  | 0xD => fixErf x
  | 0xE => fixSin false x
  | _ => fixSin true x

/-- f(t) as a number; a zero has the sign of f(t): that of t for the functions that cross zero at 0. -/
def nlfExact (fn : Nat) (neg : Bool) (m : Nat) (e : Int) : Num :=
  Num.ofInt (neg && (fn = 8 || decide (0xA ≤ fn ∧ fn ≤ 0xE))) (nlfFix fn neg m e) (-256)

/-- The bound of R169: ulp of the exact value, and whether 2^−24 absolute stands where it is greater. -/
def nlfBound (fn : Nat) : Nat × Bool :=
  match fn with
  | 1 => (2, false) | 2 => (1, false) | 3 => (2, false) | 4 => (2, false) | 8 => (2, false) | 9 => (2, false)
  | 0xA => (3, false) | 0xB => (4, true) | 0xC => (4, true) | 0xD => (2, false)
  | _ => (2, true)

/-- A result y keeps the bound of R169 about the exact value f. The approximation of f is good to 2^−40 ulp, which the test
allows. -/
def keepsBound (fn : Nat) (f y : Num) : Bool :=
  match f, Num.add f (Num.neg y) with
  | .fin _ m e, .fin _ d g =>
    let u := max (topExp m e) (-126) - 23
    magGe false ((nlfBound fn).1 * 2 ^ 40 + 1) (u - 40) d g || ((nlfBound fn).2 && magGe false (2 ^ 40 + 1) (-64) d g)
  | _, _ => false

/-- The result of step 2 (R168) for an exact value f: +∞ where f overflows FP32 (R170), else the unit's own value `cand` within
the bound of R169, or f rounded where `cand` keeps no bound. A magnitude below 2^−126 is a zero of the sign of f. -/
def boundedNum (fn : Nat) (f cand : Num) : Num :=
  match f with
  | .fin neg m e =>
    if fp32.over 0 m e then .inf neg
    else
      let y := if keepsBound fn f cand then cand else fp32.op f
      match y with
      | .fin b k g => if k = 0 ∨ Num.below (-126) y then .fin neg 0 0 else .fin b k g
      | x => x
  | x => x

end Sys2Proof.Machine
end

