-- ==== Sys2Proof/Machine/Operands.lean ====
section
/-!
DEFINITION. Operands of tile descriptors: the local address space (R79, R80), the SEC-DED outcome of local reads (R83, R499),
elements and packed rows (R104, R141), the common header (R101), and rows of context memory (R118).
-/
namespace Sys2Proof.Machine

-- ---------------------------------------------------------------- local addresses (R79)

/-- The two areas of the local address space. -/
inductive Area where
  | tile
  | cluster
  deriving DecidableEq, Repr

/-- The area in which a local range lies whole (R79). -/
def areaOf (a n : Nat) : Option Area :=
  if a + n ≤ 0x80000 then some .tile
  else if 0x1000000 ≤ a ∧ a + n ≤ 0x2000000 then some .cluster
  else none

/-- First physical byte of a cluster store (R39). -/
def csBase (c : Nat) : Nat := 0x20000000000 + c * 0x1000000

/-- Bytes of a local range of tile `t`. -/
def localBytes (s : State) (t a n : Nat) : List Byte :=
  if a < 0x1000000 then Memory.bytes s.comp.ts (0x80000 * t + a) n
  else Memory.bytes s.mem.phys (csBase (t / 64) + (a - 0x1000000)) n

/-- Bytes written from a local address of tile `t` upward. -/
def storeLocal (t a : Nat) (l : List Byte) (s : State) : State :=
  if a < 0x1000000 then { s with comp := { s.comp with ts := Memory.store s.comp.ts (0x80000 * t + a) l } }
  else storePhys (csBase (t / 64) + (a - 0x1000000)) l s

/-- `n` rows of `len` bytes, `stride` apart. -/
def rowsOf (a stride n len : Nat) : List (Nat × Nat) := (List.range n).map (fun r => (a + r * stride, len))

-- ---------------------------------------------------------------- faults and field checks (R135, R608)

/-- A tile fault: code of R135, the address that failed, kind of R203. -/
structure TFault where
  code : Nat
  info : Nat := 0
  kind : Nat := 0
  deriving DecidableEq, Repr

/-- The first check that fails. -/
def firstFault (l : List (Option TFault)) : Option TFault := l.findSome? id

/-- A check of a field: the code where the condition holds. -/
def bad (code : Nat) (p : Bool) : Option TFault := if p then some { code := code } else none

/-- BAD_LOCAL of ranges that must lie in one of the areas that `ok` admits (R79, R80). -/
def badLocal (ok : Area → Bool) (l : List (Nat × Nat)) : Option TFault :=
  (l.find? (fun x => match areaOf x.1 x.2 with | some k => !ok k | none => true)).map (fun x => { code := 3, info := x.1 })

/-- Only the tile store, as R80 demands of the arithmetic units. -/
def inTile (k : Area) : Bool := k = .tile

/-- Only the own cluster store, as R80 demands of RED in ACCUM mode. -/
def inCluster (k : Area) : Bool := k = .cluster

/-- Either area: the DMA engine and the sequencer. -/
def inEither (_ : Area) : Bool := true

-- ---------------------------------------------------------------- SEC-DED of local reads (R83, R499-R501)

/-- Index of counter j of position n (R574). -/
def posCtr (n j : Nat) : Nat := 64 + 15 * n + j

/-- A range touches a 64-byte line of its area. -/
def touches (x : Nat × Nat) (base line : Nat) : Bool :=
  decide (base ≤ x.1) && decide ((x.1 - base) / 64 ≤ line) && decide (line * 64 < x.1 - base + x.2)

/-- What an armed injection makes of reads of these ranges: the area and MODE (R499, R500). -/
def localInjection (s : State) (t : Nat) (l : List (Nat × Nat)) : Option (Area × Nat) :=
  let blk := clBlk (t / 64)
  match injMode s blk 1 (fun g => decide (fld g 41 36 = t % 64) && l.any (fun x => areaOf x.1 x.2 = some .tile && touches x 0 (fld g 35 0))) with
  | some m => some (.tile, m)
  | none =>
    (injMode s blk 0 (fun g => l.any (fun x => areaOf x.1 x.2 = some .cluster && touches x 0x1000000 g))).map (fun m => (.cluster, m))

/-- The outcome of the reads of one area. -/
def readsOf (r : StoreReads) (k : Area) : StoreRead := if k = .tile then r.ts else r.cs

/-- The outcomes of reading these ranges: each area that they touch, its outcome, whether it was injected. -/
def readResult (s : State) (t : Nat) (l : List (Nat × Nat)) (r : StoreReads) : List (Area × StoreRead × Bool) :=
  [Area.tile, Area.cluster].filterMap (fun k =>
    if !l.any (fun x => decide (areaOf x.1 x.2 = some k)) then none
    else match localInjection s t l with
      | some (j, m) => if j = k then some (k, injected m, true) else some (k, readsOf r k, false)
      | none => some (k, readsOf r k, false))

/-- A corrected or transient read is counted in the cluster's status (R83, R503). -/
def countRead (c : Nat) (k : Area) (r : StoreRead) (inj : Bool) (s : State) : State :=
  let s := if inj then disarm (clBlk c) s else s
  let lo := if k = .tile then 2 else 5
  match r with
  | .corrected => eventG inj (clHalf c) (clBlk c) lo 0 0 s
  | .transient => eventG inj (clHalf c) (clBlk c) (lo + 1) 0 0 s
  | _ => s

-- ---------------------------------------------------------------- elements (R103, R104, R106, R141)

/-- Bytes that hold `n` packed elements. -/
def packedBytes (f n : Nat) : Nat := (bitsOfFmt f * n + 7) / 8

/-- The codes of `n` packed elements that start at a byte: element i lies in bits [w·i + w − 1 : w·i] of the run, read
little-endian (R141). -/
def rowAt (s : State) (t f a n : Nat) : List Nat :=
  let w := bitsOfFmt f
  let v := leNat (localBytes s t a (packedBytes f n))
  (List.range n).map (fun i => v / 2 ^ (w * i) % 2 ^ w)

/-- The first element of a run. -/
def elemAt (s : State) (t f a : Nat) : Nat := (rowAt s t f a 1).headD 0

/-- Element codes packed into bytes. -/
def packRow (f : Nat) (l : List Nat) : List Byte :=
  let w := bitsOfFmt f
  natLe (packedBytes f l.length) (l.foldr (fun x v => x % 2 ^ w + 2 ^ w * v) 0)

/-- A row of `n` elements ends on a byte boundary (R104). -/
def wholeRow (f n : Nat) : Bool := bitsOfFmt f * n % 8 = 0

/-- RMODE is invalid with this output format (R104, R151). -/
def badMode (rm out : Nat) : Bool := rm = 3 || (rm = 2 && (out = 1 || out = 2 || out = 0xF))

-- ---------------------------------------------------------------- the common header (R101, R98)

/-- A signal target of R98 exists: scope, tile field (cluster above position), counter. -/
def targetOk (s : State) (t scope tl cnt : Nat) : Bool :=
  match scope with
  | 1 => cnt < 64
  | 2 =>
    cnt < 64 && tl / 64 < 36 && (cluster s (t / 64)).part.isSome &&
      decide ((cluster s (tl / 64)).part = (cluster s (t / 64)).part) && !absentPos s (tl / 64) (tl % 64)
  | 3 => match clCtx s (t / 64) with
    | some (p, _) => decide (cnt < ((part? s p).map (·.feCnt)).getD 0)
    | none => false
  | _ => true

/-- SIG_TARGET of a descriptor's completion signal (R608). -/
def sigFault (s : State) (t d : Nat) : Option TFault :=
  bad 9 (!targetOk s t (fld d 58 57) (fld d 79 68) (fld d 67 59))

/-- A signal leaves tile `t` (R99). -/
def sendSignal (t scope tl cnt val : Nat) (set : Bool) (s : State) : State :=
  match clCtx s (t / 64) with
  | none => s
  | some (p, _) =>
    match scope with
    | 1 => pushSignal { src := t, part := p, tgt := t, cnt := cnt, val := val, set := set } s
    | 2 => pushSignal { src := t, part := p, tgt := tl, cnt := cnt, val := val } s
    | 3 => pushSignal { src := t, eng := some (clHalf (t / 64)), part := p, tgt := 0, cnt := cnt, val := val } s
    | _ => s

/-- OPCODE of a descriptor. -/
def opcodeOf (d : Nat) : Nat := fld d 7 0

/-- The queue of an opcode (R89). -/
def queueOf (op : Nat) : Option UnitQ :=
  match op with
  | 0x01 => some .matrix | 0x02 => some .matrix
  | 0x03 => some .vector | 0x05 => some .vector
  | 0x04 => some .nonlinear
  | 0x08 => some .dma | 0x09 => some .dma | 0x0A => some .dma
  | 0x18 => some .fabric
  | _ => none

/-- The sequencer's own operations (R89). -/
def isSeq (op : Nat) : Bool := op = 0x10 || op = 0x11 || op = 0x12 || op = 0x20 || op = 0x21 || op = 0x28

-- ---------------------------------------------------------------- rows of context memory (R118)

/-- A piece of a DMA transfer: virtual address, local address, bytes, within one line of context memory. -/
structure Piece where
  va : Nat
  la : Nat
  n : Nat
  deriving DecidableEq, Repr

/-- The pieces of one row. -/
def rowPieces (va la n : Nat) : List Piece := (linesOf va n).map (fun x => { va := x.1, la := la + (x.1 - va), n := x.2 })

/-- Virtual address of row r: base, offset and signed stride (R118). -/
def rowVa (base off stride r : Nat) : Nat := wrapI 64 (((base + off : Nat) : Int) + (r : Int) * sext 40 stride)

/-- All pieces of a LOAD or STORE, row by row. -/
def dmaPieces (base d : Nat) : List Piece :=
  (List.range (fld d 327 312)).flatMap (fun r =>
    rowPieces (rowVa base (fld d 511 464) (fld d 415 376) r) (fld d 447 416 + r * fld d 375 352) (fld d 351 328))

end Sys2Proof.Machine
end

