-- ==== Sys2Proof/Machine/Tile.lean ====
section
/-!
DEFINITION. Tiles: faults (R136), dispatch and the queues (R88-R94), sync counters and signals (R95-R99), the sequencer's own
operations (R121-R134), the tile DMA engine (R117-R120), trigger writes (R126, R127), and hardware faults of a tile (R77).
A tile is numbered 64 × cluster + position.
-/
namespace Sys2Proof.Machine

-- ---------------------------------------------------------------- faults (R136, R264, R503)

/-- A tile fault (R136): the cluster's status, the position's code, the launch. `desc` is FAULT_DESC of R264. -/
def tileFault (inj : Bool) (t desc : Nat) (f : TFault) (s : State) : State :=
  let c := t / 64
  let n := t % 64
  let info := 2 ^ 48 * n + f.info % 2 ^ 48
  let s := eventG inj (clHalf c) (clBlk c) 0 f.code info s
  let s := modCluster c (fun x => { x with codes := FMap.set 0 x.codes n f.code }) s
  let s :=
    if f.kind = 0 then s
    else modCluster c (fun x => { x with xlVa := f.info, xlKind := f.kind }) (event (clBlk c) 1 f.kind info s)
  let s := modTile t stopTile s
  match clCtx s c with
  | some (p, _) => failLaunch p f.code desc c n false s
  | none => s

/-- FAULT_DESC of a fault that no descriptor of the tile raised (R264). -/
def lastDesc (s : State) (t : Nat) : Nat := (tile s t).last.getD 0xFFFFFFFF

/-- A local read failed its re-read (R83, R77): TS_UE; a tile-store word sends the tile to its start test. -/
def storeFault (inj : Bool) (t desc : Nat) (k : Area) (s : State) : State :=
  let c := t / 64
  let s := if inj then disarm (clBlk c) s else s
  let s := tileFault inj t desc { code := 0x11 } s
  let s := eventG inj (clHalf c) (clBlk c) (if k = .tile then 4 else 7) 0x11 (2 ^ 48 * (t % 64)) s
  if k = .tile then modCluster c (fun x => { x with testing := x.testing ++ [(t % 64, inj)] }) s else s

-- ---------------------------------------------------------------- queues and dispatch (R89-R93)

/-- A queue of a tile. -/
def queue (x : Tile) : UnitQ → List Desc
  | .matrix => x.qm
  | .vector => x.qv
  | .nonlinear => x.qn
  | .dma => x.qd
  | .fabric => x.qf

/-- The same, written. -/
def putQueue (q : UnitQ) (l : List Desc) (x : Tile) : Tile :=
  match q with
  | .matrix => { x with qm := l }
  | .vector => { x with qv := l }
  | .nonlinear => { x with qn := l }
  | .dma => { x with qd := l }
  | .fabric => { x with qf := l }

/-- The head of a queue, changed. -/
def modHead (q : UnitQ) (f : Desc → Desc) (x : Tile) : Tile :=
  match queue x q with
  | d :: r => putQueue q (f d :: r) x
  | [] => x

/-- Every dispatched descriptor of the tile's queues has completed. -/
def drained (x : Tile) : Bool := x.qm = [] && x.qv = [] && x.qn = [] && x.qd = [] && x.qf = []

/-- One descriptor leaves the prefetch buffer, if it can be dispatched (R88, R89, R93, R102). A queue holds 8 descriptors, the
one that executes among them (log 104). -/
def dispatchDesc (t : Nat) (s : State) : State :=
  let x := tile s t
  match x.pre with
  | [] => s
  | d :: r =>
    if !tileRuns s t ∨ x.endSeen ∨ x.hold.isSome ∨ x.barrier.isSome then s
    else match d.bad with
      | some k => tileFault false t d.idx { code := 0xF, info := x.streamVa + 64 * d.idx, kind := k } s
      | none =>
        let op := opcodeOf d.bits
        let next (x : Tile) : Tile :=
          { x with pre := r, last := some d.idx, endSeen := bitOf d.bits 16,
                   barrier := if bitOf d.bits 17 then some d.idx else none }
        match queueOf op with
        | some q => if 8 ≤ (queue x q).length then s else modTile t (fun x => putQueue q (queue x q ++ [d]) (next x)) s
        | none =>
          if isSeq op then modTile t (fun x => { next x with hold := some d }) s
          else tileFault false t d.idx { code := 1 } s

/-- Dispatch as far as it goes: at most 64 descriptors are ahead. -/
def dispatchAll (t : Nat) : Nat → State → State
  | 0, s => s
  | f + 1, s => dispatchAll t f (dispatchDesc t s)

/-- Dispatch of a tile. -/
def dispatch (t : Nat) (s : State) : State := dispatchAll t 64 s

/-- DESC_FETCH (R88): one descriptor into the prefetch buffer, and dispatch. A failed fetch is raised where the descriptor
would have been dispatched. -/
def execDescFetch (c : Fin 36) (n : Fin 64) (env : MemEnv) (s : State) : Out :=
  .next (
    let t := 64 * c.val + n.val
    let x := tile s t
    match clCtx s c with
    | none => s
    | some (p, cx) =>
      if !tileRuns s t ∨ x.endSeen ∨ 64 ≤ x.pre.length ∨ x.pre.any (fun d => d.bad.isSome || bitOf d.bits 16) then s
      else if (injMode s (clBlk c) 2 (fun g => fld g 41 36 = n.val)).isSome then
        let s := tileFault true t (lastDesc s t) { code := 0x12 } (disarm (clBlk c) s)
        modCluster c (fun y => { y with testing := y.testing ++ [(n.val, true)] }) s
      else
        let va := x.streamVa + 64 * x.next
        let ag : Agent := .tile p c
        let sn := snoopLines s ag cx false va 64
        if sn ≠ [] then issueSnoops sn s
        else if bridgeHolds s ag cx false va 64 then s
        else
          let s' := lineNote ag cx env false va 64 s
          let (d, s) : Desc × State := match lineAt s ag cx env false va with
            | .error f => ({ idx := x.next, bits := 0, bad := some f.kind }, s')
            | .ok (pa, _) => ({ idx := x.next, bits := leNat (Memory.bytes s.mem.phys pa 64) },
                              count (clBlk c) 36 64 (count (clBlk c) 32 64 s'))
          dispatch t (modTile t (fun x => { x with pre := x.pre ++ [d], next := x.next + 1 }) s))

/-- The header wait of a descriptor holds or is not asked for (R95, R101). -/
def waitMet (x : Tile) (d : Nat) : Bool := !bitOf d 55 || decide (fld d 127 96 ≤ FMap.get 0 x.cnt (fld d 53 48))

/-- A satisfied header wait consumes where it is told to (R95). -/
def consumeWait (d : Nat) (x : Tile) : Tile :=
  if bitOf d 55 && bitOf d 56 then { x with cnt := FMap.mod 0 x.cnt (fld d 53 48) (fun v => v - fld d 127 96) } else x

/-- HEADER_WAIT_SATISFIED (R90): the head of a queue may start. -/
def execHeaderWaitSatisfied (c : Fin 36) (n : Fin 64) (q : UnitQ) (s : State) : Out :=
  .next (
    let t := 64 * c.val + n.val
    let x := tile s t
    match queue x q with
    | [] => s
    | d :: _ =>
      if !tileRuns s t ∨ d.go ∨ d.done ∨ !waitMet x d.bits then s
      else modTile t (fun x => modHead q (fun d => { d with go := true }) (consumeWait d.bits x)) s)

-- ---------------------------------------------------------------- completion (R91, R93, R94, R517)

/-- A tile whose END descriptor and every earlier one have completed has finished its part; with the last of them the
launch has ended in the hardware (R93, R262). -/
def checkEnd (t : Nat) (s : State) : State :=
  let x := tile s t
  if !tileRuns s t ∨ !x.endSeen ∨ !drained x ∨ x.hold.isSome then s
  else
    let s := modTile t (fun x => { x with phase := 2, pre := [] }) s
    match clCtx s (t / 64) with
    | none => s
    | some (p, _) =>
      match part? s p, headLaunch s p with
      | some y, some l =>
        match recipe? s y.ctx l.recipe with
        | some r =>
          if l.st = 2 ∧ allEnded s y r then modLaunch y.ctx l.id (fun l => { l with endRt := cnt s (clHalf (t / 64)), tq := s.time.tq.code }) s
          else s
        | none => s
      | _, _ => s

/-- The progress watchdog of the running launch restarts (R517). -/
def progress (c : Nat) (s : State) : State :=
  match clCtx s c with
  | none => s
  | some (p, cx) =>
    match headLaunch s p with
    | some l => if l.st = 2 then modLaunch cx l.id (fun l => { l with wdAt := s.time.clk + l.wdMs * 100000 }) s else s
    | none => s

/-- A descriptor that has left its unit completes: its signal, the counters, the end of the stream, and dispatch. A target
that has become absent raises SIG_TARGET at the send (R608). -/
def finish (t : Nat) (d : Desc) (s : State) : State :=
  let s := progress (t / 64) (count (clBlk (t / 64)) (posCtr (t % 64) 0) 1 s)
  let s := modTile t (fun x => { x with barrier := if x.barrier = some d.idx then none else x.barrier }) s
  match sigFault s t d.bits with
  | some f => tileFault false t d.idx f s
  | none =>
    let s := sendSignal t (fld d.bits 58 57) (fld d.bits 79 68) (fld d.bits 67 59) (fld d.bits 95 80) false s
    dispatch t (checkEnd t s)

/-- DESCRIPTOR_COMPLETE (R91, R94): the head of a queue, executed, completes. -/
def execDescriptorComplete (c : Fin 36) (n : Fin 64) (q : UnitQ) (s : State) : Out :=
  .next (
    let t := 64 * c.val + n.val
    let x := tile s t
    match queue x q with
    | [] => s
    | d :: r => if !tileRuns s t ∨ !d.done then s else finish t d (modTile t (putQueue q r) s))

-- ---------------------------------------------------------------- running a descriptor (R90, R608)

/-- The SEC-DED outcomes of an operation's local reads (R83): corrected and transient ones are counted; a lasting one raises
TS_UE, and the answer is then none. -/
def localReads (t desc : Nat) (l : List (Nat × Nat)) (ts : StoreReads) (s : State) : Bool × State :=
  let rs := readResult s t l ts
  let s := rs.foldl (fun s x => countRead (t / 64) x.1 x.2.1 (x.2.2 && x.2.1 != .lasting) s) s
  match rs.find? (fun x => x.2.1 = .lasting) with
  | some (k, _, inj) => (false, storeFault inj t desc k s)
  | none => (true, s)

/-- A unit runs the head of its queue: the checks of R608, the reads' SEC-DED outcome, the operation. `check` is the
descriptor's own fields; `reads` the local ranges it reads; `body` answers a failure with what was done before it. A
descriptor makes all its accesses in one step, after those of the descriptors before it in its queue (R91, log 105). -/
def runUnit (q : UnitQ) (op t : Nat) (ts : StoreReads) (check : State → Nat → Option TFault)
    (reads : Nat → List (Nat × Nat)) (body : Nat → State → Option TFault × State) (s : State) : State :=
  let x := tile s t
  match queue x q with
  | [] => s
  | d :: _ =>
    if !tileRuns s t ∨ d.done ∨ opcodeOf d.bits ≠ op ∨ (bitOf d.bits 55 && !d.go) then s
    else match check s d.bits with
      | some f => tileFault false t d.idx f s
      | none =>
        match localReads t d.idx (reads d.bits) ts s with
        | (false, s) => s
        | (true, s) =>
          match body d.bits s with
          | (some f, s) => tileFault false t d.idx f s
          | (none, s) => modTile t (modHead q (fun d => { d with done := true })) s

/-- The sequencer runs the operation that holds dispatch: its header wait, its checks, the outcome of the local reads that
`reads` names, and its effect when `ready` (R83, R89, R90, R608). -/
def runSeq (op t : Nat) (ts : StoreReads) (reads : State → Nat → List (Nat × Nat)) (check : State → Nat → Option TFault)
    (ready : State → Desc → Bool) (body : Desc → State → State) (s : State) : State :=
  let x := tile s t
  match x.hold with
  | none => s
  | some d =>
    if !tileRuns s t ∨ opcodeOf d.bits ≠ op ∨ (!d.go && !waitMet x d.bits) then s
    else
      let s := if d.go then s
        else modTile t (fun x => { consumeWait d.bits x with hold := some { d with go := true } }) s
      match check s d.bits with
      | some f => tileFault false t d.idx f s
      | none =>
        if !ready s d then s
        else match localReads t d.idx (reads s d.bits) ts s with
          | (false, s) => s
          | (true, s) => finish t d (modTile t (fun x => { x with hold := none }) (body d s))

/-- An operation of the sequencer that reads no local memory. -/
def noReads (_ : State) (_ : Nat) : List (Nat × Nat) := []

-- ---------------------------------------------------------------- CWAIT (R121, R122)

/-- The enabled conditions of a CWAIT, in order: counter, threshold, CONSUME. -/
def conds (d : Nat) : List (Nat × Nat × Bool) :=
  (List.range 4).filterMap (fun i =>
    let b := fld d (359 + 8 * i) (352 + 8 * i)
    if bitOf b 7 then some (fld b 5 0, fld d (415 + 32 * i) (384 + 32 * i), bitOf b 6) else none)

/-- A condition holds. -/
def condHolds (x : Tile) (k : Nat × Nat × Bool) : Bool := k.2.1 ≤ FMap.get 0 x.cnt k.1

/-- Sum of the thresholds that a CWAIT would consume from a counter. -/
def consumed (l : List (Nat × Nat × Bool)) (i : Nat) : Nat :=
  ((l.filter (fun k => k.1 = i && k.2.2)).map (fun k => k.2.1)).sum

/-- CWAIT can complete (R122). -/
def cwaitReady (x : Tile) (d : Nat) : Bool :=
  let l := conds d
  l = [] || (if bitOf d 128 then l.any (condHolds x)
    else l.all (fun k => condHolds x k && decide (consumed l k.1 ≤ FMap.get 0 x.cnt k.1)))

/-- What CWAIT consumes (R122). -/
def cwaitConsume (d : Nat) (x : Tile) : Tile :=
  let l := conds d
  let take (x : Tile) (k : Nat × Nat × Bool) : Tile :=
    if k.2.2 then { x with cnt := FMap.mod 0 x.cnt k.1 (fun v => v - k.2.1) } else x
  if bitOf d 128 then (match l.find? (condHolds x) with | some k => take x k | none => x) else l.foldl take x

/-- CWAIT (R122). -/
def execCwait (c : Fin 36) (n : Fin 64) (s : State) : Out :=
  let t := 64 * c.val + n.val
  .next (runSeq 0x10 t {} noReads (fun s d => sigFault s t d) (fun s d => cwaitReady (tile s t) d.bits)
    (fun d s => modTile t (cwaitConsume d.bits) s) s)

-- ---------------------------------------------------------------- CSIGNAL (R123)

/-- The four targets of a CSIGNAL. -/
def targets (d : Nat) : List Nat := (List.range 4).map (fun i => fld d (64 * i + 319) (64 * i + 256))

/-- Tiles of a cluster that are present. -/
def clTiles (s : State) (c : Nat) : List Nat :=
  (List.range 64).filterMap (fun n => if absentPos s c n then none else some (64 * c + n))

/-- One target of a CSIGNAL: counters of scopes 4 and 5 are tile counters. -/
def ctargetOk (s : State) (t g : Nat) : Bool :=
  let sc := fld g 10 8
  if sc = 4 ∨ sc = 5 then fld g 19 11 < 64 else targetOk s t sc (fld g 31 20) (fld g 19 11)

/-- The signals of one target (R123, R98). -/
def csend (t g : Nat) (s : State) : State :=
  let cnt := fld g 19 11
  let val := fld g 63 32
  match fld g 10 8 with
  | 4 => (clTiles s (t / 64)).foldl (fun s u => sendSignal t 2 u cnt val false s) s
  | 5 =>
    let cl : List Nat := match clCtx s (t / 64) with
      | some (p, _) => ((part? s p).map (fun y => y.clusters)).getD []
      | none => []
    (cl.flatMap (clTiles s)).foldl (fun s u => sendSignal t 2 u cnt val false s) s
  | sc => sendSignal t sc (fld g 31 20) cnt val (bitOf g 7) s

/-- CSIGNAL (R123): with DRAIN, after every earlier dispatched descriptor has completed. -/
def execCsignal (c : Fin 36) (n : Fin 64) (s : State) : Out :=
  let t := 64 * c.val + n.val
  .next (runSeq 0x11 t {} noReads
    (fun s d => firstFault [
      bad 5 ((targets d).any (fun g => 6 ≤ fld g 10 8 || (bitOf g 7 && fld g 10 8 != 1))),
      sigFault s t d, bad 9 ((targets d).any (fun g => !ctargetOk s t g))])
    (fun s d => !bitOf d.bits 128 || drained (tile s t))
    (fun d s => (targets d.bits).foldl (fun s g => csend t g s) s) s)

-- ---------------------------------------------------------------- WAIT_RT (R124, R125)

/-- Target of a WAIT_RT. -/
def rtTarget (x : Tile) (d : Nat) : Nat := fld d 511 448 + (if bitOf d 128 then x.launchRt else 0)

/-- The wait completes: WAIT_RT_FREE while TQ is not 0. -/
def rtDone (t : Nat) (s : State) : State :=
  if s.time.tq = .locked then s else modTile t (fun x => { x with rtFree := true }) s

/-- WAIT_RT (R124, R125): a target already passed completes at once and is counted; else dispatch is held. -/
def execWaitRt (c : Fin 36) (n : Fin 64) (s : State) : Out :=
  let t := 64 * c.val + n.val
  .next (
    let s' := runSeq 0x12 t {} noReads (fun s d => sigFault s t d)
      (fun s d => !d.done && decide (rtTarget (tile s t) d.bits < cnt s (clHalf c)))
      (fun _ s => rtDone t (countSat (clBlk c) (posCtr n.val 14) 1 s)) s
    match (tile s t).hold, (tile s' t).hold with
    | some d0, some d =>
      if d.idx = d0.idx ∧ d.go ∧ opcodeOf d.bits = 0x12 then
        modTile t (fun x => { x with hold := some { d with done := true } }) s'
      else s'
    | _, _ => s')

/-- WAIT_RT_COMPLETE (R125): at the first tick at which the half's count is at least the target. -/
def execWaitRtComplete (c : Fin 36) (n : Fin 64) (s : State) : Out :=
  let t := 64 * c.val + n.val
  .next (
    let x := tile s t
    match x.hold with
    | none => s
    | some d =>
      if !tileRuns s t ∨ opcodeOf d.bits ≠ 0x12 ∨ !d.done then s
      else
        let s := waitHalf (clHalf c) (rtTarget x d.bits) s
        finish t d (modTile t (fun x => { x with hold := none }) (rtDone t s)))

-- ---------------------------------------------------------------- MARK_REQ, MARK_WORK (R128-R132)

/-- Events that a half has queued (R130). -/
def queuedEvents (s : State) (h : Half) : Nat := (s.led.tileEv.filter (fun e => e.half = h)).length

/-- A ledger event of a tile, stamped with the half's count (R130). -/
def markEvent (t kind tag units : Nat) (s : State) : State :=
  match clCtx s (t / 64) with
  | none => s
  | some (_, cx) =>
    let h := clHalf (t / 64)
    { s with led := { s.led with tileEv := s.led.tileEv ++
        [{ rt := cnt s h, order := 1 + t, half := h, ctx := cx, kind := kind, tag := tag, units := units,
           tq := s.time.tq.code }] } }

/-- Entries of a MARK table: tag and units. -/
def markTable (s : State) (t addr count size : Nat) : List (Nat × Nat) :=
  (List.range count).map (fun i =>
    let b := localBytes s t (addr + size * i) size
    (numAt b 0 8, numAt b 8 4))

/-- MARK_REQ (R128): the single TAG, or a table. -/
def execMarkReq (c : Fin 36) (n : Fin 64) (s : State) (ts : StoreReads := {}) : Out :=
  let t := 64 * c.val + n.val
  let num (d : Nat) : Nat := fld d 415 400
  .next (runSeq 0x20 t ts (fun _ d => if num d = 0 then [] else [(fld d 447 416, 8 * num d)])
    (fun s d => firstFault [
      bad 5 (decide (256 < num d)),
      if num d ≠ 0 ∧ fld d 447 416 % 8 ≠ 0 then some { code := 4, info := fld d 447 416 } else none,
      if num d = 0 then none else badLocal inEither [(fld d 447 416, 8 * num d)],
      sigFault s t d])
    (fun s d => queuedEvents s (clHalf c) + max 1 (num d.bits) ≤ 8192)
    (fun d s =>
      let k := if bitOf d.bits 128 then 1 else 0
      let l := if num d.bits = 0 then [(fld d.bits 511 448, 0)] else markTable s t (fld d.bits 447 416) (num d.bits) 8
      l.foldl (fun s e => markEvent t k e.1 0 s) s) s)

/-- MARK_WORK (R129): single, table or uniform. -/
def execMarkWork (c : Fin 36) (n : Fin 64) (s : State) (ts : StoreReads := {}) : Out :=
  let t := 64 * c.val + n.val
  let mode (d : Nat) : Nat := fld d 129 128
  let num (d : Nat) : Nat := if mode d = 1 then fld d 415 400 else 1
  .next (runSeq 0x21 t ts (fun _ d => if mode d = 1 then [(fld d 447 416, 16 * num d)] else [])
    (fun s d => firstFault [
      bad 5 (mode d = 3 || num d = 0 || decide (256 < num d)),
      if mode d = 1 ∧ fld d 447 416 % 8 ≠ 0 then some { code := 4, info := fld d 447 416 } else none,
      if mode d = 1 then badLocal inEither [(fld d 447 416, 16 * num d)] else none,
      sigFault s t d])
    (fun s d => queuedEvents s (clHalf c) + num d.bits ≤ 8192)
    (fun d s => match mode d.bits with
      | 0 => markEvent t 2 (fld d.bits 511 448) (fld d.bits 399 368) s
      | 1 => (markTable s t (fld d.bits 447 416) (num d.bits) 16).foldl (fun s e => markEvent t 2 e.1 e.2 s) s
      | _ => markEvent t 3 0 (fld d.bits 399 368) s) s)

-- ---------------------------------------------------------------- TAP_POINT (R133, R134, R578)

/-- The tap that a symbol of a partition is armed for, and its slot. -/
def liveTap (s : State) (p sym : Nat) : Option (Nat × Tap) :=
  s.taps.findSome? (fun x => match x.2 with
    | some t => if t.part = p ∧ t.sym = sym ∧ !t.gone ∧ !t.taken then some (x.1, t) else none
    | none => none)

/-- This execution's count equals the armed step of a tap not yet taken (R134). -/
def tapHit (s : State) (t sym : Nat) : Option (Nat × Tap) :=
  let x := tile s t
  match clCtx s (t / 64) with
  | some (p, _) =>
    if FMap.get none x.tapArm sym = some (FMap.get 0 x.tapCnt sym) then liveTap s p sym else none
  | none => none

/-- A tap record: header, data, padding to 64 bytes (R578). -/
def tapRecord (s : State) (t sym step id src n : Nat) : List Byte :=
  natLe 8 (cnt s (clHalf (t / 64))) ++ natLe 4 n ++ natLe 1 (t / 64) ++ natLe 1 (t % 64) ++ natLe 2 0 ++ natLe 4 sym ++
    natLe 4 step ++ natLe 4 id ++ natLe 36 0 ++ localBytes s t src n ++ List.replicate ((64 - n % 64) % 64) 0

/-- The copy of a tap (R578): one that does not fit is dropped; a lasting write failure marks the tap failed. A tile's writes to
a buffer on the other half cross the bridge (R195). -/
def tapCopy (t : Nat) (d : Nat) (env : MemEnv) (k : Nat) (y : Tap) (s : State) : State :=
  let id := match headLaunch s y.part with | some l => l.id | none => 0
  let b := tapRecord s t y.sym y.step id (fld d 479 448) (fld d 447 424)
  let pa := tapBase k + y.used
  let fails := (linesOf pa b.length).any (fun x => memFails s env true false x.1)
  if 0x8000000 < y.used + b.length then setTap k (some { y with dropped := true }) s
  else
    let y' := { y with used := y.used + b.length, launch := if y.launch = 0 then id else y.launch, failed := y.failed || fails }
    setTap k (some y') (if fails then writesNote (.tile y.part (t / 64)) env (linesOf pa b.length) s
      else putOwn (.tile y.part (t / 64)) pa b s)

/-- TAP_POINT (R134): an execution at the armed step waits for every earlier descriptor and copies. -/
def execTapPoint (c : Fin 36) (n : Fin 64) (ts : StoreReads) (s : State) (env : MemEnv := {}) : Out :=
  let t := 64 * c.val + n.val
  .next (runSeq 0x28 t ts
    (fun s d => if (tapHit s t (fld d 511 480)).isSome then [(fld d 479 448, fld d 447 424)] else [])
    (fun s d => firstFault [
      bad 5 (fld d 447 424 = 0), badLocal inEither [(fld d 479 448, fld d 447 424)], sigFault s t d])
    (fun s d => match tapHit s t (fld d.bits 511 480) with
      | none => true
      | some (k, _) => drained (tile s t) && !(s.brRetrain && decide (homeOf s (tapBase k) ≠ some (clHalf c))))
    (fun d s =>
      let sym := fld d.bits 511 480
      let s := match tapHit s t sym with
        | some (k, y) => tapCopy t d.bits env k y s
        | none => s
      modTile t (fun x => { x with tapCnt := FMap.mod 0 x.tapCnt sym (· + 1) }) s) s)

-- ---------------------------------------------------------------- FABRIC_TRIG (R126, R127)

/-- Trigger entries of the partition. -/
def trigCount (s : State) (t : Nat) : Nat :=
  match clCtx s (t / 64) with | some (p, _) => ((part? s p).map (·.feTrig)).getD 0 | none => 0

/-- The entry at an index of the partition is armed. -/
def trigArmed (s : State) (t i : Nat) : Bool :=
  match clCtx s (t / 64) with
  | some (p, _) => (FMap.get none s.eng.ent (entKey (clHalf (t / 64)) p i)).isSome
  | none => false

/-- The write of an entry (R382): it is armed, the counter bumped in mode 1, and the condition evaluated. -/
def writeEntry (h : Half) (p i e : Nat) (bump : Bool) (s : State) : State :=
  let s := modEng (fun x => { x with ent := FMap.set none x.ent (entKey h p i) (some e) }) s
  fireEntry h p i (if bump then counterCycle h p (fld e 16 8) [] [1] s else s)

/-- FABRIC_TRIG (R127): completes when the engine accepts the entry. -/
def execFabricTrig (c : Fin 36) (n : Fin 64) (s : State) : Out :=
  let t := 64 * c.val + n.val
  .next (runUnit .fabric 0x18 t {}
    (fun s d => firstFault [
      bad 5 (decide (2 ≤ fld d 143 142)), sigFault s t d,
      bad 0xD (decide (trigCount s t ≤ fld d 140 128)), bad 0xE (trigArmed s t (fld d 140 128))])
    (fun _ => [])
    (fun d s => (none, match clCtx s c with
      | some (p, _) => writeEntry (clHalf c) p (fld d 140 128) (fld d 511 256) (fld d 143 142 = 1) s
      | none => s)) s)

-- ---------------------------------------------------------------- LOAD, STORE, XFER (R117-R120)

/-- Value of base register b; B0 is 0 (R78). -/
def baseReg (x : Tile) (b : Nat) : Nat := if b = 0 then 0 else FMap.get 0 x.base b

/-- Checks that LOAD and STORE share (R117, R118, R608). -/
def dmaFault (s : State) (t d : Nat) : Option TFault :=
  firstFault [
    bad 5 (fld d 351 328 = 0 || fld d 327 312 = 0),
    badLocal inEither (rowsOf (fld d 447 416) (fld d 375 352) (fld d 327 312) (fld d 351 328)), sigFault s t d]

/-- The partition and context on whose behalf a tile reaches memory. -/
def tileAgent (s : State) (t : Nat) : Agent × Nat :=
  match clCtx s (t / 64) with | some (p, cx) => (.tile p (t / 64), cx) | none => (.tile 36 (t / 64), 0)

/-- Reads of context memory, piece by piece, each line stored as it arrives: state, pieces moved, the failure. -/
def loadPieces (t : Nat) (env : MemEnv) : List Piece → State → State × List Piece × Option Fail
  | [], s => (s, [], none)
  | x :: r, s =>
    let s' := lineNote (tileAgent s t).1 (tileAgent s t).2 env false x.va x.n s
    match lineAt s (tileAgent s t).1 (tileAgent s t).2 env false x.va with
    | .error e => (s', [], some e)
    | .ok (pa, _) =>
      let (s', l, e) := loadPieces t env r (storeLocal t x.la (Memory.bytes s.mem.phys pa x.n) s')
      (s', x :: l, e)

/-- Writes of context memory from local addresses, piece by piece. -/
def storePieces (t : Nat) (env : MemEnv) : List Piece → State → State × List Piece × Option Fail
  | [], s => (s, [], none)
  | x :: r, s =>
    let s' := lineNote (tileAgent s t).1 (tileAgent s t).2 env true x.va x.n s
    match lineAt s (tileAgent s t).1 (tileAgent s t).2 env true x.va (splitsWord x.va x.n) with
    | .error e => (s', [], some e)
    | .ok (pa, _) =>
      let (s', l, e) := storePieces t env r (storePhys pa (localBytes s t x.la x.n) s')
      (s', x :: l, e)

/-- Counters of what the DMA engine moved through the cluster router (R574). -/
def countMoved (t idx : Nat) (l : List Piece) (s : State) : State :=
  count (clBlk (t / 64)) idx (l.map (·.n)).sum (count (clBlk (t / 64)) (posCtr (t % 64) 6) l.length s)

/-- The fault a failing line raises (R118). -/
def lineFault (e : Option Fail) : Option TFault := e.map (fun f => { code := f.code, info := f.va, kind := f.kind })

/-- The pieces of the head of the DMA queue, if it is a LOAD or STORE that may start. -/
def dmaHead (s : State) (t op : Nat) : List Piece :=
  let x := tile s t
  match x.qd with
  | d :: _ =>
    if tileRuns s t ∧ !d.done ∧ opcodeOf d.bits = op ∧ (d.go ∨ !bitOf d.bits 55) ∧ (dmaFault s t d.bits).isNone ∧
        !(op = 8 ∧ bitOf d.bits 128) then
      dmaPieces (baseReg x (fld d.bits 463 461)) d.bits
    else []
  | [] => []

/-- The head of the DMA queue waits while the host may cache lines it reaches (R215). -/
def dmaSnoops (s : State) (t op : Nat) : List Nat :=
  (dmaHead s t op).flatMap (fun x => snoopLines s (tileAgent s t).1 (tileAgent s t).2 (op = 9) x.va x.n)

/-- The head of the DMA queue waits while it crosses the bridge in a retrain (R24). -/
def dmaHeld (s : State) (t op : Nat) : Bool :=
  (dmaHead s t op).any (fun x => bridgeHolds s (tileAgent s t).1 (tileAgent s t).2 (op = 9) x.va x.n)

/-- LOAD (R118): context memory, or zeros, to local addresses. -/
def execLoad (c : Fin 36) (n : Fin 64) (env : MemEnv) (s : State) : Out :=
  let t := 64 * c.val + n.val
  .next (
    let sn := dmaSnoops s t 8
    if sn ≠ [] then issueSnoops sn s
    else if dmaHeld s t 8 then s
    else runUnit .dma 0x08 t {} (fun s d => dmaFault s t d) (fun _ => [])
      (fun d s =>
        if bitOf d 128 then
          (none, (rowsOf (fld d 447 416) (fld d 375 352) (fld d 327 312) (fld d 351 328)).foldl
            (fun s x => storeLocal t x.1 (List.replicate x.2 0) s) s)
        else
          let (s, moved, e) := loadPieces t env (dmaPieces (baseReg (tile s t) (fld d 463 461)) d) s
          (lineFault e, countMoved t 32 moved s)) s)

/-- STORE (R118): local addresses to context memory. -/
def execStore (c : Fin 36) (n : Fin 64) (env : MemEnv) (ts : StoreReads) (s : State) : Out :=
  let t := 64 * c.val + n.val
  .next (
    let sn := dmaSnoops s t 9
    if sn ≠ [] then issueSnoops sn s
    else if dmaHeld s t 9 then s
    else runUnit .dma 0x09 t ts (fun s d => dmaFault s t d)
      (fun d => rowsOf (fld d 447 416) (fld d 375 352) (fld d 327 312) (fld d 351 328))
      (fun d s =>
        let (s, moved, e) := storePieces t env (dmaPieces (baseReg (tile s t) (fld d 463 461)) d) s
        (lineFault e, countMoved t 33 moved s)) s)

/-- Source and destination rows of an XFER. -/
def xferSrc (d : Nat) : List (Nat × Nat) := rowsOf (fld d 511 480) (fld d 447 424) (fld d 375 360) (fld d 399 376)
def xferDst (d : Nat) : List (Nat × Nat) := rowsOf (fld d 479 448) (fld d 423 400) (fld d 375 360) (fld d 399 376)

/-- Two lists of ranges overlap. -/
def overlap (a b : List (Nat × Nat)) : Bool :=
  a.any (fun x => b.any (fun y => decide (x.1 < y.1 + y.2) && decide (y.1 < x.1 + x.2)))

/-- Row `j` of a transposed block of 32 source rows, elements of `e` bytes. -/
def transposed (rows : List (List Byte)) (e j : Nat) : List Byte :=
  rows.flatMap (fun r => sliceB r (j * e) e)

/-- The rows that an XFER writes (R120). -/
def xferRows (s : State) (t d : Nat) : List (List Byte) :=
  let src := (xferSrc d).map (fun x => localBytes s t x.1 x.2)
  match fld d 129 128 with
  | 0 => src
  | m => (List.range src.length).map (fun r => transposed ((src.drop (r / 32 * 32)).take 32) (2 ^ (m - 1)) (r % 32))

/-- XFER (R120). Where source and destination overlap, the destination's contents are free values. -/
def execXfer (c : Fin 36) (n : Fin 64) (ts : StoreReads) (s : State) : Out :=
  let t := 64 * c.val + n.val
  .next (runUnit .dma 0x0A t ts
    (fun s d => firstFault [
      bad 5 (fld d 399 376 = 0 || fld d 375 360 = 0 ||
        (fld d 129 128 != 0 && (fld d 399 376 != 32 * 2 ^ (fld d 129 128 - 1) || fld d 375 360 % 32 != 0))),
      badLocal inEither (xferSrc d ++ xferDst d), sigFault s t d])
    xferSrc
    (fun d s =>
      let rows := if overlap (xferSrc d) (xferDst d)
        then (xferDst d).map (fun x => natLe x.2 (Config.freeNat 63 (s.free * 2 ^ 32 + x.1)))
        else xferRows s t d
      let s := if overlap (xferSrc d) (xferDst d) then takeFree s else s
      let s := ((xferDst d).zip rows).foldl (fun s x => storeLocal t x.1.1 x.2 s) s
      (none, count (clBlk c) (posCtr n.val 6) ((xferSrc d).map (fun x => (linesOf x.1 x.2).length)).sum s)) s)

-- ---------------------------------------------------------------- signals in flight (R95-R99)

/-- Two signals arrive in the order sent: those of one source to one counter (R99), and all of one TIER_MOVE, whose signals
arrive in completion order (R211). -/
def sameFlight (a b : Signal) : Bool :=
  a.src = b.src && (decide (8192 ≤ a.src) || a.eng = b.eng && a.part = b.part && a.tgt = b.tgt && a.cnt = b.cnt)

/-- A signal reaches a tile counter: set, or added with saturation, which faults the holding tile (R95, R96). -/
def tileCount (g : Signal) (s : State) : State :=
  let c := g.tgt / 64
  if (cluster s c).part ≠ some g.part ∨ absentPos s c (g.tgt % 64) then s
  else
    let v := if g.set then g.val else FMap.get 0 (tile s g.tgt).cnt g.cnt + g.val
    let s := modTile g.tgt (fun x => { x with cnt := FMap.set 0 x.cnt g.cnt (min v 0xFFFFFFFF) }) s
    if v ≤ 0xFFFFFFFF then s else tileFault false g.tgt (lastDesc s g.tgt) { code := 0xA } s

/-- TILE_SIGNAL_ARRIVE (R95-R99): the i-th signal in flight reaches its counter, never before an earlier one that
it must follow. An engine counter is set where the signal says so (R381, R387). -/
def execTileSignalArrive (i : Nat) (s : State) : Out :=
  .next (
    match s.comp.signals[i]? with
    | none => s
    | some g =>
      if (s.comp.signals.take i).any (sameFlight g) then s
      else
        let s := { s with comp := { s.comp with signals := s.comp.signals.eraseIdx i } }
        match g.eng with
        | some h => counterCycle h g.part g.cnt (if g.set then [g.val] else []) (if g.set then [] else [g.val]) s
        | none => tileCount g s)

-- ---------------------------------------------------------------- hardware faults and the start test (R77)

/-- TILE_HW_FAULT (R77): a store word outside an operand read, or another hardware fault; the start test is due. -/
def execTileHwFault (c : Fin 36) (n : Fin 64) (storeWord : Bool) (s : State) : Out :=
  .next (
    let t := 64 * c.val + n.val
    let x := cluster s c
    if absentPos s c n ∨ x.testing.any (fun y => y.1 = n.val) then s
    else if storeWord then storeFault false t (lastDesc s t) .tile s
    else
      modCluster c (fun y => { y with testing := y.testing ++ [(n.val, false)] })
        (tileFault false t (lastDesc s t) { code := 0x12 } s))

/-- TILE_START_TEST_DONE (R77, R501): firmware has reset the tile and tested it once. Transient: the tile keeps its position;
lasting: the position is retired and recorded. An injected fault passes. -/
def execTileStartTestDone (c : Fin 36) (n : Fin 64) (passed : Bool) (flash : Retry) (s : State) : Out :=
  .next (
    let t := 64 * c.val + n.val
    let x := cluster s c
    match x.testing.find? (fun y => y.1 = n.val) with
    | none => s
    | some (_, inj) =>
      if !serving s then s
      else
        let info := 2 ^ 48 * n.val
        let s := modCluster c (fun y => { y with testing := y.testing.filter (fun z => z.1 != n.val) }) (zeroTile t s)
        if passed ∨ inj then eventG inj (clHalf c) (clBlk c) 8 0 info s
        else
          let s := addDefect 1 2 (256 * c.val + nth x.phys n.val) flash s
          let s := modCluster c (fun y => { y with retired := y.retired ++ [n.val] }) s
          let s := event (clBlk c) 9 0 info s
          match clCtx s c with
          | some (p, _) => failLaunch p 0x12 0xFFFFFFFF c n.val false s
          | none => s)

end Sys2Proof.Machine
end

