-- ==== Sys2Proof/Machine/Matrix.lean ====
section
/-!
DEFINITION. The matrix array: MMA (R105-R108, R153-R160) and MMA_LAM (R174-R188). Every operand is read before a result is
written.
-/
namespace Sys2Proof.Machine

-- ---------------------------------------------------------------- draws and arithmetic counters (R145, R152)

/-- Draw `i` of a unit's generator from where it stands: 0 MMA write-out, 1 VEC, 2 NLF, 3 RED (R152). -/
def drawAt (s : State) (t unit i : Nat) : Nat :=
  let l : Option Launch := match clCtx s (t / 64) with | some (p, _) => headLaunch s p | none => none
  Config.draw ((l.map (·.seed)).getD 0) (t / 64) (t % 64) ((l.map (·.id)).getD 0) unit (FMap.get 0 (tile s t).draws unit + i) % 65536

/-- The generator has drawn `k` values. -/
def takeDraws (t unit k : Nat) (s : State) : State := modTile t (fun x => { x with draws := FMap.mod 0 x.draws unit (· + k) }) s

/-- ARITH_NAN and ARITH_SAT of a list of results (R145). -/
def countArith (t : Nat) (l : List Rnd) (s : State) : State :=
  let b := clBlk (t / 64)
  countSat b (posCtr (t % 64) 10) (l.filter (·.sat)).length
    (countSat b (posCtr (t % 64) 9) (l.filter (·.nan)).length s)

/-- Rows of results written, one list of results for each row, and counted. -/
def writeRows (t f a stride : Nat) (rows : List (List Rnd)) (s : State) : State :=
  let s := ((List.range rows.length).zip rows).foldl (fun s x =>
    storeLocal t (a + x.1 * stride) (packRow f (x.2.map (·.code))) s) s
  countArith t rows.flatten s

-- ---------------------------------------------------------------- MMA: fields and checks (R105-R108, R608)

/-- M, N and K of an MMA or MMA_LAM. -/
def mOf (d : Nat) : Nat := fld d 199 195 + 1
def nOf (d : Nat) : Nat := fld d 194 190 + 1
def kOf (d : Nat) : Nat := fld d 271 256

/-- The pair is one of R107: MAC per cycle, and whether it accumulates in INT32. -/
def mmaPair (a b : Nat) : Option (Nat × Bool) :=
  let four (f : Nat) : Bool := f = 0xB || f = 0xC
  let small (f : Nat) : Bool := 5 ≤ f && f ≤ 0xC
  if (a = 3 ∧ b = 3) ∨ (a = 4 ∧ b = 4) then some (512, false)
  else if four a && four b then some (2048, false)
  else if small a && small b then some (1024, false)
  else if a = 0xD ∧ b = 0xD then some (1024, false)
  else if a = 0xE ∧ b = 0xE then some (1024, true)
  else none

/-- The output formats of R107. -/
def mmaOut (int : Bool) (f : Nat) : Bool := if int then isInt f else 2 ≤ f && f ≤ 6

/-- Alignment of R106, shared by MMA and MMA_LAM: operands to 8 bytes, C and D to 64. -/
def mmaAlign (d : Nat) : Option TFault :=
  if fld d 351 320 % 8 ≠ 0 then some { code := 4, info := fld d 351 320 }
  else if fld d 383 352 % 8 ≠ 0 then some { code := 4, info := fld d 383 352 }
  else if fld d 287 272 % 8 ≠ 0 ∨ fld d 303 288 % 8 ≠ 0 then some { code := 4 }
  else if fld d 511 480 % 64 ≠ 0 then some { code := 4, info := fld d 511 480 }
  else if fld d 479 448 % 64 ≠ 0 then some { code := 4, info := fld d 479 448 }
  else none

/-- Local ranges that an MMA reads (R106). -/
def mmaReads (d : Nat) : List (Nat × Nat) :=
  let fa := fld d 167 164
  let fb := fld d 171 168
  rowsOf (fld d 351 320) (fld d 287 272) (kOf d) (packedBytes fa (mOf d)) ++
  rowsOf (fld d 383 352) (fld d 303 288) (kOf d) (packedBytes fb (nOf d)) ++
  (if isMx fa then rowsOf (fld d 415 384) 32 (cdiv (kOf d) 32) (mOf d) else []) ++
  (if isMx fb then rowsOf (fld d 447 416) 32 (cdiv (kOf d) 32) (nOf d) else []) ++
  (if fld d 187 186 = 2 then rowsOf (fld d 479 448) 128 (mOf d) (4 * nOf d) else [])

/-- Local ranges that an MMA writes. -/
def mmaWrites (d : Nat) : List (Nat × Nat) :=
  if bitOf d 185 then rowsOf (fld d 511 480) (fld d 319 304) (mOf d) (packedBytes (fld d 175 172) (nOf d)) else []

/-- An accumulator set of a tile: false the first, true the second. -/
def accOf (x : Tile) (b : Bool) : AccSet := if b then x.acc1 else x.acc0

/-- The same, written. -/
def putAcc (b : Bool) (a : AccSet) (x : Tile) : Tile := if b then { x with acc1 := a } else { x with acc0 := a }

/-- The set that an MMA uses (R108); none raises ACC_STATE. -/
def accSet (x : Tile) (acc : Nat) : Option Bool :=
  if acc = 0 then (match x.prev with | some b => if (accOf x b).held then some b else none | none => none)
  else match x.acc0.held, x.acc1.held with
    | false, false => some (match x.prev with | some b => !b | none => false)
    | false, true => some false
    | true, false => some true
    | true, true => none

/-- Checks of an MMA in the order of R608. -/
def mmaFault (s : State) (t d : Nat) : Option TFault :=
  let fa := fld d 167 164
  let fb := fld d 171 168
  let out := fld d 175 172
  let pair := mmaPair fa fb
  let rate := (pair.map (·.1)).getD 0
  firstFault [
    bad 2 (pair.isNone || !mmaOut ((pair.map (·.2)).getD false) out || badMode (fld d 189 188) out),
    bad 5 (fld d 187 186 = 3 || kOf d = 0 || ((isMx fa || isMx fb) && kOf d % 32 != 0) || (rate = 2048 && kOf d % 2 != 0)),
    mmaAlign d, badLocal inTile (mmaReads d ++ mmaWrites d), sigFault s t d,
    bad 0xB (accSet (tile s t) (fld d 187 186)).isNone]

-- ---------------------------------------------------------------- MMA: the product (R154, R157, R159)

/-- The exact sum of products of a group (R154). -/
def groupSum (l : List (Num × Num)) : Num := l.foldl (fun a x => Num.add a (Num.mul x.1 x.2)) (.fin true 0 0)

/-- A group sum scaled, flushed with an MX operand, and rounded to FP32 (R154, R157). -/
def scaledSum (mx : Bool) (sa sb : Option Int) (x : Num) : Num :=
  match sa, sb with
  | some a, some b => let y := Num.shift (a + b) x; fp32.op (if mx then Num.flush y else y)
  | _, _ => .nan

/-- The operand panels of an MMA: element values by k, then the scales by group; 2^0 without a block scale. -/
structure Panels where
  a : List (List Nat)
  b : List (List Nat)
  sa : List (List Nat)
  sb : List (List Nat)

/-- The panels as read (R106). -/
def panels (s : State) (t d : Nat) : Panels :=
  let fa := fld d 167 164
  let fb := fld d 171 168
  let g := cdiv (kOf d) 32
  { a := (List.range (kOf d)).map (fun k => rowAt s t fa (fld d 351 320 + k * fld d 287 272) (mOf d)),
    b := (List.range (kOf d)).map (fun k => rowAt s t fb (fld d 383 352 + k * fld d 303 288) (nOf d)),
    sa := if isMx fa then (List.range g).map (fun i => rowAt s t 0xE (fld d 415 384 + 32 * i) (mOf d)) else [],
    sb := if isMx fb then (List.range g).map (fun i => rowAt s t 0xE (fld d 447 416 + 32 * i) (nOf d)) else [] }

/-- The scale of a group: 2^0 in a format without block scales. -/
def scaleOf (mx : Bool) (l : List (List Nat)) (g i : Nat) : Option Int :=
  if mx then scaleExp (nth (l.getD g []) i) else some 0

/-- The products of element (m, n) in group g. -/
def groupPairs (p : Panels) (fa fb m n g : Nat) : List (Num × Num) :=
  (((p.a.drop (32 * g)).take 32).zip ((p.b.drop (32 * g)).take 32)).map (fun x =>
    (elemNum fa (nth x.1 m), elemNum fb (nth x.2 n)))

/-- The new FP32 image of an accumulator element (R157). -/
def mmaFloat (p : Panels) (d m n acc : Nat) : Nat :=
  let fa := fld d 167 164
  let fb := fld d 171 168
  let mx := isMx fa || isMx fb
  (List.range (cdiv (kOf d) 32)).foldl (fun acc g =>
    let x := scaledSum mx (scaleOf (isMx fa) p.sa g m) (scaleOf (isMx fb) p.sb g n) (groupSum (groupPairs p fa fb m n g))
    (fp32.round 0 false 0 (Num.add (fp32.decode acc) x)).code) acc

/-- The new INT32 image of an accumulator element, and whether it saturated (R159). -/
def mmaInt (p : Panels) (m n acc : Nat) : Nat × Bool :=
  let sum := (p.a.zip p.b).foldl (fun i x => i + sext 8 (nth x.1 m) * sext 8 (nth x.2 n)) (0 : Int)
  let (i, b) := satInt 32 (sext 32 acc + sum)
  (wrapI 32 i, b)

/-- The value from which an element starts (R108, R157): +0, the image, or the held value. An element that a smaller LOAD
left without a value is free. -/
def accStart (s : State) (t d : Nat) (a : AccSet) (m n : Nat) : Nat :=
  match fld d 187 186 with
  | 1 => 0
  | 2 => leNat (localBytes s t (fld d 479 448 + 128 * m + 4 * n) 4)
  | _ => if a.unset.contains (32 * m + n) then Config.freeNat 62 (1024 * s.free + 32 * m + n) % 2 ^ 32
         else FMap.get 0 a.vals (32 * m + n)

/-- The elements of the block, row by row. -/
def cells (d : Nat) : List (Nat × Nat) := (List.range (mOf d)).flatMap (fun m => (List.range (nOf d)).map (fun n => (m, n)))

/-- The set after the products of an MMA: its elements, and the saturations (R157, R159). CONTINUE takes the 32-bit images that
the set holds, also where they were accumulated in the other format (R108, log 106). -/
def mmaSet (s : State) (t d : Nat) (a : AccSet) : AccSet × Nat :=
  let p := panels s t d
  let int := ((mmaPair (fld d 167 164) (fld d 171 168)).map (·.2)).getD false
  let new := (cells d).map (fun x =>
    let v := accStart s t d a x.1 x.2
    (32 * x.1 + x.2, if int then mmaInt p x.1 x.2 v else (mmaFloat p d x.1 x.2 v, false)))
  let inside (i : Nat) : Bool := decide (i / 32 < mOf d) && decide (i % 32 < nOf d)
  ({ held := true, vals := new.foldl (fun f x => FMap.set 0 f x.1 x.2.1) (if fld d 187 186 = 0 then a.vals else []),
     unset := match fld d 187 186 with
       | 1 => []
       | 2 => (List.range 1024).filter (fun i => !inside i)
       | _ => a.unset.filter (fun i => !inside i) },
   (new.filter (fun x => x.2.2)).length)

/-- One element written out (R160): an FP32 or INT32 accumulator unchanged in its own format. -/
def accOut (int : Bool) (out rm : Nat) (sat : Bool) (r v : Nat) : Rnd :=
  if int then (if out = 0xF then ⟨v, false, false⟩ else roundInt 8 0 0 (Num.ofInt false (sext 32 v) 0))
  else if out = 2 then ⟨v, decide (fp32.decode v = .nan), false⟩
  else convert out rm sat r (fp32.decode v)

/-- The rows that a write-out stores. -/
def outRows (s : State) (t d : Nat) (a : AccSet) : List (List Rnd) :=
  let int := ((mmaPair (fld d 167 164) (fld d 171 168)).map (·.2)).getD false
  let out := fld d 175 172
  (List.range (mOf d)).map (fun m => (List.range (nOf d)).map (fun n =>
    accOut int out (fld d 189 188) (bitOf d 184) (drawAt s t 0 (m * nOf d + n)) (FMap.get 0 a.vals (32 * m + n))))

/-- The effect of an MMA whose checks have passed. -/
def mmaRun (t d : Nat) (s : State) : State :=
  match accSet (tile s t) (fld d 187 186) with
  | none => s
  | some b =>
    let a := accOf (tile s t) b
    let (a', sats) := mmaSet s t d a
    let s := if fld d 187 186 = 0 ∧ a.unset ≠ [] then takeFree s else s
    let s := countSat (clBlk (t / 64)) (posCtr (t % 64) 10) sats s
    let s' := modTile t (fun x => { putAcc b (if bitOf d 185 then {} else a') x with prev := some b }) s
    if !bitOf d 185 then s'
    else
      let s' := writeRows t (fld d 175 172) (fld d 511 480) (fld d 319 304) (outRows s t d a') s'
      if fld d 189 188 = 2 then takeDraws t 0 (mOf d * nOf d) s' else s'

/-- MMA (R105-R108, R157, R160). -/
def execMma (c : Fin 36) (n : Fin 64) (ts : StoreReads) (s : State) : Out :=
  let t := 64 * c.val + n.val
  .next (runUnit .matrix 0x01 t ts (fun s d => mmaFault s t d) mmaReads (fun d s => (none, mmaRun t d s)) s)

-- ---------------------------------------------------------------- MMA_LAM: slicing (R180-R182)

/-- SLICES of a descriptor; none where it raises BAD_SHAPE (R177). -/
def slicesOf (d : Nat) : Option Nat :=
  match fld d 183 180 with
  | 0 => some 7 | 7 => some 7 | 6 => some 6 | 8 => some 8
  | _ => none

/-- The spread limit (R182). -/
def spreadOk (sl : Nat) (spread : Int) : Bool :=
  match sl with
  | 7 => spread ≤ 2
  | 8 => spread ≤ 10
  | _ => true

/-- The `n` low balanced base-256 digits of an integer, low first, and what is left (R181). -/
def balanced : Nat → Int → List Int × Int
  | 0, x => ([], x)
  | n + 1, x =>
    let v := sext 8 (wrapI 8 x)
    let (l, r) := balanced n ((x - v) / 256)
    (v :: l, r)

/-- A sliced block (R181): no element but zeros, slices with the block exponent (most significant slice first, each a list by
element), or one of the two fallbacks. -/
inductive LamBlock where
  | zero
  | cut (e : Int) (d : List (List Int))
  | spread
  | special

/-- Slices of a block at exponent `e`, or none where a top digit would be 128. -/
def slicesAt (sl : Nat) (e : Int) (xs : List Num) : Option (List (List Int)) :=
  let cutOne : Num → List Int × Int
    | .fin neg m g => balanced sl (signedOf neg (toUnits 0 0 m g (e + 2 - 8 * sl)))
    | _ => ([], 0)
  let l := xs.map cutOne
  if l.any (fun x => x.2 != 0) then none
  else some ((List.range sl).map (fun j => l.map (fun x => x.1.getD (sl - 1 - j) 0)))

/-- Slicing at the lowest exponent, from `e` up, at which it succeeds. -/
def sliceFrom (sl : Nat) (xs : List Num) : Nat → Int → Option (Int × List (List Int))
  | 0, _ => none
  | f + 1, e => match slicesAt sl e xs with
    | some d => some (e, d)
    | none => sliceFrom sl xs f (e + 1)

/-- Slices one lamination block (R181). -/
def sliceBlock (sl : Nat) (xs : List Num) : LamBlock :=
  if xs.any (fun x => match x with | .fin .. => false | _ => true) then .special
  else
    let es : List Int := xs.filterMap (fun x => match x with
      | .fin _ m g => if m = 0 then none else some (topExp m g) | _ => none)
    match es with
    | [] => .zero
    | e :: r =>
      match sliceFrom sl xs 4 (r.foldl max e) with
      | none => .spread
      | some (b, d) => if spreadOk sl (b - r.foldl min e) then .cut b d else .spread

-- ---------------------------------------------------------------- MMA_LAM: accumulation (R183-R187)

/-- The contribution v × 2^w of scale g (R185): ANCHOR rises to g − 174 where that is higher, VALUE shifts right with it, and
bits below the anchor are truncated toward −∞. -/
def lamAdd (a : LamAcc) (g v w : Int) : LamAcc :=
  let new : Int := max a.anchor.toInt (g - 174)
  let old := a.value.toInt / 2 ^ (new - a.anchor.toInt).toNat
  let x := if new ≤ w then v * 2 ^ (w - new).toNat else v / 2 ^ (new - w).toNat
  { a with anchor := BitVec.ofInt 13 new, value := BitVec.ofInt 192 (old + x) }

/-- An FP64 contribution: the loaded c or a fallback partial (R184-R187). NAN also marks infinities of both signs. -/
def lamNum (a : LamAcc) : Num → LamAcc
  | .nan => { a with nan := true }
  | .inf false => { a with pinf := true, nan := a.nan || a.ninf }
  | .inf true => { a with ninf := true, nan := a.nan || a.pinf }
  | .fin neg m e => if m = 0 then a else lamAdd a (topExp m e + 1) (signedOf neg m) e

/-- The products of two sliced blocks, t ascending, then i ascending (R183). -/
def lamTerms (sl : Nat) (ea : Int) (da : List (List Int)) (eb : Int) (db : List (List Int)) (a : LamAcc) : LamAcc :=
  ((List.range sl).flatMap (fun t => (List.range (t + 1)).map (fun i => (t, i)))).foldl (fun a x =>
    let dot := ((da.getD x.2 []).zip (db.getD (x.1 - x.2) [])).foldl (fun i y => i + y.1 * y.2) (0 : Int)
    lamAdd a (ea + eb + 2) dot (ea + eb - 12 - 8 * x.1)) a

/-- The FMA chain of a product whose block falls back (R187). -/
def lamChain (as bs : List Num) : Num :=
  (as.zip bs).foldl (fun acc x => fp64.op (Num.add (Num.mul x.1 x.2) acc)) (.fin false 0 0)

/-- One k-block of one output element. -/
def lamStep (sl : Nat) (ba bb : LamBlock) (as bs : List Num) (a : LamAcc) : LamAcc :=
  match ba, bb with
  | .cut ea da, .cut eb db => lamTerms sl ea da eb db a
  | .zero, .cut _ _ => a
  | .cut _ _, .zero => a
  | .zero, .zero => a
  | _, _ => lamNum a (lamChain as bs)

/-- Write-out of an accumulator (R186). -/
def lamOut (rm : Nat) (sat : Bool) (a : LamAcc) : Rnd :=
  if a.nan || (a.pinf && a.ninf) then ⟨fp64.nanCode, true, false⟩
  else if a.pinf then ⟨fp64.signed false (fp64.maxCode + 1), false, false⟩
  else if a.ninf then ⟨fp64.signed true (fp64.maxCode + 1), false, false⟩
  else fp64.round rm sat 0 (Num.ofInt false a.value.toInt a.anchor.toInt)

-- ---------------------------------------------------------------- MMA_LAM: the descriptor (R174-R179, R188)

/-- Local ranges that an MMA_LAM reads (R178). -/
def lamReads (d : Nat) : List (Nat × Nat) :=
  rowsOf (fld d 351 320) (fld d 287 272) (kOf d) (8 * mOf d) ++
  rowsOf (fld d 383 352) (fld d 303 288) (kOf d) (8 * nOf d) ++
  (if fld d 187 186 = 2 then rowsOf (fld d 479 448) 256 (mOf d) (8 * nOf d) else [])

/-- Checks of an MMA_LAM in the order of R608. -/
def lamFault (s : State) (t d : Nat) : Option TFault :=
  firstFault [
    bad 0xC (s.ident.variant = .l),
    bad 2 (fld d 175 164 != 0x111 || decide (2 ≤ fld d 189 188)),
    bad 5 (fld d 187 186 = 0 || fld d 187 186 = 3 || (slicesOf d).isNone || kOf d = 0),
    mmaAlign d,
    badLocal inTile (lamReads d ++ rowsOf (fld d 511 480) (fld d 319 304) (mOf d) (8 * nOf d)), sigFault s t d]

/-- Column `i` of k-block `b` of a panel. -/
def lamColumn (l : List (List Nat)) (b i : Nat) : List Num :=
  ((l.drop (32 * b)).take 32).map (fun r => fp64.decode (nth r i))

/-- Blocks of a k-block that fell back. -/
def fellBack (l : List LamBlock) : Nat × Nat :=
  ((l.filter (fun x => match x with | .spread => true | _ => false)).length,
   (l.filter (fun x => match x with | .special => true | _ => false)).length)

/-- The effect of an MMA_LAM whose checks have passed. D is written whole in the one step, never in part (R179, log 99). -/
def lamRun (t d : Nat) (s : State) : State :=
  let sl := (slicesOf d).getD 7
  let kb := List.range (cdiv (kOf d) 32)
  let a := (List.range (kOf d)).map (fun k => rowAt s t 1 (fld d 351 320 + k * fld d 287 272) (mOf d))
  let b := (List.range (kOf d)).map (fun k => rowAt s t 1 (fld d 383 352 + k * fld d 303 288) (nOf d))
  let as (m : Nat) : List (List Num) := kb.map (fun i => lamColumn a i m)
  let bs (n : Nat) : List (List Num) := kb.map (fun i => lamColumn b i n)
  let ca := (List.range (mOf d)).map (fun m => ((as m).map (sliceBlock sl), as m))
  let cb := (List.range (nOf d)).map (fun n => ((bs n).map (sliceBlock sl), bs n))
  let accs := (List.range (mOf d)).map (fun m => (List.range (nOf d)).map (fun n =>
    let x := ca.getD m ([], [])
    let y := cb.getD n ([], [])
    let start := if fld d 187 186 = 2 then lamNum {} (fp64.decode (leNat (localBytes s t (fld d 479 448 + 256 * m + 8 * n) 8)))
      else {}
    kb.foldl (fun acc i =>
      lamStep sl (x.1.getD i .zero) (y.1.getD i .zero) (x.2.getD i []) (y.2.getD i []) acc) start))
  let f := fellBack (ca.flatMap (·.1) ++ cb.flatMap (·.1))
  let blk := clBlk (t / 64)
  let s := countSat blk (posCtr (t % 64) 13) f.2 (countSat blk (posCtr (t % 64) 12) f.1
    (countSat blk (posCtr (t % 64) 11) kb.length s))
  let s := modTile t (fun x => { x with lam := accs.flatten }) s
  writeRows t 1 (fld d 511 480) (fld d 319 304) (accs.map (fun l => l.map (lamOut (fld d 189 188) (bitOf d 184)))) s

/-- MMA_LAM (R174-R188). -/
def execMmaLam (c : Fin 36) (n : Fin 64) (ts : StoreReads) (s : State) : Out :=
  let t := 64 * c.val + n.val
  .next (runUnit .matrix 0x02 t ts (fun s d => lamFault s t d) lamReads (fun d s => (none, lamRun t d s)) s)

end Sys2Proof.Machine
end

