-- ==== Sys2Proof/Machine/Vector.lean ====
section
/-!
DEFINITION. The vector unit (VEC, R110-R112, R155-R156, R161-R164), the reduction path (RED, R115-R116, R165-R167) and the
nonlinear-function unit (NLF, R113-R114, R168-R170). Every operand is read before a result is written.
-/
namespace Sys2Proof.Machine

/-- The six floating-point formats of R161. -/
def plainFloat (f : Nat) : Bool := 1 ≤ f && f ≤ 6

-- ---------------------------------------------------------------- VEC: fields and checks (R110-R112, R161)

def vecRows (d : Nat) : Nat := fld d 255 240
def vecCols (d : Nat) : Nat := fld d 239 224
def vecFn (d : Nat) : Nat := fld d 159 152
def vecIn (d : Nat) : Nat := fld d 139 136
def vecOut (d : Nat) : Nat := fld d 143 140

/-- Functions that read y. -/
def usesY (fn : Nat) : Bool := [1, 2, 3, 4, 5, 6, 8].contains fn

/-- The combination of function and formats is one of R111, R155 and R161. -/
def vecFormats (fn fi fo : Nat) : Bool :=
  if fn = 9 then fi != 0 && fo != 0 && (!isMx fo || fi = 2 || fi = 3 || fi = 4)
  else if isInt fi then isInt fo && [1, 2, 3, 5, 6, 0xA, 0xB].contains fn
  else plainFloat fi && plainFloat fo

/-- Address and length of the part of y that row r uses, by Y_BC (R110): a row, one element, one row for all, or one
element of a contiguous column. -/
def vecYAt (d r : Nat) : Nat × Nat :=
  let w := bitsOfFmt (vecIn d) / 8
  match fld d 151 150 with
  | 0 => (fld d 383 352 + r * fld d 287 272, w * vecCols d)
  | 1 => (fld d 383 352, w)
  | 2 => (fld d 383 352, w * vecCols d)
  | _ => (fld d 383 352 + r * w, w)

/-- Local ranges that a VEC reads. -/
def vecReads (d : Nat) : List (Nat × Nat) :=
  rowsOf (fld d 351 320) (fld d 271 256) (vecRows d) (packedBytes (vecIn d) (vecCols d)) ++
  (if usesY (vecFn d) then (List.range (vecRows d)).map (vecYAt d) else []) ++
  (if vecFn d = 4 then rowsOf (fld d 415 384) (fld d 303 288) (vecRows d) (packedBytes (vecIn d) (vecCols d)) else []) ++
  (if isMx (vecIn d) then rowsOf (fld d 383 352) (vecCols d / 32) (vecRows d) (vecCols d / 32) else [])

/-- Local ranges that a VEC writes. -/
def vecWrites (d : Nat) : List (Nat × Nat) :=
  rowsOf (fld d 447 416) (fld d 319 304) (vecRows d) (packedBytes (vecOut d) (vecCols d)) ++
  (if isMx (vecOut d) then rowsOf (fld d 415 384) (vecCols d / 32) (vecRows d) (vecCols d / 32) else [])

/-- Checks of a VEC in the order of R608. -/
def vecFault (s : State) (t d : Nat) : Option TFault :=
  firstFault [
    bad 1 (vecFn d = 0 || decide (0xB < vecFn d)),
    bad 2 (!vecFormats (vecFn d) (vecIn d) (vecOut d) || badMode (fld d 149 148) (vecOut d)),
    bad 5 (vecRows d = 0 || vecCols d = 0 || ((isMx (vecIn d) || isMx (vecOut d)) && vecCols d % 32 != 0) ||
      !wholeRow (vecIn d) (vecCols d) || !wholeRow (vecOut d) (vecCols d)),
    badLocal inTile (vecReads d ++ vecWrites d), sigFault s t d]

-- ---------------------------------------------------------------- VEC: the functions (R111, R146, R162-R164)

/-- A function of R111 computed exactly. -/
def vecExact (fn : Nat) (s x y z : Num) : Num :=
  match fn with
  | 1 => Num.add x y
  | 2 => Num.add x (Num.neg y)
  | 3 => Num.mul x y
  | 4 => Num.add (Num.mul x y) z
  | 5 => Num.max x y
  | 6 => Num.min x y
  | 7 => Num.mul s x
  | 8 => Num.add (Num.mul s x) y
  | 0xA => Num.abs x
  | 0xB => Num.neg x
  | _ => x

/-- A result in OUT_FMT (R146): rounded once where OUT_FMT is the compute format or the function converts, else first to
the compute format. The second part counts the saturations of the operation itself (R164). -/
def vecResult (fn fi fo rm : Nat) (sat : Bool) (r : Nat) (x : Num) : Rnd × Nat :=
  if fn = 9 then (convert fo rm sat r x, 0)
  else if isInt fi then
    let i := roundInt 32 0 0 x
    (if fo = 0xF then i else roundInt 8 0 0 (elemNum 0xF i.code), if fo = 0xF then 0 else b2n i.sat)
  else
    let comp := if fi = 1 then 1 else 2
    if fo = comp then (convert fo rm sat r x, 0)
    else (convert fo rm sat r ((if fi = 1 then fp64 else fp32).op x), 0)

/-- The immediate s (R110, R162). -/
def vecScalar (d : Nat) : Num :=
  if vecIn d = 1 then fp64.decode (fld d 511 448)
  else if isInt (vecIn d) then elemNum 0xF (fld d 479 448)
  else fp32.decode (fld d 479 448)

/-- Row r of x, with its block scales where it is MX: exact, then flushed (R153, R156). -/
def vecX (s : State) (t d r : Nat) : List Num :=
  let l := (rowAt s t (vecIn d) (fld d 351 320 + r * fld d 271 256) (vecCols d)).map (elemNum (vecIn d))
  if isMx (vecIn d) then
    let sc := rowAt s t 0xE (fld d 383 352 + r * (vecCols d / 32)) (vecCols d / 32)
    (List.range (vecCols d)).map (fun i => match scaleExp (nth sc (i / 32)) with
      | some e => Num.flush (Num.shift e (l.getD i .nan))
      | none => .nan)
  else l

/-- Row r of y (R110). -/
def vecYRow (s : State) (t d r : Nat) : List Num :=
  let a := (vecYAt d r).1
  let one (f : Nat) : Bool := f = 1 || f = 3
  if !usesY (vecFn d) then []
  else if one (fld d 151 150) then List.replicate (vecCols d) (elemNum (vecIn d) (elemAt s t (vecIn d) a))
  else (rowAt s t (vecIn d) a (vecCols d)).map (elemNum (vecIn d))

/-- Row r of z. -/
def vecZRow (s : State) (t d r : Nat) : List Num :=
  if vecFn d = 4 then (rowAt s t (vecIn d) (fld d 415 384 + r * fld d 303 288) (vecCols d)).map (elemNum (vecIn d)) else []

/-- Row r of the result where OUT_FMT is not MX. -/
def vecRow (s : State) (t d r : Nat) : List (Rnd × Nat) :=
  let x := vecX s t d r
  let y := vecYRow s t d r
  let z := vecZRow s t d r
  (List.range (vecCols d)).map (fun c =>
    vecResult (vecFn d) (vecIn d) (vecOut d) (fld d 149 148) (bitOf d 147) (drawAt s t 1 (r * vecCols d + c))
      (vecExact (vecFn d) (vecScalar d) (x.getD c .nan) (y.getD c .nan) (z.getD c .nan)))

/-- Row r converted to an MX format: the scales and the elements (R155). -/
def vecMxRow (s : State) (t d r : Nat) : List Rnd × List Rnd :=
  let x := vecX s t d r
  let l := (List.range (vecCols d / 32)).map (fun b =>
    mxBlock (vecOut d) (fld d 149 148) (fun i => drawAt s t 1 (r * vecCols d + 32 * b + i)) ((x.drop (32 * b)).take 32))
  (l.map (·.1), l.flatMap (·.2))

/-- The effect of a VEC whose checks have passed. -/
def vecRun (t d : Nat) (s : State) : State :=
  let rows := List.range (vecRows d)
  let s' :=
    if isMx (vecOut d) then
      let l := rows.map (vecMxRow s t d)
      writeRows t 0xE (fld d 415 384) (vecCols d / 32) (l.map (·.1))
        (writeRows t (vecOut d) (fld d 447 416) (fld d 319 304) (l.map (·.2)) s)
    else
      let l := rows.map (vecRow s t d)
      countSat (clBlk (t / 64)) (posCtr (t % 64) 10) ((l.flatten.map (·.2)).sum)
        (writeRows t (vecOut d) (fld d 447 416) (fld d 319 304) (l.map (fun r => r.map (·.1))) s)
  if fld d 149 148 = 2 then takeDraws t 1 (vecRows d * vecCols d) s' else s'

/-- VEC (R111). -/
def execVec (c : Fin 36) (n : Fin 64) (ts : StoreReads) (s : State) : Out :=
  let t := 64 * c.val + n.val
  .next (runUnit .vector 0x03 t ts (fun s d => vecFault s t d) vecReads (fun d s => (none, vecRun t d s)) s)

-- ---------------------------------------------------------------- RED (R115, R116, R165-R167)

def redRows (d : Nat) : Nat := fld d 431 416
def redCols (d : Nat) : Nat := fld d 415 400
def redOp (d : Nat) : Nat := fld d 159 152
def redMode (d : Nat) : Nat := fld d 151 150
def redIn (d : Nat) : Nat := fld d 139 136
def redOut (d : Nat) : Nat := fld d 143 140

/-- The formats of a reduction (R116, R161). -/
def redFormats (op mode fi fo : Nat) : Bool :=
  (plainFloat fi || isInt fi) &&
    (if mode = 2 then fo = 1 || fo = 2 || fo = 0xF
     else if op = 5 then fo = 0xF
     else if isInt fi then isInt fo else plainFloat fo)

/-- Rows of X. -/
def redX (d : Nat) : List (Nat × Nat) := rowsOf (fld d 479 448) (fld d 447 432) (redRows d) (packedBytes (redIn d) (redCols d))

/-- Rows of D in ACCUM mode. -/
def redD (d : Nat) : List (Nat × Nat) := rowsOf (fld d 511 480) (fld d 399 384) (redRows d) (packedBytes (redOut d) (redCols d))

/-- Results of ROWS or COLS. -/
def redCount (d : Nat) : Nat := if redMode d = 0 then redRows d else redCols d

/-- Checks of a RED in the order of R608. -/
def redFault (s : State) (t d : Nat) : Option TFault :=
  firstFault [
    bad 1 (redOp d = 0 || decide (5 < redOp d)),
    bad 2 (!redFormats (redOp d) (redMode d) (redIn d) (redOut d) || badMode (fld d 149 148) (redOut d) ||
      (redMode d = 2 && (decide (2 ≤ fld d 149 148) || decide (4 ≤ redOp d)))),
    bad 5 (redMode d = 3 || redRows d = 0 || redCols d = 0),
    badLocal inTile (redX d),
    if redMode d = 2 then badLocal inCluster (redD d)
    else badLocal inTile [(fld d 511 480, packedBytes (redOut d) (redCount d))],
    sigFault s t d]

/-- A carried value and how often the INT64 carry saturated on the way to it (R165). -/
abbrev Carry := Num × Nat

/-- One operation rounded to the carry format: FP64, FP32 or INT64 (R116, R165). -/
def carryOf (fi : Nat) (x : Num) : Carry :=
  if isInt fi then
    let i := roundInt 64 0 0 x
    (Num.ofInt false (sext 64 i.code) 0, b2n i.sat)
  else ((if fi = 1 then fp64 else fp32).op x, 0)

/-- One addition of carried values. -/
def carryAdd (fi : Nat) (a b : Carry) : Carry :=
  let r := carryOf fi (Num.add a.1 b.1)
  (r.1, a.2 + b.2 + r.2)

/-- One level of the tree: values 2i and 2i + 1 are added, one without a partner passes (R165). -/
def pairUp (fi : Nat) : List Carry → List Carry
  | a :: b :: r => carryAdd fi a b :: pairUp fi r
  | l => l

/-- A chunk's tree of six levels. -/
def chunkSum (fi : Nat) (l : List Carry) : List Carry :=
  (List.range 6).foldl (fun l _ => pairUp fi l) l

/-- A list summed from its first value on, in order. -/
def sumUp (fi : Nat) : List Carry → Carry
  | [] => (.fin false 0 0, 0)
  | a :: r => r.foldl (carryAdd fi) a

/-- Sum of one row: chunks of 64, each by its tree, then the chunk sums in order (R165). -/
def rowSum (fi : Nat) (l : List Carry) : Carry :=
  sumUp fi ((List.range (cdiv l.length 64)).flatMap (fun k => chunkSum fi ((l.drop (64 * k)).take 64)))

/-- Index of the first largest element that is no NaN (R116, R166). -/
def argMax (l : List Num) : Nat :=
  let best := ((List.range l.length).zip l).foldl (fun (b : Option (Nat × Num)) x =>
    if x.2 = .nan then b
    else match b with
      | none => some x
      | some y => if Num.lt y.2 x.2 then some x else b) none
  match best with | some x => x.1 | none => 0xFFFFFFFF

/-- The largest or smallest of a list (R163). -/
def pick (f : Num → Num → Num) : List Num → Num
  | [] => .nan
  | a :: r => r.foldl f a

/-- One result of ROWS or COLS: rounded to OUT_FMT, with the saturations of the carry. A RED has no SAT field (R115): an
overflow is taken as with SAT = 0 (log 98). -/
def redResult (d r : Nat) (byRow : Bool) (l : List Num) : Rnd × Nat :=
  let fi := redIn d
  let out (x : Num) : Rnd := convert (redOut d) (fld d 149 148) false r x
  let sums (l : List Carry) : Rnd × Nat := let c := if byRow then rowSum fi l else sumUp fi l; (out c.1, c.2)
  match redOp d with
  | 1 => sums (l.map (fun x => (x, 0)))
  | 2 => (out (pick Num.max l), 0)
  | 3 => (out (pick Num.min l), 0)
  | 4 => sums (l.map (fun x => carryOf fi (Num.mul x x)))
  | _ => (⟨argMax l, false, false⟩, 0)

/-- The elements of X, row by row. -/
def redRowsOf (s : State) (t d : Nat) : List (List Num) :=
  (redX d).map (fun x => (rowAt s t (redIn d) x.1 (redCols d)).map (elemNum (redIn d)))

/-- The effect of a ROWS or COLS reduction. -/
def redReduce (t d : Nat) (s : State) : State :=
  let x := redRowsOf s t d
  let l := if redMode d = 0 then x else (List.range (redCols d)).map (fun c => x.map (fun r => r.getD c .nan))
  let res := ((List.range l.length).zip l).map (fun y => redResult d (drawAt s t 3 y.1) (redMode d = 0) y.2)
  let s := countSat (clBlk (t / 64)) (posCtr (t % 64) 10) (res.map (·.2)).sum s
  let s := writeRows t (redOut d) (fld d 511 480) 0 [res.map (·.1)] s
  if fld d 149 148 = 2 then takeDraws t 3 l.length s else s

/-- One row of an ACCUM reduction: the elements of X combined into the elements that D holds at `a`, in D's format (R167).
A floating-point X into INT32 D is added exactly and rounded by RMODE; a NaN gives 0 (R148, log 98). -/
def redUpdate (t d a : Nat) (xs : List Num) (s : State) : State :=
  let op := match redOp d with | 1 => Num.add | 2 => Num.max | _ => Num.min
  let row := ((rowAt s t (redOut d) a (redCols d)).zip xs).map (fun z =>
    convert (redOut d) (fld d 149 148) false 0 (op z.2 (elemNum (redOut d) z.1)))
  writeRows t (redOut d) a 0 [row] s

/-- The effect of an ACCUM reduction (R116, R167): X combined into D row after row, so that rows of D that overlap take every
update. -/
def redAccum (t d : Nat) (s : State) : State :=
  ((redD d).zip (redRowsOf s t d)).foldl (fun s y => redUpdate t d y.1.1 y.2 s) s

/-- RED (R116). -/
def execRed (c : Fin 36) (n : Fin 64) (ts : StoreReads) (s : State) : Out :=
  let t := 64 * c.val + n.val
  .next (runUnit .vector 0x05 t ts (fun s d => redFault s t d) (fun d => redX d ++ (if redMode d = 2 then redD d else []))
    (fun d s => (none, if redMode d = 2 then redAccum t d s else redReduce t d s)) s)

-- ---------------------------------------------------------------- NLF (R113, R114, R168-R170)

/-- Rows of an NLF operand. -/
def nlfX (d : Nat) : List (Nat × Nat) :=
  rowsOf (fld d 383 352) (fld d 335 320) (fld d 319 304) (packedBytes (fld d 139 136) (fld d 303 288))

/-- Rows of an NLF result. -/
def nlfD (d : Nat) : List (Nat × Nat) :=
  rowsOf (fld d 415 384) (fld d 351 336) (fld d 319 304) (packedBytes (fld d 143 140) (fld d 303 288))

/-- The formats of NLF (R113). -/
def nlfFmt (f : Nat) : Bool := 2 ≤ f && f ≤ 6

/-- Checks of an NLF in the order of R608. -/
def nlfFault (s : State) (t d : Nat) : Option TFault :=
  firstFault [
    bad 1 (fld d 159 152 = 0 || decide (0xF < fld d 159 152)),
    bad 2 (!nlfFmt (fld d 139 136) || !nlfFmt (fld d 143 140) || badMode (fld d 151 150) (fld d 143 140)),
    bad 5 (fld d 319 304 = 0 || fld d 303 288 = 0),
    badLocal inTile (nlfX d ++ nlfD d), sigFault s t d]

/-- The exact function, compared: a × 2^e ≤ f(m × 2^g), for RECIP, SQRT and RSQRT of a positive argument. -/
def rootLe (fn m : Nat) (g : Int) (a : Nat) (e : Int) : Bool :=
  match fn with
  | 5 => magGe false 1 0 (a * m) (e + g)
  | 6 => magGe false m g (a * a) (2 * e)
  | _ => magGe false 1 0 (a * a * m) (2 * e + g)

/-- The same from above: f(m × 2^g) ≤ a × 2^e. -/
def rootGe (fn m : Nat) (g : Int) (a : Nat) (e : Int) : Bool :=
  match fn with
  | 5 => magGe false (a * m) (e + g) 1 0
  | 6 => magGe false (a * a) (2 * e) m g
  | _ => magGe false (a * a * m) (2 * e + g) 1 0

/-- Exponent of the exact result of RECIP, SQRT or RSQRT. -/
def rootExp (fn m : Nat) (g : Int) : Int :=
  let t := topExp m g
  let pow := m = 2 ^ m.log2
  match fn with
  | 5 => if pow then -t else -t - 1
  | 6 => t / 2
  | _ => if pow ∧ t % 2 = 0 then -(t / 2) else -(t / 2) - 1

/-- The greatest significand of 25 bits that `p` admits. -/
def searchBits (p : Nat → Bool) : Nat :=
  ((List.range 25).reverse).foldl (fun r b => if p (r + 2 ^ b) then r + 2 ^ b else r) 0

/-- The result of RECIP, SQRT or RSQRT for a positive m × 2^g: the unit's own value within the bound of R169, in ulp; the
value rounded down stands where the opaque value keeps no bound. -/
def rootNum (fn ulps m : Nat) (g : Int) (cand : Num) : Num :=
  let u := max (rootExp fn m g) (-126) - 23
  let down : Num := .fin false (searchBits (fun r => rootLe fn m g r u)) u
  match cand with
  | .fin false n e =>
    let b := min e u
    let y := n * 2 ^ (e - b).toNat
    let k := ulps * 2 ^ (u - b).toNat
    if rootGe fn m g (y + k) b && (y ≤ k || rootLe fn m g (y - k) b) then cand else down
  | _ => down

/-- f at the special arguments of R170, none where the table lists no result. -/
def nlfSpecial (fn : Nat) (t : Num) : Option Num :=
  let one : Num := .fin false 1 0
  let zero (neg : Bool) : Num := .fin neg 0 0
  match t with
  | .nan => some .nan
  | .inf neg =>
    if fn = 1 ∨ fn = 2 then some (if neg then zero false else .inf false)
    else if fn = 3 ∨ fn = 4 ∨ fn = 6 then some (if neg then .nan else .inf false)
    else if fn = 5 then some (zero neg)
    else if fn = 7 then some (if neg then .nan else zero false)
    else if fn = 8 ∨ fn = 0xD then some (.fin neg 1 0)
    else if fn = 9 then some (if neg then zero false else one)
    else if fn = 0xE ∨ fn = 0xF then some .nan
    else some (if neg then zero true else .inf false)
  | .fin neg m _ =>
    if m ≠ 0 then (if neg ∧ (fn = 3 ∨ fn = 4 ∨ fn = 6 ∨ fn = 7) then some .nan else none)
    else if fn = 1 ∨ fn = 2 ∨ fn = 0xF then some one
    else if fn = 3 ∨ fn = 4 then some (.inf true)
    else if fn = 5 ∨ fn = 7 then some (.inf neg)
    else if fn = 9 then some (.fin false 1 (-1))
    else some (zero neg)

/-- Step 2 of R168: f(t) in FP32. Apart from the results that R170 lists, the manual states a bound and no value: the unit's
own value (log 45) is held to that bound, and SIN and COS of a large argument to their range. -/
def nlfNum (fn : Nat) (t : Num) : Num :=
  match nlfSpecial fn t with
  | some x => x
  | none =>
    let cand := fp32.decode (Config.nlf fn (fp32.round 0 false 0 t).code % 2 ^ 32)
    match t with
    | .fin neg m g =>
      if fn = 5 then
        let r := rootNum 5 1 m g (Num.abs cand)
        Num.flush (fp32.op (if neg then Num.neg r else r))
      else if fn = 6 then Num.flush (fp32.op (rootNum 6 1 m g cand))
      else if fn = 7 then Num.flush (fp32.op (rootNum 7 2 m g cand))
      else if (fn = 0xE ∨ fn = 0xF) ∧ magGe true m g 65536 0 then
        (match cand with
         | .fin _ n e => if magGe false 1 0 n e then Num.flush cand else .fin false 0 0
         | _ => .fin false 0 0)
      else boundedNum fn (nlfExact fn neg m g) cand
    | _ => cand

/-- One element of NLF (R168). -/
def nlfElem (d r : Nat) (x : Num) : Rnd :=
  let t := fp32.op (Num.add (Num.mul (fp32.decode (fld d 447 416)) x) (fp32.decode (fld d 511 480)))
  let p := fp32.op (Num.mul (fp32.decode (fld d 479 448)) (nlfNum (fld d 159 152) t))
  convert (fld d 143 140) (fld d 151 150) (bitOf d 149) r p

/-- The effect of an NLF whose checks have passed. -/
def nlfRun (t d : Nat) (s : State) : State :=
  let cols := fld d 303 288
  let rows := ((List.range (fld d 319 304)).zip (nlfX d)).map (fun x =>
    let l := rowAt s t (fld d 139 136) x.2.1 cols
    (List.range cols).map (fun c => nlfElem d (drawAt s t 2 (x.1 * cols + c)) (elemNum (fld d 139 136) (nth l c))))
  let s := writeRows t (fld d 143 140) (fld d 415 384) (fld d 351 336) rows s
  if fld d 151 150 = 2 then takeDraws t 2 (fld d 319 304 * cols) s else s

/-- NLF (R168). -/
def execNlf (c : Fin 36) (n : Fin 64) (ts : StoreReads) (s : State) : Out :=
  let t := 64 * c.val + n.val
  .next (runUnit .nonlinear 0x04 t ts (fun s d => nlfFault s t d) nlfX (fun d s => (none, nlfRun t d s)) s)

end Sys2Proof.Machine
end

