-- ==== Sys2Proof/Machine/Dispatch.lean ====
section
/-!
DEFINITION. The meaning of each command: one arm for each constructor of `Instr`.
-/
namespace Sys2Proof.Machine

def exec (i : Instr) (s : State) : Host.Outcome State Fault Refusal :=
  match i with
  | .powerOn52v slotId flashRead => Sys2Proof.Machine.execPowerOn52v slotId flashRead s
  | .inputLoss52v => Sys2Proof.Machine.execInputLoss52v s
  | .aux3v3Loss => Sys2Proof.Machine.execAux3v3Loss s
  | .railSequence outcomes => Sys2Proof.Machine.execRailSequence outcomes s
  | .crownStartGrant verified => Sys2Proof.Machine.execCrownStartGrant verified s
  | .crownStartLiveTimeout verified => Sys2Proof.Machine.execCrownStartLiveTimeout verified s
  | .componentLoad comp outcome => Sys2Proof.Machine.execComponentLoad comp outcome s
  | .proofWavePower k => Sys2Proof.Machine.execProofWavePower k s
  | .proofWaveTestDone k badTiles badClusters flash => Sys2Proof.Machine.execProofWaveTestDone k badTiles badClusters flash s
  | .memTrainDone dev outcome => Sys2Proof.Machine.execMemTrainDone dev outcome s
  | .settingsDigestCompute => Sys2Proof.Machine.execSettingsDigestCompute s
  | .ready => Sys2Proof.Machine.execReady s
  | .defectRewriteTimer flash => Sys2Proof.Machine.execDefectRewriteTimer flash s
  | .slotIdSample slotId => Sys2Proof.Machine.execSlotIdSample slotId s
  | .rackSyncEdge => Sys2Proof.Machine.execRackSyncEdge s
  | .rackClkLoss => Sys2Proof.Machine.execRackClkLoss s
  | .syncMissing => Sys2Proof.Machine.execSyncMissing s
  | .rackSetTimeout => Sys2Proof.Machine.execRackSetTimeout s
  | .frameStart driftA driftB => Sys2Proof.Machine.execFrameStart s driftA driftB
  | .schedDispatch => Sys2Proof.Machine.execSchedDispatch s
  | .powerTarget => Sys2Proof.Machine.execPowerTarget s
  | .fwActivateExecute => Sys2Proof.Machine.execFwActivateExecute s
  | .traceOpen => Sys2Proof.Machine.execTraceOpen s
  | .traceClose => Sys2Proof.Machine.execTraceClose s
  | .tapEnable => Sys2Proof.Machine.execTapEnable s
  | .transitWithdrawTick flash => Sys2Proof.Machine.execTransitWithdrawTick s flash
  | .hostEvent => Sys2Proof.Machine.execHostEvent s
  | .withdrawDrainEnd => Sys2Proof.Machine.execWithdrawDrainEnd s
  | .ownershipWrite port mb size data parity => Sys2Proof.Machine.execOwnershipWrite port mb size data parity s
  | .mailboxPageWrite port mb off bytes => Sys2Proof.Machine.execMailboxPageWrite port mb off bytes s
  | .mailboxWatchdog port mb => Sys2Proof.Machine.execMailboxWatchdog port mb s
  | .openCmd mb drawn => Sys2Proof.Machine.execOpenCmd mb drawn s
  | .closeCmd mb => Sys2Proof.Machine.execCloseCmd mb s
  | .queryCaps mb => Sys2Proof.Machine.execQueryCaps mb s
  | .queryStatus mb => Sys2Proof.Machine.execQueryStatus mb s
  | .alloc mb => Sys2Proof.Machine.execAlloc mb s
  | .free mb => Sys2Proof.Machine.execFree mb s
  | .mapProtect mb => Sys2Proof.Machine.execMapProtect mb s
  | .mapUnmap mb => Sys2Proof.Machine.execMapUnmap mb s
  | .mapWindow mb => Sys2Proof.Machine.execMapWindow mb s
  | .copy mb => Sys2Proof.Machine.execCopy mb s
  | .copyDone mb env => Sys2Proof.Machine.execCopyDone mb env s
  | .tierMove mb => Sys2Proof.Machine.execTierMove mb s
  | .tierMoveDescStart mb n half mover => Sys2Proof.Machine.execTierMoveDescStart mb n half mover s
  | .tierMoveDescDone mb n env => Sys2Proof.Machine.execTierMoveDescDone mb n env s
  | .partCreate mb => Sys2Proof.Machine.execPartCreate mb s
  | .partDestroy mb => Sys2Proof.Machine.execPartDestroy mb s
  | .recipeLoad mb => Sys2Proof.Machine.execRecipeLoad mb s
  | .recipeUnload mb => Sys2Proof.Machine.execRecipeUnload mb s
  | .launch mb => Sys2Proof.Machine.execLaunch mb s
  | .launchPrepare part => Sys2Proof.Machine.execLaunchPrepare part s
  | .launchStart part => Sys2Proof.Machine.execLaunchStart part s
  | .launchDone part => Sys2Proof.Machine.execLaunchDone part s
  | .waitCmd mb => Sys2Proof.Machine.execWaitCmd mb s
  | .waitTimeout mb => Sys2Proof.Machine.execWaitTimeout mb s
  | .abortCmd mb => Sys2Proof.Machine.execAbortCmd mb s
  | .groupCreate mb => Sys2Proof.Machine.execGroupCreate mb s
  | .groupDestroy mb => Sys2Proof.Machine.execGroupDestroy mb s
  | .routeLoad mb env => Sys2Proof.Machine.execRouteLoad mb env s
  | .routeTableSwap flash => Sys2Proof.Machine.execRouteTableSwap flash s
  | .linkCtlDisable mb => Sys2Proof.Machine.execLinkCtlDisable mb s
  | .linkCtlEnable mb => Sys2Proof.Machine.execLinkCtlEnable mb s
  | .linkCtlRetrain mb => Sys2Proof.Machine.execLinkCtlRetrain mb s
  | .linkBert mb peerTests => Sys2Proof.Machine.execLinkBert mb peerTests s
  | .linkBertEnd mb counts => Sys2Proof.Machine.execLinkBertEnd mb counts s
  | .timeQuery mb => Sys2Proof.Machine.execTimeQuery mb s
  | .schedAdd mb => Sys2Proof.Machine.execSchedAdd mb s
  | .schedCancel mb => Sys2Proof.Machine.execSchedCancel mb s
  | .powerSet mb => Sys2Proof.Machine.execPowerSet mb s
  | .powerQuery mb => Sys2Proof.Machine.execPowerQuery mb s
  | .reqOpen mb => Sys2Proof.Machine.execReqOpen mb s
  | .reqClose mb => Sys2Proof.Machine.execReqClose mb s
  | .ledgerRead mb => Sys2Proof.Machine.execLedgerRead mb s
  | .methodSet mb flash => Sys2Proof.Machine.execMethodSet mb flash s
  | .configStop mb => Sys2Proof.Machine.execConfigStop mb s
  | .configWrite mb => Sys2Proof.Machine.execConfigWrite mb s
  | .configStart mb flash => Sys2Proof.Machine.execConfigStart mb flash s
  | .settingsWrite mb flash => Sys2Proof.Machine.execSettingsWrite mb flash s
  | .digestQuery mb => Sys2Proof.Machine.execDigestQuery mb s
  | .fwStage mb flash => Sys2Proof.Machine.execFwStage mb flash s
  | .fwActivate mb => Sys2Proof.Machine.execFwActivate mb s
  | .fwQuery mb => Sys2Proof.Machine.execFwQuery mb s
  | .traceCtlWindow mb => Sys2Proof.Machine.execTraceCtlWindow mb s
  | .traceCtlCloseAll mb => Sys2Proof.Machine.execTraceCtlCloseAll mb s
  | .traceCtlRingSize mb flash => Sys2Proof.Machine.execTraceCtlRingSize mb flash s
  | .tapArm mb => Sys2Proof.Machine.execTapArm mb s
  | .tapRead mb => Sys2Proof.Machine.execTapRead mb s
  | .counterRead mb => Sys2Proof.Machine.execCounterRead mb s
  | .inject mb => Sys2Proof.Machine.execInject mb s
  | .resetPart mb => Sys2Proof.Machine.execResetPart mb s
  | .resetCluster mb => Sys2Proof.Machine.execResetCluster mb s
  | .resetTile mb => Sys2Proof.Machine.execResetTile mb s
  | .resetModule mb => Sys2Proof.Machine.execResetModule mb s
  | .crownQuery mb => Sys2Proof.Machine.execCrownQuery mb s
  | .statusW1cWrite port blk data => Sys2Proof.Machine.execStatusW1cWrite port blk data s
  | .firstSrcClear port blk data => Sys2Proof.Machine.execFirstSrcClear port blk data s
  | .ovfClear port blk data => Sys2Proof.Machine.execOvfClear port blk data s
  | .errlogClr port mc data => Sys2Proof.Machine.execErrlogClr port mc data s
  | .arbWeightWrite stack n weight clock => Sys2Proof.Machine.execArbWeightWrite stack n weight clock s
  | .rtNowLowRead port => Sys2Proof.Machine.execRtNowLowRead port s
  | .registerWrite port off size data => Sys2Proof.Machine.execRegisterWrite port off size data s
  | .descFetch c n env => Sys2Proof.Machine.execDescFetch c n env s
  | .headerWaitSatisfied c n q => Sys2Proof.Machine.execHeaderWaitSatisfied c n q s
  | .descriptorComplete c n q => Sys2Proof.Machine.execDescriptorComplete c n q s
  | .mma c n ts => Sys2Proof.Machine.execMma c n ts s
  | .mmaLam c n ts => Sys2Proof.Machine.execMmaLam c n ts s
  | .vec c n ts => Sys2Proof.Machine.execVec c n ts s
  | .nlf c n ts => Sys2Proof.Machine.execNlf c n ts s
  | .red c n ts => Sys2Proof.Machine.execRed c n ts s
  | .load c n env => Sys2Proof.Machine.execLoad c n env s
  | .store c n env ts => Sys2Proof.Machine.execStore c n env ts s
  | .xfer c n ts => Sys2Proof.Machine.execXfer c n ts s
  | .cwait c n => Sys2Proof.Machine.execCwait c n s
  | .csignal c n => Sys2Proof.Machine.execCsignal c n s
  | .waitRt c n => Sys2Proof.Machine.execWaitRt c n s
  | .waitRtComplete c n => Sys2Proof.Machine.execWaitRtComplete c n s
  | .fabricTrig c n => Sys2Proof.Machine.execFabricTrig c n s
  | .markReq c n ts => Sys2Proof.Machine.execMarkReq c n s ts
  | .markWork c n ts => Sys2Proof.Machine.execMarkWork c n s ts
  | .tapPoint c n ts env => Sys2Proof.Machine.execTapPoint c n ts s env
  | .tileSignalArrive n => Sys2Proof.Machine.execTileSignalArrive n s
  | .tileHwFault c n storeWord => Sys2Proof.Machine.execTileHwFault c n storeWord s
  | .tileStartTestDone c n passed flash => Sys2Proof.Machine.execTileStartTestDone c n passed flash s
  | .memRead mc pa ode ce ue who => Sys2Proof.Machine.execMemRead mc pa ode ce ue s who
  | .memWrite mc pa bytes parity rmwRead who ode ce => Sys2Proof.Machine.execMemWrite mc pa bytes parity rmwRead s who ode ce
  | .arbDecision stack clock arrivals own => Sys2Proof.Machine.execArbDecision stack clock arrivals s own
  | .arbWindowRefill stack clock => Sys2Proof.Machine.execArbWindowRefill stack clock s
  | .scrubRead mc pa ce ue ode => Sys2Proof.Machine.execScrubRead mc pa ce ue s ode
  | .stackTempReport stack temp => Sys2Proof.Machine.execStackTempReport stack temp s
  | .winSnoopTimeout mc pa => Sys2Proof.Machine.execWinSnoopTimeout mc pa s
  | .windowHostAccess port off write env => Sys2Proof.Machine.execWindowHostAccess port off write s env
  | .phyTrainDone p => Sys2Proof.Machine.execPhyTrainDone p s
  | .fecLockDone p => Sys2Proof.Machine.execFecLockDone p s
  | .negotiateDone p cap => Sys2Proof.Machine.execNegotiateDone p cap s
  | .trainStateTimeout p => Sys2Proof.Machine.execTrainStateTimeout p s
  | .fecLockLoss p => Sys2Proof.Machine.execFecLockLoss p s
  | .uncorrCodewordBurst p => Sys2Proof.Machine.execUncorrCodewordBurst p s
  | .linkControlFlit p f => Sys2Proof.Machine.execLinkControlFlit p f s
  | .packetRoute p pkt => Sys2Proof.Machine.execPacketRoute p pkt s
  | .putArrive p pkt => Sys2Proof.Machine.execPutArrive p pkt s
  | .getReqArrive p pkt env => Sys2Proof.Machine.execGetReqArrive p pkt env s
  | .getRespArrive p pkt => Sys2Proof.Machine.execGetRespArrive p pkt s
  | .atomicArrive p pkt env => Sys2Proof.Machine.execAtomicArrive p pkt env s
  | .atomicRespArrive p pkt => Sys2Proof.Machine.execAtomicRespArrive p pkt s
  | .reduceArrive p pkt => Sys2Proof.Machine.execReduceArrive p pkt s
  | .rndvReadyArrive p pkt => Sys2Proof.Machine.execRndvReadyArrive p pkt s
  | .counterAddArrive p pkt => Sys2Proof.Machine.execCounterAddArrive p pkt s
  | .ackArrive p pkt => Sys2Proof.Machine.execAckArrive p pkt s
  | .nackArrive p pkt => Sys2Proof.Machine.execNackArrive p pkt s
  | .ackTimer flow => Sys2Proof.Machine.execAckTimer flow s
  | .seqGapNack flow => Sys2Proof.Machine.execSeqGapNack flow s
  | .resendTimeout n => Sys2Proof.Machine.execResendTimeout n s
  | .bl1BusyAck p pkt => Sys2Proof.Machine.execBl1BusyAck p pkt s
  | .beaconArrive p b => Sys2Proof.Machine.execBeaconArrive p b s
  | .noticeWithdrawModule p pkt => Sys2Proof.Machine.execNoticeWithdrawModule p pkt s
  | .noticeWithdrawPort p pkt => Sys2Proof.Machine.execNoticeWithdrawPort p pkt s
  | .noticeJoin p pkt => Sys2Proof.Machine.execNoticeJoin p pkt s
  | .transitComparatorTick n flash => Sys2Proof.Machine.execTransitComparatorTick n s flash
  | .joinNoticeSend => Sys2Proof.Machine.execJoinNoticeSend s
  | .abortPacketArrive p pkt => Sys2Proof.Machine.execAbortPacketArrive p pkt s
  | .engineCounterAdd half part cnt sets adds => Sys2Proof.Machine.execEngineCounterAdd half part cnt sets adds s
  | .opContextFree half n => Sys2Proof.Machine.execOpContextFree half n s
  | .engineOpComplete half n => Sys2Proof.Machine.execEngineOpComplete half n s
  | .collectiveSlotAlloc half => Sys2Proof.Machine.execCollectiveSlotAlloc half s
  | .collectiveComplete half slot => Sys2Proof.Machine.execCollectiveComplete half slot s
  | .collectiveStall half slot => Sys2Proof.Machine.execCollectiveStall half slot s
  | .progressWatchdog part => Sys2Proof.Machine.execProgressWatchdog part s
  | .fenceRelease part => Sys2Proof.Machine.execFenceRelease part s
  | .modResetN => Sys2Proof.Machine.execModResetN s
  | .bridgeMainbandError half retryOk => Sys2Proof.Machine.execBridgeMainbandError half retryOk s
  | .bridgeRetrainDone half ok => Sys2Proof.Machine.execBridgeRetrainDone half ok s
  | .heartbeatSend half => Sys2Proof.Machine.execHeartbeatSend half s
  | .heartbeatArrive src path2 atSup hb => Sys2Proof.Machine.execHeartbeatArrive src path2 atSup hb s
  | .pathSilent rcv path2 => Sys2Proof.Machine.execPathSilent rcv path2 s
  | .livenessWrite half => Sys2Proof.Machine.execLivenessWrite half s
  | .livenessExpire half => Sys2Proof.Machine.execLivenessExpire half s
  | .holderFailedVoteRequest => Sys2Proof.Machine.execHolderFailedVoteRequest s
  | .voteTally silent verified => Sys2Proof.Machine.execVoteTally silent verified s
  | .voteRepeat silent verified => Sys2Proof.Machine.execVoteRepeat silent verified s
  | .floorMessage stage claim trusted => Sys2Proof.Machine.execFloorMessage stage claim trusted s
  | .floorBroadcast => Sys2Proof.Machine.execFloorBroadcast s
  | .stageLapse stage => Sys2Proof.Machine.execStageLapse stage s
  | .stageWrite half stage claim enable => Sys2Proof.Machine.execStageWrite half stage claim enable s
  | .takeoverRestore answers => Sys2Proof.Machine.execTakeoverRestore answers s
  | .takeoverComplete => Sys2Proof.Machine.execTakeoverComplete s
  | .takeoverTimeout => Sys2Proof.Machine.execTakeoverTimeout s
  | .inconclusiveTimeout => Sys2Proof.Machine.execInconclusiveTimeout s
  | .checkpointSnapshot => Sys2Proof.Machine.execCheckpointSnapshot s
  | .standbyCommitCheck ok => Sys2Proof.Machine.execStandbyCommitCheck ok s
  | .resyncStart => Sys2Proof.Machine.execResyncStart s
  | .supervisorFailure => Sys2Proof.Machine.execSupervisorFailure s
  | .shutdownRailsOff => Sys2Proof.Machine.execShutdownRailsOff s
  | .inputVoltageSample mv => Sys2Proof.Machine.execInputVoltageSample mv s
  | .uvBrakeRelease => Sys2Proof.Machine.execUvBrakeRelease s
  | .voltageRestart => Sys2Proof.Machine.execVoltageRestart s
  | .pwrBrakeNChange high => Sys2Proof.Machine.execPwrBrakeNChange high s
  | .thermAlertNChange high => Sys2Proof.Machine.execThermAlertNChange high s
  | .thermAlertClear => Sys2Proof.Machine.execThermAlertClear s
  | .thermCountdownExpire => Sys2Proof.Machine.execThermCountdownExpire s
  | .thermalSensorRead tj tm => Sys2Proof.Machine.execThermalSensorRead tj tm s
  | .leaseExpire => Sys2Proof.Machine.execLeaseExpire s
  | .reportWindowEnd => Sys2Proof.Machine.execReportWindowEnd s
  | .activityReport half frame rows => Sys2Proof.Machine.execActivityReport half frame rows s
  | .reportLate half => Sys2Proof.Machine.execReportLate half s
  | .ledgerGapExpire => Sys2Proof.Machine.execLedgerGapExpire s
  | .frameReconcile energy vcore => Sys2Proof.Machine.execFrameReconcile energy vcore s
  | .sheetCloseTimeout => Sys2Proof.Machine.execSheetCloseTimeout s
  | .sheetSigned => Sys2Proof.Machine.execSheetSigned s
  | .controlActivationResume => Sys2Proof.Machine.execControlActivationResume s
  | .activationTimeout => Sys2Proof.Machine.execActivationTimeout s
  | .traceRecord half core ev => Sys2Proof.Machine.execTraceRecord half core ev s
  | .traceCrumb half pcs => Sys2Proof.Machine.execTraceCrumb half pcs s
  | .perstN port => Sys2Proof.Machine.execPerstN port s
  | .hdmCommit port on => Sys2Proof.Machine.execHdmCommit port s on
  | .cxlLinkDown port => Sys2Proof.Machine.execCxlLinkDown port s
  | .cxlLinkRetrain port width gts => Sys2Proof.Machine.execCxlLinkRetrain port width gts s
  | .entdaa addr => Sys2Proof.Machine.execEntdaa addr s
  | .setEndpointId eid => Sys2Proof.Machine.execSetEndpointId eid s
  | .getEndpointId => Sys2Proof.Machine.execGetEndpointId s
  | .getMctpVersionSupport => Sys2Proof.Machine.execGetMctpVersionSupport s
  | .getMessageTypeSupport => Sys2Proof.Machine.execGetMessageTypeSupport s
  | .setRackNumber rack => Sys2Proof.Machine.execSetRackNumber rack s
  | .setRackTime v step => Sys2Proof.Machine.execSetRackTime v step s
  | .getRackTime => Sys2Proof.Machine.execGetRackTime s
  | .setPowerCap capW leaseMs applyRt => Sys2Proof.Machine.execSetPowerCap capW leaseMs applyRt s
  | .renewPowerLease leaseMs => Sys2Proof.Machine.execRenewPowerLease leaseMs s
  | .getPower => Sys2Proof.Machine.execGetPower s
  | .getStatus => Sys2Proof.Machine.execGetStatus s
  | .getLinks => Sys2Proof.Machine.execGetLinks s
  | .locate on => Sys2Proof.Machine.execLocate on s
  | .pldmLedgerRead kind fromSeq max => Sys2Proof.Machine.execPldmLedgerRead kind fromSeq max s
  | .locateNChange high => Sys2Proof.Machine.execLocateNChange high s
  | .platformEventRetry accepted => Sys2Proof.Machine.execPlatformEventRetry accepted s
  | .requestUpdate component pkg area slot dir => Sys2Proof.Machine.execRequestUpdate component pkg area s slot dir
  | .activateFirmware => Sys2Proof.Machine.execActivateFirmware s
  | .getVersion => Sys2Proof.Machine.execGetVersion s
  | .getCapabilities => Sys2Proof.Machine.execGetCapabilities s
  | .negotiateAlgorithms => Sys2Proof.Machine.execNegotiateAlgorithms s
  | .getDigests => Sys2Proof.Machine.execGetDigests s
  | .getCertificate slot off len => Sys2Proof.Machine.execGetCertificate slot off len s
  | .challenge slot nonce => Sys2Proof.Machine.execChallenge slot nonce s
  | .getMeasurements index signed nonce => Sys2Proof.Machine.execGetMeasurements index signed nonce s
  | .rackClkReturn => Sys2Proof.Machine.execRackClkReturn s
  | .aux3v3Return => Sys2Proof.Machine.execAux3v3Return s
  | .modResetNRelease => Sys2Proof.Machine.execModResetNRelease s
  | .beginLowering => Sys2Proof.Machine.execBeginLowering s
  | .powerIntervalEnd avgW => Sys2Proof.Machine.execPowerIntervalEnd avgW s
  | .voteRequestRetry => Sys2Proof.Machine.execVoteRequestRetry s
  | .standbyReadyLapse => Sys2Proof.Machine.execStandbyReadyLapse s
  | .codewordArrive p corrected pkts => Sys2Proof.Machine.execCodewordArrive p corrected pkts s
  | .backInvalidateResponse off dirty => Sys2Proof.Machine.execBackInvalidateResponse off dirty s
  | .recipeLoadDone mb env => Sys2Proof.Machine.execRecipeLoadDone mb env s
  | .fwStageDone mb area slot dir => Sys2Proof.Machine.execFwStageDone mb area s slot dir
  | .controlCoreCacheError half single ue => Sys2Proof.Machine.execControlCoreCacheError half single ue s
  | .setEventReceiver eid => Sys2Proof.Machine.execSetEventReceiver eid s

end Sys2Proof.Machine
end

