-- ==== Sys2Proof/Safety.lean ====
section
/-!
DEFINITION. What the claims are stated in: the zones of the state that a frame names, the storage invariant, what
it is for a command to run, and the words for a mailbox command that firmware accepts and answers.
-/
namespace Sys2Proof

open Machine

/-- The zones of the state. Together they are the whole of it. -/
inductive Zone where
  | pending | ident | pins | time | sched | mbx | work
  | clusters | tiles | signals | tileStores
  | phys | hostMem | mcs | snoop | xl | memMode
  | win | ctr
  | fab | eng | crown | power | led | flash | start | fw
  | trA | trB | taps | cxlA | cxlB | mgmt | bridge | free
  deriving DecidableEq, Repr

/-- A zone reads the same in two states. -/
def Zone.same : Zone → State → State → Prop
  | .pending, s, t => t.pending = s.pending
  | .ident, s, t => t.ident = s.ident
  | .pins, s, t => t.pins = s.pins
  | .time, s, t => t.time = s.time
  | .sched, s, t => t.sched = s.sched
  | .mbx, s, t => t.mbx = s.mbx
  | .work, s, t => t.work = s.work
  | .clusters, s, t => t.comp.clusters = s.comp.clusters
  | .tiles, s, t => t.comp.tiles = s.comp.tiles
  | .signals, s, t => t.comp.signals = s.comp.signals
  | .tileStores, s, t => t.comp.ts = s.comp.ts
  | .phys, s, t => t.mem.phys = s.mem.phys
  | .hostMem, s, t => t.mem.host = s.mem.host
  | .mcs, s, t => t.mem.mcs = s.mem.mcs ∧ t.mem.bad = s.mem.bad
  | .snoop, s, t => t.mem.filter = s.mem.filter ∧ t.mem.snoops = s.mem.snoops ∧ t.mem.snoopBad = s.mem.snoopBad
  | .xl, s, t => t.mem.xl = s.mem.xl ∧ t.mem.xlErr = s.mem.xlErr ∧ t.mem.pte = s.mem.pte
  | .memMode, s, t => t.mem.tierOff = s.mem.tierOff ∧ t.mem.perHalf = s.mem.perHalf ∧ t.mem.windowGib = s.mem.windowGib
  | .win, s, t => t.obs.win = s.obs.win
  | .ctr, s, t => t.obs.ctr = s.obs.ctr
  | .fab, s, t => t.fab = s.fab
  | .eng, s, t => t.eng = s.eng
  | .crown, s, t => t.crown = s.crown
  | .power, s, t => t.power = s.power
  | .led, s, t => t.led = s.led
  | .flash, s, t => t.flash = s.flash
  | .start, s, t => t.start = s.start
  | .fw, s, t => t.fw = s.fw
  | .trA, s, t => t.trA = s.trA
  | .trB, s, t => t.trB = s.trB
  | .taps, s, t => t.taps = s.taps ∧ t.tapNext = s.tapNext
  | .cxlA, s, t => t.cxlA = s.cxlA
  | .cxlB, s, t => t.cxlB = s.cxlB
  | .mgmt, s, t => t.mgmt = s.mgmt
  | .bridge, s, t => t.brRetrain = s.brRetrain
  | .free, s, t => t.free = s.free

/-- Nothing but the named zones differs between two states. -/
def Only (ps : List Zone) (s t : State) : Prop := ∀ p : Zone, p ∉ ps → p.same s t

/-- The outcome is a next state, and only the named zones of `s` have changed in it. -/
def Runs (ps : List Zone) (s : State) (o : Host.Outcome State Fault Refusal) : Prop :=
  ∃ t, o = .next t ∧ Only ps s t

/-- Every byte memory is in canonical form: ascending addresses, and no entry that holds the byte an unlisted address
reads as. -/
def MemOk (s : State) : Prop :=
  Memory.wf s.mem.phys = true ∧ Memory.wf s.mem.host = true ∧ Memory.wf s.comp.ts = true

end Sys2Proof

namespace Sys2Proof.Claims

open Machine

/-- What a command answers. -/
abbrev Ans := Host.Outcome State Fault Refusal

/-- Key of a mailbox of the port of the crown's half. -/
def key (s : State) (mb : Fin 128) : Nat := mbKey (crownHalf s) mb.val

/-- The command header and the payload in that mailbox. -/
def head (s : State) (mb : Fin 128) : Hdr := hdr (page s (key s mb))
def load (s : State) (mb : Fin 128) : List Byte := payload (page s (key s mb))

/-- Firmware may start the command of opcode `op` in the mailbox (R298-R300, R419), it passes the checks that every
command shares (R295), and neither the safe state nor a watchdog that has fired stands in its way. -/
def accepted (s : State) (mb : Fin 128) (op : Nat) : Bool :=
  (head s mb).opcode = op && mayStart s (key s mb) && serving s && portTakes s (crownHalf s) s.crown.claim &&
  (gated s op (load s mb)).all (stageOpen s) &&
  (headerCheck s (key s mb) (head s mb) (load s mb)).isNone && !s.crown.safe

/-- The journal record that precedes the answer of a command that changes module state (R429). -/
def noted (op : Nat) (u : State) : State :=
  if journalled op then { u with crown := { u.crown with journal := u.crown.journal + 1 } } else u

/-- ST_OK with a response, after the effect that led to `u`. -/
def answered (s : State) (mb : Fin 128) (op : Nat) (r : List Byte) (u : State) : State :=
  respond (key s mb) stOk 0 r (noted op u)

/-- The command as it stands in an execution place. -/
def placed (s : State) (mb : Fin 128) (op : Nat) : RunCmd :=
  { arrival := (page s (key s mb)).arrival, opcode := op, ctx := (head s mb).ctx, fence := (head s mb).fence,
    part := partNamed s op (head s mb).ctx (load s mb), func := funcNamed op (load s mb), pl := load s mb }

/-- The command stays owned by the device, after the effect that led to `u`. -/
def stays (s : State) (mb : Fin 128) (r : RunCmd) (u : State) : State := setRun (key s mb) (some r) u

/-- A payload field. -/
def arg (s : State) (mb : Fin 128) (off n : Nat) : Nat := numAt (load s mb) off n

/-- The session's context. -/
def cx (s : State) (mb : Fin 128) : Nat := (head s mb).ctx

/-- Number of the tile at a position. -/
def pos (c : Fin 36) (n : Fin 64) : Nat := 64 * c.val + n.val

/-- `d` heads a queue of a running tile, is of that opcode, and its header wait is over or not asked for (R90). -/
def heads (s : State) (t : Nat) (q : UnitQ) (op : Nat) (d : Desc) : Prop :=
  tileRuns s t = true ∧ (queue (tile s t) q).head? = some d ∧ d.done = false ∧ opcodeOf d.bits = op ∧
  (bitOf d.bits 55 = true → d.go = true)

/-- The head of the queue has executed. -/
def ran (q : UnitQ) (t : Nat) (u : State) : State := modTile t (modHead q (fun d => { d with done := true })) u

/-- `d` holds dispatch of a running tile, is of that opcode, and its header wait is over. -/
def holds (s : State) (t op : Nat) (d : Desc) : Prop :=
  tileRuns s t = true ∧ (tile s t).hold = some d ∧ opcodeOf d.bits = op ∧ d.go = true

/-- The sequencer has executed `d`. -/
def passed (t : Nat) (d : Desc) (u : State) : State := finish t d (modTile t (fun x => { x with hold := none }) u)

/-- No byte of a tile store or of device memory differs, but those of the ranges `l` of tile `t`'s local addresses. -/
def wroteOnly (t : Nat) (l : List (Nat × Nat)) (s u : State) : Prop :=
  (∀ a, (∀ x ∈ l, x.1 < 0x1000000 → a < 0x80000 * t + x.1 ∨ 0x80000 * t + x.1 + x.2 ≤ a) →
    Memory.read u.comp.ts a = Memory.read s.comp.ts a) ∧
  (∀ a, (∀ x ∈ l, 0x1000000 ≤ x.1 → a < csBase (t / 64) + (x.1 - 0x1000000) ∨
      csBase (t / 64) + (x.1 - 0x1000000) + x.2 ≤ a) → Memory.read u.mem.phys a = Memory.read s.mem.phys a) ∧
  u.mem.host = s.mem.host

/-- The rows of packets that a flow orders, with their opcodes (R338). -/
def arrivals (p : Fin 64) (k : Pkt) (env : MemEnv) : List (Nat × Instr) :=
  [(1, .putArrive p k), (2, .getReqArrive p k env), (3, .getRespArrive p k), (4, .atomicArrive p k env),
   (5, .atomicRespArrive p k), (6, .reduceArrive p k), (7, .rndvReadyArrive p k), (0xC, .counterAddArrive p k)]

/-- The memories as a row of packets finds them. -/
def envOf (op : Nat) (env : MemEnv) : MemEnv := if op = 2 ∨ op = 4 then env else {}

/-- The zones that a command can change. -/
def touched : Instr → List Zone
  | .bl1BusyAck _ _ => [.fab]
  | .sheetSigned => [.led]
  | .errlogClr _ _ _ | .arbWeightWrite _ _ _ _ | .arbDecision _ _ _ _ | .arbWindowRefill _ _ => [.mcs]
  | .ovfClear _ _ _ => [.win]
  | .entdaa _ | .setEndpointId _ | .getEndpointId | .getMessageTypeSupport | .getRackTime | .getPower |
    .getStatus | .getLinks | .getVersion | .getCapabilities | .negotiateAlgorithms | .getDigests |
    .getCertificate _ _ _ | .challenge _ _ | .getMeasurements _ _ _ | .setEventReceiver _ => [.mgmt]
  | .locateNChange _ | .rackClkReturn => [.pins]
  | .syncMissing | .rackSetTimeout | .rtNowLowRead _ => [.time]
  | .heartbeatSend _ | .floorMessage _ _ _ | .floorBroadcast | .standbyCommitCheck _ => [.crown]
  | .settingsDigestCompute => [.start]
  | .headerWaitSatisfied _ _ _ => [.tiles]
  | .noticeWithdrawModule _ _ | .noticeWithdrawPort _ _ | .noticeJoin _ _ => [.ctr, .fab]
  | .statusW1cWrite _ _ _ => [.mbx, .win]
  | .firstSrcClear _ _ _ => [.win, .eng]
  | .pldmLedgerRead _ _ _ => [.led, .mgmt]
  | .sheetCloseTimeout => [.time, .led]
  | .tierMoveDescStart _ _ _ _ | .waitTimeout _ => [.time, .mbx]
  | .hdmCommit _ _ => [.cxlA, .cxlB]
  | .getMctpVersionSupport => [.mgmt, .free]
  | .locate _ => [.pins, .mgmt]
  | .rackClkLoss => [.pins, .time]
  | .hostEvent => [.sched, .mbx]
  | .setRackTime _ _ => [.time, .mgmt]
  | .modResetNRelease => [.pins, .start]
  | .renewPowerLease _ => [.power, .mgmt]
  | .stageLapse _ | .checkpointSnapshot | .resyncStart | .standbyReadyLapse => [.time, .crown]
  | .beginLowering => [.time, .power]
  | .tapEnable => [.sched, .tiles]
  | .ownershipWrite _ _ _ _ _ | .mailboxPageWrite _ _ _ _ => [.mbx, .win, .ctr]
  | .proofWavePower _ => [.time, .clusters]
  | .joinNoticeSend => [.win, .ctr, .fab]
  | .platformEventRetry _ => [.time, .ctr, .mgmt]
  | .componentLoad _ _ => [.ctr, .start, .mgmt]
  | .slotIdSample _ => [.ident, .ctr, .mgmt]
  | .engineOpComplete _ _ | .collectiveComplete _ _ => [.signals, .ctr, .eng]
  | .reportWindowEnd => [.time, .power, .free]
  | .stackTempReport _ _ => [.mbx, .mcs, .win, .ctr]
  | .phyTrainDone _ | .fecLockDone _ | .negotiateDone _ _ | .fecLockLoss _ | .uncorrCodewordBurst _ |
    .linkControlFlit _ _ | .packetRoute _ _ | .codewordArrive _ _ _ => [.mbx, .win, .ctr, .fab]
  | .activityReport _ _ _ | .ledgerGapExpire => [.mbx, .win, .ctr, .led]
  | .aux3v3Loss => [.pins, .mbx, .win, .ctr]
  | .mailboxWatchdog _ _ => [.time, .mbx, .win, .ctr]
  | .winSnoopTimeout _ _ => [.mbx, .snoop, .win, .ctr]
  | .queryCaps _ | .queryStatus _ | .copy _ | .tierMove _ | .recipeLoad _ | .waitCmd _ | .timeQuery _ |
    .powerQuery _ | .digestQuery _ | .fwQuery _ | .inject _ | .crownQuery _ | .heartbeatArrive _ _ _ _ =>
    [.mbx, .win, .ctr, .crown]
  | .launchPrepare _ => [.work, .clusters, .tiles]
  | .setRackNumber _ => [.ident, .ctr, .fab, .mgmt]
  | .ready => [.mbx, .ctr, .start, .mgmt]
  | .bridgeMainbandError _ _ => [.mbx, .win, .ctr, .bridge]
  | .launchDone _ => [.mbx, .work, .tiles, .taps]
  | .configStop _ | .configWrite _ => [.mbx, .win, .ctr, .crown, .fw]
  | .linkBertEnd _ _ | .ackTimer _ | .seqGapNack _ | .beaconArrive _ _ => [.time, .mbx, .win, .ctr, .fab]
  | .reportLate _ => [.time, .mbx, .win, .ctr, .led]
  | .counterRead _ => [.mbx, .mcs, .win, .ctr, .crown]
  | .reqOpen _ | .reqClose _ | .ledgerRead _ => [.mbx, .win, .ctr, .crown, .led]
  | .groupDestroy _ => [.mbx, .win, .ctr, .eng, .crown]
  | .linkCtlEnable _ | .linkCtlRetrain _ | .linkBert _ _ => [.mbx, .win, .ctr, .fab, .crown]
  | .schedDispatch => [.time, .sched, .mbx, .win, .ctr]
  | .defectRewriteTimer _ => [.mbx, .win, .ctr, .flash, .start]
  | .memTrainDone _ _ => [.mcs, .memMode, .ctr, .start, .mgmt]
  | .mapProtect _ | .mapWindow _ | .recipeUnload _ => [.mbx, .work, .xl, .win, .ctr, .crown]
  | .trainStateTimeout _ => [.time, .mbx, .win, .ctr, .fab, .free]
  | .frameReconcile _ _ => [.time, .mbx, .win, .ctr, .led, .free]
  | .openCmd _ _ => [.mbx, .work, .win, .ctr, .crown, .led]
  | .launchStart _ => [.time, .work, .clusters, .tiles, .ctr]
  | .memRead _ _ _ _ _ _ | .scrubRead _ _ _ _ _ => [.mbx, .mcs, .win, .ctr, .flash, .start]
  | .launch _ => [.mbx, .work, .win, .ctr, .crown, .free]
  | .pwrBrakeNChange _ | .thermAlertNChange _ => [.pins, .mbx, .win, .ctr, .power, .mgmt]
  | .linkCtlDisable _ | .schedAdd _ | .traceCtlWindow _ => [.sched, .mbx, .win, .ctr, .fab, .crown]
  | .powerIntervalEnd _ => [.time, .mbx, .win, .ctr, .power, .free]
  | .uvBrakeRelease | .thermAlertClear | .leaseExpire => [.time, .mbx, .win, .ctr, .power, .mgmt]
  | .requestUpdate _ _ _ _ _ => [.mbx, .win, .ctr, .flash, .start, .mgmt]
  | .powerTarget => [.sched, .mbx, .win, .ctr, .power, .mgmt]
  | .crownStartGrant _ => [.mbx, .win, .ctr, .crown, .flash, .start]
  | .registerWrite _ _ _ _ => [.time, .mbx, .mcs, .win, .eng, .trA, .trB]
  | .proofWaveTestDone _ _ _ _ => [.mbx, .clusters, .win, .ctr, .flash, .start]
  | .resetTile _ => [.mbx, .tiles, .tileStores, .win, .ctr, .crown]
  | .fwStageDone _ _ _ _ => [.mbx, .win, .ctr, .crown, .flash, .start, .fw]
  | .schedCancel _ => [.sched, .mbx, .win, .ctr, .crown, .start, .fw]
  | .tapArm _ => [.sched, .mbx, .win, .ctr, .fab, .crown, .taps]
  | .setPowerCap _ _ _ => [.sched, .mbx, .win, .ctr, .fab, .power, .mgmt]
  | .routeTableSwap _ | .transitComparatorTick _ _ => [.time, .mbx, .win, .ctr, .fab, .flash, .start]
  | .settingsWrite _ _ => [.mbx, .win, .ctr, .fab, .crown, .flash, .start]
  | .resetModule _ => [.sched, .mbx, .win, .ctr, .fab, .crown, .start]
  | .voteTally _ _ => [.mbx, .win, .ctr, .crown, .flash, .start, .mgmt]
  | .memWrite _ _ _ _ _ _ _ _ => [.mbx, .phys, .mcs, .xl, .win, .ctr, .flash, .start]
  | .alloc _ => [.mbx, .work, .phys, .xl, .win, .ctr, .crown, .free]
  | .fwActivate _ => [.sched, .mbx, .win, .ctr, .fab, .crown, .start, .fw]
  | .methodSet _ _ => [.mbx, .win, .ctr, .fab, .crown, .led, .flash, .start]
  | .railSequence _ | .frameStart _ _ => [.time, .mbx, .win, .ctr, .fab, .power, .start, .mgmt]
  | .windowHostAccess _ _ _ _ => [.mbx, .phys, .mcs, .snoop, .win, .ctr, .flash, .start]
  | .powerSet _ => [.sched, .mbx, .win, .ctr, .fab, .crown, .power, .mgmt]
  | .transitWithdrawTick _ => [.time, .sched, .mbx, .win, .ctr, .fab, .flash, .start]
  | .crownStartLiveTimeout _ | .voteRepeat _ _ => [.time, .mbx, .win, .ctr, .crown, .flash, .start, .mgmt]
  | .traceCrumb _ _ => [.mbx, .phys, .mcs, .win, .ctr, .flash, .start, .trA, .trB]
  | .traceCtlRingSize _ _ => [.mbx, .win, .ctr, .fab, .crown, .flash, .start, .trA, .trB]
  | .tapRead _ => [.mbx, .hostMem, .mcs, .win, .ctr, .crown, .flash, .start, .taps]
  | .fwStage _ _ => [.mbx, .mcs, .snoop, .xl, .win, .ctr, .crown, .flash, .start, .fw]
  | .traceRecord _ _ _ => [.mbx, .phys, .mcs, .win, .ctr, .flash, .start, .trA, .trB, .free]
  | .groupCreate _ => [.mbx, .mcs, .snoop, .xl, .win, .ctr, .eng, .crown, .flash, .start]
  | .routeLoad _ _ => [.mbx, .mcs, .snoop, .xl, .win, .ctr, .fab, .crown, .flash, .start]
  | .resetCluster _ => [.mbx, .clusters, .tiles, .tileStores, .phys, .xl, .win, .ctr, .crown]
  | .descriptorComplete _ _ _ | .cwait _ _ | .csignal _ _ | .waitRt _ _ | .markReq _ _ _ | .markWork _ _ _ |
    .tileHwFault _ _ _ | .nackArrive _ _ | .abortPacketArrive _ _ =>
    [.mbx, .work, .clusters, .tiles, .signals, .win, .ctr, .fab, .eng, .led]
  | .fwActivateExecute => [.sched, .mbx, .clusters, .win, .ctr, .crown, .flash, .start, .fw, .mgmt]
  | .traceOpen => [.sched, .mbx, .phys, .mcs, .win, .ctr, .flash, .start, .trA, .trB, .free]
  | .copyDone _ _ => [.mbx, .phys, .hostMem, .mcs, .snoop, .xl, .win, .ctr, .flash, .start, .free]
  | .waitRtComplete _ _ | .resendTimeout _ | .collectiveStall _ _ | .progressWatchdog _ =>
    [.time, .mbx, .work, .clusters, .tiles, .signals, .win, .ctr, .fab, .eng, .led]
  | .resetPart _ => [.mbx, .work, .clusters, .tiles, .signals, .win, .ctr, .fab, .eng, .crown, .led]
  | .rackSyncEdge => [.time, .sched, .mbx, .work, .win, .ctr, .fab, .power, .led, .start, .fw, .free]
  | .traceClose => [.time, .sched, .mbx, .phys, .mcs, .win, .ctr, .flash, .start, .trA, .trB, .free]
  | .recipeLoadDone _ _ => [.mbx, .work, .phys, .mcs, .snoop, .xl, .win, .ctr, .crown, .flash, .start, .free]
  | .free _ | .mapUnmap _ => [.mbx, .work, .clusters, .tiles, .signals, .xl, .win, .ctr, .fab, .eng, .crown, .led]
  | .tierMoveDescDone _ _ _ => [.mbx, .signals, .phys, .hostMem, .mcs, .snoop, .xl, .win, .ctr, .flash, .start, .free]
  | .abortCmd _ | .livenessWrite _ =>
    [.mbx, .work, .clusters, .tiles, .signals, .win, .ctr, .fab, .eng, .crown, .led, .taps]
  | .supervisorFailure => [.mbx, .work, .clusters, .tiles, .signals, .win, .ctr, .fab, .eng, .crown, .power, .led]
  | .traceCtlCloseAll _ => [.time, .sched, .mbx, .phys, .mcs, .win, .ctr, .crown, .flash, .start, .trA, .trB, .free]
  | .configStart _ _ => [.mbx, .mcs, .win, .ctr, .fab, .crown, .power, .led, .flash, .start, .fw, .trA, .trB, .mgmt]
  | .mmaLam _ _ _ | .vec _ _ _ | .nlf _ _ _ | .red _ _ _ =>
    [.mbx, .work, .clusters, .tiles, .signals, .tileStores, .phys, .win, .ctr, .fab, .eng, .led]
  | .takeoverComplete =>
    [.mbx, .work, .clusters, .tiles, .signals, .win, .ctr, .fab, .eng, .crown, .led, .taps, .mgmt]
  | .thermalSensorRead _ _ =>
    [.sched, .mbx, .work, .clusters, .tiles, .signals, .win, .ctr, .fab, .eng, .power, .led, .mgmt]
  | .mma _ _ _ | .xfer _ _ _ =>
    [.mbx, .work, .clusters, .tiles, .signals, .tileStores, .phys, .win, .ctr, .fab, .eng, .led, .free]
  | .tileStartTestDone _ _ _ _ =>
    [.mbx, .work, .clusters, .tiles, .signals, .tileStores, .win, .ctr, .fab, .eng, .led, .flash, .start]
  | .thermCountdownExpire =>
    [.time, .sched, .mbx, .work, .clusters, .tiles, .signals, .win, .ctr, .fab, .eng, .power, .led, .mgmt]
  | .controlCoreCacheError _ _ _ =>
    [.sched, .mbx, .work, .clusters, .tiles, .signals, .win, .ctr, .fab, .eng, .crown, .power, .led, .mgmt]
  | .partCreate _ =>
    [.mbx, .work, .clusters, .tiles, .tileStores, .phys, .mcs, .xl, .win, .ctr, .eng, .crown, .flash, .start]
  | .closeCmd _ =>
    [.sched, .mbx, .work, .clusters, .tiles, .signals, .xl, .win, .ctr, .fab, .eng, .crown, .led, .fw, .taps]
  | .ackArrive _ _ =>
    [.mbx, .work, .clusters, .tiles, .signals, .phys, .mcs, .xl, .win, .ctr, .fab, .eng, .led, .flash, .start]
  | .descFetch _ _ _ | .fabricTrig _ _ | .tileSignalArrive _ | .engineCounterAdd _ _ _ _ _ |
    .opContextFree _ _ =>
    [.mbx, .work, .clusters, .tiles, .signals, .mcs, .snoop, .xl, .win, .ctr, .fab, .eng, .led, .flash, .start]
  | .tapPoint _ _ _ _ =>
    [.mbx, .work, .clusters, .tiles, .signals, .phys, .mcs, .win, .ctr, .fab, .eng, .led, .flash, .start, .taps]
  | .pathSilent _ _ | .livenessExpire _ | .holderFailedVoteRequest | .takeoverTimeout | .inconclusiveTimeout |
    .voteRequestRetry =>
    [.time, .sched, .mbx, .work, .clusters, .tiles, .signals, .win, .ctr, .fab, .eng, .crown, .power, .led, .mgmt]
  | .store _ _ _ _ | .putArrive _ _ | .getReqArrive _ _ _ | .getRespArrive _ _ | .atomicArrive _ _ _ |
    .atomicRespArrive _ _ | .reduceArrive _ _ | .rndvReadyArrive _ _ | .counterAddArrive _ _ |
    .backInvalidateResponse _ _ =>
    [.mbx, .work, .clusters, .tiles, .signals, .phys, .mcs, .snoop, .xl, .win, .ctr, .fab, .eng, .led, .flash,
      .start]
  | .controlActivationResume =>
    [.mbx, .work, .clusters, .tiles, .signals, .win, .ctr, .fab, .eng, .crown, .led, .flash, .start, .fw, .taps,
      .mgmt]
  | .collectiveSlotAlloc _ =>
    [.time, .mbx, .work, .clusters, .tiles, .signals, .phys, .mcs, .snoop, .xl, .win, .ctr, .fab, .eng, .led,
      .flash, .start]
  | .activationTimeout =>
    [.time, .sched, .mbx, .work, .clusters, .tiles, .signals, .win, .ctr, .fab, .eng, .crown, .power, .led, .start,
      .fw, .mgmt]
  | .load _ _ _ =>
    [.mbx, .work, .clusters, .tiles, .signals, .tileStores, .phys, .mcs, .snoop, .xl, .win, .ctr, .fab, .eng, .led,
      .flash, .start]
  | .perstN _ | .cxlLinkDown _ | .cxlLinkRetrain _ _ _ =>
    [.mbx, .work, .clusters, .tiles, .signals, .phys, .mcs, .snoop, .xl, .win, .ctr, .fab, .eng, .led, .flash,
      .start, .cxlA, .cxlB]
  | .partDestroy _ =>
    [.mbx, .work, .clusters, .tiles, .signals, .tileStores, .phys, .mcs, .xl, .win, .ctr, .fab, .eng, .crown, .led,
      .flash, .start, .taps]
  | .stageWrite _ _ _ _ =>
    [.mbx, .work, .clusters, .tiles, .signals, .phys, .mcs, .snoop, .xl, .win, .ctr, .fab, .eng, .crown, .led,
      .flash, .start, .cxlA, .cxlB]
  | .fenceRelease _ =>
    [.time, .sched, .mbx, .work, .clusters, .tiles, .signals, .tileStores, .phys, .mcs, .xl, .win, .ctr, .eng,
      .led, .flash, .start, .fw, .taps]
  | .takeoverRestore _ =>
    [.mbx, .work, .clusters, .tiles, .signals, .phys, .mcs, .snoop, .xl, .win, .ctr, .fab, .eng, .crown, .led,
      .flash, .start, .fw, .cxlA, .cxlB]
  | .bridgeRetrainDone _ _ =>
    [.sched, .mbx, .work, .clusters, .tiles, .signals, .phys, .mcs, .snoop, .xl, .win, .ctr, .fab, .eng, .crown,
      .power, .led, .flash, .start, .mgmt, .bridge]
  | .aux3v3Return =>
    [.pins, .mbx, .work, .clusters, .tiles, .signals, .tileStores, .phys, .hostMem, .mcs, .snoop, .xl, .memMode,
      .win, .ctr, .fab, .eng, .crown, .power, .led, .flash, .start, .fw, .trA, .trB, .taps, .cxlA, .cxlB, .bridge]
  | .activateFirmware =>
    [.sched, .mbx, .work, .clusters, .tiles, .signals, .tileStores, .phys, .hostMem, .mcs, .snoop, .xl, .memMode,
      .win, .ctr, .fab, .eng, .power, .led, .flash, .start, .fw, .trA, .trB, .taps, .cxlA, .cxlB, .mgmt, .bridge]
  | .shutdownRailsOff =>
    [.time, .sched, .mbx, .work, .clusters, .tiles, .signals, .tileStores, .phys, .hostMem, .mcs, .snoop, .xl,
      .memMode, .win, .ctr, .fab, .eng, .crown, .power, .start, .fw, .trA, .trB, .taps, .cxlA, .cxlB, .mgmt,
      .bridge]
  | .modResetN =>
    [.ident, .pins, .sched, .mbx, .work, .clusters, .tiles, .signals, .tileStores, .phys, .hostMem, .mcs, .snoop,
      .xl, .memMode, .win, .ctr, .fab, .eng, .crown, .power, .led, .start, .fw, .trA, .trB, .taps, .cxlA, .cxlB,
      .mgmt, .bridge]
  | .withdrawDrainEnd | .voltageRestart =>
    [.ident, .time, .sched, .mbx, .work, .clusters, .tiles, .signals, .tileStores, .phys, .hostMem, .mcs, .snoop,
      .xl, .memMode, .win, .ctr, .fab, .eng, .crown, .power, .led, .start, .fw, .trA, .trB, .taps, .cxlA, .cxlB,
      .mgmt, .bridge]
  | .inputLoss52v | .inputVoltageSample _ =>
    [.ident, .pins, .time, .sched, .mbx, .work, .clusters, .tiles, .signals, .tileStores, .phys, .hostMem, .mcs,
      .snoop, .xl, .memMode, .win, .ctr, .fab, .eng, .crown, .power, .led, .start, .fw, .trA, .trB, .taps, .cxlA,
      .cxlB, .mgmt, .bridge]
  | .powerOn52v _ _ =>
    [.ident, .pins, .time, .sched, .mbx, .work, .clusters, .tiles, .signals, .tileStores, .phys, .hostMem, .mcs,
      .snoop, .xl, .memMode, .win, .ctr, .fab, .eng, .crown, .power, .led, .flash, .start, .fw, .trA, .trB, .taps,
      .cxlA, .cxlB, .mgmt, .bridge]

/-- The commands that firmware takes from a mailbox, and the events of a command it holds. -/
def ofMailbox : Instr → Bool
  | .openCmd _ _ | .closeCmd _ | .queryCaps _ | .queryStatus _ | .alloc _ | .free _ | .mapProtect _ |
    .mapUnmap _ | .mapWindow _ | .copy _ | .copyDone _ _ | .tierMove _ | .tierMoveDescStart _ _ _ _ |
    .tierMoveDescDone _ _ _ | .partCreate _ | .partDestroy _ | .recipeLoad _ | .recipeUnload _ | .launch _ |
    .waitCmd _ | .waitTimeout _ | .abortCmd _ | .groupCreate _ | .groupDestroy _ | .routeLoad _ _ |
    .linkCtlDisable _ | .linkCtlEnable _ | .linkCtlRetrain _ | .linkBert _ _ | .linkBertEnd _ _ | .timeQuery _ |
    .schedAdd _ | .schedCancel _ | .powerSet _ | .powerQuery _ | .reqOpen _ | .reqClose _ | .ledgerRead _ |
    .methodSet _ _ | .configStop _ | .configWrite _ | .configStart _ _ | .settingsWrite _ _ | .digestQuery _ |
    .fwStage _ _ | .fwActivate _ | .fwQuery _ | .traceCtlWindow _ | .traceCtlCloseAll _ |
    .traceCtlRingSize _ _ | .tapArm _ | .tapRead _ | .counterRead _ | .inject _ | .resetPart _ |
    .resetCluster _ | .resetTile _ | .resetModule _ | .crownQuery _ | .recipeLoadDone _ _ |
    .fwStageDone _ _ _ _ => true
  | _ => false

/-- The commands in which the 52 V input comes, goes or is sampled. -/
def ofInput : Instr → Bool
  | .powerOn52v _ _ | .inputLoss52v | .inputVoltageSample _ => true
  | _ => false

/-- The commands in which a claim is granted: the grant at a start, its second try, and the vote. -/
def grants : Instr → Bool
  | .crownStartGrant _ | .crownStartLiveTimeout _ | .voteTally _ _ | .voteRepeat _ _ => true
  | _ => false

end Sys2Proof.Claims
end

