-- ==== Sys2Proof/WellFormed.lean ====
section
/-!
DEFINITION. Which commands are well formed: the operands that stand in fields of the manual hold values those fields
can hold, and operands of the world outside name things that exist. The meanings are total and do not ask it; a sender
that follows the manual sends well-formed commands only.
-/
namespace Sys2Proof

/-- The value fits in a field of `n` bits. -/
def fits (n x : Nat) : Bool := decide (x < 2 ^ n)

/-- The proof wave of a cluster (R538): wave k is made up of CL2k, CL(2k + 1), CL(18 + 2k) and CL(19 + 2k). -/
def waveOf (c : Nat) : Nat := if c < 18 then c / 2 else if c < 36 then (c - 18) / 2 else 9

/-- An address of the module physical map (R39: 48 bits). -/
def physOk (pa : Nat) : Bool := fits 48 pa

/-- The offset of a line of the memory window (R214: at most 64 GiB). -/
def lineOff (off : Nat) : Bool := off % 64 == 0 && decide (off < 0x1000000000)

/-- Data of a whole line, where there is any (R212). -/
def lineData : Option (List Byte) → Bool
  | none => true
  | some d => d.length == 64

/-- The addresses that failed exist. -/
def MemEnv.ok (e : MemEnv) : Bool := (e.ue ++ e.wf ++ e.retry ++ e.ce ++ e.ode ++ e.wretry).all physOk && e.walk.all (fun a => decide (a < 2 ^ 48))

/-- Header fields hold what R337 gives them, and the payload its limit. -/
def Pkt.wf (p : Pkt) : Bool :=
  fits 8 p.opcode && fits 3 p.vc && fits 12 p.destMid && fits 12 p.srcMid && fits 8 p.hops && fits 5 p.ringId &&
  fits 48 p.targetVa && fits 16 p.tag && fits 32 p.seq && fits 16 p.groupId && fits 32 p.groupSeq &&
  fits 64 p.destMask && fits 32 p.opArg && decide (p.payload.length ≤ 4096)

/-- The fields of a beacon (R365). -/
def Beacon.wf (b : Beacon) : Bool :=
  fits 64 b.digestPrefix && fits 64 b.sendRt && fits 12 b.srcMid && fits 2 b.proto && fits 2 b.tq

/-- The capability word (R327): a mask of two protocols, a MID, a port and a role; a receive buffer of 2,048 flits (R334). -/
def CapWord.wf (c : CapWord) : Bool :=
  fits 2 c.protoMask && fits 12 c.mid && decide (c.port < 64) && fits 2 c.role && fits 16 c.linkDelay && c.buffer.length == 8 &&
  decide (c.buffer.sum = 2048)

/-- Eight counts of 16 bits each way (R332). -/
def CtrlFlit.wf (f : CtrlFlit) : Bool :=
  f.sent.length == 8 && f.ret.length == 8 && f.sent.all (fits 16) && f.ret.all (fits 16)

/-- The fields of a heartbeat (R424). -/
def Heartbeat.wf (h : Heartbeat) : Bool :=
  fits 32 h.ckptSeq && fits 32 h.claim && fits 16 h.hbSeq && decide (h.standby ≤ 2)

/-- The fields of an activity report's row (R467). -/
def ActivityRow.wf (r : ActivityRow) : Bool := fits 32 r.ctx && r.counts.all (fits 64) && fits 64 r.occTicks

/-- A program counter (R566): 64 bits, PC[0] is 0 and PC[63:58] equal PC[57]. -/
def pcOk (pc : Nat) : Bool := pc % 2 == 0 && (decide (pc < 2 ^ 57) || (fits 64 pc && decide (2 ^ 64 - 2 ^ 57 ≤ pc)))

/-- The fields of a trace record (R566). -/
def TraceEvent.wf : TraceEvent → Bool
  | .branch _ => true
  | .indirect pc => pcOk pc
  | .exception _ cause pc => fits 16 cause && pcOk pc
  | .frameSync pc => pcOk pc

/-- Is the command well formed? -/
def Instr.wf : Instr → Bool
  | .powerOn52v _ _ => true
  | .inputLoss52v => true
  | .aux3v3Loss => true
  | .railSequence outcomes => outcomes.length == 5
  | .crownStartGrant verified => verified.length == 3
  | .crownStartLiveTimeout verified => verified.length == 3
  | .componentLoad comp _ => decide (2 ≤ comp) && decide (comp ≤ 6)
  | .proofWavePower _ => true
  | .proofWaveTestDone k badTiles badClusters _ =>
    badTiles.all (fun t => waveOf t.1 == k.val && decide (t.2 < 68)) && badClusters.all (fun c => waveOf c == k.val)
  | .memTrainDone _ _ => true
  | .settingsDigestCompute => true
  | .ready => true
  | .defectRewriteTimer _ => true
  | .slotIdSample _ => true
  | .rackSyncEdge => true
  | .rackClkLoss => true
  | .syncMissing => true
  | .rackSetTimeout => true
  | .frameStart _ _ => true
  | .schedDispatch => true
  | .powerTarget => true
  | .fwActivateExecute => true
  | .traceOpen => true
  | .traceClose => true
  | .tapEnable => true
  | .transitWithdrawTick _ => true
  | .hostEvent => true
  | .withdrawDrainEnd => true
  | .ownershipWrite _ _ size data _ => (size == 4 || size == 8) && fits (8 * size) data
  | .mailboxPageWrite _ _ off bytes => decide (off + bytes.length ≤ 4096)
  | .mailboxWatchdog _ _ => true
  | .openCmd _ _ => true
  | .closeCmd _ => true
  | .queryCaps _ => true
  | .queryStatus _ => true
  | .alloc _ => true
  | .free _ => true
  | .mapProtect _ => true
  | .mapUnmap _ => true
  | .mapWindow _ => true
  | .copy _ => true
  | .copyDone _ env => env.ok
  | .tierMove _ => true
  | .tierMoveDescStart _ _ _ _ => true
  | .tierMoveDescDone _ _ env => env.ok
  | .partCreate _ => true
  | .partDestroy _ => true
  | .recipeLoad _ => true
  | .recipeUnload _ => true
  | .launch _ => true
  | .launchPrepare _ => true
  | .launchStart _ => true
  | .launchDone _ => true
  | .waitCmd _ => true
  | .waitTimeout _ => true
  | .abortCmd _ => true
  | .groupCreate _ => true
  | .groupDestroy _ => true
  | .routeLoad _ env => env.ok
  | .routeTableSwap _ => true
  | .linkCtlDisable _ => true
  | .linkCtlEnable _ => true
  | .linkCtlRetrain _ => true
  | .linkBert _ _ => true
  | .linkBertEnd _ counts => counts.all (fun c => fits 64 c.1 && fits 64 c.2)
  | .timeQuery _ => true
  | .schedAdd _ => true
  | .schedCancel _ => true
  | .powerSet _ => true
  | .powerQuery _ => true
  | .reqOpen _ => true
  | .reqClose _ => true
  | .ledgerRead _ => true
  | .methodSet _ _ => true
  | .configStop _ => true
  | .configWrite _ => true
  | .configStart _ _ => true
  | .settingsWrite _ _ => true
  | .digestQuery _ => true
  | .fwStage _ _ => true
  | .fwActivate _ => true
  | .fwQuery _ => true
  | .traceCtlWindow _ => true
  | .traceCtlCloseAll _ => true
  | .traceCtlRingSize _ _ => true
  | .tapArm _ => true
  | .tapRead _ => true
  | .counterRead _ => true
  | .inject _ => true
  | .resetPart _ => true
  | .resetCluster _ => true
  | .resetTile _ => true
  | .resetModule _ => true
  | .crownQuery _ => true
  | .statusW1cWrite _ blk _ => fits 16 blk
  | .firstSrcClear _ blk _ => fits 16 blk
  | .ovfClear _ blk _ => fits 16 blk
  | .errlogClr _ _ _ => true
  | .arbWeightWrite _ _ _ _ => true
  | .rtNowLowRead _ => true
  | .registerWrite _ off size data =>
    [1, 2, 4, 8].contains size && decide (off + size ≤ 0x4000000) && fits (8 * size) data
  | .descFetch _ _ env => env.ok
  | .headerWaitSatisfied _ _ _ => true
  | .descriptorComplete _ _ _ => true
  | .mma _ _ _ => true
  | .mmaLam _ _ _ => true
  | .vec _ _ _ => true
  | .nlf _ _ _ => true
  | .red _ _ _ => true
  | .load _ _ env => env.ok
  | .store _ _ env _ => env.ok
  | .xfer _ _ _ => true
  | .cwait _ _ => true
  | .csignal _ _ => true
  | .waitRt _ _ => true
  | .waitRtComplete _ _ => true
  | .fabricTrig _ _ => true
  | .markReq _ _ _ => true
  | .markWork _ _ _ => true
  | .tapPoint _ _ _ env => env.ok
  | .tileSignalArrive _ => true
  | .tileHwFault _ _ _ => true
  | .tileStartTestDone _ _ _ _ => true
  | .memRead _ pa _ _ _ _ => physOk pa
  | .memWrite _ pa bytes _ _ _ _ _ => physOk pa && decide (pa % 64 + bytes.length ≤ 64)
  | .arbDecision _ _ arrivals _ =>
    arrivals.all (fun a => decide (a.port < 8) && decide (a.who < 42) && decide (0 < a.lines))
  | .arbWindowRefill _ _ => true
  | .scrubRead _ pa _ _ _ => physOk pa
  | .stackTempReport _ _ => true
  | .winSnoopTimeout _ pa => physOk pa
  | .windowHostAccess _ off write env => lineOff off && lineData write && env.ok
  | .phyTrainDone _ => true
  | .fecLockDone _ => true
  | .negotiateDone _ cap => cap.wf
  | .trainStateTimeout _ => true
  | .fecLockLoss _ => true
  | .uncorrCodewordBurst _ => true
  | .linkControlFlit _ f => f.wf
  | .packetRoute _ pkt => pkt.wf
  | .putArrive _ pkt => pkt.wf
  | .getReqArrive _ pkt env => pkt.wf && env.ok
  | .getRespArrive _ pkt => pkt.wf
  | .atomicArrive _ pkt env => pkt.wf && env.ok
  | .atomicRespArrive _ pkt => pkt.wf
  | .reduceArrive _ pkt => pkt.wf
  | .rndvReadyArrive _ pkt => pkt.wf
  | .counterAddArrive _ pkt => pkt.wf
  | .ackArrive _ pkt => pkt.wf
  | .nackArrive _ pkt => pkt.wf
  | .ackTimer _ => true
  | .seqGapNack _ => true
  | .resendTimeout _ => true
  | .bl1BusyAck _ pkt => pkt.wf
  | .beaconArrive _ b => b.wf
  | .noticeWithdrawModule _ pkt => pkt.wf
  | .noticeWithdrawPort _ pkt => pkt.wf
  | .noticeJoin _ pkt => pkt.wf
  | .transitComparatorTick _ _ => true
  | .joinNoticeSend => true
  | .abortPacketArrive _ pkt => pkt.wf
  | .engineCounterAdd _ _ cnt sets adds => decide (cnt < 512) && sets.all (fits 64) && adds.all (fits 64)
  | .opContextFree _ _ => true
  | .engineOpComplete _ _ => true
  | .collectiveSlotAlloc _ => true
  | .collectiveComplete _ _ => true
  | .collectiveStall _ _ => true
  | .progressWatchdog _ => true
  | .fenceRelease _ => true
  | .modResetN => true
  | .bridgeMainbandError _ _ => true
  | .bridgeRetrainDone _ _ => true
  | .heartbeatSend _ => true
  | .heartbeatArrive _ _ _ hb => hb.wf
  | .pathSilent _ _ => true
  | .livenessWrite _ => true
  | .livenessExpire _ => true
  | .holderFailedVoteRequest => true
  | .voteTally _ verified => verified.length == 3
  | .voteRepeat _ verified => verified.length == 3
  | .floorMessage _ claim _ => fits 32 claim
  | .floorBroadcast => true
  | .stageLapse _ => true
  | .stageWrite _ _ claim _ => fits 32 claim
  | .takeoverRestore _ => true
  | .takeoverComplete => true
  | .takeoverTimeout => true
  | .inconclusiveTimeout => true
  | .checkpointSnapshot => true
  | .standbyCommitCheck _ => true
  | .resyncStart => true
  | .supervisorFailure => true
  | .shutdownRailsOff => true
  | .inputVoltageSample _ => true
  | .uvBrakeRelease => true
  | .voltageRestart => true
  | .pwrBrakeNChange _ => true
  | .thermAlertNChange _ => true
  | .thermAlertClear => true
  | .thermCountdownExpire => true
  | .thermalSensorRead _ _ => true
  | .leaseExpire => true
  | .reportWindowEnd => true
  | .activityReport _ _ rows => rows.all ActivityRow.wf
  | .reportLate _ => true
  | .ledgerGapExpire => true
  | .frameReconcile _ vcore => decide (0 < vcore)
  | .sheetCloseTimeout => true
  | .sheetSigned => true
  | .controlActivationResume => true
  | .activationTimeout => true
  | .traceRecord _ _ ev => ev.wf
  | .traceCrumb _ pcs => decide (pcs.length ≤ 4) && pcs.all pcOk
  | .perstN _ => true
  | .hdmCommit _ _ => true
  | .cxlLinkDown _ => true
  | .cxlLinkRetrain _ _ _ => true
  | .entdaa _ => true
  | .setEndpointId _ => true
  | .getEndpointId => true
  | .getMctpVersionSupport => true
  | .getMessageTypeSupport => true
  | .setRackNumber rack => fits 16 rack
  | .setRackTime v _ => fits 64 v
  | .getRackTime => true
  | .setPowerCap capW leaseMs applyRt => fits 16 capW && fits 32 leaseMs && fits 64 applyRt
  | .renewPowerLease leaseMs => fits 32 leaseMs
  | .getPower => true
  | .getStatus => true
  | .getLinks => true
  | .locate _ => true
  | .pldmLedgerRead kind fromSeq max => fits 8 kind && fits 64 fromSeq && fits 16 max
  | .locateNChange _ => true
  | .platformEventRetry _ => true
  | .requestUpdate _ _ _ _ _ => true
  | .activateFirmware => true
  | .getVersion => true
  | .getCapabilities => true
  | .negotiateAlgorithms => true
  | .getDigests => true
  | .getCertificate slot off len => fits 4 slot && fits 16 off && fits 16 len
  | .challenge slot _ => fits 8 slot
  | .getMeasurements index _ _ => fits 8 index
  | .rackClkReturn => true
  | .aux3v3Return => true
  | .modResetNRelease => true
  | .beginLowering => true
  | .powerIntervalEnd _ => true
  | .voteRequestRetry => true
  | .standbyReadyLapse => true
  | .codewordArrive _ corrected pkts => corrected.all (fun c => decide (c ≤ 15)) && pkts.all (fun x => x.1.wf && decide (1 ≤ x.2) && decide (x.2 ≤ 10))
  | .backInvalidateResponse off dirty => lineOff off && lineData dirty
  | .recipeLoadDone _ env => env.ok
  | .fwStageDone _ _ _ _ => true
  | .controlCoreCacheError _ _ _ => true
  | .setEventReceiver _ => true

end Sys2Proof
end

