-- ==== Sys2Proof/Certificates/Slice0/Obligations.lean ====
section
/-!
DEFINITION. The statements for the provers. A completion statement says that a command answers a next state, and which;
a frame statement names the zones of the state that can change.
-/
section

open Sys2Proof Sys2Proof.Machine Sys2Proof.Claims

/-- A step takes the command at the front of the queue and executes it on the state with the queue's rest. -/
def Obligations.StepRunsTheFront : Prop :=
  ∀ (c : Instr) (s : State), step { s with pending := c :: s.pending } = exec c s

/-- On an empty queue one rack tick passes while the 52 V input stands (log entry 1): the model's clock and, without a
pending correction (R50), the three counters move by one (R42); nothing but time changes. -/
def Obligations.EmptyQueueTicks : Prop :=
  ∀ s : State, s.pending = [] →
    ∃ t, step s = .next t ∧ Only [.time] s t ∧ (s.power.v52 = false → t = s) ∧
      (s.power.v52 = true → t.time.clk = s.time.clk + 1 ∧ (s.time.adjust = none →
        t.time.sup = s.time.sup + 1 ∧ t.time.cntA = s.time.cntA + 1 ∧ t.time.cntB = s.time.cntB + 1))

/-- No command stops the machine (log entry 3): each answers a next state. It leaves the queue as it was, and the
variant and the serial number, which the fuses hold (R3, R4). -/
def Obligations.EveryCommandCompletes : Prop :=
  ∀ (c : Instr) (s : State), ∃ t, exec c s = .next t ∧ t.pending = s.pending ∧ t.ident.variant = s.ident.variant ∧
    t.ident.serial = s.ident.serial

/-- A command that firmware takes from a mailbox, or that ends one it holds, changes the zones that `Claims.touched`
names for it and nothing else. -/
def Obligations.MailboxCommandsKeepTheRest : Prop :=
  ∀ (c : Instr) (s : State), ofMailbox c = true → Runs (touched c) s (exec c s)

/-- Every other command, an event at a pin, a port, a tile, a link, the engine, the supervisor or the management port,
changes the zones that `Claims.touched` names for it and nothing else. -/
def Obligations.EventsKeepTheRest : Prop :=
  ∀ (c : Instr) (s : State), ofMailbox c = false → Runs (touched c) s (exec c s)

/-- The storage invariant holds at reset. -/
def Obligations.ResetMemOk : Prop := MemOk State.reset

/-- Every step keeps the storage invariant: device memory, host memory and the tile stores stay in canonical form, so
that equal contents are equal states. -/
def Obligations.StepKeepsMemOk : Prop := ∀ s t : State, MemOk s → step s = .next t → MemOk t

/-- Rack time never falls (R45): no command moves the supervisor's count back, but for the edge that loads a set while
the module is in free time (R55), and but for the 52 V input, whose return starts the count at 0 (R48). The model's
clock and, at every command but a loading edge and a frame start, the halves' counts never fall either. -/
def Obligations.RackTimeNeverFalls : Prop :=
  ∀ (c : Instr) (s t : State), exec c s = .next t → ofInput c = false →
    s.time.clk ≤ t.time.clk ∧ (c ≠ .rackSyncEdge ∨ s.time.tq = .locked → s.time.sup ≤ t.time.sup) ∧
    (c ≠ .rackSyncEdge → (∀ x y, c ≠ .frameStart x y) → s.time.cntA ≤ t.time.cntA ∧ s.time.cntB ≤ t.time.cntB)

/-- TQ becomes 0 only through a set (R50, R53): at a RACK_SYNC edge with a set armed, where all three counters take
its value and TIME_EPOCH counts it. -/
def Obligations.LockedOnlyThroughASet : Prop :=
  ∀ (c : Instr) (s t : State), exec c s = .next t → s.time.tq ≠ .locked → t.time.tq = .locked →
    c = .rackSyncEdge ∧ ∃ a, s.time.armed = some a ∧ t.time.sup = a.v ∧ t.time.cntA = a.v ∧ t.time.cntB = a.v ∧
      t.time.epoch = (s.time.epoch + 1) % 65536 ∧ t.time.armed = none

/-- The claim number and the crown's half change only in a grant (R416, R417), which adds 1 to the claim number; or
with the supervisor, which takes both from the flash when it starts and loses them with the 52 V input (R417, R486). -/
def Obligations.TheCrownChangesByGrant : Prop :=
  ∀ (c : Instr) (s t : State), exec c s = .next t →
    (t.crown.claim ≠ s.crown.claim ∨ t.crown.holder ≠ s.crown.holder) →
    (grants c = true ∧ t.crown.claim = (s.crown.claim + 1) % 2 ^ 32) ∨ ofInput c = true ∨ c = .aux3v3Return

/-- Block scales, zeros, MAX and MIN, ABS and NEG, and integer compute (R139, R143, R163, R164). A scale byte below
0xFF is a power of two and 0xFF is NaN; a sum of opposite operands is +0, a zero product takes the exclusive OR of the
signs, −0 lies below +0; the other operand stands in for one NaN, the canonical NaN for two; ABS and NEG change the
sign only; a sum, difference or product of INT32 saturates and says so, and so does a result narrowed to INT8. -/
def Obligations.NumbersFollowTheRules : Prop :=
  (∀ v : Nat, v < 0xFF → scaleExp v = some ((v : Int) - 127)) ∧ scaleExp 0xFF = none ∧
  (∀ (a : Bool) (m : Nat) (e g : Int), Machine.Num.add (.fin a m e) (.fin (!a) m e) = .fin false 0 e ∧
    Machine.Num.add (.fin a 0 e) (.fin a 0 g) = .fin a 0 (min e g) ∧
    ∀ b : Bool, Machine.Num.mul (.fin a m e) (.fin b 0 g) = .fin (a != b) 0 (e + g) ∧
      Machine.Num.mul (.fin b 0 g) (.fin a m e) = .fin (a != b) 0 (e + g)) ∧
  (∀ (e g : Int), Machine.Num.max (.fin true 0 e) (.fin false 0 g) = .fin false 0 g ∧
    Machine.Num.max (.fin false 0 g) (.fin true 0 e) = .fin false 0 g ∧ Machine.Num.min (.fin true 0 e) (.fin false 0 g) = .fin true 0 e ∧
    Machine.Num.min (.fin false 0 g) (.fin true 0 e) = .fin true 0 e) ∧
  (∀ (f : Fmt) (rm d : Nat) (sat a : Bool) (e : Int), f.round rm sat d (.fin a 0 e) = { code := f.signed a 0 }) ∧
  (∀ (fn : Nat) (s x z : Machine.Num), fn = 5 ∨ fn = 6 → vecExact fn s .nan x z = x ∧ vecExact fn s x .nan z = x) ∧
  (∀ (fn : Nat) (s y z : Machine.Num), fn = 0xA ∨ fn = 0xB → vecExact fn s .nan y z = .nan) ∧
  (∀ (f : Fmt) (rm : Nat) (sat : Bool) (d : Nat), (f.round rm sat d .nan).code = f.nanCode) ∧
  (∀ (a : Bool) (m : Nat) (e : Int) (s y z : Machine.Num), vecExact 0xA s (.fin a m e) y z = .fin false m e ∧
    vecExact 0xA s (.inf a) y z = .inf false ∧ vecExact 0xB s (.fin a m e) y z = .fin (!a) m e ∧
    vecExact 0xB s (.inf a) y z = .inf (!a)) ∧
  (∀ (fn rm d : Nat) (sat : Bool) (i : Int), fn ≠ 9 →
    let r := (vecResult fn 0xF 0xF rm sat d (Machine.Num.ofInt false i 0)).1
    (2 ^ 31 ≤ i → r.code = 2 ^ 31 - 1 ∧ r.sat = true) ∧ (i < -2 ^ 31 → r.code = 2 ^ 31 ∧ r.sat = true) ∧
    (-2 ^ 31 ≤ i → i < 2 ^ 31 → r.code = wrapI 32 i ∧ r.sat = false)) ∧
  (∀ (fn rm d : Nat) (sat : Bool) (i : Int), fn ≠ 9 → -2 ^ 31 ≤ i → i < 2 ^ 31 →
    let r := (vecResult fn 0xF 0xE rm sat d (Machine.Num.ofInt false i 0)).1
    (128 ≤ i → r.code = 127 ∧ r.sat = true) ∧ (i < -128 → r.code = 128 ∧ r.sat = true) ∧
    (-128 ≤ i → i < 128 → r.code = wrapI 8 i ∧ r.sat = false))

/-- Every format represents its own values exactly (R137, R146): the value that a finite code has is rounded back to
that code under every rounding mode, and counts nothing. -/
def Obligations.FloatCodesRoundTrip : Prop :=
  ∀ f ∈ [fp64, fp32, bf16, fp16, e4m3, e5m2, e3m2, e2m3, e2m1], ∀ b < 2 ^ f.width, ∀ (neg : Bool) (m : Nat) (e : Int),
    f.decode b = .fin neg m e →
    ∀ (mode draw : Nat) (sat : Bool), mode ≤ 2 → f.round mode sat draw (.fin neg m e) = { code := b }

/-- What an answer is (R289, R283): the response payload, the control line and OWN 2; the execution place and the
watchdog end; nothing else changes but the MSI-X messages. It is written while the command stands in no place, or while
firmware runs unpaused and the port takes its claim number (R318, R320); without that claim it is discarded and the place
frees, and a place whose mailbox the watchdog has answered only frees (R302). -/
def Obligations.AnswerWritesTheControlLine : Prop :=
  (∀ (k st det : Nat) (r : List Byte) (s : State),
    (∀ x, running s k = some x →
      k < 256 ∧ heldBack s x.opcode = false ∧ portTakes s (Half.ofNum (k / 128)) s.crown.claim = true) →
    let t := respond k st det r s
    let p := page t k
    let h := hdr (page s k)
    p.own = 2 ∧ p.status = st ∧ p.detail = det ∧ p.respLen = r.length ∧ p.tagEcho = h.tag ∧ p.opEcho = h.opcode ∧
    p.ifVer = verUsed h st r ∧ p.doneRt = now s ∧ p.arrival = (page s k).arrival ∧
    p.bytes = Memory.store (page s k).bytes 0x80 r ∧ running t k = none ∧ FMap.get none t.mbx.watch k = none ∧
    (∀ j, j ≠ k → page t j = page s j) ∧ Only [.mbx] s t) ∧
  (∀ (k st det : Nat) (r : List Byte) (s : State) (x : RunCmd), running s k = some x →
    (256 ≤ k ∨ heldBack s x.opcode = false ∧ portTakes s (Half.ofNum (k / 128)) s.crown.claim = false) →
    respond k st det r s = setRun k none s)

/-- Commands that only report (R304, R305, R310-R312, R316, R562). COUNTER_READ (R576): the values with the count, and
with CLEAR set the counters zero afterwards, the queue depths of a port apart, and nothing else changed. -/
def Obligations.CommandsThatReport : Prop :=
  (∀ (s : State) (mb : Fin 128),
      (accepted s mb 0x003 → arg s mb 0 2 = 0 →
        exec (.queryCaps mb) s = .next (answered s mb 0x003 (capsSummary s) s)) ∧
      (accepted s mb 0x003 → arg s mb 0 2 = 1 →
        exec (.queryCaps mb) s = .next (answered s mb 0x003 (capsClusters s) s)) ∧
      (accepted s mb 0x004 → arg s mb 0 1 = 0 →
        exec (.queryStatus mb) s = .next (answered s mb 0x004 (statusModule s) s)) ∧
      (accepted s mb 0x401 →
        exec (.timeQuery mb) s = .next (answered s mb 0x401 (natLe 8 (now s) ++ natLe 8 s.time.setLast ++
          natLe 2 s.time.epoch ++ natLe 1 s.time.tq.code ++ natLe 1 0) s)) ∧
      (accepted s mb 0x502 → exec (.powerQuery mb) s = .next (answered s mb 0x502 (powerQueryBytes s) s)) ∧
      (accepted s mb 0x605 → exec (.digestQuery mb) s = .next (answered s mb 0x605
        (hashBytes (digest s) ++ natLe 8 (prefixOf (fabDigest s)) ++ natLe 8 (mismatchMask s)) s)) ∧
      (accepted s mb 0x703 → exec (.fwQuery mb) s = .next (answered s mb 0x703
        (natLe 1 (s.start.dir.ctrlSlot + 2 * s.start.dir.tileSlot) ++ natLe 1 s.start.dir.staged ++ natLe 2 0 ++
         natLe 4 s.start.dir.verA ++ natLe 4 s.start.dir.verB ++ natLe 4 0 ++ natLe 8 s.start.dir.pendRt) s)) ∧
      (accepted s mb 0x905 → exec (.crownQuery mb) s = .next (answered s mb 0x905
        (natLe 1 s.crown.holder.num ++ natLe 1 s.crown.standby ++
         natLe 1 (b2n (!pathFault s false) + 2 * b2n (!pathFault s true)) ++ natLe 1 0 ++ natLe 4 s.crown.claim ++
         natLe 8 s.crown.lastTakeRt ++ natLe 4 s.crown.takeovers) s))) ∧
  (∀ (s : State) (mb : Fin 128) (blk i n : Nat), accepted s mb 0x804 → arg s mb 0 2 = blk → arg s mb 2 2 = i →
      arg s mb 4 2 = n → isBlock blk = true → absentBlk s blk = false → 0 < n → n ≤ 495 → i + n ≤ 2048 →
      let r := natLe 8 (now s) ++ ((List.range n).map (fun k => ctrRead s blk (i + k))).flatMap (natLe 8)
      (bitOf (arg s mb 6 2) 0 = false → exec (.counterRead mb) s = .next (answered s mb 0x804 r s)) ∧
      (bitOf (arg s mb 6 2) 0 = true → i + n ≤ 1024 → ∃ u, Only [.ctr, .mcs] s u ∧
        (∀ k, i ≤ k → k < i + n → ctrRead u blk k = if 0x80 ≤ blk ∧ 4 ≤ k ∧ k < 12 then ctrRead s blk k else 0) ∧
        exec (.counterRead mb) s = .next (answered s mb 0x804 r u)))

/-- OPEN and CLOSE (R236-R238, R303): a free context with the drawn or given seed and its mailboxes; the end of a
context without partitions. -/
def Obligations.SessionsOpenAndClose : Prop :=
  ∀ (s : State) (mb : Fin 128),
    (∀ (d : BitVec 64) (v : Nat), accepted s mb 0x001 → pickVer (arg s mb 0 2) (arg s mb 2 2) = some v →
      (bitsOf (arg s mb 16 16) 128).contains (key s mb % 128) →
      (bitsOf (arg s mb 16 16) 128).all (fun m => FMap.get 0 s.mbx.bind m == 0) → liveCtxs s < 64 →
      let i := nextCtxId s s.work.lastCtx 64
      let seed := if arg s mb 8 8 = 0 then d.toNat else arg s mb 8 8
      exec (.openCmd mb d) s = .next (answered s mb 0x001 (natLe 2 v ++ natLe 2 i)
        (openCtx i seed v (bitsOf (arg s mb 16 16) 128) s))) ∧
    (∀ c : Ctx, accepted s mb 0x002 → ctx? s (cx s mb) = some c → c.closing = false →
      let u := modCtx (cx s mb) (fun c => { c with closing := true }) s
      ctxParts u (cx s mb) = [] →
      exec (.closeCmd mb) s = .next (answered s mb 0x002 [] (finishClose (cx s mb) u)))

/-- ALLOC, FREE and MAP (R200, R205, R215, R306): a free range of the chosen tier is mapped; the allocation that
starts at the address is freed; pages are protected, unmapped, or mapped onto the window. -/
def Obligations.MemoryIsMapped : Prop :=
  ∀ (s : State) (mb : Fin 128),
    (∀ t runs va, let size := arg s mb 0 8
      let tier := arg s mb 8 1
      let big := decide (arg s mb 9 1 = 1)
      let n := cdiv size (pageSize big) * pageSize big
      accepted s mb 0x101 → 0 < size → tier ≤ 2 → arg s mb 9 1 ≤ 1 →
      (tier = 1 → s.ident.variant ≠ .l ∧ s.mem.tierOff = false) → bitOf (arg s mb 10 2) 1 = false →
      pickTier s tier big n = some (t, runs) → findVa s (theCtx s (cx s mb)) (pageSize big) n = some va →
      exec (.alloc mb) s = .next (answered s mb 0x101 (natLe 8 va ++ natLe 8 n ++ natLe 1 t)
        (place (cx s mb) 0 t big (bitOf (arg s mb 10 2) 0) va n runs s))) ∧
    (∀ a, let va := addrAt (load s mb) 0
      accepted s mb 0x102 → (theCtx s (cx s mb)).allocs.find? (fun a => a.va = va && a.recipe = 0) = some a →
      exec (.free mb) s = .next (answered s mb 0x102 [] (failUsers (cx s mb) va a.size (freeAlloc (cx s mb) va s)))) ∧
    (let va := addrAt (load s mb) 0
     let n := arg s mb 8 8
     accepted s mb 0x103 → arg s mb 16 1 = 0 → mapFault (theCtx s (cx s mb)) va n false = none →
      covered va n (fun _ => true) (theCtx s (cx s mb)).maps →
      exec (.mapProtect mb) s = .next (answered s mb 0x103 [] (setMaps (cx s mb) va n (fun c => { c with
        maps := unmapRange va n c.maps ++ (insideRange va n c.maps).map (fun m =>
          { m with read := bitOf (arg s mb 17 1) 0, write := bitOf (arg s mb 17 1) 1 }) }) s))) ∧
    (let va := addrAt (load s mb) 0
     let n := arg s mb 8 8
     accepted s mb 0x103 → arg s mb 16 1 = 1 → mapFault (theCtx s (cx s mb)) va n true = none →
      exec (.mapUnmap mb) s = .next (answered s mb 0x103 [] (failUsers (cx s mb) va n
        (setMaps (cx s mb) va n (fun c => { c with maps := unmapRange va n c.maps }) s)))) ∧
    (let va := addrAt (load s mb) 0
     let n := arg s mb 8 8
     let off := addrAt (load s mb) 24
     accepted s mb 0x103 → arg s mb 16 1 = 2 → va % 0x200000 = 0 → 0 < n → n % 0x200000 = 0 → off % 0x200000 = 0 →
      vaFree (theCtx s (cx s mb)) va n → off + n ≤ s.mem.windowGib * 2 ^ 30 →
      exec (.mapWindow mb) s = .next (answered s mb 0x103 [] (setMaps (cx s mb) va n (fun c => { c with maps := c.maps ++
        [{ va := va, pa := winBase s + off, len := n, read := bitOf (arg s mb 17 1) 0,
           write := bitOf (arg s mb 17 1) 1, window := true }] }) s))) ∧
    (∀ (i va n : Nat) (c : Ctx) (f : Ctx → Ctx), ctx? s i = some c →
      (ctx? (setMaps i va n f s) i).map (·.maps) = some (f c).maps ∧
      (∀ site, (FMap.get [] (setMaps i va n f s).mem.xl site).all (fun e =>
        e.cx != i || decide (va + n ≤ e.va) || decide (e.va + e.size ≤ va))))

/-- COPY (R306, R307): the command takes a place; at COPY_DONE with no line of the window held by the host, the bytes
have moved and the answer carries how many. TIER_MOVE (R208-R211): every descriptor checked, then a place; a free
mover takes a descriptor at its rack time; at its end the lines have moved, its signal is on its way and the mover's
counters have counted. -/
def Obligations.BytesAreMoved : Prop :=
  (∀ (s : State) (mb : Fin 128),
      (accepted s mb 0x104 → 0 < arg s mb 16 8 → arg s mb 16 8 ≤ 2 ^ 32 → arg s mb 24 1 ≤ 1 → arg s mb 25 1 ≤ 1 →
        exec (.copy mb) s = .next (stays s mb (placed s mb 0x104) s)) ∧
      (∀ (env : MemEnv) (k n : Nat) (r : RunCmd), runKeyOf s mb 0x104 = some (k, r) →
        n = numAt r.pl 16 8 →
        let a : Side := { host := numAt r.pl 24 1 = 1, va := addrAt r.pl 0 }
        let b : Side := { host := numAt r.pl 25 1 = 1, va := addrAt r.pl 8 }
        let ag : Agent := .host (crownHalf s)
        sideSnoops s ag r.ctx false a n ++ sideSnoops s ag r.ctx true b n = [] →
        sideHeld s ag r.ctx false a n = false → sideHeld s ag r.ctx true b n = false →
        (moveAll ag r.ctx env a b n s).2.2 = none →
        exec (.copyDone mb env) s =
          .next (respond k stOk 0 (natLe 8 (moveAll ag r.ctx env a b n s).2.1) (moveAll ag r.ctx env a b n s).1))) ∧
  (∀ (s : State) (mb : Fin 128),
      (let n := (head s mb).len / 64
       accepted s mb 0x105 → (head s mb).len % 64 = 0 → 0 < n → n ≤ 62 →
        (∀ i < n, moverFault s (cx s mb) (moverDesc (load s mb) i) = none) →
        exec (.tierMove mb) s = .next (stays s mb { placed s mb 0x105 with moves := List.replicate n {} } s)) ∧
      (∀ (i k : Nat) (half : Half) (mover : Fin 4) (r : RunCmd) (m : MoveSt),
        runKeyOf s mb 0x105 = some (k, r) → r.moves[i]? = some m → m.st = 0 →
        moverBusy s half mover.val = false → s.crown.takeover = false →
        (bitOf (moverDesc r.pl i) 128 = true → ∀ x ∈ r.moves.take i, 2 ≤ x.st) →
        exec (.tierMoveDescStart mb i half mover) s = .next (setRun k
          (some { r with moves := r.moves.set i { m with st := 1, half := half, mover := mover.val } })
          (waitCount (fld (moverDesc r.pl i) 319 256) s))) ∧
      (∀ (i k : Nat) (env : MemEnv) (r : RunCmd) (m : MoveSt), runKeyOf s mb 0x105 = some (k, r) →
        r.moves[i]? = some m → m.st = 1 →
        let d := moverDesc r.pl i
        let a : Side := { host := false, va := fld d 495 448 }
        let b : Side := { host := false, va := fld d 431 384 }
        let n := fld d 351 320
        let ag : Agent := .mover m.half
        let o := moveAll ag r.ctx env a b n s
        sideSnoops s ag r.ctx false a n ++ sideSnoops s ag r.ctx true b n = [] →
        sideHeld s ag r.ctx false a n = false → sideHeld s ag r.ctx true b n = false → o.2.2 = none →
        let r' := { r with moves := r.moves.set i { m with st := 2, reason := 0, moved := o.2.1 } }
        let blk := 0x10 + m.half.num
        exec (.tierMoveDescDone mb i env) s =
          .next (tierMoveEnd k r' (setRun k (some r') (count blk 33 1 (count blk 32 o.2.1 (moverSignal k r.ctx d o.1)))))))

/-- RECIPE_LOAD, its end and RECIPE_UNLOAD (R246, R248): a place; the bundle read, and the answer that its checks and
its load lead to; the recipe's allocations freed and the handle gone. PART_CREATE and PART_DESTROY (R250, R251, R254):
the chosen clusters, zeroed, under the lowest free number; the partition without work goes. -/
def Obligations.RecipesAndPartitions : Prop :=
  (∀ (s : State) (mb : Fin 128),
      (accepted s mb 0x203 → arg s mb 0 1 ≤ 1 →
        exec (.recipeLoad mb) s = .next (stays s mb (placed s mb 0x203) s)) ∧
      (∀ (env : MemEnv) (k : Nat) (r : RunCmd) (h b : List Byte),
        let src := decide (numAt r.pl 0 1 = 1)
        let n := numAt r.pl 16 8
        let ag : Agent := .host (crownHalf s)
        let u := if src then readNote ag r.ctx env (addrAt r.pl 8) n s else s
        runKeyOf s mb 0x203 = some (k, r) → k < 256 → serving s →
        (src = true → snoopLines s ag r.ctx false (addrAt r.pl 8) n = [] ∧
          bridgeHolds s ag r.ctx false (addrAt r.pl 8) n = false) →
        (ctx? s r.ctx).isSome → readBundle s r.ctx env src (addrAt r.pl 8) (min n 128) = .ok h →
        bundleVersion (numAt h 0 128) → readBundle s r.ctx env src (addrAt r.pl 8) n = .ok b →
        exec (.recipeLoadDone mb env) s = .next (answer k 0x203 (loadBundle r.ctx n env b u))) ∧
      (let i := arg s mb 0 4
       accepted s mb 0x204 → (recipe? s (cx s mb) i).isSome → recipeBusy s (cx s mb) i = false →
        let u := ((theCtx s (cx s mb)).allocs.filter (fun a => a.recipe = i)).foldl (fun x a => freeAlloc (cx s mb) a.va x) s
        exec (.recipeUnload mb) s = .next (answered s mb 0x204 []
          (modCtx (cx s mb) (fun c => { c with recipes := FMap.set none c.recipes i none }) u)))) ∧
  (∀ (s : State) (mb : Fin 128),
      (∀ (cs : List Nat) (i : Nat),
        let l := (List.range (arg s mb 3 1)).map (fun i => numAt (load s mb) (8 + i) 1)
        let mg := if arg s mb 2 1 = 0 then 64 else arg s mb 2 1
        accepted s mb 0x201 → partFault (load s mb) = none → (theCtx s (cx s mb)).closing = false →
        choose s (arg s mb 0 1) (arg s mb 1 1) mg l = some cs → FMap.freeKey none s.work.parts 0 36 = some i →
        reserved s (·.feCnt) + arg s mb 4 2 ≤ 512 → reserved s (·.feTrig) + arg s mb 6 2 ≤ 8192 →
        exec (.partCreate mb) s = .next (answered s mb 0x201 (natLe 1 i ++ natLe 1 cs.length ++ natLe 6 0 ++
          cs.flatMap (natLe 1 ·) ++ List.replicate (36 - cs.length) 0)
          (createPart i (cx s mb) cs (arg s mb 4 2) (arg s mb 6 2) s))) ∧
      (∀ p : Machine.Part, accepted s mb 0x202 → ownPart s (cx s mb) (arg s mb 0 1) = some p →
        bitOf (arg s mb 1 1) 0 = false → p.fence = none → p.queue = [] →
        exec (.partDestroy mb) s = .next (answered s mb 0x202 [] (destroyPart (arg s mb 0 1) s))))

/-- LAUNCH (R256, R259): a launch that nothing refuses is QUEUED under the next LAUNCH_ID, behind the partition's
queue. The life of a launch (R260-R262, R517): PREPARED with its start tick; RUNNING from the tick; DONE once its end
is latched; failed by the progress watchdog. -/
def Obligations.LaunchesRun : Prop :=
  (∀ (s : State) (mb : Fin 128) (c : Ctx) (p : Machine.Part),
      let i := arg s mb 0 1
      let hsn := arg s mb 8 8
      let args := (List.range 16).map (fun k => addrAt (load s mb) (32 + 8 * k))
      let id := nextLaunchId c.lastLaunch
      accepted s mb 0x205 → ctx? s (cx s mb) = some c → ownPart s (cx s mb) i = some p →
      p.recent.find? (fun x => x.1 = hsn) = none → launchFault s (cx s mb) i p (load s mb) args = none →
      bitOf (arg s mb 1 1) 0 = false →
      ∃ u, exec (.launch mb) s = .next (answered s mb 0x205 (natLe 4 id ++ natLe 1 0 ++ natLe 1 0) u) ∧ Only [.work] s u ∧
        launch? u (cx s mb) id = some {
          id := id, hsn := hsn, part := i, recipe := arg s mb 4 4, startRt := arg s mb 16 8, args := args,
          notify := if bitOf (arg s mb 1 1) 1 then arg s mb 2 1 else 0, seed := c.seed } ∧
        part? u i = some { p with queue := p.queue ++ [id], recent := ((hsn, id) :: p.recent).take 16 }) ∧
  (∀ (s : State) (part : Fin 36) (p : Machine.Part) (l : Launch) (r : Recipe),
      part? s part.val = some p → headLaunch s part.val = some l → recipe? s p.ctx l.recipe = some r → p.fence = none →
      (l.st = 0 → serving s →
        ∃ t, exec (.launchPrepare part) s = .next t ∧ Only [.work, .clusters, .tiles] s t ∧
          (launch? t p.ctx l.id).map (fun y => (y.st, y.tick)) =
            (launch? s p.ctx l.id).map (fun _ => (1, if l.startRt ≤ now s then now s + 1 else l.startRt))) ∧
      (∀ w ws, ((partHalves p).filter (fun h => !begun l h)).map (fun h => ticksTo s (cnt s h) l.tick) = w :: ws →
        (l.st = 1 ∨ l.st = 2) →
        exec (.launchStart part) s = .next (startHalves part.val p r l.id (advance (ws.foldl min w) s))) ∧
      (l.st = 2 → l.endRt ≠ 0 → serving s → exec (.launchDone part) s = .next (endLaunch p.ctx l.id 3 s)) ∧
      (l.st = 2 → l.endRt = 0 → serving s →
        exec (.progressWatchdog part) s = .next (failLaunch part.val 0 0 0 0 true (waitUntil l.wdAt s))))

/-- The end of a launch (R262, R264): its state and end tick are recorded, it leaves the partition's queue. WAIT and
its timeout (R263): answered at once for a launch that has ended, else at the end of the time asked for. ABORT (R266):
a QUEUED launch is REMOVED at once; a RUNNING one fences its partition and the command stays. -/
def Obligations.LaunchesEnd : Prop :=
  (∀ (s : State) (c id st : Nat) (l : Launch), launch? s c id = some l → l.st = 2 →
      let t := endLaunch c id st s
      (launch? t c id).map (fun y => (y.st, y.endRt, y.tq)) =
        some (st, if l.endRt = 0 then now s else l.endRt, if l.endRt = 0 then s.time.tq.code else l.tq) ∧
      (∀ p, part? s l.part = some p → (part? t l.part).map (·.queue) = some (p.queue.filter (· != id))) ∧
      Only [.mbx, .work, .tiles, .taps] s t) ∧
  (∀ (s : State) (mb : Fin 128) (l : Launch),
      (accepted s mb 0x206 → launch? s (cx s mb) (arg s mb 0 4) = some l → arg s mb 4 4 ≤ 60000 →
        (3 ≤ l.st → exec (.waitCmd mb) s = .next (answered s mb 0x206 (recordOf l) s)) ∧
        (l.st < 3 → exec (.waitCmd mb) s = .next (stays s mb { placed s mb 0x206 with
          arg := arg s mb 0 4, deadline := s.time.clk + arg s mb 4 4 * 100000 } s))) ∧
      (∀ (k : Nat) (r : RunCmd), runKeyOf s mb 0x206 = some (k, r) →
        let u := waitUntil r.deadline s
        launch? u r.ctx r.arg = some l →
        exec (.waitTimeout mb) s = .next (respond k stTimeout 0 (recordOf l) u))) ∧
  (∀ (s : State) (mb : Fin 128) (l : Launch) (p : Machine.Part), accepted s mb 0x207 → arg s mb 0 1 = 0 →
      launch? s (cx s mb) (arg s mb 4 4) = some l → part? s l.part = some p → p.fence = none →
      (l.st = 0 → (∀ m, headLaunch s l.part = some m → m.st = 0) →
        let u := endLaunch (cx s mb) (arg s mb 4 4) 6 s
        exec (.abortCmd mb) s = .next (answered s mb 0x207
          (match launch? u (cx s mb) (arg s mb 4 4) with | some x => recordOf x | none => []) u)) ∧
      (l.st = 2 → l.endRt = 0 → headLaunch s l.part = some l →
        exec (.abortCmd mb) s = .next (stays s mb { placed s mb 0x207 with arg := arg s mb 4 4 }
          (fencePart 1 5 0 false l.part s))))

/-- RESET_PART, RESET_CLUSTER, RESET_TILE and RESET_MODULE (R519, R520, R522, R526): a fence; the cluster's or tile's
store, counters and registers zeroed; the module's reset set for its tick. -/
def Obligations.ResetsZero : Prop :=
  ∀ (s : State) (mb : Fin 128),
    (∀ p : Machine.Part, accepted s mb 0x901 → ownPart s (cx s mb) (arg s mb 0 1) = some p →
      exec (.resetPart mb) s = .next (stays s mb (placed s mb 0x901) (fencePart 1 5 0 false (arg s mb 0 1) s))) ∧
    (let c := arg s mb 0 1
     accepted s mb 0x902 → unitFault s (key s mb % 128) (cx s mb) c = none → unitBusy s c = none →
      exec (.resetCluster mb) s = .next (answered s mb 0x902 [] (closeWins c (zeroCluster c s)))) ∧
    (let c := arg s mb 0 1
     let n := arg s mb 1 1
     accepted s mb 0x903 → unitFault s (key s mb % 128) (cx s mb) c = none → n < 64 → absentPos s c n = false → unitBusy s c = none →
      exec (.resetTile mb) s = .next (answered s mb 0x903 [] (zeroTile (64 * c + n) s))) ∧
    (let t := arg s mb 0 8
     accepted s mb 0x904 → now s + 100000 ≤ t →
      ∃ u, exec (.resetModule mb) s = .next (answered s mb 0x904 [] u) ∧ (sched u 1).st = 1 ∧
        (sched u 1).rt = (if (sched s 1).st = 1 then min (sched s 1).rt t else t) ∧ u.start.resetAt = some (sched u 1).rt ∧
        Only [.sched, .fab, .win, .ctr, .mbx, .start] s u)

/-- GROUP_CREATE and GROUP_DESTROY (R395, R396). ROUTE_LOAD, LINK_CTL and LINK_BERT (R345, R376, R377): a shadow table
with its tick; a scheduled withdrawal with its notice; a retrain or an enable; ports in TEST until the end, then
training again. -/
def Obligations.GroupsAndLinkCommands : Prop :=
  (∀ (s : State) (mb : Fin 128),
      (∀ (p : Machine.Part) (b : List Byte),
        let id := arg s mb 0 2
        let pi := arg s mb 2 1
        let n := arg s mb 4 2
        let g := groupOf pi (arg s mb 6 2) b
        let ag : Agent := .host (crownHalf s)
        accepted s mb 0x301 → snoopLines s ag (cx s mb) false (addrAt (load s mb) 8) (64 + 8 * min 4096 n) = [] →
        bridgeHolds s ag (cx s mb) false (addrAt (load s mb) 8) (64 + 8 * min 4096 n) = false →
        group? s id = none → ownPart s (cx s mb) pi = some p → 0 < n → n ≤ 4096 → arg s mb 6 2 < n →
        readBundle s (cx s mb) {} true (addrAt (load s mb) 8) (64 + 8 * n) = .ok b →
        groupOk g b n → (mixedGroup g = true → bitOf (arg s mb 3 1) 0 = true) → ownMemberOk s (cx s mb) g →
        p.fence = none →
        s.eng.groups.length < 256 →
        (s.eng.groups.map (fun x => match x.2 with | some y => y.members.length | none => 0)).sum + n ≤ 65536 →
        exec (.groupCreate mb) s = .next (answered s mb 0x301 []
          (modEng (fun e => { e with groups := FMap.set none e.groups id (some g) })
            (readNote ag (cx s mb) {} (addrAt (load s mb) 8) (64 + 8 * n) s)))) ∧
      (∀ g : Group, let id := arg s mb 0 2
        accepted s mb 0x302 → group? s id = some g → (ownPart s (cx s mb) g.part).isSome →
        s.eng.colls.any (fun c => c.group = id) = false →
        exec (.groupDestroy mb) s = .next (answered s mb 0x302 []
          (modEng (fun e => { e with groups := FMap.set none e.groups id none }) s)))) ∧
  (∀ (s : State) (mb : Fin 128),
      (∀ (env : MemEnv) (b : List Byte), let t := arg s mb 24 8
        accepted s mb 0x303 → arg s mb 0 1 = 0 → arg s mb 16 4 = 21056 →
        readBundle s (cx s mb) env false (addrAt (load s mb) 8) 21056 = .ok b → routeOk b →
        (t = 0 ∨ now s + 1000 ≤ t) → isStopped s 0 = false →
        exec (.routeLoad mb env) s = .next (answered s mb 0x303 []
          (modFab (fun f => { f with shadow := some (if t = 0 then now s else t, parseRoute b) }) s))) ∧
      (∀ i, let p := arg s mb 0 1
        let t := if arg s mb 8 8 = 0 then now s + 1000 else arg s mb 8 8
        accepted s mb 0x304 → arg s mb 1 1 = 0 → linkFault s (load s mb) = none → freeFrom s 5 27 = some i →
        let u := schedPut i t 6 0 (1 + 2 ^ 8 * p + 2 ^ 16 * 4) false 0 s
        let v := if [4, 5, 8].contains (port u p).st then sendOn p (noticePkt u p 1 p t) u else u
        exec (.linkCtlDisable mb) s = .next (answered s mb 0x304 (natLe 1 (port v p).st) v)) ∧
      (let p := arg s mb 0 1
       accepted s mb 0x304 → linkFault s (load s mb) = none → arg s mb 8 8 = 0 →
        (arg s mb 1 1 = 1 → (port s p).role ≠ 0 →
          exec (.linkCtlEnable mb) s = .next (answered s mb 0x304 (natLe 1 (port (trainByCtl true p s) p).st)
            (trainByCtl true p s))) ∧
        (arg s mb 1 1 = 2 →
          exec (.linkCtlRetrain mb) s = .next (answered s mb 0x304 (natLe 1 (port (trainByCtl false p s) p).st)
            (trainByCtl false p s)))) ∧
      (∀ peers : BitVec 64, let ms := arg s mb 8 4
        let l := (bitsOf (arg s mb 0 8) 64).filter (fun p => testable (port s p))
        let till (p : Nat) : Nat := s.time.clk + (if peers.getLsbD p then ms * 100000 else 1000000)
        let mask (b : Bool) : Nat := bitsWord ((l.filter (fun p => peers.getLsbD p = b)).map (fun p => (p, true)))
        accepted s mb 0x305 → 0 < ms → ms ≤ 60000 →
        exec (.linkBert mb peers) s = .next (stays s mb { placed s mb 0x305 with
            arg := mask true + 2 ^ 64 * mask false, deadline := (l.map till).foldl min (s.time.clk + ms * 100000) }
          (l.foldl (fun x p => setPortSt p 6 (modPort p (fun y => { y with test := some (till p), retrain := false }) x)) s))) ∧
      (∀ (k : Nat) (r : RunCmd) (counts : List (Nat × Nat)), runKeyOf s mb 0x305 = some (k, r) → r.deadline ≠ 0 →
        let l := bitsOf (r.arg % 2 ^ 64) 64
        let all := l ++ bitsOf (r.arg / 2 ^ 64) 64
        let u := all.foldl testEnds (waitUntil r.deadline s)
        (all.filterMap (fun p => (port u p).test) = [] → exec (.linkBertEnd mb counts) s = .next (bertSettle (setRun k
          (some { r with deadline := 0, arg := r.arg % 2 ^ 64, pl := bertBytes l counts }) u))) ∧
        (∀ t ts, all.filterMap (fun p => (port u p).test) = t :: ts → exec (.linkBertEnd mb counts) s =
          .next (setRun k (some { r with deadline := ts.foldl min t }) u))))

/-- SCHED_ADD and SCHED_CANCEL (R62-R66, R70): a HOST_EVENT entry becomes PENDING with its time, argument and owner,
and its HANDLE is answered; a pending entry of the host becomes CANCELLED. -/
def Obligations.ScheduleEntriesAreAddedAndCancelled : Prop :=
  ∀ (s : State) (mb : Fin 128),
    (∀ i, let w := leNat (load s mb)
      accepted s mb 0x402 → (bitOf w 72 = true ∨ now s + 1000 ≤ fld w 63 0) → fld w 71 64 = 7 →
      0 < fld w 255 128 → fld w 255 128 ≤ 255 → freeFrom s 32 224 = some i →
      ∃ u, exec (.schedAdd mb) s = .next (answered s mb 0x402 (natLe 4 (handleOf u i)) u) ∧ Only [.sched] s u ∧
        (sched u i).rt = fld w 63 0 ∧ (sched u i).action = 7 ∧ (sched u i).st = 1 ∧ (sched u i).owner = 1 ∧
        (sched u i).arg = fld w 255 128 ∧ (sched u i).lateOk = bitOf w 72 ∧ ∀ j, j ≠ i → sched u j = sched s j) ∧
    (∀ i, accepted s mb 0x403 → byHandle s (arg s mb 0 4) = some i → cx s mb ≠ 0 → (sched s i).owner = 1 →
      (sched s i).action = 7 → (sched s i).ctx = cx s mb → (sched s i).st = 1 → (sched s i).rt ≠ s.time.sup →
      ∃ u, exec (.schedCancel mb) s = .next (answered s mb 0x403 [] u) ∧ Only [.sched] s u ∧
        sched u i = { sched s i with st := 4 } ∧ ∀ j, j ≠ i → sched u j = sched s j)

/-- CONFIG_STOP, CONFIG_WRITE, CONFIG_START, SETTINGS_WRITE (R312, R313, R548): a function is held; records are
staged; they are recorded and applied, the stop released and the digest returned; settings outside the functions are
recorded. METHOD_SET and TRACE_CTL ring size (R471, R564): the records are written, and the values take effect at
their frame and at the ring. -/
def Obligations.SettingsTakeEffect : Prop :=
  (∀ (s : State) (mb : Fin 128),
      (accepted s mb 0x601 → arg s mb 0 1 ≤ 5 → stopOf s (arg s mb 0 1) = none →
        exec (.configStop mb) s = .next (answered s mb 0x601 []
          (setStop (arg s mb 0 1) (some { holder := holderOf (key s mb) (head s mb) }) s))) ∧
      (∀ l x, accepted s mb 0x602 → 8 ≤ (load s mb).length → arg s mb 0 1 ≤ 5 →
        recordsOf s (arg s mb 0 1) 2 (load s mb) = .ok l → stopOf s (arg s mb 0 1) = some x →
        x.holder = holderOf (key s mb) (head s mb) →
        exec (.configWrite mb) s = .next (answered s mb 0x602 []
          (setStop (arg s mb 0 1) (some { x with staged := layRecords l x.staged }) s))) ∧
      (∀ flash x u, accepted s mb 0x603 → arg s mb 0 1 ≤ 5 → stopOf s (arg s mb 0 1) = some x →
        x.holder = holderOf (key s mb) (head s mb) → x.staged ≠ [] → FMap.get [] x.staged 0x0003 = [] →
        recordSettings flash x.staged s = (true, u) →
        let v := setStop (arg s mb 0 1) none (x.staged.foldl (fun s y => applyKey y.1 s) u)
        exec (.configStart mb flash) s = .next (answered s mb 0x603 (hashBytes (digest v)) v)) ∧
      (∀ flash l u, accepted s mb 0x604 → recordsOf s 6 0 (load s mb) = .ok l → l ≠ [] →
        recordSettings flash l s = (true, u) →
        exec (.settingsWrite mb flash) s = .next (answered s mb 0x604 (hashBytes (digest u)) u))) ∧
  (∀ (s : State) (mb : Fin 128) (flash : Retry),
      (∀ u, let m := arg s mb 0 2
        let hs := arg s mb 2 1
        let t := arg s mb 8 8
        accepted s mb 0x506 → (m = 1 ∨ m = 2) → hs ≤ 1 → t % 100000 = 0 → isStopped s 4 = false →
        recordSettings flash [(0x0401, natLe 2 m), (0x0402, natLe 1 hs)] s = (true, u) →
        exec (.methodSet mb flash) s = .next (answered s mb 0x506 []
          (modLed (fun l => { l with pendMethod := some (max (t / 100000) (now u / 100000 + 1), m, hs) }) u))) ∧
      (∀ u, let m := arg s mb 4 4
        accepted s mb 0x801 → arg s mb 0 1 = 2 → m ≤ 1024 → isStopped s 5 = false →
        recordSettings flash [(0x0501, natLe 4 m)] s = (true, u) →
        exec (.traceCtlRingSize mb flash) s = .next (answered s mb 0x801 (natLe 8 0) (ringSize m u))))

/-- FW_STAGE, its end and FW_ACTIVATE (R556, R557): a package that nothing refuses takes a place, then goes into the
spare slot; the activation is scheduled in entry 4. -/
def Obligations.FirmwareIsStagedAndScheduled : Prop :=
  ∀ (s : State) (mb : Fin 128),
    (∀ (flash : Retry) (b : List Byte), let n := arg s mb 16 8
      accepted s mb 0x701 → arg s mb 0 1 = 0 →
      readBundle s (cx s mb) {} false (addrAt (load s mb) 8) (min n 0x3000001) = .ok b → pkgKind b ≠ 3 →
      exec (.fwStage mb flash) s = .next (match stageFault s b n with
        | none => stays s mb { placed s mb 0x701 with pl := b } { s with fw := { s.fw with staging := some (key s mb) } }
        | some (st, d) => respond (key s mb) st d [] s)) ∧
    (∀ (area slot dir : Retry) (k : Nat) (r : RunCmd), runKeyOf s mb 0x701 = some (k, r) → serving s → stageOpen s 5 →
      exec (.fwStageDone mb area slot dir) s =
        .next (answer k 0x701 (stageSlot r.pl area slot dir { s with fw := { s.fw with staging := none } }))) ∧
    (let slot := arg s mb 0 1
     let what := arg s mb 1 1
     let rt := arg s mb 8 8
     let t := if rt = 0 then now s + 10000000 else rt
     let d := s.start.dir
     accepted s mb 0x702 → slotAccepted d slot → what ≤ 2 → partsChanged d slot what ≠ (false, false) →
      (rt = 0 ∨ now s + 10000000 ≤ rt) → s.fw.pending = none →
      ∃ u, exec (.fwActivate mb) s = .next (answered s mb 0x702 (natLe 4 (handleOf u 4)) u) ∧
        Only [.sched, .fw, .start] s u ∧ (sched u 4).rt = t ∧ (sched u 4).st = 1 ∧ (sched u 4).action = 2 ∧
        (sched u 4).arg = slot + 256 * what + 2 ^ 32 * slotVer d slot ∧ u.fw.pending = some (handleOf u 4) ∧
        u.start.dir = { d with pendRt := t })

/-- POWER_SET (R451): at once, the host's cap is in force; scheduled, entry 3 holds the change. Management caps and
their lease (R452, R453, R596): a cap in force or scheduled, with its lease; the lease is renewed; at its end the
lapse value holds. -/
def Obligations.CapsAreSetAndLeased : Prop :=
  (∀ (s : State) (mb : Fin 128), accepted s mb 0x501 → isStopped s 1 = false →
      let cap := arg s mb 0 4
      let t := arg s mb 8 8
      let s1 := dropLowering 3 (schedEnd 3 4 s)
      let s2 := modPower (fun p => { p with hostCap := cap }) s1
      let v := if t = 0 then capUpdate s2 else schedPut 3 t 1 0 (min cap 65535 + 2 * 2 ^ 16) false 0 s1
      let fl := capRaised s2 || (win v 3).sts.getLsbD 5
      let r := natLe 4 (effective s2) ++ natLe 1 (source s2) ++ natLe 1 (b2n fl) ++ natLe 2 0
      let st := if source s2 = 2 ∧ fl = false then stOk else stCapLimited
      ((t = 0 ∨ t % 100000 = 0 ∧ now s + 1000 ≤ t) →
        exec (.powerSet mb) s = .next (respond (key s mb) st 0 r (noted 0x501 v)))) ∧
  (∀ s : State,
      (∀ w ms, mgmtUp s = true → w ≤ 65535 → leaseOk ms = true →
        ∃ t, exec (.setPowerCap w ms 0) s = .next t ∧ t.power.mgmtCap = w ∧ t.power.lapsed = false ∧
          t.power.leaseMs = leaseOf s ms ∧ t.power.leaseAt = some (s.time.clk + leaseOf s ms * 100000) ∧
          (sched t 2).st ≠ 1) ∧
      (∀ w ms rt, mgmtUp s = true → w ≤ 65535 → leaseOk ms = true → rt ≠ 0 → rt % 100000 = 0 → s.time.sup + 1000 ≤ rt →
        ∃ t, exec (.setPowerCap w ms rt) s = .next t ∧ t.power.mgmtCap = s.power.mgmtCap ∧
          (sched t 2).rt = rt ∧ (sched t 2).action = 1 ∧ (sched t 2).st = 1 ∧
          (sched t 2).arg = w + 2 ^ 16 + leaseOf s ms * 2 ^ 32 ∧
          t.power.leaseAt = some (s.time.clk + leaseOf s ms * 100000)) ∧
      (∀ ms, mgmtUp s = true → leaseOk ms = true →
        ∃ t, exec (.renewPowerLease ms) s = .next t ∧ Only [.power, .mgmt] s t ∧
          t.power = { s.power with leaseMs := leaseOf s ms, leaseAt := some (s.time.clk + leaseOf s ms * 100000) }) ∧
      (mgmtUp s = true → exec .getPower s = .next (reply 0 (powerQueryBytes s) s)) ∧
      (∀ d, s.power.leaseAt = some d → (sched s 2).st ≠ 1 → s.power.lapsed = false →
        ∃ t, exec .leaseExpire s = .next t ∧ t.power.leaseAt = none ∧ t.power.lapsed = true ∧
          t.power.lapseW = min (setting s 0x0103) (if s.power.mgmtCap = 0 then 2400 else s.power.mgmtCap) ∧
          (win t 3).sts.getLsbD 6))

/-- REQ_OPEN, REQ_CLOSE and LEDGER_READ (R269, R474, R484): each tag's event is queued for the ledger and answered;
the receipts or the sheet asked for are returned. -/
def Obligations.RequestsAndReceipts : Prop :=
  ∀ (s : State) (mb : Fin 128),
    (let n := arg s mb 0 2
     let tags := (List.range n).map (fun i => numAt (load s mb) (8 + 8 * i) 8)
     0 < n → n ≤ 256 → (head s mb).len = 8 + 8 * n →
      (accepted s mb 0x503 → exec (.reqOpen mb) s = .next (answered s mb 0x503 (tagEvents (cx s mb) 0 tags s).1
        (tagEvents (cx s mb) 0 tags s).2)) ∧
      (accepted s mb 0x504 → exec (.reqClose mb) s = .next (answered s mb 0x504 (tagEvents (cx s mb) 1 tags s).1
        (tagEvents (cx s mb) 1 tags s).2))) ∧
    (∀ r u, let kind := arg s mb 0 1
      let max := arg s mb 16 2
      let own := if kind = 0 then (ctx? s (cx s mb)).map (fun c => (cx s mb, c.openSeq)) else none
      accepted s mb 0x505 → kind ≤ 2 → (kind = 2 ∨ (0 < max ∧ max ≤ 30)) →
      ledgerRead kind (arg s mb 8 8) max own s = (stOk, 0, r, u) →
      exec (.ledgerRead mb) s = .next (answered s mb 0x505 r u))

/-- TRACE_CTL, TAP_ARM, TAP_READ and INJECT (R499, R565, R577, R579): schedule entries for the window, all of them
cancelled, a tap armed, a tap's bytes in host memory, an injection armed. -/
def Obligations.ObservationCommands : Prop :=
  ∀ (s : State) (mb : Fin 128),
    (∀ i, let o := arg s mb 8 8
      accepted s mb 0x801 → arg s mb 0 1 = 0 → s.trA.ringMib ≠ 0 → (o = 0 ∨ now s + 1000 ≤ o) → arg s mb 16 8 = 0 →
      isStopped s 5 = false → freeFrom s 5 27 = some i →
      let u := schedPut i (if o = 0 then now s else o) 3 0 0 (o = 0) 0 s
      exec (.traceCtlWindow mb) s = .next (answered s mb 0x801 (natLe 4 (handleOf u i) ++ natLe 4 0) u)) ∧
    (accepted s mb 0x801 → arg s mb 0 1 = 1 → isStopped s 5 = false →
      exec (.traceCtlCloseAll mb) s = .next (answered s mb 0x801 (natLe 8 0)
        (stopTrace (schedEndAll 4 (fun _ e => e.action = 3 || e.action = 4) s)))) ∧
    (∀ p r y k i, let pi := arg s mb 0 1
      let sym := arg s mb 4 4
      let rt := arg s mb 16 8
      accepted s mb 0x802 → partOf s (cx s mb) pi = some p → latestRecipe s p = some r → r.syms[sym]? = some y →
      y.1 = true → (rt = 0 ∨ now s + 1000 ≤ rt) → p.fence = none →
      s.taps.any (fun x => match x.2 with | some t => t.part = pi && t.sym = sym | none => false) = false →
      tapSlot s p = some k → freeFrom s 5 27 = some i →
      let u := setTap k (some { handle := s.tapNext, ctx := cx s mb, part := pi, sym := sym, step := arg s mb 8 4 })
        (schedPut i (if rt = 0 then now s else rt) 5 0 (sym + 2 ^ 32 * arg s mb 8 4 + 2 ^ 64 * pi + 2 ^ 72 * k) (rt = 0)
          (cx s mb) s)
      exec (.tapArm mb) s = .next (answered s mb 0x802 (natLe 4 s.tapNext)
        { u with tapNext := (s.tapNext + 1) % 2 ^ 32 })) ∧
    (∀ k t, accepted s mb 0x803 → s.taps.find? (fun x => match x.2 with
        | some t => t.handle = arg s mb 0 4 && t.ctx = cx s mb | none => false) = some (k, some t) →
      t.gone = false → t.taken = true → 0 < arg s mb 16 8 → physBad s (tapBase k) (min (arg s mb 16 8) t.used) = false →
      let n := min (arg s mb 16 8) t.used
      let v := physNote (.host (crownHalf s)) (tapBase k) n s
      exec (.tapRead mb) s = .next (answered s mb 0x803 (natLe 8 n ++ natLe 1 (takenOf t))
        { v with mem := { v.mem with
            host := Memory.store v.mem.host (addrAt (load s mb) 8) (Memory.bytes s.mem.phys (tapBase k) n) } })) ∧
    (∀ one, let blk := arg s mb 0 2
      let a := arg s mb 8 8
      accepted s mb 0x805 → checkerOf blk (arg s mb 2 2) = some one → fld a 63 62 < 3 →
      (fld a 63 62 = 2 → one = true) → absentBlk s blk = false → (win s blk).armed = false →
      exec (.inject mb) s = .next (answered s mb 0x805 [] (setWin blk { win s blk with
        armed := true, checker := arg s mb 2 2, mode := fld a 63 62, target := fld a 41 0 } s)))

/-- The mailbox hardware (R285, R286, R302): an ownership write hands the mailbox over with its arrival number, or
takes it back from DONE; a page write is stored; the watchdog answers ST_TIMEOUT with DETAIL all ones. -/
def Obligations.MailboxHardware : Prop :=
  ∀ (s : State) (h : Half) (mb : Fin 128),
    let k := mbKey h mb.val
    let p := page s k
    let n := match h with | .a => s.mbx.nextA | .b => s.mbx.nextB
    (∀ size data, s.power.rails → (size = 4 ∨ size = 8) → data % 4 = 1 → p.own ≠ 1 → hwAnswer s h = none →
      injMode s h.num 0 (fun t => t % 128 = k % 128) = none → (hdr p).len ≤ 3968 → (opInfo (hdr p).opcode).isSome →
      ∃ t, exec (.ownershipWrite h mb size data .clean) s = .next t ∧ page t k = { p with own := 1, arrival := n } ∧
        FMap.get none t.mbx.watch k = some (s.time.clk + watchLimit (hdr p) (payload p)) ∧
        (∀ j, j ≠ k → page t j = page s j) ∧ Only [.mbx] s t) ∧
    (∀ size data parity, s.power.rails → (size = 4 ∨ size = 8) → data % 4 = 0 → p.own = 2 →
      exec (.ownershipWrite h mb size data parity) s = .next (setPage k { p with own := 0 } s)) ∧
    (∀ off bytes, s.power.rails → 0x40 ≤ off → off + bytes.length ≤ 0x1000 → p.own ≠ 1 →
      exec (.mailboxPageWrite h mb off bytes) s =
        .next (setPage k { p with bytes := Memory.store p.bytes off (headerMask off bytes) } s)) ∧
    (∀ d, FMap.get none s.mbx.watch k = some d → p.own = 1 → s.crown.activating = none → s.crown.takeover = false →
      (s.fab.withdrawn && s.start.resetAt.isSome) = false →
      ∃ t, exec (.mailboxWatchdog h mb) s = .next t ∧ (page t k).own = 2 ∧ (page t k).status = 15 ∧
        (page t k).detail = 0xFFFFFFFF ∧ (page t k).respLen = 0 ∧ (win t h.num).sts.getLsbD 1)

/-- The input and the rails (R532, R533, R486, R585): rack time starts at 0 unset; the supervisor starts with or
without AUX_3V3; the rails take 250 ms; loss of the input leaves the flash. -/
def Obligations.PowerComesAndGoes : Prop :=
  ∀ s : State,
    (∀ (id : BitVec 6) (r : Retry), s.power.v52 = false →
      ∃ t, exec (.powerOn52v id r) s = .next t ∧ t.power.v52 = true ∧ t.time = {} ∧ t.ident.mid = id.toNat ∧
        t.pending = s.pending ∧ (s.pins.aux3v3 = false → t.start.phase = 1 ∧ t.flash = s.flash) ∧
        (s.pins.aux3v3 = true → t.start.phase = 2 ∨ t.start.phase = 7)) ∧
    (exec .inputLoss52v s = .next (powerLost s) ∧ (powerLost s).flash = s.flash ∧ (powerLost s).power = {} ∧
      (powerLost s).mem = {} ∧ (powerLost s).work = {} ∧ (powerLost s).led = {}) ∧
    (s.power.v52 = true → s.pins.aux3v3 = true →
      ∃ t, exec .aux3v3Loss s = .next t ∧ t.pins.aux3v3 = false ∧ (win t 5).sts.getLsbD 4 ∧ Only [.pins, .win, .ctr, .mbx] s t) ∧
    (∃ t, exec .aux3v3Return s = .next t ∧ t.pins.aux3v3 = true ∧
      (s.power.v52 = true → s.start.arrived = true → t.start.phase = 2 ∨ t.start.phase = 7)) ∧
    (s.start.phase = 2 → s.power.v52 = true → s.start.inReset = false → s.power.off = false → s.power.rails = false →
      s.crown.tripped = false →
      ∃ t, exec (.railSequence []) s = .next t ∧ t.power.rails = true ∧ t.start.phase = 3 ∧ t.start.rails = 5 ∧
        t.time.clk = s.time.clk + 20000000)

/-- The start (R535-R539): the preferred half is granted and, without LIVE in 500 ms, the other; components load;
waves take power and their tests; a stack is trained with its weights; the digest is computed; MODULE_READY at the
end. The MID (R325): SLOT_ID is taken for the next start with its event; a rack number is recorded, and taken at once
while no MID is valid. -/
def Obligations.TheStartRuns : Prop :=
  (∀ s : State,
      (∀ v, s.start.phase = 3 → s.start.firstTry = none →
        let h := match setting s 0x0803 with | 1 => Half.a | 2 => Half.b | _ => s.crown.holder
        ∃ t, exec (.crownStartGrant v) s = .next t ∧ t.start.firstTry = some h ∧ t.crown.holder = h ∧
          t.crown.portA = decide (h = .a) ∧ t.crown.portB = decide (h = .b) ∧ (mon t h).halted = false ∧
          t.start.grantAt = s.time.clk) ∧
      (∀ v h, s.start.firstTry = some h → s.start.phase = 3 → (mon s s.crown.holder).live = false →
        (s.start.second = false → s.crown.holder = h) →
        ∃ t, exec (.crownStartLiveTimeout v) s = .next t ∧ (mon t s.crown.holder).halted = true ∧
          (s.start.second = false → t.start.second = true ∧ t.crown.standby = 2 ∧ t.crown.holder = h.other) ∧
          (s.start.second = true → t.start.phase = 8 ∧ t.start.cause = 3)) ∧
      (∀ c, 3 ≤ s.start.phase → s.start.phase ≤ 5 → (mon s s.crown.holder).live = true → 2 ≤ c → c ≤ 6 →
        let d := s.start.dir
        ∃ t, exec (.componentLoad c .clean) s = .next t ∧ t.start.comps = s.start.comps ++ [c] ∧
          FMap.get [] t.start.run c = hashOf s (if c = 3 then d.tileSlot else d.ctrlSlot) c ∧
          (t.start.phase = 4 ∨ t.start.phase = 5) ∧ Only [.start] s t) ∧
      (∀ k : Fin 9, s.power.rails = true → 4 ≤ s.start.phase → s.start.phase ≤ 5 →
        (k.val = 0 ∨ (cluster s (2 * (k.val - 1))).powered = true) →
        (cluster s (2 * k.val)).powered = false →
        ∃ t, exec (.proofWavePower k) s = .next t ∧ Only [.time, .clusters] s t ∧
          ∀ c, (cluster t c).powered = ((waveClusters k.val).contains c || (cluster s c).powered)) ∧
      (∀ k : Fin 9, (cluster s (2 * k.val)).powered = true → (cluster s (2 * k.val)).tested = false →
        ∃ t, exec (.proofWaveTestDone k [] [] .clean) s = .next t ∧ Only [.clusters, .start] s t ∧
          t.start.waves = s.start.waves ||| 2 ^ k.val ∧
          ∀ c ∈ waveClusters k.val, (cluster t c).phys = (goodTiles s c).take 64 ∧ (cluster t c).tested = true) ∧
      (∀ d : Fin 24, d.val < 16 → s.power.rails = true → s.start.comps.contains 4 = true → (mcOf s d.val).trained = false →
        (mcOf s d.val).trainFail = false → s.start.phase ≠ 8 →
        ∃ t, exec (.memTrainDone d .clean) s = .next t ∧ Only [.mcs] s t ∧ (mcOf t d.val).trained = true ∧
          (mcOf t d.val).weight = arbWeights s) ∧
      (∀ d : Fin 24, 16 ≤ d.val → s.power.rails = true → s.start.comps.contains 5 = true → s.ident.variant ≠ .l →
        (mcOf s d.val).trained = false → (mcOf s d.val).trainFail = false → s.start.phase ≠ 8 →
        ∃ t, exec (.memTrainDone d .lasting) s = .next t ∧ t.mem.tierOff = true ∧ t.mem.windowGib ≤ 16) ∧
      ((s.start.phase = 4 ∨ s.start.phase = 5) → (mon s s.crown.holder).live = true →
        exec .settingsDigestCompute s = .next (modStart (fun x => { x with digestDone := true }) s)) ∧
      (s.start.phase = 5 → s.start.ready = false → readyNow s = true →
        ∃ t, exec .ready s = .next t ∧ t.start.ready = true ∧ t.start.readyRt = s.time.sup ∧ t.start.phase = 6) ∧
      (∀ u, s.start.dirty = true → s.start.full = false →
        flashTry s.flash.defects 0x300000 0x80000 .clean s = (true, u) →
        ∃ t, exec (.defectRewriteTimer .clean) s = .next t ∧ t.start.dirty = false ∧
          t.flash.defects = u.flash.defects.write (recordedDefects u))) ∧
  (∀ s : State,
      (∀ id : BitVec 6, s.power.v52 = true → id.toNat ≠ s.ident.mid % 64 →
        ∃ t, exec (.slotIdSample id) s = .next t ∧ t.ident.slot = id.toNat ∧ t.ident.pendSlot = some id.toNat ∧
          t.ident.mid = s.ident.mid) ∧
      (∀ r, mgmtUp s = true → r ≤ 63 → s.ident.midValid = false →
        ∃ t, exec (.setRackNumber r) s = .next t ∧ t.ident.mid = 64 * r + s.ident.mid % 64 ∧ t.ident.midValid = true ∧
          t.ident.pendRack = s.ident.pendRack) ∧
      (∀ r, mgmtUp s = true → r ≤ 63 → s.ident.midValid = true → r ≠ s.ident.mid / 64 →
        ∃ t, exec (.setRackNumber r) s = .next t ∧ t.ident.pendRack = some r ∧ t.ident.mid = s.ident.mid))

/-- Setting rack time (R51-R56, R596): an armed set loads the three counters at an edge, locks TQ and raises the
epoch; it waits 10,000 ticks after its command, and is cancelled where LOCKED time would go back, or forward without
STEP, or 1 s after its command (R54). The reference (R47, R49, R50): its loss ends LOCKED and cancels an armed set; a
missing or late edge is a slip, two missing in consecutive frames a loss; its return changes no counter and no TQ. -/
def Obligations.RackTimeIsSetAndWatched : Prop :=
  (∀ s : State,
      (∀ v step, mgmtUp s = true → v % 100000 = 0 → v < 2 ^ 64 → s.pins.rackClk = true →
        ∃ t, exec (.setRackTime v step) s = .next t ∧
          t.time.armed = some { v := v, step := step, doneAt := s.time.clk }) ∧
      (∀ v step, mgmtUp s = true → v % 100000 ≠ 0 →
        ∃ t, exec (.setRackTime v step) s = .next t ∧ t.time = { s.time with setResult := 2 }) ∧
      (∀ a, s.power.v52 = true → s.pins.rackClk = true → s.time.tq ≠ .locked → s.time.armed = some a →
        a.doneAt + 10000 ≤ s.time.clk → s.time.clk ≤ a.doneAt + 100000000 →
        ∃ t, exec .rackSyncEdge s = .next t ∧ t.time.sup = a.v ∧ t.time.cntA = a.v ∧ t.time.cntB = a.v ∧
          t.time.tq = .locked ∧ t.time.epoch = (s.time.epoch + 1) % 65536 ∧ t.time.setLast = a.v ∧ t.time.setResult = 1 ∧
          t.time.armed = none ∧ ∀ i, (sched t i).st = 1 → False) ∧
      (∀ a, s.power.v52 = true → s.pins.rackClk = true → s.time.tq ≠ .locked → s.time.armed = some a →
        s.time.clk < a.doneAt + 10000 → exec .rackSyncEdge s = .next s) ∧
      (∀ a, s.power.v52 = true → s.pins.rackClk = true → s.time.tq = .locked → s.time.sup % 100000 = 0 →
        s.time.armed = some a → a.doneAt + 10000 ≤ s.time.clk → s.time.clk ≤ a.doneAt + 100000000 →
        let u := modTime (fun t => { t with lastEdge := some (t.sup / 100000) }) s
        (a.v < s.time.sup → exec .rackSyncEdge s = .next (cancelSet 4 u)) ∧
        (s.time.sup < a.v → a.step = false → exec .rackSyncEdge s = .next (cancelSet 5 u))) ∧
      (∀ a, s.time.armed = some a → ∃ t, exec .rackSetTimeout s = .next t ∧ Only [.time] s t ∧ t.time.armed = none ∧
        t.time.setResult = 7) ∧
      (mgmtUp s = true → exec .getRackTime s = .next (reply 0 (natLe 8 s.time.sup ++ natLe 8 s.time.setLast ++
        natLe 2 s.time.epoch ++ natLe 1 s.time.tq.code ++ natLe 1 (b2n s.time.armed.isSome) ++ natLe 1 s.time.setResult) s)) ∧
      (∀ p : Half, s.power.rails = true → ∃ t, exec (.rtNowLowRead p) s = .next t ∧ Only [.time] s t ∧
        (match p with | .a => t.time.latchA | .b => t.time.latchB) = now s / 2 ^ 32)) ∧
  (∀ s : State,
      (s.power.v52 = true → s.time.tq = .locked →
        ∃ t, exec .rackClkLoss s = .next t ∧ t.pins.rackClk = false ∧ t.time.tq = .freeLost ∧ t.time.clk = s.time.clk + 100 ∧
          t.time.w1c.getLsbD 4 ∧ t.time.armed = none ∧ Only [.pins, .time] s t) ∧
      (exec .rackClkReturn s = .next { s with pins := { s.pins with rackClk := true } }) ∧
      (let k := cdiv (s.time.sup - 1) 100000
       s.time.tq = .locked → s.time.lastEdge ≠ some k → s.time.lastMiss ≠ some k →
        ∃ t, exec .syncMissing s = .next t ∧ Only [.time] s t ∧ t.time.slips = s.time.slips + 1 ∧
          t.time.lastSlip = some k ∧ t.time.lastMiss = some k ∧ t.time.w1c.getLsbD 5 ∧
          t.time.tq = (if 0 < k ∧ s.time.lastSlip = some (k - 1) then .freeLost else .locked)) ∧
      (let k := s.time.sup / 100000
       s.power.v52 = true → s.pins.rackClk = true → s.time.tq = .locked → s.time.armed = none →
        (s.time.sup % 100000 = 0 → exec .rackSyncEdge s = .next (modTime (fun t => { t with lastEdge := some k }) s)) ∧
        (1 < s.time.sup % 100000 → s.time.sup % 100000 ≤ 50000 → exec .rackSyncEdge s = .next (slip k s))))

/-- The frame start (R43, R44, R364, R368): the supervisor's count reaches the next multiple of 100,000; a counter
that disagreed before is loaded with the supervisor's, with its event. -/
def Obligations.FramesStart : Prop :=
  ∀ (s : State) (driftA driftB : Int), s.power.v52 = true → s.power.rails = true → s.time.adjust = none →
    let f := (s.time.sup / 100000 + 1) * 100000
    ∃ t, exec (.frameStart driftA driftB) s = .next t ∧ t.time.sup = f ∧
      t.time.cntA = (((if s.time.disA then f else s.time.cntA + (f - s.time.sup) : Nat) : Int) + driftA).toNat ∧
      t.time.cntB = (((if s.time.disB then f else s.time.cntB + (f - s.time.sup) : Nat) : Int) + driftB).toNat ∧
      t.time.disA = decide (t.time.cntA ≠ f) ∧ t.time.disB = decide (t.time.cntB ≠ f) ∧
      (s.time.disA = true → (win t 0xA).sts.getLsbD 3 ∧ t.time.w1c.getLsbD 6 ∧ (driftA ≠ 0 → (win t 0xA).sts.getLsbD 4)) ∧
      (s.time.disB = true → (win t 0xB).sts.getLsbD 3 ∧ t.time.w1c.getLsbD 6 ∧ (driftB ≠ 0 → (win t 0xB).sts.getLsbD 4)) ∧
      t.start.digValid = s.start.digestDone ∧ t.start.beaconPrefix = prefixOf (fabDigest t)

/-- SCHED_DISPATCH (R67-R69): the one pending entry leaves the table at its tick, EXECUTED, for its block. What dispatched entries do (R63-R65, R450, R565, R577): power targets act together, capture
starts and stops, a tap is armed, the host gets its vector. -/
def Obligations.EntriesAreDispatchedAndAct : Prop :=
  (∀ (s : State) (i : Nat), FMap.ok {} s.sched.tab = true → s.time.adjust = none → s.power.v52 = true →
      (sched s i).st = 1 → (sched s i).action ≠ 2 → (sched s i).late = false →
      (∀ j, j ≠ i → (sched s j).st ≠ 1) → s.time.sup ≤ (sched s i).rt →
      (s.sched.usAt ≠ (s.time.clk + ((sched s i).rt - s.time.sup)) / 100 ∨ s.sched.usN < 16) →
      ∃ t, exec .schedDispatch s = .next t ∧ t.time.sup = (sched s i).rt ∧ (sched t i).st = 2 ∧
        (sched t i).resultFree = decide (s.time.tq ≠ .locked) ∧
        (∀ j, j ≠ i → sched t j = sched s j) ∧
        t.sched.out = s.sched.out ++ (if (sched s i).action = 6 then [] else
          [{ idx := i, action := (sched s i).action, arg := (sched s i).arg, rt := (sched s i).rt }]) ∧
        Only [.time, .sched] s t) ∧
  (∀ (s : State) (d : Dispatch),
      (s.sched.out = [d] → d.action = 1 → fld d.arg 18 16 = 2 → s.power.lowering = none →
        ∃ t, exec .powerTarget s = .next t ∧ t.sched.out = [] ∧ t.power.hostCap = fld d.arg 15 0 ∧
          t.power.mgmtCap = s.power.mgmtCap ∧ t.power.lastEff = effective t) ∧
      (takeDispatch 3 s = some (d, { s with sched := { s.sched with out := [] } }) → s.trA.capture = false →
        s.trA.ringMib ≠ 0 → s.trB.capture = false → s.trB.ringMib ≠ 0 →
        ∃ t, exec .traceOpen s = .next t ∧ t.trA.capture = true ∧ t.trB.capture = true ∧ t.sched.out = []) ∧
      (takeDispatch 4 s = some (d, { s with sched := { s.sched with out := [] } }) →
        ∃ t, exec .traceClose s = .next t ∧ t.trA.capture = false ∧ t.trB.capture = false ∧ t.sched.out = []) ∧
      (∀ x p, takeDispatch 5 s = some (d, { s with sched := { s.sched with out := [] } }) →
        tapAt s (fld d.arg 75 72) = some x → part? s (fld d.arg 71 64) = some p → x.part = fld d.arg 71 64 →
        x.sym = fld d.arg 31 0 → x.gone = false → x.taken = false →
        ∃ t, exec .tapEnable s = .next t ∧ Only [.sched, .tiles] s t ∧
          ∀ c ∈ p.clusters, ∀ n < 64, absentPos s c n = false →
            FMap.get none (tile t (64 * c + n)).tapArm (fld d.arg 31 0) = some (fld d.arg 63 32) ∧
            FMap.get 0 (tile t (64 * c + n)).tapCnt (fld d.arg 31 0) = 0) ∧
      (takeDispatch 7 s = some (d, { s with sched := { s.sched with out := [] } }) →
        exec .hostEvent s = .next (msix s.crown.holder (fld d.arg 7 0) { s with sched := { s.sched with out := [] } })))

/-- Withdrawals and route tables (R346, R373, R376): at the comparator's tick the module withdraws and drains for
10,000 ticks, or the port is disabled, after a shadow table due by then; what is left is dropped and counted, and a
pending module reset begins. -/
def Obligations.WithdrawalsAndTables : Prop :=
  ∀ s : State,
    (∀ c flash, ownComp s = some c → c.kind = 0 → (∀ x, s.fab.shadow = some x → c.tick < x.1) →
      ∃ t, exec (.transitWithdrawTick flash) s = .next t ∧ t.fab.withdrawn = true ∧ t.fab.drainEnd = some (t.time.clk + 10000) ∧
        Only [.time, .fab, .sched] s t) ∧
    (∀ c flash, ownComp s = some c → c.kind ≠ 0 →
      exec (.transitWithdrawTick flash) s = .next (disablePort c.port (endWithdrawEntry c
        (modFab (fun f => { f with comps := f.comps.erase c }) (swapDue c.tick flash (waitCount c.tick s)))))) ∧
    (∀ d, s.fab.drainEnd = some d → s.start.resetAt = none →
      ∃ t, exec .withdrawDrainEnd s = .next t ∧ t.fab.drainEnd = none ∧ (∀ p < 64, (port t p).queue = []) ∧
        ∀ p < 64, (port s p).queue ≠ [] → ctr t (0x80 + p) 46 = (ctr s (0x80 + p) 46 + (port s p).queue.length) % 2 ^ 64) ∧
    (∀ d, s.fab.drainEnd = some d → s.start.resetAt.isSome = true →
      ∃ t, exec .withdrawDrainEnd s = .next t ∧ t.start.resetAt = none ∧ t.start.phase = 2 ∧ t.power.rails = false ∧
        t.work.ctxs = [] ∧ t.mem.phys = [] ∧ t.flash = s.flash)

/-- The input (R442, R443): an average below 45 V asserts the brake, one below 32 V ends the supervisor; ten averages
below 40 V begin an orderly shutdown, whose rails go off after 20 ms; the brake ends after 10 ms at 46 V. The brake
and the alert (R455, R459): a low PWR_BRAKE_N caps the module; a low THERM_ALERT_N starts a countdown of 5 s, which 10
ms of high stops and whose end shuts the module down. -/
def Obligations.InputAndBrake : Prop :=
  (∀ s : State, s.power.v52 = true →
      (∀ mv, mv < 32000 → exec (.inputVoltageSample mv) s = .next (powerLost s)) ∧
      (∀ mv, 40000 ≤ mv → mv < 45000 → s.power.shutdown = none → s.power.off = false → s.power.uvBrake = false →
        ∃ t, exec (.inputVoltageSample mv) s = .next t ∧ t.power.mv = mv ∧ t.power.uvBrake = true ∧ t.power.goodAt = none ∧
          t.power.lowRun = 0 ∧ (win t 3).sts.getLsbD 9 ∧ t.power.shutdown = none) ∧
      (∀ mv, 32000 ≤ mv → mv < 40000 → s.power.shutdown = none → s.power.off = false → s.power.lowRun = 9 →
        ∃ t, exec (.inputVoltageSample mv) s = .next t ∧ t.power.shutdown = some s.time.clk) ∧
      (∀ a, s.power.uvBrake = true → s.power.goodAt = some a →
        ∃ t, exec .uvBrakeRelease s = .next t ∧ t.power.uvBrake = false ∧
          t.time.clk = max s.time.clk (a + 1000000)) ∧
      (∀ a, s.power.shutdown = some a →
        ∃ t, exec .shutdownRailsOff s = .next t ∧ t.power.rails = false ∧ t.power.off = true ∧ t.power.shutdown = none ∧
          t.time.clk = max s.time.clk (a + 2000000) ∧ t.mem.phys = [] ∧ t.work.ctxs = [] ∧ t.flash = s.flash) ∧
      (∀ a, s.power.rangeAt = some a → s.power.off = true → s.power.trip = false → s.power.alertOff = false →
        s.crown.tripped = false →
        exec .voltageRestart s = .next (moduleReset (waitUntil (a + 100000000) s)))) ∧
  (∀ s : State, s.power.v52 = true →
      (∀ b, ∃ t, exec (.pwrBrakeNChange b) s = .next t ∧ t.pins.pwrBrakeN = b ∧ (b = false → effective t ≤ max 650 (setting t 0x0101))) ∧
      (s.pins.thermAlertN = true → s.power.countdown = none → s.power.stoppedAt = none →
        ∃ t, exec (.thermAlertNChange false) s = .next t ∧ t.pins.thermAlertN = false ∧
          t.power.countdown = some (s.time.clk + 500000000) ∧ (win t 3).sts.getLsbD 11) ∧
      (s.pins.thermAlertN = false →
        ∃ t, exec (.thermAlertNChange true) s = .next t ∧ t.pins.thermAlertN = true ∧ t.power.highAt = some s.time.clk ∧
          t.power.countdown = s.power.countdown) ∧
      (∀ b, s.pins.thermAlertN = b → exec (.thermAlertNChange b) s = .next s) ∧
      (∀ d a, s.power.countdown = some d → s.power.highAt = some a → a + 1000000 < d → s.time.clk ≤ a + 1000000 →
        ∃ t, exec .thermAlertClear s = .next t ∧ t.power.countdown = none ∧ t.power.leftTicks = d - (a + 1000000) ∧
          t.power.stoppedAt = some (a + 1000000)) ∧
      (∀ d, s.power.countdown = some d → s.power.highAt = none → s.power.shutdown = none → s.power.off = false →
        s.time.clk ≤ d →
        ∃ t, exec .thermCountdownExpire s = .next t ∧ t.power.shutdown = some d ∧ t.power.alertOff = true ∧
          t.power.countdown = none))

/-- Heat (R457, R458, R460): the readings are kept; at 110 °C or 105 °C the module trips and shuts down; the thermal
cap falls by 120 W a frame at 95 °C, not below 650 W. Limits and reports (R445, R449, R462): a scheduled lowering
begins 200 µs early; an interval is measured; a window reports its peak and mean. -/
def Obligations.HeatAndPower : Prop :=
  (∀ s : State, s.power.v52 = true →
      (∀ tj tm, tj < 110 → tm < 105 → exec (.thermalSensorRead tj tm) s = .next (modPower (fun p => { p with tj := tj, tm := tm }) s)) ∧
      (∀ tj tm, (110 ≤ tj ∨ 105 ≤ tm) → s.power.trip = false → s.power.shutdown = none → s.power.off = false →
        ∃ t, exec (.thermalSensorRead tj tm) s = .next t ∧ t.power.trip = true ∧ t.power.shutdown = some s.time.clk ∧
          (win t 3).sts.getLsbD 12) ∧
      (s.power.rails = false → (95 ≤ s.power.tj ∨ 95 ≤ s.power.tm) →
        ∀ a b, ∃ t, exec (.frameStart a b) s = .next t ∧ t.power.thermalW = max 650 (s.power.thermalW - 120)) ∧
      (s.power.rails = false → s.power.tj ≤ 92 → s.power.tm ≤ 92 →
        ∀ a b, ∃ t, exec (.frameStart a b) s = .next t ∧ t.power.thermalW = min 2400 (s.power.thermalW + 24))) ∧
  (∀ s : State,
      ((sched s 3).st = 1 → (sched s 3).action = 1 → (sched s 2).st ≠ 1 →
        let s' := modPower (fun p => { p with hostCap := fld (sched s 3).arg 15 0 }) s
        effective s' < effective s →
        ∃ t, exec .beginLowering s = .next t ∧ t.power.lowering = some (effective s') ∧ t.power.hostCap = fld (sched s 3).arg 15 0) ∧
      (∀ w, s.power.v52 = true →
        ∃ t, exec (.powerIntervalEnd w) s = .next t ∧ t.power.peak = max s.power.peak w ∧ t.power.sum = s.power.sum + w ∧
          t.power.ints = s.power.ints + 1 ∧ 450 ≤ t.power.clock ∧ t.power.clock ≤ 1800) ∧
      (s.power.v52 = true → s.power.winMs ≠ 0 → s.power.ints ≠ 0 →
        ∃ t, exec .reportWindowEnd s = .next t ∧ t.power.peakW = s.power.peak ∧ t.power.avgW = s.power.sum / s.power.ints ∧
          t.power.ints = 0 ∧ t.power.sum = 0 ∧ t.power.peak = 0))

/-- Register writes (R9, R490, R492, R497, R609): 1s clear W1C bits, FIRST_SRC and its capture, OVF, the error log;
the MSI-X table takes its word; everything else stands. -/
def Obligations.RegistersAreWritten : Prop :=
  ∀ (s : State) (port : Half) (blk : Nat) (d : BitVec 32), takesWrite s port blk = true →
    (∃ t, exec (.statusW1cWrite port blk d) s = .next t ∧ Only [.win, .mbx] s t ∧ (win t blk).sts = (win s blk).sts &&& ~~~d ∧
      ∀ b, b ≠ blk → win t b = win s b) ∧
    (d.getLsbD 31 = true → ∃ t, exec (.firstSrcClear port blk d) s = .next t ∧ Only [.win, .eng] s t ∧
      win t blk = { win s blk with valid := false, injected := false, code := 0, bit := 0, rt := 0, info := 0 } ∧
      ∀ b, b ≠ blk → win t b = win s b) ∧
    (d.getLsbD 31 = true → exec (.ovfClear port blk d) s = .next (setWin blk { win s blk with ovf := false, later := 0 } s)) ∧
    (∀ m : Fin 24, blk = mcBlk m → d.getLsbD 0 = true →
      ∃ t, exec (.errlogClr port m d) s = .next t ∧ Only [.mcs] s t ∧ (mcOf t m).log = []) ∧
    (∃ t, exec (.registerWrite port (0x200000 + 0x1000 * blk + 0xC) 4 d.toNat) s = .next t ∧ Only [.win] s t ∧
      win t blk = { win s blk with latchEn := d }) ∧
    (∀ i < 0x400, ∃ t, exec (.registerWrite port (0x80000 + 4 * i) 4 d.toNat) s = .next t ∧ Only [.mbx] s t ∧
      msixDword t port i = d.toNat)

/-- Lines at a controller (R194, R195, R216-R222): a read stands at its requester's port and counts its bytes; an
uncorrectable one sets its bit and leaves the line bad; a write stores its bytes and no other; an address that is backed by
nothing sets ADDR_ERR; a scrub counts, in a slot of the controller's own; a hot stack refreshes twice. The stack arbiter
(R224-R235): a weight counts from the next clock and clamps the credit; a window adds the weights up to 4,095; a decision
takes the burst of the one port that asks, lowers its credit on a stack by the slots of the burst, counts the grant and
the wait; a slot of the controller's own decides nothing. -/
def Obligations.ControllersAndArbiter : Prop :=
  (∀ (s : State) (mc : Fin 24) (pa : Nat) (who : Requester), s.power.rails = true → absentBlk s (mcBlk mc) = false →
      (backed s pa = true → atMc s mc pa = true → s.brRetrain = false → s.mem.bad.contains (pa / 64) = false →
        injMode s (mcBlk mc) 0 (fun t => t = pa / 64) = none →
        let u := request mc (agentPort (requester who)) (agentSite (requester who)) pa s
        exec (.memRead mc pa false false .clean who) s = .next (count (mcBlk mc) 56 64 u) ∧
        exec (.scrubRead mc pa false .clean) s = .next (modMc mc takeSlot (count (mcBlk mc) 58 1 s)) ∧
        ∃ t, exec (.memRead mc pa false false .lasting who) s = .next t ∧ (win t (mcBlk mc)).sts.getLsbD 9 ∧
          pa / 64 ∈ t.mem.bad) ∧
      (∀ ode ce ue, backed s pa = false → s.brRetrain = false →
        exec (.memRead mc pa ode ce ue who) s = .next (event (mcBlk mc) 4 0 pa s)) ∧
      (∀ l : List Byte, l.length = 64 → pa % 64 = 0 → backed s pa = true → atMc s mc pa = true → s.brRetrain = false →
        injMode s (mcBlk mc) 1 (fun t => t = pa / 64) = none →
        ∃ t, exec (.memWrite mc pa (l.map some) .clean .clean who) s = .next t ∧
          Only [.phys, .mcs, .xl, .ctr] s t ∧ pa / 64 ∉ t.mem.bad ∧
          (∀ a, Memory.read t.mem.phys a = if pa ≤ a ∧ a < pa + 64 then l.getD (a - pa) 0 else Memory.read s.mem.phys a) ∧
          ctr t (mcBlk mc) 57 = (ctr s (mcBlk mc) 57 + 64) % 2 ^ 64)) ∧
  (∀ (s : State) (st : Fin 16) (temp : Nat), s.power.rails = true →
      ∃ t, exec (.stackTempReport st temp) s = .next t ∧ (mcOf t st).refresh2 = decide (85 < temp) ∧
        (85 < temp → (mcOf s st).refresh2 = false → (win t (mcBlk st)).sts.getLsbD 14)) ∧
  (∀ (s : State) (st : Fin 16), s.power.rails = true →
      let m := mcOf s st
      (∀ (n : Fin 8) (w : BitVec 12) (clk : Nat), m.writes = [] → m.window = clk / 4096 + 1 → m.clock ≤ clk →
        m.credit.length = 8 → m.weight.length = 8 →
        ∃ t, exec (.arbWeightWrite st n w clk) s = .next t ∧ Only [.mcs] s t ∧ (mcOf t st).weight = m.weight ∧
          (mcOf t st).credit = m.credit ∧
          let v := arbView (mcOf t st)
          nth v.weight n = w.toNat ∧ nth v.credit n = min (nth m.credit n) w.toNat ∧
          ∀ k < 8, k ≠ n.val → nth v.weight k = nth m.weight k ∧ nth v.credit k = nth m.credit k) ∧
      (∀ clk, m.writes = [] → clk / 4096 = m.window →
        ∃ t, exec (.arbWindowRefill st clk) s = .next t ∧ Only [.mcs] s t ∧ (mcOf t st).window = clk / 4096 + 1 ∧
          ∀ k < 8, nth (mcOf t st).credit k = min 4095 (nth m.credit k + nth m.weight k))) ∧
  (∀ (s : State) (st : Fin 24) (clk : Nat) (a : Arrival), s.power.rails = true → absentBlk s (mcBlk st) = false →
      let m := mcOf s st
      m.clock ≤ clk → m.pathFree ≤ clk + 1 → m.writes = [] → m.window = clk / 4096 + 1 →
      (m.ports = List.replicate 8 [] → m.credit.length = 8 → m.grant.length = 8 → m.waitMax.length = 8 → a.port < 8 →
        0 < a.lines → a.line % 16 + a.lines ≤ 16 → a.clock < clk →
        let n := slotsOf (16 ≤ st.val) a.lines
        ∃ t, exec (.arbDecision st clk [a] false) s = .next t ∧ Only [.mcs] s t ∧
          (mcOf t st).clock = clk + 1 ∧ (mcOf t st).pathFree = clk + 1 + n ∧ (mcOf t st).ports = List.replicate 8 [] ∧
          nth (mcOf t st).grant a.port = (nth m.grant a.port + 1) % 2 ^ 64 ∧
          nth (mcOf t st).credit a.port = (if 16 ≤ st.val then nth m.credit a.port else nth m.credit a.port - n) ∧
          nth (mcOf t st).waitMax a.port = max (nth m.waitMax a.port) (min (clk - a.clock) 0xFFFFFFFF)) ∧
      (∃ t, exec (.arbDecision st clk [] true) s = .next t ∧ Only [.mcs] s t ∧ (mcOf t st).clock = clk + 1 ∧
        (mcOf t st).grant = m.grant ∧ (mcOf t st).credit = m.credit))

/-- The window (R214, R215, R222): the host writes a line, reads one and may hold it; its answer brings back what it
changed; without one in time the access fails with its event. The CXL ports (R510, R590-R592): a committed decoder
serves until PERST_N or a decommit; a link that goes down keeps it and drops the filter; a retrain comes back at its rate,
degraded at x4. -/
def Obligations.WindowAndCxlPorts : Prop :=
  (∀ (s : State),
      (∀ (p : Half) (off : Nat), s.power.rails = true → (cxl s p).up = true → (cxl s p).enabled = true →
        (cxl s p).committed = true → off < s.mem.windowGib * 2 ^ 30 → s.brRetrain = false →
        (∀ b, (win s b).armed = false) →
        (∀ b, ∃ t, exec (.windowHostAccess p off (some b) {}) s = .next t ∧ Only [.phys, .mcs, .ctr] s t ∧
          t.mem.phys = Memory.store s.mem.phys (winBase s + 64 * (off / 64)) (b.take 64)) ∧
        (s.mem.filter.length < 1048576 → s.mem.bad.contains ((winBase s + 64 * (off / 64)) / 64) = false →
          ∃ t, exec (.windowHostAccess p off none {}) s = .next t ∧ Only [.snoop, .mcs, .ctr] s t ∧
            off / 64 ∈ t.mem.filter ∧ t.mem.snoops = s.mem.snoops)) ∧
      (∀ (mc : Fin 24) (pa : Nat), winBase s ≤ pa → s.mem.snoops.contains (lineOfPa s pa) = true → atMc s mc pa = true →
        ∃ t, exec (.winSnoopTimeout mc pa) s = .next t ∧ lineOfPa s pa ∉ t.mem.snoops ∧ lineOfPa s pa ∈ t.mem.snoopBad ∧
          (win t (mcBlk mc)).sts.getLsbD 5) ∧
      (∀ off b, s.mem.snoops.contains (off / 64) = true →
        let u := putOwn (.host (if s.cxlA.committed then .a else .b)) (winBase s + 64 * (off / 64)) (b.take 64) s
        exec (.backInvalidateResponse off (some b)) s = .next (wakeEngines { u with mem := { u.mem with
          filter := u.mem.filter.filter (· ≠ off / 64), snoops := u.mem.snoops.filter (· ≠ off / 64),
          snoopBad := u.mem.snoopBad.filter (· ≠ off / 64) } }))) ∧
  (∀ (s : State) (h : Half), s.power.rails = true →
      let c := cxl s h
      (c.up = true → c.enabled = true →
        ((cxl s h.other).committed = false →
          exec (.hdmCommit h true) s = .next (modCxl h (fun c => { c with committed := true }) s)) ∧
        exec (.hdmCommit h false) s = .next (modCxl h (fun c => { c with committed := false }) s)) ∧
      (∃ t, exec (.perstN h) s = .next t ∧ (cxl t h).up = false ∧ (cxl t h).committed = false ∧
        (cxl t h).enabled = c.enabled ∧ cxl t h.other = cxl s h.other) ∧
      (c.up = true → ∃ t, exec (.cxlLinkDown h) s = .next t ∧ (cxl t h).up = false ∧ (cxl t h).committed = c.committed) ∧
      (∀ w g, 32 ≤ g → ∃ t, exec (.cxlLinkRetrain h w g) s = .next t ∧ (cxl t h).up = true ∧ (cxl t h).width = w ∧
        (cxl t h).gts = g ∧ (c.up = true → (win t (0x12 + h.num)).sts.getLsbD 1) ∧
        (w ≤ 4 → (win t (0x12 + h.num)).sts.getLsbD 2)))

/-- The tile sequencer (R88-R91, R93): a descriptor comes into the prefetch buffer and is dispatched to its queue; a
header wait that is met lets it start; executed, it leaves, and the last one with END ends the tile's part. -/
def Obligations.TilesTakeDescriptors : Prop :=
  ∀ (s : State) (c : Fin 36) (n : Fin 64),
    let t := pos c n
    let x := tile s t
    tileRuns s t = true →
    (∀ p cx env pa w, clCtx s c = some (p, cx) → x.endSeen = false → x.pre = [] →
      injMode s (clBlk c) 2 (fun g => fld g 41 36 = n.val) = none →
      snoopLines s (.tile p c) cx false (x.streamVa + 64 * x.next) 64 = [] →
      bridgeHolds s (.tile p c) cx false (x.streamVa + 64 * x.next) 64 = false →
      lineAt s (.tile p c) cx env false (x.streamVa + 64 * x.next) = .ok (pa, w) →
      exec (.descFetch c n env) s = .next (dispatch t (modTile t (fun x => { x with
        pre := x.pre ++ [{ idx := (tile s t).next, bits := leNat (Memory.bytes s.mem.phys pa 64) }], next := x.next + 1 })
        (count (clBlk c) 36 64 (count (clBlk c) 32 64
          (lineNote (.tile p c) cx env false (x.streamVa + 64 * x.next) 64 s)))))) ∧
    (∀ d r q, x.endSeen = false → x.hold = none → x.barrier = none → x.pre = d :: r → d.bad = none →
      queueOf (opcodeOf d.bits) = some q → (queue x q).length < 8 →
      let y := tile (dispatchDesc t s) t
      queue y q = queue x q ++ [d] ∧ y.pre = r ∧ y.last = some d.idx ∧ y.endSeen = bitOf d.bits 16 ∧
        y.barrier = (if bitOf d.bits 17 then some d.idx else none) ∧ Only [.tiles] s (dispatchDesc t s)) ∧
    (∀ d r q, queue x q = d :: r → d.go = false → d.done = false → bitOf d.bits 55 = true →
      bitOf d.bits 56 = true → fld d.bits 127 96 ≤ FMap.get 0 x.cnt (fld d.bits 53 48) →
      ∃ u, exec (.headerWaitSatisfied c n q) s = .next u ∧ queue (tile u t) q = { d with go := true } :: r ∧
        FMap.get 0 (tile u t).cnt (fld d.bits 53 48) = FMap.get 0 x.cnt (fld d.bits 53 48) - fld d.bits 127 96 ∧
        Only [.tiles] s u) ∧
    (∀ d r q, queue x q = d :: r → d.done = true →
      exec (.descriptorComplete c n q) s = .next (finish t d (modTile t (putQueue q r) s))) ∧
    (∀ d, x.endSeen = true → drained x = true → x.hold = none → sigFault s t d.bits = none →
      (tile (finish t d s) t).phase = 2)

/-- The units (R105-R120, R127, R90): the head of a unit's queue, its checks passed and its operands read, has its
effect and is executed. The tile DMA engine (R117-R120): a LOAD zeroes rows or brings them from context memory; a
STORE takes them there; an XFER moves rows within the tile's reach. -/
def Obligations.UnitsExecuteAndMove : Prop :=
  (∀ (s : State) (c : Fin 36) (n : Fin 64) (d : Desc),
      let t := pos c n
      (win s (clBlk c)).armed = false →
      (heads s t .matrix 0x01 d → mmaFault s t d.bits = none →
        exec (.mma c n {}) s = .next (ran .matrix t (mmaRun t d.bits s))) ∧
      (heads s t .matrix 0x02 d → lamFault s t d.bits = none →
        exec (.mmaLam c n {}) s = .next (ran .matrix t (lamRun t d.bits s))) ∧
      (heads s t .vector 0x03 d → vecFault s t d.bits = none →
        exec (.vec c n {}) s = .next (ran .vector t (vecRun t d.bits s))) ∧
      (heads s t .nonlinear 0x04 d → nlfFault s t d.bits = none →
        exec (.nlf c n {}) s = .next (ran .nonlinear t (nlfRun t d.bits s))) ∧
      (heads s t .vector 0x05 d → redFault s t d.bits = none →
        exec (.red c n {}) s =
          .next (ran .vector t (if redMode d.bits = 2 then redAccum t d.bits s else redReduce t d.bits s))) ∧
      (∀ p cx, heads s t .fabric 0x18 d → clCtx s c = some (p, cx) → fld d.bits 143 142 < 2 → sigFault s t d.bits = none →
        fld d.bits 140 128 < trigCount s t → trigArmed s t (fld d.bits 140 128) = false →
        exec (.fabricTrig c n) s = .next (ran .fabric t
          (writeEntry (clHalf c) p (fld d.bits 140 128) (fld d.bits 511 256) (fld d.bits 143 142 = 1) s)))) ∧
  (∀ (s : State) (c : Fin 36) (n : Fin 64) (d : Desc),
      let t := pos c n
      let l := dmaPieces (baseReg (tile s t) (fld d.bits 463 461)) d.bits
      (win s (clBlk c)).armed = false →
      (∀ env, heads s t .dma 0x08 d → bitOf d.bits 128 = true → dmaFault s t d.bits = none →
        exec (.load c n env) s = .next (ran .dma t ((rowsOf (fld d.bits 447 416) (fld d.bits 375 352) (fld d.bits 327 312)
          (fld d.bits 351 328)).foldl (fun s x => storeLocal t x.1 (List.replicate x.2 0) s) s))) ∧
      (∀ env, heads s t .dma 0x08 d → bitOf d.bits 128 = false → dmaFault s t d.bits = none → dmaSnoops s t 8 = [] →
        dmaHeld s t 8 = false → (loadPieces t env l s).2.2 = none →
        exec (.load c n env) s = .next (ran .dma t (countMoved t 32 (loadPieces t env l s).2.1 (loadPieces t env l s).1))) ∧
      (∀ env, heads s t .dma 0x09 d → dmaFault s t d.bits = none → dmaSnoops s t 9 = [] → dmaHeld s t 9 = false →
        (storePieces t env l s).2.2 = none →
        exec (.store c n env {}) s =
          .next (ran .dma t (countMoved t 33 (storePieces t env l s).2.1 (storePieces t env l s).1))) ∧
      (heads s t .dma 0x0A d → fld d.bits 399 376 ≠ 0 → fld d.bits 375 360 ≠ 0 → fld d.bits 129 128 = 0 →
        badLocal inEither (xferSrc d.bits ++ xferDst d.bits) = none → sigFault s t d.bits = none →
        overlap (xferSrc d.bits) (xferDst d.bits) = false →
        exec (.xfer c n {}) s = .next (ran .dma t (count (clBlk c) (posCtr n.val 6)
          ((xferSrc d.bits).map (fun x => (linesOf x.1 x.2).length)).sum
          (((xferDst d.bits).zip ((xferSrc d.bits).map (fun x => localBytes s t x.1 x.2))).foldl
            (fun s x => storeLocal t x.1.1 x.2 s) s)))))

/-- Where the units store (R106, R111, R113, R116, R120): a form that writes a matrix writes its rows and nothing
else, one that does not writes nothing. What is stored reads back (R79, R141): the row that a one-row NLF or VEC
writes holds its results, packed. -/
def Obligations.ResultsAreStoredAndReadBack : Prop :=
  (∀ (s : State) (t d : Nat),
      wroteOnly t (mmaWrites d) s (mmaRun t d s) ∧
      wroteOnly t (rowsOf (fld d 511 480) (fld d 319 304) (mOf d) (8 * nOf d)) s (lamRun t d s) ∧
      wroteOnly t (vecWrites d) s (vecRun t d s) ∧
      wroteOnly t (nlfD d) s (nlfRun t d s) ∧
      wroteOnly t (redD d) s (redAccum t d s) ∧
      (redMode d ≤ 1 → wroteOnly t [(fld d 511 480, packedBytes (redOut d) (redCount d))] s (redReduce t d s)) ∧
      (∀ l : List (Nat × List Byte), wroteOnly t (l.map (fun x => (x.1, x.2.length))) s
        (l.foldl (fun s x => storeLocal t x.1 x.2 s) s))) ∧
  (∀ (s : State) (t d : Nat),
      (fld d 319 304 = 1 → fld d 415 384 < 0x1000000 →
        localBytes (nlfRun t d s) t (fld d 415 384) (packedBytes (fld d 143 140) (fld d 303 288)) =
          packRow (fld d 143 140) ((List.range (fld d 303 288)).map (fun c => (nlfElem d (drawAt s t 2 c)
            (elemNum (fld d 139 136) (nth (rowAt s t (fld d 139 136) (fld d 383 352) (fld d 303 288)) c))).code))) ∧
      (vecRows d = 1 → isMx (vecOut d) = false → fld d 447 416 < 0x1000000 →
        localBytes (vecRun t d s) t (fld d 447 416) (packedBytes (vecOut d) (vecCols d)) =
          packRow (vecOut d) ((vecRow s t d 0).map (fun x => x.1.code))))

/-- The sequencer's operations (R121-R134): each has its effect once its wait and its condition hold, and completes; a
WAIT_RT whose target has not passed holds dispatch until the half's count reaches it. -/
def Obligations.TheSequencerExecutes : Prop :=
  ∀ (s : State) (c : Fin 36) (n : Fin 64) (d : Desc),
    let t := pos c n
    let h := clHalf c
    sigFault s t d.bits = none →
    (holds s t 0x10 d → cwaitReady (tile s t) d.bits = true →
      exec (.cwait c n) s = .next (passed t d (modTile t (cwaitConsume d.bits) s))) ∧
    (holds s t 0x11 d → (∀ g ∈ targets d.bits, fld g 10 8 < 6 ∧ (bitOf g 7 = true → fld g 10 8 = 1) ∧ ctargetOk s t g = true) →
      (bitOf d.bits 128 = true → drained (tile s t) = true) →
      exec (.csignal c n) s = .next (passed t d ((targets d.bits).foldl (fun s g => csend t g s) s))) ∧
    (holds s t 0x12 d → d.done = false → rtTarget (tile s t) d.bits < cnt s h → (∀ e ∈ (tile s t).pre, e.go = false) →
      exec (.waitRt c n) s = .next (passed t d (rtDone t (countSat (clBlk c) (posCtr n.val 14) 1 s)))) ∧
    (holds s t 0x12 d → d.done = false → cnt s h ≤ rtTarget (tile s t) d.bits →
      exec (.waitRt c n) s = .next (modTile t (fun x => { x with hold := some { d with done := true } }) s)) ∧
    (holds s t 0x12 d → d.done = true →
      exec (.waitRtComplete c n) s = .next (passed t d (rtDone t (waitHalf h (rtTarget (tile s t) d.bits) s)))) ∧
    (∀ ts, holds s t 0x20 d → fld d.bits 415 400 = 0 → queuedEvents s h < 8192 →
      exec (.markReq c n ts) s = .next (passed t d
        (markEvent t (if bitOf d.bits 128 then 1 else 0) (fld d.bits 511 448) 0 s))) ∧
    (∀ ts, holds s t 0x21 d → fld d.bits 129 128 = 0 → queuedEvents s h < 8192 →
      exec (.markWork c n ts) s = .next (passed t d (markEvent t 2 (fld d.bits 511 448) (fld d.bits 399 368) s))) ∧
    (∀ k y env, (win s (clBlk c)).armed = false → s.brRetrain = false → holds s t 0x28 d → fld d.bits 447 424 ≠ 0 → badLocal inEither [(fld d.bits 479 448, fld d.bits 447 424)] = none →
      tapHit s t (fld d.bits 511 480) = some (k, y) → drained (tile s t) = true →
      exec (.tapPoint c n {} env) s = .next (passed t d (modTile t (fun x => { x with
        tapCnt := FMap.mod 0 x.tapCnt (fld d.bits 511 480) (· + 1) }) (tapCopy t d.bits env k y s))))

/-- Signals and tile faults (R77, R95, R96, R99, R136): the first signal in flight raises its counter, or sets it; a
hardware fault stops the tile and calls for its test, which returns it to service or retires it. -/
def Obligations.SignalsAndTileFaults : Prop :=
  ∀ s : State,
    (∀ g r, s.comp.signals = g :: r → g.eng = none → (cluster s (g.tgt / 64)).part = some g.part →
      absentPos s (g.tgt / 64) (g.tgt % 64) = false →
      let v := if g.set then g.val else FMap.get 0 (tile s g.tgt).cnt g.cnt + g.val
      v ≤ 0xFFFFFFFF →
      ∃ u, exec (.tileSignalArrive 0) s = .next u ∧ u.comp.signals = r ∧ FMap.get 0 (tile u g.tgt).cnt g.cnt = v ∧
        Only [.signals, .tiles] s u) ∧
    (∀ (c : Fin 36) (n : Fin 64), absentPos s c n = false → (cluster s c).testing.any (fun y => y.1 = n.val) = false →
      ∃ u, exec (.tileHwFault c n false) s = .next u ∧ (n.val, false) ∈ (cluster u c).testing ∧
        FMap.get 0 (cluster u c).codes n.val = 0x12 ∧ (win u (clBlk c)).sts.getLsbD 0) ∧
    (∀ (c : Fin 36) (n : Fin 64), (cluster s c).testing = [(n.val, false)] → serving s = true →
      (∃ u, exec (.tileStartTestDone c n true .clean) s = .next u ∧ (cluster u c).testing = [] ∧
        (cluster u c).retired = (cluster s c).retired ∧ tile u (pos c n) = {} ∧ (win u (clBlk c)).sts.getLsbD 8) ∧
      (∃ u, exec (.tileStartTestDone c n false .clean) s = .next u ∧ (cluster u c).testing = [] ∧
        n.val ∈ (cluster u c).retired ∧ (win u (clBlk c)).sts.getLsbD 9))

/-- Training (R326-R329): each stage hands on to the next; a link of two BL2 ends with the peer its role expects
becomes ACTIVE; a first attempt that runs out of time starts over; a lost lock trains again. What a link carries
(R331-R333): corrected symbols are counted, an uncorrectable codeword is an event, a control flit returns credits. -/
def Obligations.LinksTrainAndCarry : Prop :=
  (∀ (s : State) (p : Fin 64),
      let x := port s p
      (x.st = 1 → ∃ t, exec (.phyTrainDone p) s = .next t ∧ port t p = { x with st := 2, since := s.time.clk } ∧
        Only [.fab, .win, .ctr, .mbx] s t) ∧
      (x.st = 2 → ∃ t, exec (.fecLockDone p) s = .next t ∧ port t p = { x with st := 3, since := s.time.clk } ∧
        Only [.fab, .win, .ctr, .mbx] s t) ∧
      (∀ cap : CapWord, x.st = 3 → s.ident.midValid = true → cap.isSwitch = false → cap.mid < 4096 →
        (cap.protoMask % 4 = 2 ∨ cap.protoMask % 4 = 3) → peerOk s p false cap.mid = true → x.withdrawn = false →
        ∃ t, exec (.negotiateDone p cap) s = .next t ∧ (port t p).st = 4 ∧ (port t p).proto = 2 ∧
          (port t p).peerMid = cap.mid ∧ (port t p).credit = (List.range 8).map (nth cap.buffer)) ∧
      (x.st = 1 → x.withdrawn = false → x.retrain = false → x.tries = 0 →
        ∃ t, exec (.trainStateTimeout p) s = .next t ∧ (port t p).st = 1 ∧ (port t p).tries = 1 ∧ (port t p).reason = 1) ∧
      (x.st = 5 → exec (.fecLockLoss p) s = .next (train p s)) ∧
      (x.st = 4 → exec (.fecLockLoss p) s = .next (retrain p s) ∧ exec (.uncorrCodewordBurst p) s = .next (retrain p s) ∧
        (x.queue = [] → (port (retrain p s) p).st = 1 ∧ (port (retrain p s) p).retrain = true))) ∧
  (∀ (s : State) (p : Fin 64),
      let x := port s p
      ([3, 4, 5, 8].contains x.st = true → ∀ l,
        (∀ n, exec (.codewordArrive p (some n) l) s = .next (count (0x80 + p.val) 30 n s)) ∧
        ∃ t, exec (.codewordArrive p none l) s = .next t ∧ ctr t (0x80 + p.val) 31 = (ctr s (0x80 + p.val) 31 + 1) % 2 ^ 64 ∧
          (port t p).hit = x.hit ++ l ∧ (win t (0x80 + p.val)).sts.getLsbD 3 ∧ Only [.fab, .win, .ctr, .mbx] s t) ∧
      (∀ f : CtrlFlit, [4, 5, 8].contains x.st = true → f.crcOk = true → x.queue = [] → f.testReq = false →
        f.retrainReq = false →
        ∃ t, exec (.linkControlFlit p f) s = .next t ∧ Only [.fab, .ctr] s t ∧ (port t p).st = x.st ∧
          ∀ v < 8, nth (port t p).rxFlits v = nth f.sent v % 65536 ∧ nth (port t p).retSeen v = nth f.ret v % 65536 ∧
            nth (port t p).credit v = nth x.credit v + (nth f.ret v % 65536 + 65536 - nth x.retSeen v % 65536) % 65536))

/-- Beacons and notices (R59, R366-R376): a beacon is counted and checked; a notice arms its comparator, whose tick
withdraws, disables, returns or trains ports; the join notice goes out once. The route table and an abort from another
module (R345, R523, R524): the shadow table comes into force with its events; an abort is forwarded once and fences
the partition that has the group. -/
def Obligations.BeaconsTablesAndAborts : Prop :=
  (∀ (s : State) (p : Fin 64),
      (∀ b : Beacon, [4, 5, 8].contains (port s p).st = true → peerOk s p b.isSwitch (b.srcMid % 4096) = true → b.proto = 1 →
        ∃ t, exec (.beaconArrive p b) s = .next t ∧ (port t p).beaconIn = true ∧ (port t p).digUnchecked = true ∧
          (port t p).st = (port s p).st ∧ (b.tq = 0 → rtDisagrees s p b = true → t.time.w1c.getLsbD 7)) ∧
      (∀ k : Pkt, [4, 5, 8].contains (port s p).st = true → k.opcode = 0x0B → cnt s (portHalf p) < k.destMask →
        (k.opArg % 4 = 0 → ∃ t, exec (.noticeWithdrawModule p k) s = .next t ∧
          { tick := k.destMask, kind := 0, port := 0, peer := k.srcMid } ∈ t.fab.comps ∧ Only [.fab, .ctr] s t) ∧
        (k.opArg % 4 = 1 → ∃ t, exec (.noticeWithdrawPort p k) s = .next t ∧
          { tick := k.destMask, kind := 1, port := p.val, peer := k.srcMid } ∈ t.fab.comps ∧ Only [.fab, .ctr] s t) ∧
        (k.opArg % 4 = 2 → ∃ t, exec (.noticeJoin p k) s = .next t ∧
          { tick := k.destMask, kind := 2, port := 0, peer := k.srcMid } ∈ t.fab.comps ∧ Only [.fab, .ctr] s t)) ∧
      (∀ c r flash, s.fab.comps = c :: r → c.own = false →
        let u := swapDue c.tick flash (modFab (fun f => { f with comps := r }) (waitCount c.tick s))
        (c.kind = 0 → exec (.transitComparatorTick 0 flash) s = .next ((portsTo u c.peer).foldl (fun s p => withdrawPort p s) u)) ∧
        (c.kind = 1 → exec (.transitComparatorTick 0 flash) s = .next (disablePort c.port u)) ∧
        (c.kind = 2 → exec (.transitComparatorTick 0 flash) s = .next ((portsTo u c.peer).foldl (fun s p => joinPort p s) u)) ∧
        (c.kind = 3 → exec (.transitComparatorTick 0 flash) s = .next (trainByCtl (decide (c.cause = 1)) c.port u))) ∧
      (s.fab.joined = false → s.time.tq = .locked → s.power.rails = true → s.ident.variant ≠ .s →
        (∀ q < 64, (port s q).role = 0 ∨ [4, 7, 8].contains (port s q).st = true) →
        ∃ t, exec .joinNoticeSend s = .next t ∧ t.fab.joined = true ∧ Only [.fab, .ctr, .win] s t)) ∧
  (∀ s : State,
      (∀ t tab u, s.fab.shadow = some (t, tab) →
        recordSettings .clean [(0x0001, tab.raw)] (modFab (fun f => { f with shadow := none }) (waitCount t s)) = (true, u) →
        ∃ v, exec (.routeTableSwap .clean) s = .next v ∧ v.fab.tab = tab ∧ v.fab.shadow = none ∧ v.fab.pathBad = [] ∧
          (win v 0xA).sts.getLsbD 0 ∧ (win v 0xB).sts.getLsbD 0) ∧
      (∀ (p : Fin 64) (k : Pkt) (i : Nat) (x : Machine.Part), (port s p).st = 4 → k.opcode = 0x0A → k.hops < 64 →
        s.fab.abortSeen = [] → s.time.tq ≠ .locked → part? s i = some x →
        (List.range 36).filter (fun j => match part? s j with
          | some y => (partGroups s j).any (fun g => (abortGroups k).contains g) && !later48 y.lastTick (k.targetVa % 2 ^ 48) &&
              y.fence.isNone
          | none => false) = [i] →
        let h := portHalf p
        let u := modFab (fun f => { f with abortSeen := [(k.srcMid, fld k.opArg 15 0, s.time.clk)] }) (rxOne p s)
        let v := ((portsIn u [4, 5]).filter (· != p.val)).foldl (fun s q => sendOn q { k with hops := k.hops + 1 } s)
          (count (0xA + h.num) 33 1 u)
        exec (.abortPacketArrive p k) s = .next (event (0xA + h.num) 7 0 0 (fencePart 1 4 0 true i v))))

/-- A packet at its destination (R355, R356): one of another module changes nothing; a broken payload is an event; one
already applied is acknowledged again; the next of its flow is applied at once. A packet applied (R355, R389, R390,
R392, R407): the flow moves on; a PUT stores all of its bytes, or is a chunk of a collective; a request is answered, an
ATOMIC stores its sum, a response lands and counts down, an engine counter is raised; a refusal names its code. -/
def Obligations.PacketsArriveAndApply : Prop :=
  (∀ (s : State) (p : Fin 64) (k : Pkt) (env : MemEnv),
      let comes (op : Nat) (i : Instr) (env : MemEnv) : Prop :=
        (k.mcast = false → k.destMid ≠ s.ident.mid → exec i s = .next s) ∧
        (k.opcode = op → k.mcast = false → k.destMid = s.ident.mid → s.power.rails = true → s.ident.variant ≠ .s →
          let f := rxFlow s k
          (k.crcOk = false → exec i s = .next (portEvent p 6 (count (0x80 + p.val) 33 1 s))) ∧
          (k.crcOk = true → f.next = (k.seq + 1) % 2 ^ 32 → k.seq < 2 ^ 32 → exec i s = .next (sendAck k s)) ∧
          (k.crcOk = true → f.next = k.seq → k.seq < 2 ^ 32 → f.held = [] →
            exec i s = .next (runFlow env k 256 (setFlow k { f with held := [(p.val, k)] } s))))
      comes 1 (.putArrive p k) {} ∧ comes 2 (.getReqArrive p k env) env ∧ comes 3 (.getRespArrive p k) {} ∧
      comes 4 (.atomicArrive p k env) env ∧ comes 5 (.atomicRespArrive p k) {} ∧ comes 6 (.reduceArrive p k) {} ∧
      comes 7 (.rndvReadyArrive p k) {} ∧ comes 0xC (.counterAddArrive p k) {}) ∧
  (∀ (s : State) (k : Pkt) (env : MemEnv),
      (∀ n p x, (rxFlow s k).held.find? (fun y => y.2.seq = (rxFlow s k).next) = some (p, x) → pktHeld s x = false →
        pktSnoops s x = [] →
        let f := rxFlow s k
        let u := setFlow k { f with held := f.held.erase (p, x), next := (f.next + 1) % 2 ^ 32, unacked := f.unacked + 1,
                                    ackAt := f.ackAt.or (some s.time.clk), gapAt := none, nackAt := none } s
        let r := applyPkt env x u
        runFlow env k (n + 1) s = runFlow env k n (match r.2 with
          | some c => sendRefusal x c r.1
          | none => if 8 ≤ (rxFlow r.1 k).unacked then sendAck k r.1 else r.1)) ∧
      (∀ c, targetOf s k = .error c → applyPkt env k s = (s, some c)) ∧
      (∀ pi p, targetOf s k = .ok (pi, p) →
        let ag : Agent := .engine pi k.destHalf
        let u := count (feBlk k.destHalf) 36 k.payload.length s
        let v := collTouched k u
        (k.opcode = 1 → chunkPut v k = none → badLine v ag p.ctx {} k.targetVa k.payload.length = none →
          let w := (writeVa ag p.ctx {} k.targetVa k.payload v).1
          applyPkt env k s = (pokeAll (if bitOf k.opArg 0 ∧ bitOf k.opArg 1 then
            counterCycle k.destHalf pi (fld k.opArg 10 2) [] [1] w else w), none)) ∧
        (∀ q, k.opcode = 1 → chunkPut v k = some q → applyPkt env k s = (chunkApply q k v, none)) ∧
        (∀ b, k.opcode = 2 → readVa u ag p.ctx env k.targetVa (fld k.opArg 12 0) = (b, none) →
          let w := readNote ag p.ctx env k.targetVa (fld k.opArg 12 0) u
          applyPkt env k s = (sendOwn { respPkt w k with opcode := 3, opArg := k.opArg, payload := b } w, none)) ∧
        (∀ b, k.opcode = 4 → k.opArg % 4 = 0 → bitOf k.opArg 2 = false → readVa v ag p.ctx env k.targetVa 8 = (b, none) →
          let w := readNote ag p.ctx env k.targetVa 8 v
          badLine w ag p.ctx {} k.targetVa 8 = none →
          applyPkt env k s = (pokeAll (writeVa ag p.ctx {} k.targetVa
            (natLe 8 ((leNat b + leNat k.payload) % 2 ^ 64)) w).1, none)) ∧
        (∀ o cx va n, (k.opcode = 3 ∨ k.opcode = 5) → opOf u k.destHalf k.tag = some o → reach u k = some (cx, va, n) →
          o.part = pi → (writeVa ag cx {} va (sliceB k.payload 0 n) u).2.2 = none →
          applyPkt env k s = (modOp k.destHalf k.tag (fun o => { o with left := o.left - n })
            (writeVa ag cx {} va (sliceB k.payload 0 n) u).1, none)) ∧
        (k.opcode = 6 → applyPkt env k s = (reduceApply k u, none)) ∧
        (k.opcode = 7 → applyPkt env k s = (applyRndv k u, none)) ∧
        (k.opcode = 0xC → applyPkt env k s = (counterCycle k.destHalf pi (k.targetVa % 512) [] [k.opArg] u, none))))

/-- Routing (R331, R333, R342, R343, R346): a packet for this module is handed in, one for another leaves by the port the
hop chooses, one that may not go on is dropped and counted; each frees the flits it held in the receive buffer. One of
which a flit was lost is discarded; one that would cross the bridge waits for its retrain (R24). Acknowledgements and
resends (R356-R358, R362): an ACK goes 1 µs after the oldest application, a NACK 2 µs into a gap; an ACK frees the kept
packet; a NACK or 20 µs of silence sends it again; a busy BL1 target delays it. -/
def Obligations.PacketsAreRoutedAndKept : Prop :=
  (∀ (s : State) (k : Pkt), s.power.rails = true → s.ident.variant ≠ .s →
      exec (.packetRoute none k) s = .next (sendOwn k s)) ∧
  (∀ (s : State) (p : Fin 64) (k : Pkt), [4, 5].contains (port s p).st = true →
      [0xA, 0xB, 0xD].contains k.opcode = false →
      (∀ y, (port s p).hit.find? (fun y => y.1 = k) = some y →
        exec (.packetRoute (some p) k) s = .next (dropHit p k y.2 s)) ∧
      ((port s p).hit.find? (fun y => y.1 = k) = none → bufFlits (port s p) k.vc + flits k ≤ nth s.fab.vcAlloc k.vc →
        k.mcast = false →
        let n := flits k
        let k' := { k with hops := k.hops + 1 }
        let u := rxCount p k.vc n (count (0x80 + p) 3 (64 * n) (count (0x80 + p) 1 1 s))
        let v := if k.destMid = s.ident.mid then u else count (0xA + (portHalf p).num) 32 n u
        (hop v p k' = .here → exec (.packetRoute (some p) k) s = .next (
          if crosses v p k' k.destHalf then holdAtBridge p k' v else handIn k' (freeIn p k' v))) ∧
        (∀ q, hop v p k' = .send q → exec (.packetRoute (some p) k) s = .next (
          if crosses v p k' (portHalf q) then holdAtBridge p k' v else putOut q p k' v)) ∧
        (∀ d o, hop v p k' = .drop d o → exec (.packetRoute (some p) k) s = .next (freeIn p k' (dropAt p o d v))) ∧
        (63 ≤ k.hops → hop v p k' = .drop hopLimit) ∧
        (k.hops < 63 → 0 < k.opcode → k.opcode ≤ 13 → k.vc < 2 → (s.fab.withdrawn = false ∨ s.fab.drainEnd.isSome) →
          k.destMid = s.ident.mid → hop v p k' = .here))) ∧
  (∀ s : State,
      (∀ f a, s.fab.rx = [f] → f.ackAt = some a →
        let u := modFab (fun x => { x with rx := [{ f with unacked := 0, ackAt := none }] }) (waitUntil (a + 100) s)
        exec (.ackTimer 0) s = .next (sendLoose (ackPkt u 8 f ((f.next + 2 ^ 32 - 1) % 2 ^ 32)) u)) ∧
      (∀ f a, s.fab.rx = [f] → f.gapAt = some a → f.held = [] →
        let v := waitUntil (max (a + 200) ((f.nackAt.map (· + 2000)).getD 0)) s
        let u := modFab (fun x => { x with rx := [{ f with nackAt := some v.time.clk }] }) v
        exec (.seqGapNack 0) s = .next (sendLoose (ackPkt u 9 f f.next) u)) ∧
      (∀ (p : Fin 64) (k : Pkt) (r : Resend), k.destMid = s.ident.mid → k.crcOk = true → s.fab.resend = [r] →
        s.fab.txWait = [] → r.pkt.mcast = false → k.destMask ≠ 1 → ackedFlow k r = true → r.pkt.seq = k.seq →
        k.seq < 2 ^ 32 → r.resends = 0 →
        (k.opcode = 8 → bitOf k.opArg 3 = false → bitOf k.opArg 16 = false → r.pkt.tag < 32768 →
          [3, 5].contains r.pkt.opcode = false →
          ∃ t, exec (.ackArrive p k) s = .next t ∧ t.fab.resend = [] ∧
            t.eng.ops = s.eng.ops.map (fun o => if o.half = r.pkt.srcHalf ∧ o.tag = r.pkt.tag then
              { o with acks := o.acks - 1 } else o) ∧ Only [.fab, .eng] s t) ∧
        (k.opcode = 9 → r.busy = false → exec (.nackArrive p k) s = .next (sendAgain { r with resends := 1 }
          (modFab (fun f => { f with resend := [] }) s)))) ∧
      (∀ r, s.fab.resend = [r] → r.pkt.mcast = false → r.busy = false → r.resends = 0 →
        exec (.resendTimeout 0) s = .next (sendAgain { r with resends := 1 }
          (modFab (fun f => { f with resend := [] }) (waitUntil (r.sentAt + 2000) s)))) ∧
      (∀ (p : Fin 64) (k : Pkt) (r : Resend), s.fab.resend = [r] → r.pkt.vc = 7 → r.pkt.destMid = k.srcMid →
        r.pkt.srcHalf = k.destHalf → r.pkt.destHalf = k.srcHalf → r.pkt.seq = k.seq →
        exec (.bl1BusyAck p k) s = .next (modFab (fun f => { f with resend := [{ r with busy := true, sentAt := s.time.clk }] }) s)))

/-- The fabric engines (R381-R383, R392, R402, R415): counters add and saturate; an operation completes with its
signal and frees its context; a collective takes a slot at its tick, completes, or fails for want of progress. -/
def Obligations.EnginesRun : Prop :=
  ∀ (s : State) (h : Half),
    (∀ (p : Fin 36) (i : Nat) (adds : List Nat) (x : Machine.Part), part? s p.val = some x → i < x.feCnt →
      armed s h (fun q e => q = p.val && fld e 16 8 = i) = [] →
      ∃ t, exec (.engineCounterAdd h p i [] adds) s = .next t ∧
        engCnt t h p.val i = min (engCnt s h p.val i + adds.sum) 0xFFFFFFFF ∧
        (0xFFFFFFFF < engCnt s h p.val i + adds.sum → (win t (feBlk h)).sts.getLsbD 1)) ∧
    (∀ i o, (opsOf s h)[i]? = some o → opDone o = true →
      exec (.engineOpComplete h i) s = .next (doneSignal h o.part o.entry
        (modOp h o.tag (fun o => { o with freed := true }) (count (feBlk h) 33 1 s)))) ∧
    (∀ i o, (opsOf s h)[i]? = some o → o.freed = true → s.eng.ent = [] →
      ∃ t, exec (.opContextFree h i) s = .next t ∧ Only [.eng] s t ∧
        t.eng.ops = s.eng.ops.filter (fun x => !(x.half = h && x.tag = o.tag))) ∧
    (∀ c j r, leastColl (eligibles s h) = some c → freeSlots s h = j :: r →
      let u := waitHalf h c.startTick s
      collHeld u c = false → collSnoops u c = [] → exec (.collectiveSlotAlloc h) s = .next (startColl c j u)) ∧
    (∀ k c p, s.eng.colls.find? (fun c => c.half = h && c.slot = some k) = some c → parOf s c = some p →
      pathDone p c = true → c.sigS = true → c.sigR = true →
      ∃ t, exec (.collectiveComplete h k) s = .next t ∧ c ∉ t.eng.colls ∧
        ctr t (feBlk h) 34 = (ctr s (feBlk h) 34 + 1) % 2 ^ 64 ∧
        (∀ g, group? s c.group = some g → (group? t c.group).map (·.nextSeq) = some ((g.nextSeq + 1) % 2 ^ 32)) ∧
        Only [.eng, .ctr] s t) ∧
    (∀ k c x, s.eng.colls.find? (fun c => c.half = h && c.slot = some k) = some c → part? s c.part = some x →
      x.stallMs ≠ 0 → exec (.collectiveStall h k) s = .next
        (collFail h c.group c.seq 0 0xB (waitUntil (c.moveAt + x.stallMs * 100000) s)))

/-- Fences and the reset pin (R520, R527): released 50 µs after its start, the partition has no fence and no queue;
the pin schedules a module reset 100,000 ticks ahead, or resets at once without rails; released, the start runs on.
Faults of the control cores and of the bridge (R24, R437, R506, R507, R515): corrected, transient and lasting cache
errors; a bridge error cleared by the retry, by a retrain, or by neither, which is the safe state. -/
def Obligations.FencesCachesAndBridge : Prop :=
  (∀ s : State,
      (∀ (part : Fin 36) (p : Machine.Part) (f : Fence), part? s part.val = some p → p.fence = some f → serving s = true →
        exec (.fenceRelease part) s = .next (releaseFence part.val (waitUntil (f.at_ + 5000) s)) ∧
        (f.destroy = false → p.queue = [] → (part? (releaseFence part.val s) part.val).map (·.fence) = some none)) ∧
      (s.power.v52 = true → s.crown.tripped = false → s.power.off = false → s.start.phase ≠ 7 → s.start.inReset = false →
        (s.power.rails = true → ∃ t, exec .modResetN s = .next t ∧ t.pins.modResetN = false ∧
          t.start.resetAt = some (sched t 1).rt ∧ (sched t 1).st = 1 ∧
          (sched t 1).rt = (if (sched s 1).st = 1 then min (sched s 1).rt (s.time.sup + 100000) else s.time.sup + 100000)) ∧
        (s.power.rails = false → ∃ t, exec .modResetN s = .next t ∧ t.start.inReset = true ∧ t.start.phase = 2)) ∧
      exec .modResetNRelease s =
        .next { s with pins := { s.pins with modResetN := true }, start := { s.start with inReset := false } }) ∧
  (∀ (s : State) (h : Half), s.power.rails = true →
      ((win s (8 + h.num)).armed = false →
        (∃ t, exec (.controlCoreCacheError h true .clean) s = .next t ∧ (win t (8 + h.num)).sts.getLsbD 1) ∧
        (∃ t, exec (.controlCoreCacheError h false .transient) s = .next t ∧ (win t (8 + h.num)).sts.getLsbD 2 ∧
          (mon t h).cpFailed = (mon s h).cpFailed) ∧
        (∃ t, exec (.controlCoreCacheError h false .lasting) s = .next t ∧ (win t (8 + h.num)).sts.getLsbD 3 ∧
          (mon t h).cpFailed = true ∧ (mon t h).live = false)) ∧
      ((win s 6).armed = false →
        (∃ t, exec (.bridgeMainbandError h true) s = .next t ∧ (win t 6).sts.getLsbD 1 ∧ t.brRetrain = s.brRetrain) ∧
        exec (.bridgeMainbandError h false) s = .next { s with brRetrain := true }) ∧
      (s.brRetrain = true →
        (∃ t, exec (.bridgeRetrainDone h true) s = .next t ∧ t.brRetrain = false ∧ (win t 6).sts.getLsbD 2 ∧
          t.crown.safe = s.crown.safe) ∧
        (∃ t, exec (.bridgeRetrainDone h false) s = .next t ∧ t.brRetrain = false ∧ (win t 6).sts.getLsbD 3 ∧
          t.crown.safe = true)))

/-- Heartbeats, silence and liveness (R423-R425): sent with both numbers raised; received, the path is not silent; a
path silent 4 ms; a liveness write keeps the complex live; 2 ms without one and it has failed. -/
def Obligations.HeartbeatsAndLiveness : Prop :=
  ∀ (s : State) (h : Half), s.power.rails = true →
    ((h ≠ s.crown.holder ∨ ((mon s h).live = true ∧ (mon s h).halted = false)) →
      ∃ t, exec (.heartbeatSend h) s = .next t ∧ Only [.crown] s t ∧ (mon t h).seq1 = ((mon s h).seq1 + 1) % 65536 ∧
        (mon t h).seq2 = ((mon s h).seq2 + 1) % 65536) ∧
    (∀ hb : Heartbeat, hb.crcOk = true → (mon s h.other).own = 0 →
      (∃ t, exec (.heartbeatArrive h false false hb) s = .next t ∧ Only [.crown] s t ∧
        (mon t h.other).rx1 = some s.time.clk ∧ (mon t h.other).sil1 = false) ∧
      (∃ t, exec (.heartbeatArrive h true false hb) s = .next t ∧ Only [.crown] s t ∧
        (mon t h.other).rx2 = some s.time.clk ∧ (mon t h.other).sil2 = false) ∧
      (h = s.crown.holder → exec (.heartbeatArrive h false true hb) s =
        .next (modCrown (fun c => { c with supRx := some s.time.clk }) s)) ∧
      (h ≠ s.crown.holder → exec (.heartbeatArrive h false true hb) s =
        .next (modCrown (fun c => { c with supStandby := hb.standby % 4 }) s))) ∧
    ((mon s h).sil2 = false → ∃ t, exec (.pathSilent h false) s = .next t ∧ (mon t h).sil1 = true ∧ Only [.time, .crown] s t) ∧
    ((mon s h).halted = false → (mon s h).cpFailed = false →
      ∃ t, exec (.livenessWrite h) s = .next t ∧ (mon t h).lastWrite = s.time.clk ∧ (mon t h).live = true ∧
        (mon t h).failedAt = none ∧ (h ≠ s.crown.holder ∨ serving s = true → Only [.crown] s t)) ∧
    ((mon s h).live = true → (mon s h).halted = false → s.crown.activating = none → s.power.v52 = true →
      (mon s h).lastWrite + 200000 ≥ s.time.clk → s.crown.takeover = false →
      ∃ t, exec (.livenessExpire h) s = .next t ∧ (mon t h).live = false ∧
        (mon t h).failedAt = some ((mon s h).lastWrite + 200000) ∧ (win t (8 + h.num)).sts.getLsbD 4)

/-- The vote (R425-R427, R437, R441): a failed holder asks after 4 ms, the standby again after 1 s; the ballots count as they
were latched with the request (R427); two ballots for the holder leave the crown; two for the other half move it with a new claim; neither is INCONCLUSIVE, repeated after 4
ms and ended by the safe state after 200 ms. -/
def Obligations.VotesDecide : Prop :=
  ∀ s : State, s.power.v52 = true → s.crown.safe = false → s.crown.takeover = false → s.crown.supFail = false →
    (∀ a, (mon s s.crown.holder).failedAt = some a → s.crown.req = none →
      ∃ t, exec .holderFailedVoteRequest s = .next t ∧ t.crown.req = some s.crown.holder ∧
        t.crown.reqAt = max s.time.clk (a + 400000) ∧ t.crown.latch = some (latchNow t) ∧
        ((mon s s.crown.holder).live = false → monBallot t s.crown.holder = ballot s.crown.holder.other)) ∧
    (∀ a, s.crown.votedAt = some a → deaf s s.crown.holder.other = true → (mon s s.crown.holder.other).standby = 0 →
      s.crown.req = none → ∃ t, exec .voteRequestRetry s = .next t ∧ t.crown.req = some s.crown.holder.other) ∧
    (∀ q silent verified, s.crown.req = some q →
      let l := s.crown.latch.getD (latchNow s)
      let a := if silent.1 then 0 else l.a
      let b := if silent.2.1 then 0 else l.b
      let c := if silent.2.2 then 0 else l.c
      let votes (x : Nat) : Nat := ([a, b, c].filter (fun v => v = x)).length
      ∃ t, exec (.voteTally silent verified) s = .next t ∧ t.crown.last.ballotA = a ∧ t.crown.last.ballotB = b ∧
        t.crown.last.ballotC = c ∧ t.crown.last.requester = q ∧ t.crown.tallyAt = s.time.clk ∧
        (2 ≤ votes (ballot s.crown.holder) → t.crown.last.outcome = 1 ∧ t.crown.req = none ∧
          t.crown.claim = s.crown.claim ∧ t.crown.holder = s.crown.holder) ∧
        (2 ≤ votes (ballot s.crown.holder.other) → t.crown.last.outcome = 2 ∧ t.crown.holder = s.crown.holder.other ∧
          t.crown.claim = (s.crown.claim + 1) % 2 ^ 32 ∧ t.crown.takeover = true ∧ t.crown.portA = false ∧
          t.crown.portB = false) ∧
        (votes (ballot s.crown.holder) < 2 → votes (ballot s.crown.holder.other) < 2 → t.crown.last.outcome = 3 ∧
          t.crown.req = some q ∧ t.crown.claim = s.crown.claim ∧ (win t 2).sts.getLsbD 12)) ∧
    (∀ q silent verified, s.crown.req = some q → s.crown.last.outcome = 3 →
      exec (.voteRepeat silent verified) s = .next (runVote silent verified (waitUntil (s.crown.tallyAt + 400000) s))) ∧
    (∀ q, s.crown.req = some q → s.crown.last.outcome = 3 → s.crown.reqAt ≤ s.crown.tallyAt →
      ∃ t, exec .inconclusiveTimeout s = .next t ∧ t.crown.safe = true)

/-- Stages (R418-R422): a floor message raises FLOOR and never lowers it; a stage that hears none for 8 ms lapses; a
write is accepted at the floor, and rejected and counted otherwise. -/
def Obligations.StagesGateWrites : Prop :=
  ∀ s : State,
    let st (u : State) (i : Nat) : Stage := FMap.get {} u.crown.stages i
    (∀ (i : Fin 6) (c : Nat), c < 2 ^ 32 → ∃ t, exec (.floorMessage i c true) s = .next t ∧ Only [.crown] s t ∧
      (st t i.val).floor = max (st s i.val).floor c ∧ (st t i.val).lapsed = false ∧ (st t i.val).seenAt = s.time.clk) ∧
    (∃ t, exec .floorBroadcast s = .next t ∧ Only [.crown] s t ∧ t.crown.claim = s.crown.claim ∧
      ∀ i < 6, (st t i).floor = max (st s i).floor s.crown.claim ∧ (st t i).lapsed = false) ∧
    (∀ i : Fin 6, ∃ t, exec (.stageLapse i) s = .next t ∧ Only [.time, .crown] s t ∧ (st t i.val).lapsed = true ∧
      (st t i.val).floor = (st s i.val).floor) ∧
    (∀ (h : Half) (c : Nat), (st s 1).lapsed = false → (st s 1).floor = c →
      ∃ t, exec (.stageWrite h 1 c true) s = .next t ∧ t.cxlA.enabled = true ∧ Only [.cxlA] s t) ∧
    (∀ (h : Half) (i : Fin 6) (c : Nat) (e : Bool), ((st s i.val).lapsed = true ∨ c ≠ (st s i.val).floor) →
      ∃ t, exec (.stageWrite h i c e) s = .next t ∧ (st t i.val).rejects = (st s i.val).rejects + 1 ∧
        (win t 2).sts.getLsbD 10 ∧ t.cxlA = s.cxlA ∧ t.cxlB = s.cxlB)

/-- Takeover (R431-R434, R437): the new holder's cores run and the configuration stops are gone; CROWN_PORT moves to
its port; 200 ms without completion lead to the safe state. Checkpoints, repair and the supervisor's end (R429, R430,
R435, R439): a snapshot every 10 ms in the other slot; the standby verifies it; readiness lapses; a half is brought
back after 100 ms of heartbeats; without a supervisor the module shuts down. -/
def Obligations.TakeoversAndCheckpoints : Prop :=
  (∀ s : State, s.crown.takeover = true → s.crown.safe = false →
      (s.crown.restored = false → (stageOf s (1 + s.crown.holder.other.num)).floor ≤ s.crown.claim →
        ∃ t, exec (.takeoverRestore true) s = .next t ∧ t.crown.restored = true ∧
        (mon t s.crown.holder).halted = false ∧ (mon t s.crown.holder).live = true ∧ t.fw.stopped = []) ∧
      (s.crown.restored = true → s.time.clk ≤ s.crown.takeAt + 20000000 →
        ∃ t, exec .takeoverComplete s = .next t ∧ t.crown.takeover = false ∧ t.crown.portA = decide (s.crown.holder = .a) ∧
          t.crown.portB = decide (s.crown.holder = .b) ∧ t.crown.standby = 2 ∧ t.crown.lastTakeRt = s.time.sup ∧
          (win t 2).sts.getLsbD 8 ∧ t.mbx.held = []) ∧
      (∃ t, exec .takeoverTimeout s = .next t ∧ t.crown.safe = true ∧ t.crown.takeover = false)) ∧
  (∀ s : State, s.power.rails = true → s.power.v52 = true →
      ((mon s s.crown.holder).live = true → (mon s s.crown.holder).halted = false → s.crown.takeover = false →
        s.crown.supFail = false → s.crown.ckptSlot ≤ 1 →
        ∃ t, exec .checkpointSnapshot s = .next t ∧ t.crown.ckptSeq = (s.crown.ckptSeq + 1) % 2 ^ 32 ∧
          t.crown.ckptSlot = 1 - s.crown.ckptSlot ∧ t.crown.ckptSlot ≠ s.crown.ckptSlot ∧ t.crown.journal = 0 ∧
          t.crown.ckptAt = t.time.clk ∧ Only [.time, .crown] s t) ∧
      (∀ ok, s.crown.ckptSeq ≠ 0 → ∃ t, exec (.standbyCommitCheck ok) s = .next t ∧ Only [.crown] s t ∧
        (mon t s.crown.holder.other).verified = ok ∧ (ok = false → (mon t s.crown.holder.other).standby ≠ 0)) ∧
      ((mon s s.crown.holder.other).standby = 0 →
        ∃ t, exec .standbyReadyLapse s = .next t ∧ (mon t s.crown.holder.other).standby ≠ 0 ∧ Only [.time, .crown] s t) ∧
      (∀ a, (mon s s.crown.holder.other).beatsFrom = some a → serving s = true → s.crown.resync = false →
        (mon s s.crown.holder.other).standby = 2 → s.crown.resyncAt = none → deaf s s.crown.holder = false →
        ∃ t, exec .resyncStart s = .next t ∧ t.crown.resync = true ∧ t.crown.resyncAt = some (max s.time.clk (a + 10000000)) ∧
          (mon t s.crown.holder.other).halted = true ∧ Only [.time, .crown] s t) ∧
      (s.crown.supFail = false → ∃ t, exec .supervisorFailure s = .next t ∧ t.crown.supFail = true ∧ t.crown.req = none ∧
        t.led.running = false ∧ t.power.shutdown = some s.time.clk))

/-- Reports and reconciliation (R28, R469, R470): a half's report is kept for its frame; a frame with both reports is
reconciled with its energy counted, one without is held; a late half is marked; after 100 held frames their energy is
the house's. Sheets (R481): the open sheet closes 10,000,000 ticks after its first receipt; the oldest closed sheet
takes its signature block. -/
def Obligations.LedgerFramesAndSheets : Prop :=
  (∀ s : State, s.led.running = true →
      (∀ (h : Half) (f : Nat) (rows : List ActivityRow), s.led.spanFrom ≤ f → s.led.tileEv = [] →
        ∃ t, exec (.activityReport h f rows) s = .next t ∧ Only [.led] s t ∧ reportOf t h f = some ⟨h, f, rows⟩) ∧
      (∀ e v, s.led.shut = none → ∃ t, exec (.frameReconcile e v) s = .next t ∧ t.led.input = s.led.input + e ∧
        t.led.nextFrame = s.led.nextFrame + 1 ∧
        ((reportOf s .a s.led.nextFrame).isSome → (reportOf s .b s.led.nextFrame).isSome →
          t.led.spanE = 0 ∧ t.led.spanFrom = s.led.nextFrame + 1) ∧
        ((reportOf s .a s.led.nextFrame).isNone → s.led.nextFrame < s.led.spanFrom + 100 → s.power.off = false →
          s.power.shutdown = none → t.led.spanE = s.led.spanE + e ∧ t.led.spanFrom = s.led.spanFrom)) ∧
      (∀ h : Half, reportOf s h s.led.nextFrame = none → s.led.lateA = false → s.led.lateB = false →
        ∃ t, exec (.reportLate h) s = .next t ∧ (match h with | .a => t.led.lateA | .b => t.led.lateB) = true ∧
          (win t 4).sts.getLsbD 4 ∧ Only [.time, .led, .win, .ctr, .mbx] s t) ∧
      (s.led.spanFrom + 100 ≤ s.led.nextFrame → ∃ t, exec .ledgerGapExpire s = .next t ∧ t.led.spanE = 0 ∧
        t.led.spanFrom = s.led.nextFrame ∧ t.led.nextFrame = s.led.nextFrame ∧ (win t 4).sts.getLsbD 5)) ∧
  (∀ s : State,
      (∀ x : Sheet, s.led.sheet = some x → ∃ t, exec .sheetCloseTimeout s = .next t ∧ Only [.time, .led] s t ∧
        t.led.sheet = none ∧ ∃ y, t.led.sheets = y :: s.led.sheets ∧ y.seq = x.seq ∧ y.shut = false ∧
          y.closeRt = t.time.sup ∧ y.full = decide (x.count = 256)) ∧
      (∀ x : Sheet, s.led.sheets = [x] → x.block = [] → ∃ t, exec .sheetSigned s = .next t ∧ Only [.led] s t ∧
        t.led.sheets = [{ x with block := sheetBlock s x }] ∧ t.led.lastSheet = x.seq))

/-- Activation of firmware (R557-R560): at its tick a tile slot comes into force for free clusters, and a control slot
starts the pause, or is refused without a ready standby; the standby goes on with the new image; 300 ms end a pause
that failed. -/
def Obligations.FirmwareIsActivated : Prop :=
  ∀ s : State,
    (∀ x : Dispatch, takeDispatch 2 s = some (x, { s with sched := { s.sched with out := [] } }) →
      let slot := fld x.arg 7 0
      let d := { s.start.dir with pendRt := 0 }
      slot ≤ 1 → slotVer d slot = fld x.arg 63 32 →
      (partsChanged d slot (fld x.arg 15 8) = (false, true) → ∃ t, exec .fwActivateExecute s = .next t ∧
        t.fw.tileVer = slotTile { d with tileSlot := slot } slot ∧ t.start.dir.tileSlot = slot ∧ t.start.actResult = 1 ∧
        t.fw.pending = none ∧ t.crown.activating = s.crown.activating) ∧
      (partsChanged d slot (fld x.arg 15 8) = (true, false) → s.crown.standby = 0 →
        ∃ t, exec .fwActivateExecute s = .next t ∧ t.crown.activating = some s.time.clk ∧ t.fw.actSlot = slot ∧
          t.fw.actFail = false) ∧
      (partsChanged d slot (fld x.arg 15 8) = (true, false) → s.crown.standby ≠ 0 →
        ∃ t, exec .fwActivateExecute s = .next t ∧ t.start.actResult = 2 ∧ t.crown.activating = s.crown.activating)) ∧
    (∀ a, s.crown.activating = some a → s.time.clk ≤ a + 30000000 → (mon s s.crown.holder).live = true →
      s.fw.actFail = false →
      ∃ t, exec .controlActivationResume s = .next t ∧ t.crown.activating = none ∧ t.start.dir.ctrlSlot = s.fw.actSlot ∧
        t.start.actResult = 1 ∧ t.crown.resync = true ∧ (mon t s.crown.holder.other).halted = true ∧
        t.crown.holder = s.crown.holder) ∧
    (∀ a, s.crown.activating = some a → s.fw.actFail = false →
      ∃ t, exec .activationTimeout s = .next t ∧ t.fw.actFail = true ∧ t.start.actResult = 3)

/-- Trace (R566-R569): branch outcomes are gathered, oldest first; an indirect branch is an INDIRECT record and a frame
start a SYNC record, in order; a core that lost records is told in a CRUMB with its SYNC. -/
def Obligations.TraceIsWritten : Prop :=
  ∀ (s : State) (h : Half) (c : Fin 4), (tr s h).capture = true → (mon s h).halted = false →
    (∀ taken, nth (tr s h).bcnt c.val < 111 → (tr s h).bcnt.length = 4 → (tr s h).bmap.length = 4 →
      ∃ t, exec (.traceRecord h c (.branch taken)) s = .next t ∧ nth (tr t h).bcnt c.val = nth (tr s h).bcnt c.val + 1 ∧
        nth (tr t h).bmap c.val = nth (tr s h).bmap c.val + b2n taken * 2 ^ nth (tr s h).bcnt c.val ∧
        Only [.trA, .trB] s t) ∧
    (∀ pc, nth (tr s h).bcnt c.val = 0 → (tr s h).lost = [false, false, false, false] → (tr s h).fifo.length < 4091 →
      (tr s h).ringMib = 0 →
      (∃ t, exec (.traceRecord h c (.frameSync pc)) s = .next t ∧
        (tr t h).fifo = (tr s h).fifo ++ [1 + 32 * c.val + 2 ^ 7 * (pc / 2 % 2 ^ 57) + 2 ^ 64 * cnt s h]) ∧
      (nth (tr s h).sinceSync c.val < 255 → (tr s h).sinceSync.length = 4 →
        ∃ t, exec (.traceRecord h c (.indirect pc)) s = .next t ∧ Only [.trA, .trB] s t ∧
          (tr t h).fifo = (tr s h).fifo ++ [3 + 32 * c.val + 2 ^ 7 * (pc / 2 % 2 ^ 57) + 2 ^ 64 * (cnt s h % 2 ^ 32)])) ∧
    (∀ pcs, (tr s h).lost = [true, false, false, false] → (tr s h).fifo = [] → (tr s h).ringMib = 0 →
      ∃ t, exec (.traceCrumb h pcs) s = .next t ∧ (tr t h).lost = [false, false, false, false] ∧ (tr t h).dropped = 0 ∧
        (tr t h).fifo = [5 + 2 ^ 8 + 2 ^ 32 * min (tr s h).dropped 0xFFFFFFFF + 2 ^ 64 * cnt s h,
          1 + 2 ^ 7 * (pcs.getD 0 0 / 2 % 2 ^ 57) + 2 ^ 64 * cnt s h] ∧
        ctr t (8 + h.num) 34 = (ctr s (8 + h.num) 34 + 1) % 2 ^ 64)

/-- The management endpoint (R594-R596, R599, R603): its addresses, its versions and types, status, links, the locate
LED, ledger reads, the event receiver, and events that are accepted, repeated and dropped. -/
def Obligations.ManagementAnswers : Prop :=
  ∀ s : State, mgmtUp s = true →
    (∀ a : BitVec 7, let r := natLe 6 (0x4B1 * 2 ^ 33 + 2 ^ 32 + s.ident.serial % 2 ^ 32)
      exec (.entdaa a) s = .next { s with mgmt := { s.mgmt with dynAddr := a.toNat, resp := r } }) ∧
    (∀ e : BitVec 8, e ≠ 0 → e ≠ 255 → ∃ t, exec (.setEndpointId e) s = .next t ∧ t.mgmt.eid = e.toNat ∧ Only [.mgmt] s t) ∧
    (exec .getEndpointId s = .next (reply 0 (natLe 1 s.mgmt.eid) s)) ∧
    (∃ v t, exec .getMctpVersionSupport s = .next (reply 0 (natLe 1 1 ++ natLe 4 v) t) ∧ Only [.free] s t) ∧
    (exec .getMessageTypeSupport s = .next (reply 0 [3, 0, 1, 5] s)) ∧
    (exec .getStatus s = .next (reply 0 (natLe 4 (mbState s s.crown.holder) ++ natLe 4 (startSts s) ++
      natLe 4 (stsOf s 2).toNat ++ natLe 4 (stsOf s 3).toNat ++ natLe 4 (stsOf s 4).toNat ++ natLe 4 (stsOf s 5).toNat ++
      natLe 8 s.start.readyRt ++ natLe 4 s.crown.claim) s)) ∧
    (exec .getLinks s = .next (reply 0 ((List.range 64).flatMap (fun p => natLe 8 (portState s p))) s)) ∧
    (∀ on, exec (.locate on) s = .next (reply 0 [] { s with pins := { s.pins with locateOn := on } })) ∧
    (∀ b, exec (.locateNChange b) s = .next { s with pins := { s.pins with locateN := b } }) ∧
    (∀ kind f max d r u, (kind = 1 ∨ kind = 2) → 0 < max → max ≤ 30 → ledgerRead kind f max none s = (stOk, d, r, u) →
      exec (.pldmLedgerRead kind f max) s = .next (reply 0 r u)) ∧
    (∀ e : BitVec 8, ∃ t, exec (.setEventReceiver e) s = .next t ∧ t.mgmt.receiver = some e.toNat ∧ Only [.mgmt] s t) ∧
    (∀ x e r, s.mgmt.receiver = some x → s.mgmt.events = e :: r →
      (exec (.platformEventRetry true) s = .next { s with mgmt := { s.mgmt with events := r } }) ∧
      (e.tried = false → ∃ t, exec (.platformEventRetry false) s = .next t ∧ Only [.time, .mgmt] s t ∧
        t.mgmt.events = { e with tried := true } :: r) ∧
      (e.tried = true → ∃ t, exec (.platformEventRetry false) s = .next t ∧ Only [.time, .mgmt, .ctr] s t ∧
        t.mgmt.events = r ∧ ctr t 5 40 = satAdd 32 (ctr s 5 40) 1))

/-- SPDM and the update (R600-R602): the requests in their order, certificates, a challenge and measurements; a
package passes to the crown's staging, and its slot is activated. The order and the codes are log entry 13's. -/
def Obligations.SecurityRequests : Prop :=
  ∀ s : State, mgmtUp s = true →
    (∃ t, exec .getVersion s = .next t ∧ t.mgmt.spdm = 1 ∧ Only [.mgmt] s t) ∧
    (1 ≤ s.mgmt.spdm → ∃ t, exec .getCapabilities s = .next t ∧ t.mgmt.spdm = max s.mgmt.spdm 2 ∧ Only [.mgmt] s t) ∧
    (2 ≤ s.mgmt.spdm → ∃ t, exec .negotiateAlgorithms s = .next t ∧ t.mgmt.spdm = 3 ∧ Only [.mgmt] s t) ∧
    (3 ≤ s.mgmt.spdm →
      (exec .getDigests s = .next (reply 0 (natLe 1 1 ++ hashBytes (Config.sm3 Config.certChain)) s)) ∧
      (∀ off len, off ≤ Config.certChain.length → let p := (Config.certChain.drop off).take len
        exec (.getCertificate 0 off len) s = .next (reply 0 (natLe 2 p.length ++
          natLe 2 (Config.certChain.length - off - p.length) ++ p) s)) ∧
      (∀ n : BitVec 256, let r := hashBytes (Config.sm3 Config.certChain)
        exec (.challenge 0 n) s = .next (reply 0 (r ++ idSign (hashBytes n ++ r)) s)) ∧
      (∀ i n r, measureBytes s i = some r →
        exec (.getMeasurements i false n) s = .next (reply 0 r s) ∧
        exec (.getMeasurements i true n) s = .next (reply 0 (r ++ idSign (hashBytes n ++ r)) s))) ∧
    (∀ c pkg area slot dir, s.start.phase ≠ 7 → serving s = true → stageOpen s 5 = true →
      exec (.requestUpdate c pkg area slot dir) s =
        .next (reply (stagePldm c pkg area slot dir s).1 [] (stagePldm c pkg area slot dir s).2)) ∧
    (∀ u, s.start.phase = 6 → serving s = true → s.start.dir.staged ≠ 0 →
      (∃ rsp, activate (s.start.dir.staged - 1) 2 0 s = okRep rsp u) →
      ∃ t, exec .activateFirmware s = .next t ∧ t.mgmt.update = 0 ∧ t.fw.pending = u.fw.pending ∧ t.sched = u.sched)

end
end

