-- ==== Sys2Proof/Laws/Frame.lean ====
section
/-!
SUPPORT. Frames: how "only these zones changed" composes over updates, cases, folds and commands.
-/
set_option linter.unusedTactic false
set_option linter.unreachableTactic false
set_option linter.tactic.unusedName false
namespace Sys2Proof
open Machine

/-- The zones of one list are among those of another. -/
def Zone.sub (qs ps : List Zone) : Bool := qs.all (fun q => decide (q ∈ ps))

theorem Only.refl (ps : List Zone) (s : State) : Only ps s s := by
  intro p _; cases p <;> simp [Zone.same]

theorem same_trans {p : Zone} {s t u : State} (h : p.same s t) (k : p.same t u) : p.same s u := by
  cases p <;> simp_all [Zone.same]

theorem Only.step {ps qs : List Zone} {s0 s t : State} (k : Only qs s t) (h : Only ps s0 s)
    (hs : Zone.sub qs ps = true) : Only ps s0 t := by
  intro p hp
  refine same_trans (h p hp) (k p ?_)
  intro hq; simp [Zone.sub] at hs; exact hp (hs p hq)

theorem Only.sub {ps qs : List Zone} {s t : State} (h : Only qs s t) (hs : Zone.sub qs ps = true) : Only ps s t :=
  Only.step h (Only.refl _ _) hs

theorem Only.trans {ps : List Zone} {s0 s t : State} (h : Only ps s0 s) (k : Only ps s t) : Only ps s0 t :=
  fun p hp => same_trans (h p hp) (k p hp)

theorem Only.foldl {α : Type} {ps : List Zone} {s0 s : State} {f : State → α → State} {l : List α}
    (h : Only ps s0 s) (k : ∀ s x, Only ps s (f s x)) : Only ps s0 (l.foldl f s) := by
  induction l generalizing s with
  | nil => exact h
  | cons x r ih => exact ih (h.trans (k s x))

theorem Only.cut {ps : List Zone} {s0 t : State} (x : State) (h : Only ps s0 x) (k : Only ps s0 x → Only ps s0 t) :
    Only ps s0 t := k h

theorem Only.ite {ps : List Zone} {s0 a b : State} {c : Prop} [Decidable c] (h : c → Only ps s0 a)
    (k : ¬ c → Only ps s0 b) : Only ps s0 (if c then a else b) := by
  split
  · exact h ‹_›
  · exact k ‹_›

theorem Only.ofFst {α : Type} {ps : List Zone} {s0 s : State} {e : State × α} {q : α} (h : e = (s, q))
    (k : Only ps s0 e.1) : Only ps s0 s := by subst h; exact k

theorem Only.ofSnd {α : Type} {ps : List Zone} {s0 s : State} {e : α × State} {q : α} (h : e = (q, s))
    (k : Only ps s0 e.2) : Only ps s0 s := by subst h; exact k

theorem Only.upd {ps : List Zone} {s0 s : State} {a1 a2 a3 a4 a5 a6 a7 a8 a9 a10 a11 a12 a13 a14 a15 a16 a17 a18 a19 a20
    a21 a22 a23 a24 a25 a26} (h : Only ps s0 s)
    (k : Only ps s ⟨s.pending, a1, a2, a3, a4, a5, a6, a7, a8, a9, a10, a11, a12, a13, a14, a15, a16, a17, a18, a19, a20, a21,
    a22, a23, a24, a25, a26⟩) : Only ps s0 ⟨s.pending, a1, a2, a3, a4, a5, a6, a7, a8, a9, a10, a11, a12, a13, a14, a15, a16, a17, a18, a19, a20, a21,
    a22, a23, a24, a25, a26⟩ := h.trans k

theorem Runs.next {ps : List Zone} {s t : State} (h : Only ps s t) : Runs ps s (.next t) := ⟨t, rfl, h⟩

theorem Only.onlyIf {ps : List Zone} {s0 s : State} {p : Bool} {f : State → State} (h : Only ps s0 s)
    (k : Only ps s0 (f s)) : Only ps s0 (Machine.onlyIf p f s) := by
  unfold Machine.onlyIf; split
  · exact k
  · exact h

/-- The state that a firmware body leaves. -/
def repState : Rep → State
  | .ans _ _ _ s => s
  | .stay _ s => s

theorem repState_ans (a b : Nat) (l : List Byte) (s : State) : repState (.ans a b l s) = s := rfl
theorem repState_stay (r : RunCmd) (s : State) : repState (.stay r s) = s := rfl
theorem repState_badArg (a : Nat) (s : State) : repState (badArg a s) = s := rfl
theorem repState_refuse (a b : Nat) (s : State) : repState (refuse a b s) = s := rfl
theorem repState_okRep (l : List Byte) (s : State) : repState (okRep l s) = s := rfl

end Sys2Proof
end

