-- ==== Sys2Proof/Laws/FrameOps.lean ====
section
/-!
SUPPORT. The frame of every shared operation: the zones of the state that it can change.
-/
set_option linter.unusedTactic false
set_option linter.unreachableTactic false
set_option linter.tactic.unusedName false
set_option linter.unusedVariables false
set_option linter.unusedSimpArgs false
namespace Sys2Proof
open Machine
theorem setCtx_only (a0 : Nat) (a1 : Option Machine.Ctx) (s : State) :
    Only [.work] s (setCtx a0 a1 s) := by
  unfold setCtx
  repeat' first
    | with_reducible exact Only.refl _ _
    | with_reducible assumption
    | ((fail_if_no_progress extract_lets +onlyGivenNames x); try (refine Only.cut x ?_ ?_; rotate_left; intro _; clear_value x; rotate_left; unfold x))
    | with_reducible apply Only.foldl
    | with_reducible apply Only.ite
    | with_reducible intro _
    | rfl
    | (fail_if_no_progress (with_reducible apply Only.upd); rotate_left; (intro p hp; cases p <;> first | rfl | exact ⟨rfl, rfl⟩ | exact ⟨rfl, rfl, rfl⟩ | exact absurd (by decide) hp))
    | split

theorem modCtx_only (a0 : Nat) (a1 : Machine.Ctx → Machine.Ctx) (s : State) :
    Only [.work] s (modCtx a0 a1 s) := by
  unfold modCtx
  repeat' first
    | with_reducible exact Only.refl _ _
    | with_reducible assumption
    | ((fail_if_no_progress extract_lets +onlyGivenNames x); try (refine Only.cut x ?_ ?_; rotate_left; intro _; clear_value x; rotate_left; unfold x))
    | with_reducible apply Only.foldl
    | with_reducible apply Only.ite
    | with_reducible apply Only.step (setCtx_only _ _ _)
    | with_reducible intro _
    | rfl
    | split

theorem modLaunch_only (a0 : Nat) (a1 : Nat) (a2 : Machine.Launch → Machine.Launch) (s : State) :
    Only [.work] s (modLaunch a0 a1 a2 s) := by
  unfold modLaunch
  repeat' first
    | with_reducible exact Only.refl _ _
    | with_reducible assumption
    | ((fail_if_no_progress extract_lets +onlyGivenNames x); try (refine Only.cut x ?_ ?_; rotate_left; intro _; clear_value x; rotate_left; unfold x))
    | with_reducible apply Only.foldl
    | with_reducible apply Only.ite
    | with_reducible apply Only.step (modCtx_only _ _ _)
    | with_reducible intro _
    | rfl
    | split

theorem setPart_only (a0 : Nat) (a1 : Option Machine.Part) (s : State) :
    Only [.work] s (setPart a0 a1 s) := by
  unfold setPart
  repeat' first
    | with_reducible exact Only.refl _ _
    | with_reducible assumption
    | ((fail_if_no_progress extract_lets +onlyGivenNames x); try (refine Only.cut x ?_ ?_; rotate_left; intro _; clear_value x; rotate_left; unfold x))
    | with_reducible apply Only.foldl
    | with_reducible apply Only.ite
    | with_reducible intro _
    | rfl
    | (fail_if_no_progress (with_reducible apply Only.upd); rotate_left; (intro p hp; cases p <;> first | rfl | exact ⟨rfl, rfl⟩ | exact ⟨rfl, rfl, rfl⟩ | exact absurd (by decide) hp))
    | split

theorem modPart_only (a0 : Nat) (a1 : Machine.Part → Machine.Part) (s : State) :
    Only [.work] s (modPart a0 a1 s) := by
  unfold modPart
  repeat' first
    | with_reducible exact Only.refl _ _
    | with_reducible assumption
    | ((fail_if_no_progress extract_lets +onlyGivenNames x); try (refine Only.cut x ?_ ?_; rotate_left; intro _; clear_value x; rotate_left; unfold x))
    | with_reducible apply Only.foldl
    | with_reducible apply Only.ite
    | with_reducible apply Only.step (setPart_only _ _ _)
    | with_reducible intro _
    | rfl
    | split

theorem raiseVec_only (a0 : Sys2Proof.Half) (a1 : Nat) (s : State) :
    Only [.mbx] s (raiseVec a0 a1 s) := by
  unfold raiseVec
  repeat' first
    | with_reducible exact Only.refl _ _
    | with_reducible assumption
    | ((fail_if_no_progress extract_lets +onlyGivenNames x); try (refine Only.cut x ?_ ?_; rotate_left; intro _; clear_value x; rotate_left; unfold x))
    | with_reducible apply Only.foldl
    | with_reducible apply Only.ite
    | with_reducible intro _
    | rfl
    | (fail_if_no_progress (with_reducible apply Only.upd); rotate_left; (intro p hp; cases p <;> first | rfl | exact ⟨rfl, rfl⟩ | exact ⟨rfl, rfl, rfl⟩ | exact absurd (by decide) hp))
    | split

theorem msix_only (a0 : Sys2Proof.Half) (a1 : Nat) (s : State) :
    Only [.mbx] s (msix a0 a1 s) := by
  unfold msix
  repeat' first
    | with_reducible exact Only.refl _ _
    | with_reducible assumption
    | ((fail_if_no_progress extract_lets +onlyGivenNames x); try (refine Only.cut x ?_ ?_; rotate_left; intro _; clear_value x; rotate_left; unfold x))
    | with_reducible apply Only.foldl
    | with_reducible apply Only.ite
    | with_reducible apply Only.step (raiseVec_only _ _ _)
    | with_reducible intro _
    | rfl
    | (fail_if_no_progress (with_reducible apply Only.upd); rotate_left; (intro p hp; cases p <;> first | rfl | exact ⟨rfl, rfl⟩ | exact ⟨rfl, rfl, rfl⟩ | exact absurd (by decide) hp))
    | split

theorem setPage_only (a0 : Nat) (a1 : Machine.Page) (s : State) :
    Only [.mbx] s (setPage a0 a1 s) := by
  unfold setPage
  repeat' first
    | with_reducible exact Only.refl _ _
    | with_reducible assumption
    | ((fail_if_no_progress extract_lets +onlyGivenNames x); try (refine Only.cut x ?_ ?_; rotate_left; intro _; clear_value x; rotate_left; unfold x))
    | with_reducible apply Only.foldl
    | with_reducible apply Only.ite
    | with_reducible intro _
    | rfl
    | (fail_if_no_progress (with_reducible apply Only.upd); rotate_left; (intro p hp; cases p <;> first | rfl | exact ⟨rfl, rfl⟩ | exact ⟨rfl, rfl, rfl⟩ | exact absurd (by decide) hp))
    | split

theorem setWatch_only (a0 : Nat) (a1 : Option Nat) (s : State) :
    Only [.mbx] s (setWatch a0 a1 s) := by
  unfold setWatch
  repeat' first
    | with_reducible exact Only.refl _ _
    | with_reducible assumption
    | ((fail_if_no_progress extract_lets +onlyGivenNames x); try (refine Only.cut x ?_ ?_; rotate_left; intro _; clear_value x; rotate_left; unfold x))
    | with_reducible apply Only.foldl
    | with_reducible apply Only.ite
    | with_reducible intro _
    | rfl
    | (fail_if_no_progress (with_reducible apply Only.upd); rotate_left; (intro p hp; cases p <;> first | rfl | exact ⟨rfl, rfl⟩ | exact ⟨rfl, rfl, rfl⟩ | exact absurd (by decide) hp))
    | split

theorem answerPage_only (a0 : Nat) (a1 : Nat) (a2 : Nat) (a3 : List Sys2Proof.Byte) (s : State) :
    Only [.mbx] s (answerPage a0 a1 a2 a3 s) := by
  unfold answerPage
  repeat' first
    | with_reducible exact Only.refl _ _
    | with_reducible assumption
    | ((fail_if_no_progress extract_lets +onlyGivenNames x); try (refine Only.cut x ?_ ?_; rotate_left; intro _; clear_value x; rotate_left; unfold x))
    | with_reducible apply Only.foldl
    | with_reducible apply Only.ite
    | with_reducible apply Only.step (msix_only _ _ _)
    | with_reducible apply Only.step (setPage_only _ _ _)
    | with_reducible apply Only.step (setWatch_only _ _ _)
    | with_reducible intro _
    | rfl
    | split

theorem setRun_only (a0 : Nat) (a1 : Option Machine.RunCmd) (s : State) :
    Only [.mbx] s (setRun a0 a1 s) := by
  unfold setRun
  repeat' first
    | with_reducible exact Only.refl _ _
    | with_reducible assumption
    | ((fail_if_no_progress extract_lets +onlyGivenNames x); try (refine Only.cut x ?_ ?_; rotate_left; intro _; clear_value x; rotate_left; unfold x))
    | with_reducible apply Only.foldl
    | with_reducible apply Only.ite
    | with_reducible intro _
    | rfl
    | (fail_if_no_progress (with_reducible apply Only.upd); rotate_left; (intro p hp; cases p <;> first | rfl | exact ⟨rfl, rfl⟩ | exact ⟨rfl, rfl, rfl⟩ | exact absurd (by decide) hp))
    | split

theorem respond_only (a0 : Nat) (a1 : Nat) (a2 : Nat) (a3 : List Sys2Proof.Byte) (s : State) :
    Only [.mbx] s (respond a0 a1 a2 a3 s) := by
  unfold respond
  repeat' first
    | with_reducible exact Only.refl _ _
    | with_reducible assumption
    | ((fail_if_no_progress extract_lets +onlyGivenNames x); try (refine Only.cut x ?_ ?_; rotate_left; intro _; clear_value x; rotate_left; unfold x))
    | with_reducible apply Only.foldl
    | with_reducible apply Only.ite
    | with_reducible apply Only.step (answerPage_only _ _ _ _ _)
    | with_reducible apply Only.step (setRun_only _ _ _)
    | with_reducible intro _
    | rfl
    | split

theorem modTile_only (a0 : Nat) (a1 : Machine.Tile → Machine.Tile) (s : State) :
    Only [.tiles] s (modTile a0 a1 s) := by
  unfold modTile
  repeat' first
    | with_reducible exact Only.refl _ _
    | with_reducible assumption
    | ((fail_if_no_progress extract_lets +onlyGivenNames x); try (refine Only.cut x ?_ ?_; rotate_left; intro _; clear_value x; rotate_left; unfold x))
    | with_reducible apply Only.foldl
    | with_reducible apply Only.ite
    | with_reducible intro _
    | rfl
    | (fail_if_no_progress (with_reducible apply Only.upd); rotate_left; (intro p hp; cases p <;> first | rfl | exact ⟨rfl, rfl⟩ | exact ⟨rfl, rfl, rfl⟩ | exact absurd (by decide) hp))
    | split

theorem takeTaps_only (a0 : Nat) (a1 : Nat) (s : State) :
    Only [.tiles, .taps] s (takeTaps a0 a1 s) := by
  unfold takeTaps
  repeat' first
    | with_reducible exact Only.refl _ _
    | with_reducible assumption
    | ((fail_if_no_progress extract_lets +onlyGivenNames x); try (refine Only.cut x ?_ ?_; rotate_left; intro _; clear_value x; rotate_left; unfold x))
    | with_reducible apply Only.foldl
    | with_reducible apply Only.ite
    | with_reducible apply Only.step (modTile_only _ _ _)
    | with_reducible intro _
    | rfl
    | (fail_if_no_progress (with_reducible apply Only.upd); rotate_left; (intro p hp; cases p <;> first | rfl | exact ⟨rfl, rfl⟩ | exact ⟨rfl, rfl, rfl⟩ | exact absurd (by decide) hp))
    | split

theorem endLaunch_only (a0 : Nat) (a1 : Nat) (a2 : Nat) (s : State) :
    Only [.mbx, .work, .tiles, .taps] s (endLaunch a0 a1 a2 s) := by
  unfold endLaunch
  repeat' first
    | with_reducible exact Only.refl _ _
    | with_reducible assumption
    | ((fail_if_no_progress extract_lets +onlyGivenNames x); try (refine Only.cut x ?_ ?_; rotate_left; intro _; clear_value x; rotate_left; unfold x))
    | with_reducible apply Only.foldl
    | with_reducible apply Only.ite
    | with_reducible apply Only.step (modLaunch_only _ _ _ _)
    | with_reducible apply Only.step (modPart_only _ _ _)
    | with_reducible apply Only.step (msix_only _ _ _)
    | with_reducible apply Only.step (respond_only _ _ _ _ _)
    | with_reducible apply Only.step (takeTaps_only _ _ _)
    | with_reducible intro _
    | rfl
    | split

theorem setCtr_only (a0 : Nat) (a1 : Nat) (a2 : Nat) (s : State) :
    Only [.ctr] s (setCtr a0 a1 a2 s) := by
  unfold setCtr
  repeat' first
    | with_reducible exact Only.refl _ _
    | with_reducible assumption
    | ((fail_if_no_progress extract_lets +onlyGivenNames x); try (refine Only.cut x ?_ ?_; rotate_left; intro _; clear_value x; rotate_left; unfold x))
    | with_reducible apply Only.foldl
    | with_reducible apply Only.ite
    | with_reducible intro _
    | rfl
    | (fail_if_no_progress (with_reducible apply Only.upd); rotate_left; (intro p hp; cases p <;> first | rfl | exact ⟨rfl, rfl⟩ | exact ⟨rfl, rfl, rfl⟩ | exact absurd (by decide) hp))
    | split

theorem countSat_only (a0 : Nat) (a1 : Nat) (a2 : Nat) (s : State) :
    Only [.ctr] s (countSat a0 a1 a2 s) := by
  unfold countSat
  repeat' first
    | with_reducible exact Only.refl _ _
    | with_reducible assumption
    | ((fail_if_no_progress extract_lets +onlyGivenNames x); try (refine Only.cut x ?_ ?_; rotate_left; intro _; clear_value x; rotate_left; unfold x))
    | with_reducible apply Only.foldl
    | with_reducible apply Only.ite
    | with_reducible apply Only.step (setCtr_only _ _ _ _)
    | with_reducible intro _
    | rfl
    | split

theorem setWin_only (a0 : Nat) (a1 : Machine.Win) (s : State) :
    Only [.win] s (setWin a0 a1 s) := by
  unfold setWin
  repeat' first
    | with_reducible exact Only.refl _ _
    | with_reducible assumption
    | ((fail_if_no_progress extract_lets +onlyGivenNames x); try (refine Only.cut x ?_ ?_; rotate_left; intro _; clear_value x; rotate_left; unfold x))
    | with_reducible apply Only.foldl
    | with_reducible apply Only.ite
    | with_reducible intro _
    | rfl
    | (fail_if_no_progress (with_reducible apply Only.upd); rotate_left; (intro p hp; cases p <;> first | rfl | exact ⟨rfl, rfl⟩ | exact ⟨rfl, rfl, rfl⟩ | exact absurd (by decide) hp))
    | split

theorem eventG_only (a0 : Bool) (a1 : Sys2Proof.Half) (a2 : Nat) (a3 : Nat) (a4 : Nat) (a5 : Nat) (s : State) :
    Only [.mbx, .win, .ctr] s (eventG a0 a1 a2 a3 a4 a5 s) := by
  unfold eventG
  repeat' first
    | with_reducible exact Only.refl _ _
    | with_reducible assumption
    | ((fail_if_no_progress extract_lets +onlyGivenNames x); try (refine Only.cut x ?_ ?_; rotate_left; intro _; clear_value x; rotate_left; unfold x))
    | with_reducible apply Only.foldl
    | with_reducible apply Only.ite
    | with_reducible apply Only.step (countSat_only _ _ _ _)
    | with_reducible apply Only.step (msix_only _ _ _)
    | with_reducible apply Only.step (setWin_only _ _ _)
    | with_reducible intro _
    | rfl
    | split

theorem event_only (a0 : Nat) (a1 : Nat) (a2 : Nat) (a3 : Nat) (s : State) :
    Only [.mbx, .win, .ctr] s (event a0 a1 a2 a3 s) := by
  unfold event
  repeat' first
    | with_reducible exact Only.refl _ _
    | with_reducible assumption
    | ((fail_if_no_progress extract_lets +onlyGivenNames x); try (refine Only.cut x ?_ ?_; rotate_left; intro _; clear_value x; rotate_left; unfold x))
    | with_reducible apply Only.foldl
    | with_reducible apply Only.ite
    | with_reducible apply Only.step (eventG_only _ _ _ _ _ _ _)
    | with_reducible intro _
    | rfl
    | split

theorem count_only (a0 : Nat) (a1 : Nat) (a2 : Nat) (s : State) :
    Only [.ctr] s (count a0 a1 a2 s) := by
  unfold count
  repeat' first
    | with_reducible exact Only.refl _ _
    | with_reducible assumption
    | ((fail_if_no_progress extract_lets +onlyGivenNames x); try (refine Only.cut x ?_ ?_; rotate_left; intro _; clear_value x; rotate_left; unfold x))
    | with_reducible apply Only.foldl
    | with_reducible apply Only.ite
    | with_reducible apply Only.step (setCtr_only _ _ _ _)
    | with_reducible intro _
    | rfl
    | split

theorem disarm_only (a0 : Nat) (s : State) :
    Only [.win] s (disarm a0 s) := by
  unfold disarm
  repeat' first
    | with_reducible exact Only.refl _ _
    | with_reducible assumption
    | ((fail_if_no_progress extract_lets +onlyGivenNames x); try (refine Only.cut x ?_ ?_; rotate_left; intro _; clear_value x; rotate_left; unfold x))
    | with_reducible apply Only.foldl
    | with_reducible apply Only.ite
    | with_reducible apply Only.step (setWin_only _ _ _)
    | with_reducible intro _
    | rfl
    | split

theorem modPort_only (a0 : Nat) (a1 : Machine.Port → Machine.Port) (s : State) :
    Only [.fab] s (modPort a0 a1 s) := by
  unfold modPort
  repeat' first
    | with_reducible exact Only.refl _ _
    | with_reducible assumption
    | ((fail_if_no_progress extract_lets +onlyGivenNames x); try (refine Only.cut x ?_ ?_; rotate_left; intro _; clear_value x; rotate_left; unfold x))
    | with_reducible apply Only.foldl
    | with_reducible apply Only.ite
    | with_reducible intro _
    | rfl
    | (fail_if_no_progress (with_reducible apply Only.upd); rotate_left; (intro p hp; cases p <;> first | rfl | exact ⟨rfl, rfl⟩ | exact ⟨rfl, rfl, rfl⟩ | exact absurd (by decide) hp))
    | split

theorem freeBuf_only (a0 : Nat) (a1 : Sys2Proof.Pkt) (s : State) :
    Only [.fab] s (freeBuf a0 a1 s) := by
  unfold freeBuf
  repeat' first
    | with_reducible exact Only.refl _ _
    | with_reducible assumption
    | ((fail_if_no_progress extract_lets +onlyGivenNames x); try (refine Only.cut x ?_ ?_; rotate_left; intro _; clear_value x; rotate_left; unfold x))
    | with_reducible apply Only.foldl
    | with_reducible apply Only.ite
    | with_reducible apply Only.step (modPort_only _ _ _)
    | with_reducible intro _
    | rfl
    | split

theorem freeIn_only (a0 : Nat) (a1 : Sys2Proof.Pkt) (s : State) :
    Only [.fab] s (freeIn a0 a1 s) := by
  unfold freeIn
  repeat' first
    | with_reducible exact Only.refl _ _
    | with_reducible assumption
    | ((fail_if_no_progress extract_lets +onlyGivenNames x); try (refine Only.cut x ?_ ?_; rotate_left; intro _; clear_value x; rotate_left; unfold x))
    | with_reducible apply Only.foldl
    | with_reducible apply Only.ite
    | with_reducible apply Only.step (freeBuf_only _ _ _)
    | with_reducible intro _
    | rfl
    | split

theorem noteSent_only (a0 : Nat) (a1 : Bool) (a2 : Sys2Proof.Pkt) (s : State) :
    Only [.fab] s (noteSent a0 a1 a2 s) := by
  unfold noteSent
  repeat' first
    | with_reducible exact Only.refl _ _
    | with_reducible assumption
    | ((fail_if_no_progress extract_lets +onlyGivenNames x); try (refine Only.cut x ?_ ?_; rotate_left; intro _; clear_value x; rotate_left; unfold x))
    | with_reducible apply Only.foldl
    | with_reducible apply Only.ite
    | with_reducible intro _
    | rfl
    | (fail_if_no_progress (with_reducible apply Only.upd); rotate_left; (intro p hp; cases p <;> first | rfl | exact ⟨rfl, rfl⟩ | exact ⟨rfl, rfl, rfl⟩ | exact absurd (by decide) hp))
    | split

theorem leave_only (a0 : Nat) (a1 : Nat) (a2 : Sys2Proof.Pkt) (s : State) :
    Only [.win, .ctr, .fab] s (leave a0 a1 a2 s) := by
  unfold leave
  repeat' first
    | with_reducible exact Only.refl _ _
    | with_reducible assumption
    | ((fail_if_no_progress extract_lets +onlyGivenNames x); try (refine Only.cut x ?_ ?_; rotate_left; intro _; clear_value x; rotate_left; unfold x))
    | with_reducible apply Only.foldl
    | with_reducible apply Only.ite
    | with_reducible apply Only.step (count_only _ _ _ _)
    | with_reducible apply Only.step (disarm_only _ _)
    | with_reducible apply Only.step (freeIn_only _ _ _)
    | with_reducible apply Only.step (modPort_only _ _ _)
    | with_reducible apply Only.step (noteSent_only _ _ _ _)
    | with_reducible intro _
    | rfl
    | (fail_if_no_progress (with_reducible apply Only.upd); rotate_left; (intro p hp; cases p <;> first | rfl | exact ⟨rfl, rfl⟩ | exact ⟨rfl, rfl, rfl⟩ | exact absurd (by decide) hp))
    | split

theorem setQueue_only (a0 : Nat) (a1 : List (Nat × Sys2Proof.Pkt)) (s : State) :
    Only [.ctr, .fab] s (setQueue a0 a1 s) := by
  unfold setQueue
  repeat' first
    | with_reducible exact Only.refl _ _
    | with_reducible assumption
    | ((fail_if_no_progress extract_lets +onlyGivenNames x); try (refine Only.cut x ?_ ?_; rotate_left; intro _; clear_value x; rotate_left; unfold x))
    | with_reducible apply Only.foldl
    | with_reducible apply Only.ite
    | with_reducible apply Only.step (modPort_only _ _ _)
    | with_reducible apply Only.step (setCtr_only _ _ _ _)
    | with_reducible intro _
    | rfl
    | split

theorem putOut_only (a0 : Nat) (a1 : Nat) (a2 : Sys2Proof.Pkt) (s : State) :
    Only [.win, .ctr, .fab] s (putOut a0 a1 a2 s) := by
  unfold putOut
  repeat' first
    | with_reducible exact Only.refl _ _
    | with_reducible assumption
    | ((fail_if_no_progress extract_lets +onlyGivenNames x); try (refine Only.cut x ?_ ?_; rotate_left; intro _; clear_value x; rotate_left; unfold x))
    | with_reducible apply Only.foldl
    | with_reducible apply Only.ite
    | with_reducible apply Only.step (leave_only _ _ _ _)
    | with_reducible apply Only.step (noteSent_only _ _ _ _)
    | with_reducible apply Only.step (setQueue_only _ _ _)
    | with_reducible intro _
    | rfl
    | split

theorem sendOn_only (a0 : Nat) (a1 : Sys2Proof.Pkt) (s : State) :
    Only [.win, .ctr, .fab] s (sendOn a0 a1 s) := by
  unfold sendOn
  repeat' first
    | with_reducible exact Only.refl _ _
    | with_reducible assumption
    | ((fail_if_no_progress extract_lets +onlyGivenNames x); try (refine Only.cut x ?_ ?_; rotate_left; intro _; clear_value x; rotate_left; unfold x))
    | with_reducible apply Only.foldl
    | with_reducible apply Only.ite
    | with_reducible apply Only.step (putOut_only _ _ _ _)
    | with_reducible intro _
    | rfl
    | split

theorem abortSend_only (a0 : Machine.Part) (a1 : Nat) (a2 : Nat) (s : State) :
    Only [.mbx, .win, .ctr, .fab] s (abortSend a0 a1 a2 s) := by
  unfold abortSend
  repeat' first
    | with_reducible exact Only.refl _ _
    | with_reducible assumption
    | ((fail_if_no_progress extract_lets +onlyGivenNames x); try (refine Only.cut x ?_ ?_; rotate_left; intro _; clear_value x; rotate_left; unfold x))
    | with_reducible apply Only.foldl
    | with_reducible apply Only.ite
    | with_reducible apply Only.step (event_only _ _ _ _ _)
    | with_reducible apply Only.step (sendOn_only _ _ _)
    | with_reducible intro _
    | rfl
    | (fail_if_no_progress (with_reducible apply Only.upd); rotate_left; (intro p hp; cases p <;> first | rfl | exact ⟨rfl, rfl⟩ | exact ⟨rfl, rfl, rfl⟩ | exact absurd (by decide) hp))
    | split

theorem fenceMoves_only (a0 : Nat) (s : State) :
    Only [.mbx, .win, .ctr] s (fenceMoves a0 s) := by
  unfold fenceMoves
  repeat' first
    | with_reducible exact Only.refl _ _
    | with_reducible assumption
    | ((fail_if_no_progress extract_lets +onlyGivenNames x); try (refine Only.cut x ?_ ?_; rotate_left; intro _; clear_value x; rotate_left; unfold x))
    | with_reducible apply Only.foldl
    | with_reducible apply Only.ite
    | with_reducible apply Only.step (event_only _ _ _ _ _)
    | with_reducible apply Only.step (respond_only _ _ _ _ _)
    | with_reducible apply Only.step (setRun_only _ _ _)
    | with_reducible intro _
    | rfl
    | split

theorem hostEvent_only (a0 : Nat) (a1 : Nat) (a2 : Nat) (a3 : Nat) (s : State) :
    Only [.led] s (hostEvent a0 a1 a2 a3 s) := by
  unfold hostEvent
  repeat' first
    | with_reducible exact Only.refl _ _
    | with_reducible assumption
    | ((fail_if_no_progress extract_lets +onlyGivenNames x); try (refine Only.cut x ?_ ?_; rotate_left; intro _; clear_value x; rotate_left; unfold x))
    | with_reducible apply Only.foldl
    | with_reducible apply Only.ite
    | with_reducible intro _
    | rfl
    | (fail_if_no_progress (with_reducible apply Only.upd); rotate_left; (intro p hp; cases p <;> first | rfl | exact ⟨rfl, rfl⟩ | exact ⟨rfl, rfl, rfl⟩ | exact absurd (by decide) hp))
    | split

theorem modCluster_only (a0 : Nat) (a1 : Machine.Cluster → Machine.Cluster) (s : State) :
    Only [.clusters] s (modCluster a0 a1 s) := by
  unfold modCluster
  repeat' first
    | with_reducible exact Only.refl _ _
    | with_reducible assumption
    | ((fail_if_no_progress extract_lets +onlyGivenNames x); try (refine Only.cut x ?_ ?_; rotate_left; intro _; clear_value x; rotate_left; unfold x))
    | with_reducible apply Only.foldl
    | with_reducible apply Only.ite
    | with_reducible intro _
    | rfl
    | (fail_if_no_progress (with_reducible apply Only.upd); rotate_left; (intro p hp; cases p <;> first | rfl | exact ⟨rfl, rfl⟩ | exact ⟨rfl, rfl, rfl⟩ | exact absurd (by decide) hp))
    | split

theorem fenceWith_only (a0 : Bool) (a1 : Nat) (a2 : Nat) (a3 : Nat) (a4 : Bool) (a5 : Nat) (s : State) :
    Only [.mbx, .work, .clusters, .tiles, .signals, .win, .ctr, .fab, .eng, .led] s (fenceWith a0 a1 a2 a3 a4 a5 s) := by
  unfold fenceWith
  repeat' first
    | with_reducible exact Only.refl _ _
    | with_reducible assumption
    | ((fail_if_no_progress extract_lets +onlyGivenNames x); try (refine Only.cut x ?_ ?_; rotate_left; intro _; clear_value x; rotate_left; unfold x))
    | with_reducible apply Only.foldl
    | with_reducible apply Only.ite
    | with_reducible apply Only.step (abortSend_only _ _ _ _)
    | with_reducible apply Only.step (fenceMoves_only _ _)
    | with_reducible apply Only.step (hostEvent_only _ _ _ _ _)
    | with_reducible apply Only.step (modCluster_only _ _ _)
    | with_reducible apply Only.step (modTile_only _ _ _)
    | with_reducible apply Only.step (setPart_only _ _ _)
    | with_reducible intro _
    | rfl
    | (fail_if_no_progress (with_reducible apply Only.upd); rotate_left; (intro p hp; cases p <;> first | rfl | exact ⟨rfl, rfl⟩ | exact ⟨rfl, rfl, rfl⟩ | exact absurd (by decide) hp))
    | split

theorem fencePart_only (a0 : Nat) (a1 : Nat) (a2 : Nat) (a3 : Bool) (a4 : Nat) (s : State) :
    Only [.mbx, .work, .clusters, .tiles, .signals, .win, .ctr, .fab, .eng, .led] s (fencePart a0 a1 a2 a3 a4 s) := by
  unfold fencePart
  repeat' first
    | with_reducible exact Only.refl _ _
    | with_reducible assumption
    | ((fail_if_no_progress extract_lets +onlyGivenNames x); try (refine Only.cut x ?_ ?_; rotate_left; intro _; clear_value x; rotate_left; unfold x))
    | with_reducible apply Only.foldl
    | with_reducible apply Only.ite
    | with_reducible apply Only.step (fenceWith_only _ _ _ _ _ _ _)
    | with_reducible intro _
    | rfl
    | split

theorem beginTile_only (a0 : Machine.Launch) (a1 : Nat) (s : State) :
    Only [.tiles] s (beginTile a0 a1 s) := by
  unfold beginTile
  repeat' first
    | with_reducible exact Only.refl _ _
    | with_reducible assumption
    | ((fail_if_no_progress extract_lets +onlyGivenNames x); try (refine Only.cut x ?_ ?_; rotate_left; intro _; clear_value x; rotate_left; unfold x))
    | with_reducible apply Only.foldl
    | with_reducible apply Only.ite
    | with_reducible apply Only.step (modTile_only _ _ _)
    | with_reducible intro _
    | rfl
    | split

theorem boundaryReset_only (a0 : Nat) (s : State) :
    Only [.ctr] s (boundaryReset a0 s) := by
  unfold boundaryReset
  repeat' first
    | with_reducible exact Only.refl _ _
    | with_reducible assumption
    | ((fail_if_no_progress extract_lets +onlyGivenNames x); try (refine Only.cut x ?_ ?_; rotate_left; intro _; clear_value x; rotate_left; unfold x))
    | with_reducible apply Only.foldl
    | with_reducible apply Only.ite
    | with_reducible intro _
    | rfl
    | (fail_if_no_progress (with_reducible apply Only.upd); rotate_left; (intro p hp; cases p <;> first | rfl | exact ⟨rfl, rfl⟩ | exact ⟨rfl, rfl, rfl⟩ | exact absurd (by decide) hp))
    | split

theorem beginHalf_only (a0 : Sys2Proof.Half) (a1 : Machine.Part) (a2 : Machine.Recipe) (a3 : Machine.Launch) (s : State) :
    Only [.clusters, .tiles, .ctr] s (beginHalf a0 a1 a2 a3 s) := by
  unfold beginHalf
  repeat' first
    | with_reducible exact Only.refl _ _
    | with_reducible assumption
    | ((fail_if_no_progress extract_lets +onlyGivenNames x); try (refine Only.cut x ?_ ?_; rotate_left; intro _; clear_value x; rotate_left; unfold x))
    | with_reducible apply Only.foldl
    | with_reducible apply Only.ite
    | with_reducible apply Only.step (beginTile_only _ _ _)
    | with_reducible apply Only.step (boundaryReset_only _ _)
    | with_reducible apply Only.step (modCluster_only _ _ _)
    | with_reducible intro _
    | rfl
    | split

theorem startHalves_only (a0 : Nat) (a1 : Machine.Part) (a2 : Machine.Recipe) (a3 : Nat) (s : State) :
    Only [.work, .clusters, .tiles, .ctr] s (startHalves a0 a1 a2 a3 s) := by
  unfold startHalves
  repeat' first
    | with_reducible exact Only.refl _ _
    | with_reducible assumption
    | ((fail_if_no_progress extract_lets +onlyGivenNames x); try (refine Only.cut x ?_ ?_; rotate_left; intro _; clear_value x; rotate_left; unfold x))
    | with_reducible apply Only.foldl
    | with_reducible apply Only.ite
    | with_reducible apply Only.step (beginHalf_only _ _ _ _ _)
    | with_reducible apply Only.step (modLaunch_only _ _ _ _)
    | with_reducible apply Only.step (modPart_only _ _ _)
    | with_reducible intro _
    | rfl
    | split

theorem settleHead_only (a0 : Nat) (s : State) :
    Only [.mbx, .work, .clusters, .tiles, .ctr, .taps] s (settleHead a0 s) := by
  unfold settleHead
  repeat' first
    | with_reducible exact Only.refl _ _
    | with_reducible assumption
    | ((fail_if_no_progress extract_lets +onlyGivenNames x); try (refine Only.cut x ?_ ?_; rotate_left; intro _; clear_value x; rotate_left; unfold x))
    | with_reducible apply Only.foldl
    | with_reducible apply Only.ite
    | with_reducible apply Only.step (endLaunch_only _ _ _ _)
    | with_reducible apply Only.step (startHalves_only _ _ _ _ _)
    | with_reducible intro _
    | rfl
    | split

theorem abortAll_only (a0 : Nat) (a1 : Machine.RunCmd) (a2 : Nat) (s : State) :
    Only [.mbx, .work, .clusters, .tiles, .signals, .win, .ctr, .fab, .eng, .led, .taps] s (repState (abortAll a0 a1 a2 s)) := by
  unfold abortAll
  repeat' first
    | with_reducible exact Only.refl _ _
    | with_reducible assumption
    | ((fail_if_no_progress extract_lets +onlyGivenNames x); try (refine Only.cut x ?_ ?_; rotate_left; intro _; clear_value x; rotate_left; unfold x))
    | with_reducible apply Only.foldl
    | with_reducible apply Only.ite
    | (fail_if_no_progress simp only [repState_ans, repState_stay, repState_badArg, repState_refuse, repState_okRep])
    | with_reducible apply Only.step (endLaunch_only _ _ _ _)
    | with_reducible apply Only.step (fencePart_only _ _ _ _ _ _)
    | with_reducible apply Only.step (settleHead_only _ _)
    | with_reducible intro _
    | rfl
    | split

theorem abortOne_only (a0 : Nat) (a1 : Machine.RunCmd) (a2 : Nat) (s : State) :
    Only [.mbx, .work, .clusters, .tiles, .signals, .win, .ctr, .fab, .eng, .led, .taps] s (repState (abortOne a0 a1 a2 s)) := by
  unfold abortOne
  split
  · exact Only.refl _ _
  · rename_i l0 _
    have k : Only [.mbx, .work, .clusters, .tiles, .signals, .win, .ctr, .fab, .eng, .led, .taps] s (if l0.st < 3 then settleHead l0.part s else s) := by
      split
      · exact Only.step (settleHead_only _ _) (Only.refl _ _) rfl
      · exact Only.refl _ _
    simp only
    generalize (if l0.st < 3 then settleHead l0.part s else s) = u at k
    repeat' first
      | with_reducible exact Only.refl _ _
      | with_reducible assumption
      | ((fail_if_no_progress extract_lets +onlyGivenNames x); try (refine Only.cut x ?_ ?_; rotate_left; intro _; clear_value x; rotate_left; unfold x))
      | with_reducible apply Only.foldl
      | with_reducible apply Only.ite
      | (fail_if_no_progress simp only [repState_ans, repState_stay, repState_badArg, repState_refuse, repState_okRep])
      | with_reducible apply Only.step (endLaunch_only _ _ _ _)
      | with_reducible apply Only.step (fencePart_only _ _ _ _ _ _)
      | with_reducible apply Only.step (settleHead_only _ _)
      | with_reducible intro _
      | rfl
      | split

theorem modLed_only (a0 : Machine.Ledger → Machine.Ledger) (s : State) :
    Only [.led] s (modLed a0 s) := by
  unfold modLed
  repeat' first
    | with_reducible exact Only.refl _ _
    | with_reducible assumption
    | ((fail_if_no_progress extract_lets +onlyGivenNames x); try (refine Only.cut x ?_ ?_; rotate_left; intro _; clear_value x; rotate_left; unfold x))
    | with_reducible apply Only.foldl
    | with_reducible apply Only.ite
    | with_reducible intro _
    | rfl
    | (fail_if_no_progress (with_reducible apply Only.upd); rotate_left; (intro p hp; cases p <;> first | rfl | exact ⟨rfl, rfl⟩ | exact ⟨rfl, rfl, rfl⟩ | exact absurd (by decide) hp))
    | split

theorem closeSheet_only (a0 : Bool) (s : State) :
    Only [.led] s (closeSheet a0 s) := by
  unfold closeSheet
  repeat' first
    | with_reducible exact Only.refl _ _
    | with_reducible assumption
    | ((fail_if_no_progress extract_lets +onlyGivenNames x); try (refine Only.cut x ?_ ?_; rotate_left; intro _; clear_value x; rotate_left; unfold x))
    | with_reducible apply Only.foldl
    | with_reducible apply Only.ite
    | with_reducible apply Only.step (modLed_only _ _)
    | with_reducible intro _
    | rfl
    | split

theorem issue_only (a0 : Machine.Account) (s : State) :
    Only [.mbx, .win, .ctr, .led] s (issue a0 s) := by
  unfold issue
  repeat' first
    | with_reducible exact Only.refl _ _
    | with_reducible assumption
    | ((fail_if_no_progress extract_lets +onlyGivenNames x); try (refine Only.cut x ?_ ?_; rotate_left; intro _; clear_value x; rotate_left; unfold x))
    | with_reducible apply Only.foldl
    | with_reducible apply Only.ite
    | with_reducible apply Only.step (closeSheet_only _ _)
    | with_reducible apply Only.step (event_only _ _ _ _ _)
    | with_reducible apply Only.step (modLed_only _ _)
    | with_reducible intro _
    | rfl
    | split

theorem setPool_only (a0 : Nat) (a1 : Option Machine.Pool) (s : State) :
    Only [.led] s (setPool a0 a1 s) := by
  unfold setPool
  repeat' first
    | with_reducible exact Only.refl _ _
    | with_reducible assumption
    | ((fail_if_no_progress extract_lets +onlyGivenNames x); try (refine Only.cut x ?_ ?_; rotate_left; intro _; clear_value x; rotate_left; unfold x))
    | with_reducible apply Only.foldl
    | with_reducible apply Only.ite
    | with_reducible apply Only.step (modLed_only _ _)
    | with_reducible intro _
    | rfl
    | split

theorem closeAccount_only (a0 : Nat) (a1 : Nat) (a2 : Nat) (s : State) :
    Only [.mbx, .win, .ctr, .led] s (closeAccount a0 a1 a2 s) := by
  unfold closeAccount
  repeat' first
    | with_reducible exact Only.refl _ _
    | with_reducible assumption
    | ((fail_if_no_progress extract_lets +onlyGivenNames x); try (refine Only.cut x ?_ ?_; rotate_left; intro _; clear_value x; rotate_left; unfold x))
    | with_reducible apply Only.foldl
    | with_reducible apply Only.ite
    | with_reducible apply Only.step (issue_only _ _)
    | with_reducible apply Only.step (setPool_only _ _ _)
    | with_reducible intro _
    | rfl
    | split

theorem accountsDue_only (a0 : Bool) (a1 : Nat) (s : State) :
    Only [.mbx, .win, .ctr, .led] s (accountsDue a0 a1 s) := by
  unfold accountsDue
  repeat' first
    | with_reducible exact Only.refl _ _
    | with_reducible assumption
    | ((fail_if_no_progress extract_lets +onlyGivenNames x); try (refine Only.cut x ?_ ?_; rotate_left; intro _; clear_value x; rotate_left; unfold x))
    | with_reducible apply Only.foldl
    | with_reducible apply Only.ite
    | with_reducible apply Only.step (closeAccount_only _ _ _ _)
    | with_reducible intro _
    | rfl
    | split

theorem atPort_only (a0 : Nat) (a1 : Nat) (a2 : Nat) (a3 : Bool) (s : State) :
    Only [.mbx, .win, .ctr] s (atPort a0 a1 a2 a3 s) := by
  unfold atPort
  repeat' first
    | with_reducible exact Only.refl _ _
    | with_reducible assumption
    | ((fail_if_no_progress extract_lets +onlyGivenNames x); try (refine Only.cut x ?_ ?_; rotate_left; intro _; clear_value x; rotate_left; unfold x))
    | with_reducible apply Only.foldl
    | with_reducible apply Only.ite
    | with_reducible apply Only.step (count_only _ _ _ _)
    | with_reducible apply Only.step (eventG_only _ _ _ _ _ _ _)
    | with_reducible intro _
    | rfl
    | split

theorem modEng_only (a0 : Machine.Eng → Machine.Eng) (s : State) :
    Only [.eng] s (modEng a0 s) := by
  unfold modEng
  repeat' first
    | with_reducible exact Only.refl _ _
    | with_reducible assumption
    | ((fail_if_no_progress extract_lets +onlyGivenNames x); try (refine Only.cut x ?_ ?_; rotate_left; intro _; clear_value x; rotate_left; unfold x))
    | with_reducible apply Only.foldl
    | with_reducible apply Only.ite
    | with_reducible intro _
    | rfl
    | (fail_if_no_progress (with_reducible apply Only.upd); rotate_left; (intro p hp; cases p <;> first | rfl | exact ⟨rfl, rfl⟩ | exact ⟨rfl, rfl, rfl⟩ | exact absurd (by decide) hp))
    | split

theorem modColl_only (a0 : Sys2Proof.Half) (a1 : Nat) (a2 : Nat) (a3 : Machine.Coll → Machine.Coll) (s : State) :
    Only [.eng] s (modColl a0 a1 a2 a3 s) := by
  unfold modColl
  repeat' first
    | with_reducible exact Only.refl _ _
    | with_reducible assumption
    | ((fail_if_no_progress extract_lets +onlyGivenNames x); try (refine Only.cut x ?_ ?_; rotate_left; intro _; clear_value x; rotate_left; unfold x))
    | with_reducible apply Only.foldl
    | with_reducible apply Only.ite
    | with_reducible apply Only.step (modEng_only _ _)
    | with_reducible intro _
    | rfl
    | split

theorem modP_only (a0 : Machine.Par) (a1 : Machine.Coll → Machine.Coll) (s : State) :
    Only [.eng] s (modP a0 a1 s) := by
  unfold modP
  repeat' first
    | with_reducible exact Only.refl _ _
    | with_reducible assumption
    | ((fail_if_no_progress extract_lets +onlyGivenNames x); try (refine Only.cut x ?_ ?_; rotate_left; intro _; clear_value x; rotate_left; unfold x))
    | with_reducible apply Only.foldl
    | with_reducible apply Only.ite
    | with_reducible apply Only.step (modColl_only _ _ _ _ _)
    | with_reducible intro _
    | rfl
    | split

theorem moved_only (a0 : Machine.Par) (s : State) :
    Only [.eng] s (moved a0 s) := by
  unfold moved
  repeat' first
    | with_reducible exact Only.refl _ _
    | with_reducible assumption
    | ((fail_if_no_progress extract_lets +onlyGivenNames x); try (refine Only.cut x ?_ ?_; rotate_left; intro _; clear_value x; rotate_left; unfold x))
    | with_reducible apply Only.foldl
    | with_reducible apply Only.ite
    | with_reducible apply Only.step (modP_only _ _ _)
    | with_reducible intro _
    | rfl
    | split

theorem modFab_only (a0 : Machine.Fab → Machine.Fab) (s : State) :
    Only [.fab] s (modFab a0 s) := by
  unfold modFab
  repeat' first
    | with_reducible exact Only.refl _ _
    | with_reducible assumption
    | ((fail_if_no_progress extract_lets +onlyGivenNames x); try (refine Only.cut x ?_ ?_; rotate_left; intro _; clear_value x; rotate_left; unfold x))
    | with_reducible apply Only.foldl
    | with_reducible apply Only.ite
    | with_reducible intro _
    | rfl
    | (fail_if_no_progress (with_reducible apply Only.upd); rotate_left; (intro p hp; cases p <;> first | rfl | exact ⟨rfl, rfl⟩ | exact ⟨rfl, rfl, rfl⟩ | exact absurd (by decide) hp))
    | split

theorem portEvent_only (a0 : Nat) (a1 : Nat) (s : State) :
    Only [.mbx, .win, .ctr] s (portEvent a0 a1 s) := by
  unfold portEvent
  repeat' first
    | with_reducible exact Only.refl _ _
    | with_reducible assumption
    | ((fail_if_no_progress extract_lets +onlyGivenNames x); try (refine Only.cut x ?_ ?_; rotate_left; intro _; clear_value x; rotate_left; unfold x))
    | with_reducible apply Only.foldl
    | with_reducible apply Only.ite
    | with_reducible apply Only.step (event_only _ _ _ _ _)
    | with_reducible intro _
    | rfl
    | split

theorem dropAt_only (a0 : Nat) (a1 : Option Nat) (a2 : Machine.Drop) (s : State) :
    Only [.mbx, .win, .ctr] s (dropAt a0 a1 a2 s) := by
  unfold dropAt
  repeat' first
    | with_reducible exact Only.refl _ _
    | with_reducible assumption
    | ((fail_if_no_progress extract_lets +onlyGivenNames x); try (refine Only.cut x ?_ ?_; rotate_left; intro _; clear_value x; rotate_left; unfold x))
    | with_reducible apply Only.foldl
    | with_reducible apply Only.ite
    | with_reducible apply Only.step (count_only _ _ _ _)
    | with_reducible apply Only.step (portEvent_only _ _ _)
    | with_reducible intro _
    | rfl
    | split

theorem handIn_only (a0 : Sys2Proof.Pkt) (s : State) :
    Only [.fab] s (handIn a0 s) := by
  unfold handIn
  repeat' first
    | with_reducible exact Only.refl _ _
    | with_reducible assumption
    | ((fail_if_no_progress extract_lets +onlyGivenNames x); try (refine Only.cut x ?_ ?_; rotate_left; intro _; clear_value x; rotate_left; unfold x))
    | with_reducible apply Only.foldl
    | with_reducible apply Only.ite
    | with_reducible apply Only.step (modFab_only _ _)
    | with_reducible intro _
    | rfl
    | split

theorem holdAtBridge_only (a0 : Nat) (a1 : Sys2Proof.Pkt) (s : State) :
    Only [.fab] s (holdAtBridge a0 a1 s) := by
  unfold holdAtBridge
  repeat' first
    | with_reducible exact Only.refl _ _
    | with_reducible assumption
    | ((fail_if_no_progress extract_lets +onlyGivenNames x); try (refine Only.cut x ?_ ?_; rotate_left; intro _; clear_value x; rotate_left; unfold x))
    | with_reducible apply Only.foldl
    | with_reducible apply Only.ite
    | with_reducible apply Only.step (modFab_only _ _)
    | with_reducible intro _
    | rfl
    | split

theorem doHop_only (a0 : Nat) (a1 : Machine.Hop) (a2 : Sys2Proof.Pkt) (s : State) :
    Only [.mbx, .win, .ctr, .fab] s (doHop a0 a1 a2 s).1 := by
  unfold doHop
  repeat' first
    | with_reducible exact Only.refl _ _
    | with_reducible assumption
    | ((fail_if_no_progress extract_lets +onlyGivenNames x); try (refine Only.cut x ?_ ?_; rotate_left; intro _; clear_value x; rotate_left; unfold x))
    | with_reducible apply Only.foldl
    | with_reducible apply Only.ite
    | with_reducible apply Only.step (dropAt_only _ _ _ _)
    | with_reducible apply Only.step (freeIn_only _ _ _)
    | with_reducible apply Only.step (handIn_only _ _)
    | with_reducible apply Only.step (holdAtBridge_only _ _ _)
    | with_reducible apply Only.step (putOut_only _ _ _ _)
    | with_reducible intro _
    | rfl
    | split

theorem mcastHop_only (a0 : Nat) (a1 : Sys2Proof.Pkt) (s : State) :
    Only [.mbx, .win, .ctr, .fab] s (mcastHop a0 a1 s).1 := by
  unfold mcastHop
  have key : ∀ (l : List Nat) (x : State × Option Nat), Only [.mbx, .win, .ctr, .fab] s x.1 →
      Only [.mbx, .win, .ctr, .fab] s (l.foldl (fun (x : State × Option Nat) d =>
        let m := splitMask (s.ident.mid % 64) a1.destMask d
        if m = 0 then x
        else
          let c := { a1 with destMask := m }
          let (s, q) := doHop a0 (takePort x.1 (eligible x.1 (sideMask d) (some 1)) (lowPort (sideMask d)) c) c x.1
          (s, match x.2 with | some p => some p | none => q)) x).1 := by
    intro l
    induction l with
    | nil => exact fun x h => h
    | cons d r ih =>
      intro x h
      refine ih _ ?_
      simp only
      split
      · exact h
      · exact Only.step (doHop_only _ _ _ _) h rfl
  repeat' first
    | with_reducible exact Only.refl _ _
    | exact key _ _ (Only.refl _ _)
    | with_reducible apply Only.step (dropAt_only _ _ _ _)
    | with_reducible apply Only.step (doHop_only _ _ _ _)
    | rfl
    | split
    | simp only

theorem routeOn_only (a0 : Nat) (a1 : Sys2Proof.Pkt) (s : State) :
    Only [.mbx, .win, .ctr, .fab] s (routeOn a0 a1 s).1 := by
  unfold routeOn
  repeat' first
    | with_reducible exact Only.refl _ _
    | with_reducible assumption
    | ((fail_if_no_progress extract_lets +onlyGivenNames x); try (refine Only.cut x ?_ ?_; rotate_left; intro _; clear_value x; rotate_left; unfold x))
    | with_reducible apply Only.foldl
    | with_reducible apply Only.ite
    | with_reducible apply Only.step (doHop_only _ _ _ _)
    | with_reducible apply Only.step (mcastHop_only _ _ _)
    | with_reducible intro _
    | rfl
    | with_reducible apply Only.ofFst ‹_ = (_, _)›
    | split

theorem route_only (a0 : Nat) (a1 : Sys2Proof.Pkt) (s : State) :
    Only [.mbx, .win, .ctr, .fab] s (route a0 a1 s).1 := by
  unfold route
  repeat' first
    | with_reducible exact Only.refl _ _
    | with_reducible assumption
    | ((fail_if_no_progress extract_lets +onlyGivenNames x); try (refine Only.cut x ?_ ?_; rotate_left; intro _; clear_value x; rotate_left; unfold x))
    | with_reducible apply Only.foldl
    | with_reducible apply Only.ite
    | with_reducible apply Only.step (routeOn_only _ _ _)
    | with_reducible intro _
    | rfl
    | with_reducible apply Only.ofFst ‹_ = (_, _)›
    | split

theorem routeOwn_only (a0 : Sys2Proof.Pkt) (s : State) :
    Only [.mbx, .win, .ctr, .fab] s (routeOwn a0 s).1 := by
  unfold routeOwn
  repeat' first
    | with_reducible exact Only.refl _ _
    | with_reducible assumption
    | ((fail_if_no_progress extract_lets +onlyGivenNames x); try (refine Only.cut x ?_ ?_; rotate_left; intro _; clear_value x; rotate_left; unfold x))
    | with_reducible apply Only.foldl
    | with_reducible apply Only.ite
    | with_reducible apply Only.step (route_only _ _ _)
    | with_reducible intro _
    | rfl
    | with_reducible apply Only.ofFst ‹_ = (_, _)›
    | split

theorem sendNow_only (a0 : Sys2Proof.Pkt) (s : State) :
    Only [.mbx, .win, .ctr, .fab] s (sendNow a0 s) := by
  unfold sendNow
  repeat' first
    | with_reducible exact Only.refl _ _
    | with_reducible assumption
    | ((fail_if_no_progress extract_lets +onlyGivenNames x); try (refine Only.cut x ?_ ?_; rotate_left; intro _; clear_value x; rotate_left; unfold x))
    | with_reducible apply Only.foldl
    | with_reducible apply Only.ite
    | with_reducible apply Only.step (count_only _ _ _ _)
    | with_reducible apply Only.step (modFab_only _ _)
    | with_reducible apply Only.step (routeOwn_only _ _)
    | with_reducible intro _
    | rfl
    | with_reducible apply Only.ofFst ‹_ = (_, _)›
    | split

theorem sendOwn_only (a0 : Sys2Proof.Pkt) (s : State) :
    Only [.mbx, .win, .ctr, .fab] s (sendOwn a0 s) := by
  unfold sendOwn
  repeat' first
    | with_reducible exact Only.refl _ _
    | with_reducible assumption
    | ((fail_if_no_progress extract_lets +onlyGivenNames x); try (refine Only.cut x ?_ ?_; rotate_left; intro _; clear_value x; rotate_left; unfold x))
    | with_reducible apply Only.foldl
    | with_reducible apply Only.ite
    | with_reducible apply Only.step (modFab_only _ _)
    | with_reducible apply Only.step (sendNow_only _ _)
    | with_reducible intro _
    | rfl
    | split

theorem sendColl_only (a0 : Machine.Par) (a1 : Nat) (a2 : Bool) (a3 : Sys2Proof.Pkt) (s : State) :
    Only [.mbx, .win, .ctr, .fab, .eng] s (sendColl a0 a1 a2 a3 s) := by
  unfold sendColl
  repeat' first
    | with_reducible exact Only.refl _ _
    | with_reducible assumption
    | ((fail_if_no_progress extract_lets +onlyGivenNames x); try (refine Only.cut x ?_ ?_; rotate_left; intro _; clear_value x; rotate_left; unfold x))
    | with_reducible apply Only.foldl
    | with_reducible apply Only.ite
    | with_reducible apply Only.step (modP_only _ _ _)
    | with_reducible apply Only.step (moved_only _ _)
    | with_reducible apply Only.step (sendOwn_only _ _)
    | with_reducible intro _
    | rfl
    | split

theorem directAdd_only (a0 : Machine.Par) (a1 : Nat) (a2 : Nat) (s : State) :
    Only [.mbx, .win, .ctr, .fab, .eng] s (directAdd a0 a1 a2 s) := by
  unfold directAdd
  repeat' first
    | with_reducible exact Only.refl _ _
    | with_reducible assumption
    | ((fail_if_no_progress extract_lets +onlyGivenNames x); try (refine Only.cut x ?_ ?_; rotate_left; intro _; clear_value x; rotate_left; unfold x))
    | with_reducible apply Only.foldl
    | with_reducible apply Only.ite
    | with_reducible apply Only.step (sendColl_only _ _ _ _ _)
    | with_reducible intro _
    | rfl
    | split

theorem directPut_only (a0 : Machine.Par) (a1 : Nat) (a2 : Machine.Coll) (s : State) :
    Only [.mbx, .win, .ctr, .fab, .eng] s (directPut a0 a1 a2 s) := by
  unfold directPut
  repeat' first
    | with_reducible exact Only.refl _ _
    | with_reducible assumption
    | ((fail_if_no_progress extract_lets +onlyGivenNames x); try (refine Only.cut x ?_ ?_; rotate_left; intro _; clear_value x; rotate_left; unfold x))
    | with_reducible apply Only.foldl
    | with_reducible apply Only.ite
    | with_reducible apply Only.step (directAdd_only _ _ _ _)
    | with_reducible apply Only.step (modP_only _ _ _)
    | with_reducible apply Only.step (sendColl_only _ _ _ _ _)
    | with_reducible intro _
    | rfl
    | split

theorem engineFail_only (a0 : Sys2Proof.Half) (a1 : Nat) (a2 : Nat) (a3 : Nat) (a4 : Nat) (a5 : Nat) (s : State) :
    Only [.mbx, .work, .clusters, .tiles, .signals, .win, .ctr, .fab, .eng, .led] s (engineFail a0 a1 a2 a3 a4 a5 s) := by
  unfold engineFail
  repeat' first
    | with_reducible exact Only.refl _ _
    | with_reducible assumption
    | ((fail_if_no_progress extract_lets +onlyGivenNames x); try (refine Only.cut x ?_ ?_; rotate_left; intro _; clear_value x; rotate_left; unfold x))
    | with_reducible apply Only.foldl
    | with_reducible apply Only.ite
    | with_reducible apply Only.step (event_only _ _ _ _ _)
    | with_reducible apply Only.step (fencePart_only _ _ _ _ _ _)
    | with_reducible apply Only.step (modEng_only _ _)
    | with_reducible apply Only.step (modLaunch_only _ _ _ _)
    | with_reducible intro _
    | rfl
    | split

theorem collFail_only (a0 : Sys2Proof.Half) (a1 : Nat) (a2 : Nat) (a3 : Nat) (a4 : Nat) (s : State) :
    Only [.mbx, .work, .clusters, .tiles, .signals, .win, .ctr, .fab, .eng, .led] s (collFail a0 a1 a2 a3 a4 s) := by
  unfold collFail
  repeat' first
    | with_reducible exact Only.refl _ _
    | with_reducible assumption
    | ((fail_if_no_progress extract_lets +onlyGivenNames x); try (refine Only.cut x ?_ ?_; rotate_left; intro _; clear_value x; rotate_left; unfold x))
    | with_reducible apply Only.foldl
    | with_reducible apply Only.ite
    | with_reducible apply Only.step (engineFail_only _ _ _ _ _ _ _)
    | with_reducible apply Only.step (modEng_only _ _)
    | with_reducible intro _
    | rfl
    | split

theorem failP_only (a0 : Machine.Par) (a1 : Nat) (a2 : Nat) (s : State) :
    Only [.mbx, .work, .clusters, .tiles, .signals, .win, .ctr, .fab, .eng, .led] s (failP a0 a1 a2 s) := by
  unfold failP
  repeat' first
    | with_reducible exact Only.refl _ _
    | with_reducible assumption
    | ((fail_if_no_progress extract_lets +onlyGivenNames x); try (refine Only.cut x ?_ ?_; rotate_left; intro _; clear_value x; rotate_left; unfold x))
    | with_reducible apply Only.foldl
    | with_reducible apply Only.ite
    | with_reducible apply Only.step (collFail_only _ _ _ _ _ _)
    | with_reducible intro _
    | rfl
    | split

theorem sendEmit_only (a0 : Machine.Par) (a1 : Machine.Emit) (s : State) :
    Only [.mbx, .win, .ctr, .fab, .eng] s (sendEmit a0 a1 s) := by
  unfold sendEmit
  repeat' first
    | with_reducible exact Only.refl _ _
    | with_reducible assumption
    | ((fail_if_no_progress extract_lets +onlyGivenNames x); try (refine Only.cut x ?_ ?_; rotate_left; intro _; clear_value x; rotate_left; unfold x))
    | with_reducible apply Only.foldl
    | with_reducible apply Only.ite
    | with_reducible apply Only.step (sendColl_only _ _ _ _ _)
    | with_reducible intro _
    | rfl
    | split

theorem pushSignal_only (a0 : Machine.Signal) (s : State) :
    Only [.signals] s (pushSignal a0 s) := by
  unfold pushSignal
  repeat' first
    | with_reducible exact Only.refl _ _
    | with_reducible assumption
    | ((fail_if_no_progress extract_lets +onlyGivenNames x); try (refine Only.cut x ?_ ?_; rotate_left; intro _; clear_value x; rotate_left; unfold x))
    | with_reducible apply Only.foldl
    | with_reducible apply Only.ite
    | with_reducible intro _
    | rfl
    | (fail_if_no_progress (with_reducible apply Only.upd); rotate_left; (intro p hp; cases p <;> first | rfl | exact ⟨rfl, rfl⟩ | exact ⟨rfl, rfl, rfl⟩ | exact absurd (by decide) hp))
    | split

theorem doneSignal_only (a0 : Sys2Proof.Half) (a1 : Nat) (a2 : Nat) (s : State) :
    Only [.signals] s (doneSignal a0 a1 a2 s) := by
  unfold doneSignal
  repeat' first
    | with_reducible exact Only.refl _ _
    | with_reducible assumption
    | ((fail_if_no_progress extract_lets +onlyGivenNames x); try (refine Only.cut x ?_ ?_; rotate_left; intro _; clear_value x; rotate_left; unfold x))
    | with_reducible apply Only.foldl
    | with_reducible apply Only.ite
    | with_reducible apply Only.step (pushSignal_only _ _)
    | with_reducible intro _
    | rfl
    | split

theorem signalDone_only (a0 : Machine.Par) (s : State) :
    Only [.signals, .eng] s (signalDone a0 s) := by
  unfold signalDone
  repeat' first
    | with_reducible exact Only.refl _ _
    | with_reducible assumption
    | ((fail_if_no_progress extract_lets +onlyGivenNames x); try (refine Only.cut x ?_ ?_; rotate_left; intro _; clear_value x; rotate_left; unfold x))
    | with_reducible apply Only.foldl
    | with_reducible apply Only.ite
    | with_reducible apply Only.step (doneSignal_only _ _ _ _)
    | with_reducible apply Only.step (modP_only _ _ _)
    | with_reducible intro _
    | rfl
    | split

theorem clearBad_only (a0 : Nat) (s : State) :
    Only [.mcs] s (clearBad a0 s) := by
  unfold clearBad
  repeat' first
    | with_reducible exact Only.refl _ _
    | with_reducible assumption
    | ((fail_if_no_progress extract_lets +onlyGivenNames x); try (refine Only.cut x ?_ ?_; rotate_left; intro _; clear_value x; rotate_left; unfold x))
    | with_reducible apply Only.foldl
    | with_reducible apply Only.ite
    | with_reducible intro _
    | rfl
    | (fail_if_no_progress (with_reducible apply Only.upd); rotate_left; (intro p hp; cases p <;> first | rfl | exact ⟨rfl, rfl⟩ | exact ⟨rfl, rfl, rfl⟩ | exact absurd (by decide) hp))
    | split

theorem csNote_only (a0 : Nat) (a1 : Nat) (a2 : Nat) (a3 : Sys2Proof.MemEnv) (s : State) :
    Only [.mbx, .win, .ctr] s (csNote a0 a1 a2 a3 s) := by
  unfold csNote
  repeat' first
    | with_reducible exact Only.refl _ _
    | with_reducible assumption
    | ((fail_if_no_progress extract_lets +onlyGivenNames x); try (refine Only.cut x ?_ ?_; rotate_left; intro _; clear_value x; rotate_left; unfold x))
    | with_reducible apply Only.foldl
    | with_reducible apply Only.ite
    | with_reducible apply Only.step (disarm_only _ _)
    | with_reducible apply Only.step (eventG_only _ _ _ _ _ _ _)
    | with_reducible intro _
    | rfl
    | split
    | (fail_if_no_progress clear_value *)

theorem flashCheck_only (a0 : Nat) (a1 : Nat) (s : State) :
    Only [.mbx, .win, .ctr] s (flashCheck a0 a1 s).2 := by
  unfold flashCheck
  repeat' first
    | with_reducible exact Only.refl _ _
    | with_reducible assumption
    | ((fail_if_no_progress extract_lets +onlyGivenNames x); try (refine Only.cut x ?_ ?_; rotate_left; intro _; clear_value x; rotate_left; unfold x))
    | with_reducible apply Only.foldl
    | with_reducible apply Only.ite
    | with_reducible apply Only.step (disarm_only _ _)
    | with_reducible apply Only.step (eventG_only _ _ _ _ _ _ _)
    | with_reducible intro _
    | rfl
    | split

theorem flashTry_only {α : Type} (a1 : Machine.Dual α) (a2 : Nat) (a3 : Nat) (a4 : Sys2Proof.Retry) (s : State) :
    Only [.mbx, .win, .ctr] s (flashTry a1 a2 a3 a4 s).2 := by
  unfold flashTry
  repeat' first
    | with_reducible exact Only.refl _ _
    | with_reducible assumption
    | ((fail_if_no_progress extract_lets +onlyGivenNames x); try (refine Only.cut x ?_ ?_; rotate_left; intro _; clear_value x; rotate_left; unfold x))
    | with_reducible apply Only.foldl
    | with_reducible apply Only.ite
    | with_reducible apply Only.step (event_only _ _ _ _ _)
    | with_reducible apply Only.step (flashCheck_only _ _ _)
    | with_reducible intro _
    | rfl
    | with_reducible apply Only.ofSnd ‹_ = (_, _)›
    | split

theorem addDefect_only (a0 : Nat) (a1 : Nat) (a2 : Nat) (a3 : Sys2Proof.Retry) (s : State) :
    Only [.mbx, .win, .ctr, .flash, .start] s (addDefect a0 a1 a2 a3 s) := by
  unfold addDefect
  repeat' first
    | with_reducible exact Only.refl _ _
    | with_reducible assumption
    | ((fail_if_no_progress extract_lets +onlyGivenNames x); try (refine Only.cut x ?_ ?_; rotate_left; intro _; clear_value x; rotate_left; unfold x))
    | with_reducible apply Only.foldl
    | with_reducible apply Only.ite
    | with_reducible apply Only.step (flashTry_only _ _ _ _ _)
    | with_reducible intro _
    | rfl
    | (fail_if_no_progress (with_reducible apply Only.upd); rotate_left; (intro p hp; cases p <;> first | rfl | exact ⟨rfl, rfl⟩ | exact ⟨rfl, rfl, rfl⟩ | exact absurd (by decide) hp))
    | with_reducible apply Only.ofSnd ‹_ = (_, _)›
    | split
    | (fail_if_no_progress clear_value *)

theorem badFrame_only (a0 : Nat) (a1 : Nat) (a2 : Nat) (a3 : Bool) (s : State) :
    Only [.mbx, .win, .ctr, .flash, .start] s (badFrame a0 a1 a2 a3 s) := by
  unfold badFrame
  repeat' first
    | with_reducible exact Only.refl _ _
    | with_reducible assumption
    | ((fail_if_no_progress extract_lets +onlyGivenNames x); try (refine Only.cut x ?_ ?_; rotate_left; intro _; clear_value x; rotate_left; unfold x))
    | with_reducible apply Only.foldl
    | with_reducible apply Only.ite
    | with_reducible apply Only.step (addDefect_only _ _ _ _ _)
    | with_reducible intro _
    | rfl
    | split

theorem modMc_only (a0 : Nat) (a1 : Machine.Mc → Machine.Mc) (s : State) :
    Only [.mcs] s (modMc a0 a1 s) := by
  unfold modMc
  repeat' first
    | with_reducible exact Only.refl _ _
    | with_reducible assumption
    | ((fail_if_no_progress extract_lets +onlyGivenNames x); try (refine Only.cut x ?_ ?_; rotate_left; intro _; clear_value x; rotate_left; unfold x))
    | with_reducible apply Only.foldl
    | with_reducible apply Only.ite
    | with_reducible intro _
    | rfl
    | (fail_if_no_progress (with_reducible apply Only.upd); rotate_left; (intro p hp; cases p <;> first | rfl | exact ⟨rfl, rfl⟩ | exact ⟨rfl, rfl, rfl⟩ | exact absurd (by decide) hp))
    | split

theorem corrected_only (a0 : Nat) (a1 : Nat) (a2 : Bool) (s : State) :
    Only [.mbx, .mcs, .win, .ctr] s (corrected a0 a1 a2 s) := by
  unfold corrected
  repeat' first
    | with_reducible exact Only.refl _ _
    | with_reducible assumption
    | ((fail_if_no_progress extract_lets +onlyGivenNames x); try (refine Only.cut x ?_ ?_; rotate_left; intro _; clear_value x; rotate_left; unfold x))
    | with_reducible apply Only.foldl
    | with_reducible apply Only.ite
    | with_reducible apply Only.step (eventG_only _ _ _ _ _ _ _)
    | with_reducible apply Only.step (modMc_only _ _ _)
    | with_reducible intro _
    | rfl
    | split

theorem logError_only (a0 : Nat) (a1 : Nat) (a2 : Nat) (a3 : Bool) (s : State) :
    Only [.mbx, .mcs, .win, .ctr] s (logError a0 a1 a2 a3 s) := by
  unfold logError
  repeat' first
    | with_reducible exact Only.refl _ _
    | with_reducible assumption
    | ((fail_if_no_progress extract_lets +onlyGivenNames x); try (refine Only.cut x ?_ ?_; rotate_left; intro _; clear_value x; rotate_left; unfold x))
    | with_reducible apply Only.foldl
    | with_reducible apply Only.ite
    | with_reducible apply Only.step (eventG_only _ _ _ _ _ _ _)
    | with_reducible apply Only.step (modMc_only _ _ _)
    | with_reducible intro _
    | rfl
    | split

theorem markBad_only (a0 : Nat) (a1 : Bool) (s : State) :
    Only [.mcs] s (markBad a0 a1 s) := by
  unfold markBad
  repeat' first
    | with_reducible exact Only.refl _ _
    | with_reducible assumption
    | ((fail_if_no_progress extract_lets +onlyGivenNames x); try (refine Only.cut x ?_ ?_; rotate_left; intro _; clear_value x; rotate_left; unfold x))
    | with_reducible apply Only.foldl
    | with_reducible apply Only.ite
    | with_reducible intro _
    | rfl
    | (fail_if_no_progress (with_reducible apply Only.upd); rotate_left; (intro p hp; cases p <;> first | rfl | exact ⟨rfl, rfl⟩ | exact ⟨rfl, rfl, rfl⟩ | exact absurd (by decide) hp))
    | split

theorem readOutcome_only (a0 : Nat) (a1 : Nat) (a2 : Bool) (a3 : Bool) (a4 : Sys2Proof.Retry) (a5 : Nat) (a6 : Nat) (a7 : Nat) (s : State) :
    Only [.mbx, .mcs, .win, .ctr, .flash, .start] s (readOutcome a0 a1 a2 a3 a4 a5 a6 a7 s) := by
  unfold readOutcome
  simp only
  repeat' first
    | with_reducible exact Only.refl _ _
    | with_reducible apply Only.ite
    | with_reducible apply Only.step (badFrame_only _ _ _ _ _)
    | with_reducible apply Only.step (corrected_only _ _ _ _)
    | with_reducible apply Only.step (disarm_only _ _)
    | with_reducible apply Only.step (eventG_only _ _ _ _ _ _ _)
    | with_reducible apply Only.step (logError_only _ _ _ _ _)
    | with_reducible apply Only.step (markBad_only _ _ _)
    | with_reducible intro _
    | rfl
    | split

theorem request_only (a0 : Nat) (a1 : Nat) (a2 : Nat) (a3 : Nat) (s : State) :
    Only [.mcs] s (request a0 a1 a2 a3 s) := by
  unfold request
  repeat' first
    | with_reducible exact Only.refl _ _
    | with_reducible assumption
    | ((fail_if_no_progress extract_lets +onlyGivenNames x); try (refine Only.cut x ?_ ?_; rotate_left; intro _; clear_value x; rotate_left; unfold x))
    | with_reducible apply Only.foldl
    | with_reducible apply Only.ite
    | with_reducible apply Only.step (modMc_only _ _ _)
    | with_reducible intro _
    | rfl
    | split

theorem writeOutcome_only (a0 : Nat) (a1 : Nat) (a2 : Sys2Proof.Retry) (s : State) :
    Only [.mbx, .mcs, .win, .ctr, .flash, .start] s (writeOutcome a0 a1 a2 s) := by
  unfold writeOutcome
  repeat' first
    | with_reducible exact Only.refl _ _
    | with_reducible assumption
    | ((fail_if_no_progress extract_lets +onlyGivenNames x); try (refine Only.cut x ?_ ?_; rotate_left; intro _; clear_value x; rotate_left; unfold x))
    | with_reducible apply Only.foldl
    | with_reducible apply Only.ite
    | with_reducible apply Only.step (badFrame_only _ _ _ _ _)
    | with_reducible apply Only.step (disarm_only _ _)
    | with_reducible apply Only.step (eventG_only _ _ _ _ _ _ _)
    | with_reducible apply Only.step (logError_only _ _ _ _ _)
    | with_reducible intro _
    | rfl
    | split
    | (fail_if_no_progress clear_value *)

theorem memNote_only (a0 : Machine.Agent) (a1 : Bool) (a2 : Bool) (a3 : Nat) (a4 : Bool) (a5 : Bool) (a6 : Sys2Proof.Retry) (a7 : Sys2Proof.Retry) (s : State) :
    Only [.mbx, .mcs, .win, .ctr, .flash, .start] s (memNote a0 a1 a2 a3 a4 a5 a6 a7 s) := by
  unfold memNote
  repeat' first
    | with_reducible exact Only.refl _ _
    | with_reducible assumption
    | ((fail_if_no_progress extract_lets +onlyGivenNames x); try (refine Only.cut x ?_ ?_; rotate_left; intro _; clear_value x; rotate_left; unfold x))
    | with_reducible apply Only.foldl
    | with_reducible apply Only.ite
    | with_reducible apply Only.step (count_only _ _ _ _)
    | with_reducible apply Only.step (readOutcome_only _ _ _ _ _ _ _ _ _)
    | with_reducible apply Only.step (request_only _ _ _ _ _)
    | with_reducible apply Only.step (writeOutcome_only _ _ _ _)
    | with_reducible intro _
    | rfl
    | split

theorem xlateNote_only (a0 : Machine.Agent) (a1 : Nat) (a2 : Sys2Proof.MemEnv) (a3 : Bool) (a4 : Nat) (s : State) :
    Only [.mbx, .mcs, .xl, .win, .ctr, .flash, .start] s (xlateNote a0 a1 a2 a3 a4 s) := by
  have fill (c : Option Xl) : Only [.mbx, .mcs, .xl, .win, .ctr, .flash, .start] s (match c with
      | some _ => s
      | none =>
        let (l, e) := walk s a1 a2 (a4 % 2 ^ 48)
        let bad := a2.walk.any (fun a => a / 2 ^ 21 = a4 % 2 ^ 48 / 2 ^ 21)
        let s := if agentSite a0 < 36 then count (0x40 + agentSite a0) 35 1 (count (0x40 + agentSite a0) 34 1 s) else s
        let s := l.foldl (fun s a => memNote a0 false false a false false (if bad then .lasting else .clean) .clean s) s
        match e with
        | .ok e => { s with mem := { s.mem with xl := FMap.mod [] s.mem.xl (agentSite a0) (cachePut (agentSite a0) e) } }
        | .error _ => s) := by
    have k : Only [.mbx, .mcs, .xl, .win, .ctr, .flash, .start] s (if agentSite a0 < 36 then
        count (0x40 + agentSite a0) 35 1 (count (0x40 + agentSite a0) 34 1 s) else s) := by
      split
      · exact Only.step (count_only _ _ _ _) (Only.step (count_only _ _ _ _) (Only.refl _ _) rfl) rfl
      · exact Only.refl _ _
    cases c with
    | some c => exact Only.refl _ _
    | none =>
      have m := Only.foldl (l := (walk s a1 a2 (a4 % 2 ^ 48)).1) (f := fun s a => memNote a0 false false a false false
        (if a2.walk.any (fun a => a / 2 ^ 21 = a4 % 2 ^ 48 / 2 ^ 21) then .lasting else .clean) .clean s) k
        (fun u x => Only.step (memNote_only _ _ _ _ _ _ _ _ _) (Only.refl _ _) rfl)
      simp only
      split
      · exact Only.trans m (by intro p hp; cases p <;> first | rfl | exact ⟨rfl, rfl⟩ | exact ⟨rfl, rfl, rfl⟩ | exact absurd (by decide) hp)
      · exact m
  have k := fill (cached s (agentSite a0) a1 (a4 % 2 ^ 48))
  unfold xlateNote
  simp only at k ⊢
  split
  · exact Only.trans k (by intro p hp; cases p <;> first | rfl | exact ⟨rfl, rfl⟩ | exact ⟨rfl, rfl, rfl⟩ | exact absurd (by decide) hp)
  · exact k

theorem lineNote_only (a0 : Machine.Agent) (a1 : Nat) (a2 : Sys2Proof.MemEnv) (a3 : Bool) (a4 : Nat) (a5 : Nat) (s : State) :
    Only [.mbx, .mcs, .xl, .win, .ctr, .flash, .start] s (lineNote a0 a1 a2 a3 a4 a5 s) := by
  unfold lineNote
  repeat' first
    | with_reducible exact Only.refl _ _
    | with_reducible assumption
    | ((fail_if_no_progress extract_lets +onlyGivenNames x); try (refine Only.cut x ?_ ?_; rotate_left; intro _; clear_value x; rotate_left; unfold x))
    | with_reducible apply Only.foldl
    | with_reducible apply Only.ite
    | with_reducible apply Only.step (clearBad_only _ _)
    | with_reducible apply Only.step (csNote_only _ _ _ _ _)
    | with_reducible apply Only.step (memNote_only _ _ _ _ _ _ _ _ _)
    | with_reducible apply Only.step (xlateNote_only _ _ _ _ _ _)
    | with_reducible intro _
    | rfl
    | split

theorem storePhys_only (a0 : Nat) (a1 : List Sys2Proof.Byte) (s : State) :
    Only [.phys] s (storePhys a0 a1 s) := by
  unfold storePhys
  repeat' first
    | with_reducible exact Only.refl _ _
    | with_reducible assumption
    | ((fail_if_no_progress extract_lets +onlyGivenNames x); try (refine Only.cut x ?_ ?_; rotate_left; intro _; clear_value x; rotate_left; unfold x))
    | with_reducible apply Only.foldl
    | with_reducible apply Only.ite
    | with_reducible intro _
    | rfl
    | (fail_if_no_progress (with_reducible apply Only.upd); rotate_left; (intro p hp; cases p <;> first | rfl | exact ⟨rfl, rfl⟩ | exact ⟨rfl, rfl, rfl⟩ | exact absurd (by decide) hp))
    | split

theorem writeLines_only (a0 : Machine.Agent) (a1 : Nat) (a2 : Sys2Proof.MemEnv) (a3 : List (Nat × Nat)) (a4 : List Sys2Proof.Byte) (s : State) :
    Only [.mbx, .phys, .mcs, .xl, .win, .ctr, .flash, .start] s (writeLines a0 a1 a2 a3 a4 s).1 := by
  induction a3 generalizing a4 s with
  | nil => exact Only.refl _ _
  | cons x r ih =>
    unfold writeLines
    simp only
    split
    · exact Only.step (lineNote_only _ _ _ _ _ _ _) (Only.refl _ _) rfl
    · exact Only.trans (Only.step (storePhys_only _ _ _) (Only.step (lineNote_only _ _ _ _ _ _ _) (Only.refl _ _) rfl) rfl) (ih _ _)

theorem writeVa_only (a0 : Machine.Agent) (a1 : Nat) (a2 : Sys2Proof.MemEnv) (a3 : Nat) (a4 : List Sys2Proof.Byte) (s : State) :
    Only [.mbx, .phys, .mcs, .xl, .win, .ctr, .flash, .start] s (writeVa a0 a1 a2 a3 a4 s).1 := by
  unfold writeVa
  repeat' first
    | with_reducible exact Only.refl _ _
    | with_reducible assumption
    | ((fail_if_no_progress extract_lets +onlyGivenNames x); try (refine Only.cut x ?_ ?_; rotate_left; intro _; clear_value x; rotate_left; unfold x))
    | with_reducible apply Only.foldl
    | with_reducible apply Only.ite
    | with_reducible apply Only.step (writeLines_only _ _ _ _ _ _)
    | with_reducible intro _
    | rfl
    | with_reducible apply Only.ofFst ‹_ = (_, _)›
    | split

theorem writeRes_only (a0 : Machine.Par) (a1 : Nat × List Nat) (s : State) :
    Only [.mbx, .phys, .mcs, .xl, .win, .ctr, .flash, .start] s (writeRes a0 a1 s).1 := by
  unfold writeRes
  repeat' first
    | with_reducible exact Only.refl _ _
    | with_reducible assumption
    | ((fail_if_no_progress extract_lets +onlyGivenNames x); try (refine Only.cut x ?_ ?_; rotate_left; intro _; clear_value x; rotate_left; unfold x))
    | with_reducible apply Only.foldl
    | with_reducible apply Only.ite
    | with_reducible apply Only.step (writeVa_only _ _ _ _ _ _)
    | with_reducible intro _
    | rfl
    | with_reducible apply Only.ofFst ‹_ = (_, _)›
    | split

theorem doAct_only (a0 : Machine.Par) (a1 : Machine.Act) (s : State) :
    Only [.mbx, .work, .clusters, .tiles, .signals, .phys, .mcs, .xl, .win, .ctr, .fab, .eng, .led, .flash, .start] s (doAct a0 a1 s) := by
  unfold doAct
  have key : ∀ (l : List (Nat × List Nat)) (x : State × Option Fail), Only [.mbx, .phys, .mcs, .xl, .win, .ctr, .flash, .start] s x.1 →
      Only [.mbx, .phys, .mcs, .xl, .win, .ctr, .flash, .start] s (l.foldl (fun (x : State × Option Fail) w => match x.2 with
        | some _ => x
        | none => writeRes a0 w x.1) x).1 := by
    intro l
    induction l with
    | nil => exact fun x h => h
    | cons w r ih =>
      intro x h
      refine ih _ ?_
      show Only _ s (match x.2 with | some _ => x | none => writeRes a0 w x.1).1
      split
      · exact h
      · exact Only.step (writeRes_only _ _ _) h rfl
  have k0 := Only.step (ps := [.mbx, .work, .clusters, .tiles, .signals, .phys, .mcs, .xl, .win, .ctr, .fab, .eng, .led, .flash, .start]) (key a1.wr (s, none) (Only.refl _ _)) (Only.refl _ _) rfl
  simp only
  generalize (a1.wr.foldl (fun (x : State × Option Fail) w => match x.2 with
        | some _ => x
        | none => writeRes a0 w x.1) (s, none)) = y at k0
  obtain ⟨s', f⟩ := y
  clear key
  simp only at k0 ⊢
  repeat' first
    | with_reducible exact Only.refl _ _
    | with_reducible assumption
    | (fail_if_no_progress extract_lets +onlyGivenNames x)
    | with_reducible apply Only.foldl
    | with_reducible apply Only.step (event_only _ _ _ _ _)
    | with_reducible apply Only.step (failP_only _ _ _ _)
    | with_reducible apply Only.step (modP_only _ _ _)
    | with_reducible apply Only.step (moved_only _ _)
    | with_reducible apply Only.step (sendEmit_only _ _ _)
    | with_reducible apply Only.step (signalDone_only _ _)
    | with_reducible intro _
    | rfl
    | split

theorem modGroup_only (a0 : Nat) (a1 : Machine.Group → Machine.Group) (s : State) :
    Only [.eng] s (modGroup a0 a1 s) := by
  unfold modGroup
  repeat' first
    | with_reducible exact Only.refl _ _
    | with_reducible assumption
    | ((fail_if_no_progress extract_lets +onlyGivenNames x); try (refine Only.cut x ?_ ?_; rotate_left; intro _; clear_value x; rotate_left; unfold x))
    | with_reducible apply Only.foldl
    | with_reducible apply Only.ite
    | with_reducible apply Only.step (modEng_only _ _)
    | with_reducible intro _
    | rfl
    | split

theorem readsNote_only (a0 : Machine.Agent) (a1 : Nat) (a2 : Sys2Proof.MemEnv) (a3 : List (Nat × Nat)) (s : State) :
    Only [.mbx, .mcs, .xl, .win, .ctr, .flash, .start] s (readsNote a0 a1 a2 a3 s) := by
  induction a3 generalizing s with
  | nil => exact Only.refl _ _
  | cons x r ih =>
    unfold readsNote
    simp only
    split
    · exact Only.step (lineNote_only _ _ _ _ _ _ _) (Only.refl _ _) rfl
    · exact Only.trans (Only.step (lineNote_only _ _ _ _ _ _ _) (Only.refl _ _) rfl) (ih _)

theorem readNote_only (a0 : Machine.Agent) (a1 : Nat) (a2 : Sys2Proof.MemEnv) (a3 : Nat) (a4 : Nat) (s : State) :
    Only [.mbx, .mcs, .xl, .win, .ctr, .flash, .start] s (readNote a0 a1 a2 a3 a4 s) := by
  unfold readNote
  repeat' first
    | with_reducible exact Only.refl _ _
    | with_reducible assumption
    | ((fail_if_no_progress extract_lets +onlyGivenNames x); try (refine Only.cut x ?_ ?_; rotate_left; intro _; clear_value x; rotate_left; unfold x))
    | with_reducible apply Only.foldl
    | with_reducible apply Only.ite
    | with_reducible apply Only.step (readsNote_only _ _ _ _ _)
    | with_reducible intro _
    | rfl
    | split

theorem ownNote_only (a0 : Machine.Par) (a1 : Nat × Nat) (s : State) :
    Only [.mbx, .mcs, .xl, .win, .ctr, .flash, .start] s (ownNote a0 a1 s) := by
  unfold ownNote
  repeat' first
    | with_reducible exact Only.refl _ _
    | with_reducible assumption
    | ((fail_if_no_progress extract_lets +onlyGivenNames x); try (refine Only.cut x ?_ ?_; rotate_left; intro _; clear_value x; rotate_left; unfold x))
    | with_reducible apply Only.foldl
    | with_reducible apply Only.ite
    | with_reducible apply Only.step (readNote_only _ _ _ _ _ _)
    | with_reducible intro _
    | rfl
    | split

theorem wordNote_only (a0 : Machine.Par) (a1 : Nat) (s : State) :
    Only [.mbx, .mcs, .xl, .win, .ctr, .flash, .start] s (wordNote a0 a1 s) := by
  unfold wordNote
  repeat' first
    | with_reducible exact Only.refl _ _
    | with_reducible assumption
    | ((fail_if_no_progress extract_lets +onlyGivenNames x); try (refine Only.cut x ?_ ?_; rotate_left; intro _; clear_value x; rotate_left; unfold x))
    | with_reducible apply Only.foldl
    | with_reducible apply Only.ite
    | with_reducible apply Only.step (readNote_only _ _ _ _ _ _)
    | with_reducible intro _
    | rfl
    | split

theorem directGo_only (a0 : Machine.Par) (a1 : Nat) (s : State) :
    Only [.mbx, .work, .clusters, .tiles, .signals, .phys, .mcs, .xl, .win, .ctr, .fab, .eng, .led, .flash, .start] s (directGo a0 a1 s) := by
  induction a1 generalizing s with
  | zero => exact Only.refl _ _
  | succ n ih =>
    unfold directGo
    split
    · simp only
      split
      · exact Only.refl _ _
      · split
        · have k := wordNote_only a0 8 s
          generalize wordNote a0 8 s = u at k ⊢
          split
          · exact Only.step (failP_only _ _ _ _) (Only.step k (Only.refl _ _) rfl) rfl
          · split
            · exact Only.trans (Only.step (directPut_only _ _ _ _) (Only.step k (Only.refl _ _) rfl) rfl) (ih _)
            · exact Only.step k (Only.refl _ _) rfl
        · have k := wordNote_only a0 0 s
          generalize wordNote a0 0 s = u at k ⊢
          split
          · exact Only.step (failP_only _ _ _ _) (Only.step k (Only.refl _ _) rfl) rfl
          · rename_i w _ _ _ _
            have k : Only [.mbx, .work, .clusters, .tiles, .signals, .phys, .mcs, .xl, .win, .ctr, .fab, .eng, .led, .flash, .start] s w :=
              Only.step k (Only.refl _ _) rfl
            split
            · exact k
            · rename_i g _ _ _ _ _ _
              have k2 := fun b c => readNote_only a0.agent a0.ctx {} b c w
              split
              · rename_i h
                exact Only.step (failP_only _ _ _ _) (Only.step (k2 _ _) k rfl) rfl
              · have k3 : ∀ (l : List (Nat × Nat)) (u : State), Only [.mbx, .mcs, .xl, .win, .ctr, .flash, .start] u (l.foldl (fun s r => ownNote a0 r s) u) :=
                  fun l u => Only.foldl (Only.refl _ _) (fun u x => Only.step (ownNote_only _ _ _) (Only.refl _ _) rfl)
                split
                · exact Only.step (failP_only _ _ _ _) (Only.step (k3 _ _) (Only.step (k2 _ _) k rfl) rfl) rfl
                · exact Only.trans (Only.step (doAct_only _ _ _) (Only.step (directAdd_only _ _ _ _) (Only.step (modP_only _ _ _) (Only.step (modGroup_only _ _ _) (Only.step (k3 _ _) (Only.step (k2 _ _) k rfl) rfl) rfl) rfl) rfl) rfl) (ih _)
    · exact Only.refl _ _

theorem directPoke_only (a0 : Machine.Par) (s : State) :
    Only [.mbx, .work, .clusters, .tiles, .signals, .phys, .mcs, .xl, .win, .ctr, .fab, .eng, .led, .flash, .start] s (directPoke a0 s) := by
  unfold directPoke
  repeat' first
    | with_reducible exact Only.refl _ _
    | with_reducible assumption
    | ((fail_if_no_progress extract_lets +onlyGivenNames x); try (refine Only.cut x ?_ ?_; rotate_left; intro _; clear_value x; rotate_left; unfold x))
    | with_reducible apply Only.foldl
    | with_reducible apply Only.ite
    | with_reducible apply Only.step (directGo_only _ _ _)
    | with_reducible intro _
    | rfl
    | split

theorem collAcked_only (a0 : Sys2Proof.Pkt) (s : State) :
    Only [.mbx, .work, .clusters, .tiles, .signals, .phys, .mcs, .xl, .win, .ctr, .fab, .eng, .led, .flash, .start] s (collAcked a0 s) := by
  unfold collAcked
  repeat' first
    | with_reducible exact Only.refl _ _
    | with_reducible assumption
    | ((fail_if_no_progress extract_lets +onlyGivenNames x); try (refine Only.cut x ?_ ?_; rotate_left; intro _; clear_value x; rotate_left; unfold x))
    | with_reducible apply Only.foldl
    | with_reducible apply Only.ite
    | with_reducible apply Only.step (directAdd_only _ _ _ _)
    | with_reducible apply Only.step (directPoke_only _ _)
    | with_reducible apply Only.step (modP_only _ _ _)
    | with_reducible apply Only.step (moved_only _ _)
    | with_reducible intro _
    | rfl
    | split

theorem modOp_only (a0 : Sys2Proof.Half) (a1 : Nat) (a2 : Machine.Op → Machine.Op) (s : State) :
    Only [.eng] s (modOp a0 a1 a2 s) := by
  unfold modOp
  repeat' first
    | with_reducible exact Only.refl _ _
    | with_reducible assumption
    | ((fail_if_no_progress extract_lets +onlyGivenNames x); try (refine Only.cut x ?_ ?_; rotate_left; intro _; clear_value x; rotate_left; unfold x))
    | with_reducible apply Only.foldl
    | with_reducible apply Only.ite
    | with_reducible apply Only.step (modEng_only _ _)
    | with_reducible intro _
    | rfl
    | split

theorem freeResend_only (a0 : Machine.Resend) (s : State) :
    Only [.mbx, .work, .clusters, .tiles, .signals, .phys, .mcs, .xl, .win, .ctr, .fab, .eng, .led, .flash, .start] s (freeResend a0 s) := by
  unfold freeResend
  repeat' first
    | with_reducible exact Only.refl _ _
    | with_reducible assumption
    | ((fail_if_no_progress extract_lets +onlyGivenNames x); try (refine Only.cut x ?_ ?_; rotate_left; intro _; clear_value x; rotate_left; unfold x))
    | with_reducible apply Only.foldl
    | with_reducible apply Only.ite
    | with_reducible apply Only.step (atPort_only _ _ _ _ _)
    | with_reducible apply Only.step (collAcked_only _ _)
    | with_reducible apply Only.step (modFab_only _ _)
    | with_reducible apply Only.step (modOp_only _ _ _ _)
    | with_reducible intro _
    | rfl
    | split

theorem opFail_only (a0 : Sys2Proof.Half) (a1 : Nat) (a2 : Nat) (a3 : Nat) (s : State) :
    Only [.mbx, .work, .clusters, .tiles, .signals, .win, .ctr, .fab, .eng, .led] s (opFail a0 a1 a2 a3 s) := by
  unfold opFail
  repeat' first
    | with_reducible exact Only.refl _ _
    | with_reducible assumption
    | ((fail_if_no_progress extract_lets +onlyGivenNames x); try (refine Only.cut x ?_ ?_; rotate_left; intro _; clear_value x; rotate_left; unfold x))
    | with_reducible apply Only.foldl
    | with_reducible apply Only.ite
    | with_reducible apply Only.step (engineFail_only _ _ _ _ _ _ _)
    | with_reducible apply Only.step (modOp_only _ _ _ _)
    | with_reducible intro _
    | rfl
    | split

theorem ownerFail_only (a0 : Sys2Proof.Pkt) (a1 : Nat) (a2 : Nat) (s : State) :
    Only [.mbx, .work, .clusters, .tiles, .signals, .win, .ctr, .fab, .eng, .led] s (ownerFail a0 a1 a2 s) := by
  unfold ownerFail
  repeat' first
    | with_reducible exact Only.refl _ _
    | with_reducible assumption
    | ((fail_if_no_progress extract_lets +onlyGivenNames x); try (refine Only.cut x ?_ ?_; rotate_left; intro _; clear_value x; rotate_left; unfold x))
    | with_reducible apply Only.foldl
    | with_reducible apply Only.ite
    | with_reducible apply Only.step (collFail_only _ _ _ _ _ _)
    | with_reducible apply Only.step (opFail_only _ _ _ _ _)
    | with_reducible intro _
    | rfl
    | split

theorem ackOne_only (a0 : Sys2Proof.Pkt) (a1 : Machine.Resend) (s : State) :
    Only [.mbx, .work, .clusters, .tiles, .signals, .phys, .mcs, .xl, .win, .ctr, .fab, .eng, .led, .flash, .start] s (ackOne a0 a1 s) := by
  unfold ackOne
  repeat' first
    | with_reducible exact Only.refl _ _
    | with_reducible assumption
    | ((fail_if_no_progress extract_lets +onlyGivenNames x); try (refine Only.cut x ?_ ?_; rotate_left; intro _; clear_value x; rotate_left; unfold x))
    | with_reducible apply Only.foldl
    | with_reducible apply Only.ite
    | with_reducible apply Only.step (freeResend_only _ _)
    | with_reducible apply Only.step (modFab_only _ _)
    | with_reducible apply Only.step (ownerFail_only _ _ _ _)
    | with_reducible intro _
    | rfl
    | split

theorem plEvent_only (a0 : Nat) (a1 : Nat) (s : State) :
    Only [.ctr, .mgmt] s (plEvent a0 a1 s) := by
  unfold plEvent
  repeat' first
    | with_reducible exact Only.refl _ _
    | with_reducible assumption
    | ((fail_if_no_progress extract_lets +onlyGivenNames x); try (refine Only.cut x ?_ ?_; rotate_left; intro _; clear_value x; rotate_left; unfold x))
    | with_reducible apply Only.foldl
    | with_reducible apply Only.ite
    | with_reducible apply Only.step (countSat_only _ _ _ _)
    | with_reducible intro _
    | rfl
    | (fail_if_no_progress (with_reducible apply Only.upd); rotate_left; (intro p hp; cases p <;> first | rfl | exact ⟨rfl, rfl⟩ | exact ⟨rfl, rfl, rfl⟩ | exact absurd (by decide) hp))
    | split

theorem actDone_only (a0 : Nat) (s : State) :
    Only [.ctr, .start, .mgmt] s (actDone a0 s) := by
  unfold actDone
  repeat' first
    | with_reducible exact Only.refl _ _
    | with_reducible assumption
    | ((fail_if_no_progress extract_lets +onlyGivenNames x); try (refine Only.cut x ?_ ?_; rotate_left; intro _; clear_value x; rotate_left; unfold x))
    | with_reducible apply Only.foldl
    | with_reducible apply Only.ite
    | with_reducible apply Only.step (plEvent_only _ _ _)
    | with_reducible intro _
    | rfl
    | (fail_if_no_progress (with_reducible apply Only.upd); rotate_left; (intro p hp; cases p <;> first | rfl | exact ⟨rfl, rfl⟩ | exact ⟨rfl, rfl, rfl⟩ | exact absurd (by decide) hp))
    | split

theorem setSched_only (a0 : Nat) (a1 : Machine.SchedEntry) (s : State) :
    Only [.sched] s (setSched a0 a1 s) := by
  unfold setSched
  repeat' first
    | with_reducible exact Only.refl _ _
    | with_reducible assumption
    | ((fail_if_no_progress extract_lets +onlyGivenNames x); try (refine Only.cut x ?_ ?_; rotate_left; intro _; clear_value x; rotate_left; unfold x))
    | with_reducible apply Only.foldl
    | with_reducible apply Only.ite
    | with_reducible intro _
    | rfl
    | (fail_if_no_progress (with_reducible apply Only.upd); rotate_left; (intro p hp; cases p <;> first | rfl | exact ⟨rfl, rfl⟩ | exact ⟨rfl, rfl, rfl⟩ | exact absurd (by decide) hp))
    | split

theorem schedPut_only (a0 : Nat) (a1 : Nat) (a2 : Nat) (a3 : Nat) (a4 : Nat) (a5 : Bool) (a6 : Nat) (s : State) :
    Only [.sched, .fab] s (schedPut a0 a1 a2 a3 a4 a5 a6 s) := by
  unfold schedPut
  repeat' first
    | with_reducible exact Only.refl _ _
    | with_reducible assumption
    | ((fail_if_no_progress extract_lets +onlyGivenNames x); try (refine Only.cut x ?_ ?_; rotate_left; intro _; clear_value x; rotate_left; unfold x))
    | with_reducible apply Only.foldl
    | with_reducible apply Only.ite
    | with_reducible apply Only.step (setSched_only _ _ _)
    | with_reducible intro _
    | rfl
    | (fail_if_no_progress (with_reducible apply Only.upd); rotate_left; (intro p hp; cases p <;> first | rfl | exact ⟨rfl, rfl⟩ | exact ⟨rfl, rfl, rfl⟩ | exact absurd (by decide) hp))
    | split

theorem activate_only (a0 : Nat) (a1 : Nat) (a2 : Nat) (s : State) :
    Only [.sched, .fab, .start, .fw] s (repState (activate a0 a1 a2 s)) := by
  unfold activate
  repeat' first
    | with_reducible exact Only.refl _ _
    | with_reducible assumption
    | ((fail_if_no_progress extract_lets +onlyGivenNames x); try (refine Only.cut x ?_ ?_; rotate_left; intro _; clear_value x; rotate_left; unfold x))
    | with_reducible apply Only.foldl
    | with_reducible apply Only.ite
    | (fail_if_no_progress simp only [repState_ans, repState_stay, repState_badArg, repState_refuse, repState_okRep])
    | with_reducible apply Only.step (schedPut_only _ _ _ _ _ _ _ _)
    | with_reducible intro _
    | rfl
    | (fail_if_no_progress (with_reducible apply Only.upd); rotate_left; (intro p hp; cases p <;> first | rfl | exact ⟨rfl, rfl⟩ | exact ⟨rfl, rfl, rfl⟩ | exact absurd (by decide) hp))
    | split

theorem modCrown_only (a0 : Machine.Crown → Machine.Crown) (s : State) :
    Only [.crown] s (modCrown a0 s) := by
  unfold modCrown
  repeat' first
    | with_reducible exact Only.refl _ _
    | with_reducible assumption
    | ((fail_if_no_progress extract_lets +onlyGivenNames x); try (refine Only.cut x ?_ ?_; rotate_left; intro _; clear_value x; rotate_left; unfold x))
    | with_reducible apply Only.foldl
    | with_reducible apply Only.ite
    | with_reducible intro _
    | rfl
    | (fail_if_no_progress (with_reducible apply Only.upd); rotate_left; (intro p hp; cases p <;> first | rfl | exact ⟨rfl, rfl⟩ | exact ⟨rfl, rfl, rfl⟩ | exact absurd (by decide) hp))
    | split

theorem modMon_only (a0 : Sys2Proof.Half) (a1 : Machine.Monitor → Machine.Monitor) (s : State) :
    Only [.crown] s (modMon a0 a1 s) := by
  unfold modMon
  repeat' first
    | with_reducible exact Only.refl _ _
    | with_reducible assumption
    | ((fail_if_no_progress extract_lets +onlyGivenNames x); try (refine Only.cut x ?_ ?_; rotate_left; intro _; clear_value x; rotate_left; unfold x))
    | with_reducible apply Only.foldl
    | with_reducible apply Only.ite
    | with_reducible intro _
    | rfl
    | (fail_if_no_progress (with_reducible apply Only.upd); rotate_left; (intro p hp; cases p <;> first | rfl | exact ⟨rfl, rfl⟩ | exact ⟨rfl, rfl, rfl⟩ | exact absurd (by decide) hp))
    | split

theorem vector0_only (s : State) :
    Only [.mbx] s (vector0 s) := by
  unfold vector0
  repeat' first
    | with_reducible exact Only.refl _ _
    | with_reducible assumption
    | ((fail_if_no_progress extract_lets +onlyGivenNames x); try (refine Only.cut x ?_ ?_; rotate_left; intro _; clear_value x; rotate_left; unfold x))
    | with_reducible apply Only.foldl
    | with_reducible apply Only.ite
    | with_reducible apply Only.step (raiseVec_only _ _ _)
    | with_reducible intro _
    | rfl
    | split

theorem activateControl_only (a0 : Nat) (s : State) :
    Only [.mbx, .crown, .fw] s (activateControl a0 s) := by
  unfold activateControl
  repeat' first
    | with_reducible exact Only.refl _ _
    | with_reducible assumption
    | ((fail_if_no_progress extract_lets +onlyGivenNames x); try (refine Only.cut x ?_ ?_; rotate_left; intro _; clear_value x; rotate_left; unfold x))
    | with_reducible apply Only.foldl
    | with_reducible apply Only.ite
    | with_reducible apply Only.step (answerPage_only _ _ _ _ _)
    | with_reducible apply Only.step (modCrown_only _ _)
    | with_reducible apply Only.step (modMon_only _ _ _)
    | with_reducible apply Only.step (respond_only _ _ _ _ _)
    | with_reducible apply Only.step (vector0_only _)
    | with_reducible intro _
    | rfl
    | (fail_if_no_progress (with_reducible apply Only.upd); rotate_left; (intro p hp; cases p <;> first | rfl | exact ⟨rfl, rfl⟩ | exact ⟨rfl, rfl, rfl⟩ | exact absurd (by decide) hp))
    | split

theorem writeDir_only (a0 : Sys2Proof.Retry) (a1 : Machine.SlotDir) (s : State) :
    Only [.mbx, .win, .ctr, .flash, .start] s (writeDir a0 a1 s).2 := by
  unfold writeDir
  repeat' first
    | with_reducible exact Only.refl _ _
    | with_reducible assumption
    | ((fail_if_no_progress extract_lets +onlyGivenNames x); try (refine Only.cut x ?_ ?_; rotate_left; intro _; clear_value x; rotate_left; unfold x))
    | with_reducible apply Only.foldl
    | with_reducible apply Only.ite
    | with_reducible apply Only.step (flashTry_only _ _ _ _ _)
    | with_reducible intro _
    | rfl
    | (fail_if_no_progress (with_reducible apply Only.upd); rotate_left; (intro p hp; cases p <;> first | rfl | exact ⟨rfl, rfl⟩ | exact ⟨rfl, rfl, rfl⟩ | exact absurd (by decide) hp))
    | with_reducible apply Only.ofSnd ‹_ = (_, _)›
    | split
    | (fail_if_no_progress clear_value *)

theorem activateTiles_only (a0 : Nat) (s : State) :
    Only [.mbx, .clusters, .win, .ctr, .flash, .start, .fw] s (activateTiles a0 s) := by
  unfold activateTiles
  repeat' first
    | with_reducible exact Only.refl _ _
    | with_reducible assumption
    | ((fail_if_no_progress extract_lets +onlyGivenNames x); try (refine Only.cut x ?_ ?_; rotate_left; intro _; clear_value x; rotate_left; unfold x))
    | with_reducible apply Only.foldl
    | with_reducible apply Only.ite
    | with_reducible apply Only.step (modCluster_only _ _ _)
    | with_reducible apply Only.step (writeDir_only _ _ _)
    | with_reducible intro _
    | rfl
    | (fail_if_no_progress (with_reducible apply Only.upd); rotate_left; (intro p hp; cases p <;> first | rfl | exact ⟨rfl, rfl⟩ | exact ⟨rfl, rfl, rfl⟩ | exact absurd (by decide) hp))
    | with_reducible apply Only.ofSnd ‹_ = (_, _)›
    | split

theorem advance_only (a0 : Nat) (s : State) :
    Only [.time] s (advance a0 s) := by
  unfold advance
  repeat' first
    | with_reducible exact Only.refl _ _
    | with_reducible assumption
    | ((fail_if_no_progress extract_lets +onlyGivenNames x); try (refine Only.cut x ?_ ?_; rotate_left; intro _; clear_value x; rotate_left; unfold x))
    | with_reducible apply Only.foldl
    | with_reducible apply Only.ite
    | with_reducible intro _
    | rfl
    | (fail_if_no_progress (with_reducible apply Only.upd); rotate_left; (intro p hp; cases p <;> first | rfl | exact ⟨rfl, rfl⟩ | exact ⟨rfl, rfl, rfl⟩ | exact absurd (by decide) hp))
    | split

theorem issueSnoops_only (a0 : List Nat) (s : State) :
    Only [.snoop] s (issueSnoops a0 s) := by
  unfold issueSnoops
  repeat' first
    | with_reducible exact Only.refl _ _
    | with_reducible assumption
    | ((fail_if_no_progress extract_lets +onlyGivenNames x); try (refine Only.cut x ?_ ?_; rotate_left; intro _; clear_value x; rotate_left; unfold x))
    | with_reducible apply Only.foldl
    | with_reducible apply Only.ite
    | with_reducible intro _
    | rfl
    | (fail_if_no_progress (with_reducible apply Only.upd); rotate_left; (intro p hp; cases p <;> first | rfl | exact ⟨rfl, rfl⟩ | exact ⟨rfl, rfl, rfl⟩ | exact absurd (by decide) hp))
    | split

theorem reply_only (a0 : Nat) (a1 : List Sys2Proof.Byte) (s : State) :
    Only [.mgmt] s (reply a0 a1 s) := by
  unfold reply
  repeat' first
    | with_reducible exact Only.refl _ _
    | with_reducible assumption
    | ((fail_if_no_progress extract_lets +onlyGivenNames x); try (refine Only.cut x ?_ ?_; rotate_left; intro _; clear_value x; rotate_left; unfold x))
    | with_reducible apply Only.foldl
    | with_reducible apply Only.ite
    | with_reducible intro _
    | rfl
    | (fail_if_no_progress (with_reducible apply Only.upd); rotate_left; (intro p hp; cases p <;> first | rfl | exact ⟨rfl, rfl⟩ | exact ⟨rfl, rfl, rfl⟩ | exact absurd (by decide) hp))
    | split

theorem answerFaulty_only (s : State) :
    Only [.mbx] s (answerFaulty s) := by
  unfold answerFaulty
  repeat' first
    | with_reducible exact Only.refl _ _
    | with_reducible assumption
    | ((fail_if_no_progress extract_lets +onlyGivenNames x); try (refine Only.cut x ?_ ?_; rotate_left; intro _; clear_value x; rotate_left; unfold x))
    | with_reducible apply Only.foldl
    | with_reducible apply Only.ite
    | with_reducible apply Only.step (answerPage_only _ _ _ _ _)
    | with_reducible intro _
    | rfl
    | split

theorem requeue_only (a0 : Nat) (s : State) :
    Only [.mbx, .win, .ctr, .fab] s (requeue a0 s) := by
  unfold requeue
  repeat' first
    | with_reducible exact Only.refl _ _
    | with_reducible assumption
    | ((fail_if_no_progress extract_lets +onlyGivenNames x); try (refine Only.cut x ?_ ?_; rotate_left; intro _; clear_value x; rotate_left; unfold x))
    | with_reducible apply Only.foldl
    | with_reducible apply Only.ite
    | with_reducible apply Only.step (routeOn_only _ _ _)
    | with_reducible apply Only.step (setQueue_only _ _ _)
    | with_reducible intro _
    | rfl
    | with_reducible apply Only.ofFst ‹_ = (_, _)›
    | split

theorem setPortSt_only (a0 : Nat) (a1 : Nat) (s : State) :
    Only [.mbx, .win, .ctr, .fab] s (setPortSt a0 a1 s) := by
  unfold setPortSt
  repeat' first
    | with_reducible exact Only.refl _ _
    | with_reducible assumption
    | ((fail_if_no_progress extract_lets +onlyGivenNames x); try (refine Only.cut x ?_ ?_; rotate_left; intro _; clear_value x; rotate_left; unfold x))
    | with_reducible apply Only.foldl
    | with_reducible apply Only.ite
    | with_reducible apply Only.step (modPort_only _ _ _)
    | with_reducible apply Only.step (portEvent_only _ _ _)
    | with_reducible apply Only.step (requeue_only _ _)
    | with_reducible intro _
    | rfl
    | split

theorem train_only (a0 : Nat) (s : State) :
    Only [.mbx, .win, .ctr, .fab] s (train a0 s) := by
  unfold train
  repeat' first
    | with_reducible exact Only.refl _ _
    | with_reducible assumption
    | ((fail_if_no_progress extract_lets +onlyGivenNames x); try (refine Only.cut x ?_ ?_; rotate_left; intro _; clear_value x; rotate_left; unfold x))
    | with_reducible apply Only.foldl
    | with_reducible apply Only.ite
    | with_reducible apply Only.step (modPort_only _ _ _)
    | with_reducible apply Only.step (setPortSt_only _ _ _)
    | with_reducible intro _
    | rfl
    | split

theorem retrainQuiet_only (a0 : Nat) (s : State) :
    Only [.mbx, .win, .ctr, .fab] s (retrainQuiet a0 s) := by
  unfold retrainQuiet
  repeat' first
    | with_reducible exact Only.refl _ _
    | with_reducible assumption
    | ((fail_if_no_progress extract_lets +onlyGivenNames x); try (refine Only.cut x ?_ ?_; rotate_left; intro _; clear_value x; rotate_left; unfold x))
    | with_reducible apply Only.foldl
    | with_reducible apply Only.ite
    | with_reducible apply Only.step (modPort_only _ _ _)
    | with_reducible apply Only.step (train_only _ _)
    | with_reducible intro _
    | rfl
    | split

theorem endRun_only (a0 : Nat) (a1 : Machine.RunCmd) (s : State) :
    Only [.mbx, .win, .ctr, .fab] s (endRun a0 a1 s) := by
  unfold endRun
  repeat' first
    | with_reducible exact Only.refl _ _
    | with_reducible assumption
    | ((fail_if_no_progress extract_lets +onlyGivenNames x); try (refine Only.cut x ?_ ?_; rotate_left; intro _; clear_value x; rotate_left; unfold x))
    | with_reducible apply Only.foldl
    | with_reducible apply Only.ite
    | with_reducible apply Only.step (retrainQuiet_only _ _)
    | with_reducible apply Only.step (setRun_only _ _ _)
    | with_reducible intro _
    | rfl
    | split

theorem vacate_only (a0 : Nat × Option Machine.RunCmd) (s : State) :
    Only [.mbx, .win, .ctr, .fab] s (vacate a0 s) := by
  unfold vacate
  repeat' first
    | with_reducible exact Only.refl _ _
    | with_reducible assumption
    | ((fail_if_no_progress extract_lets +onlyGivenNames x); try (refine Only.cut x ?_ ?_; rotate_left; intro _; clear_value x; rotate_left; unfold x))
    | with_reducible apply Only.foldl
    | with_reducible apply Only.ite
    | with_reducible apply Only.step (endRun_only _ _ _)
    | with_reducible apply Only.step (setRun_only _ _ _)
    | with_reducible intro _
    | rfl
    | split

theorem answerTakeover_only (a0 : Sys2Proof.Half) (s : State) :
    Only [.mbx, .win, .ctr, .fab] s (answerTakeover a0 s) := by
  unfold answerTakeover
  repeat' first
    | with_reducible exact Only.refl _ _
    | with_reducible assumption
    | ((fail_if_no_progress extract_lets +onlyGivenNames x); try (refine Only.cut x ?_ ?_; rotate_left; intro _; clear_value x; rotate_left; unfold x))
    | with_reducible apply Only.foldl
    | with_reducible apply Only.ite
    | with_reducible apply Only.step (answerPage_only _ _ _ _ _)
    | with_reducible apply Only.step (vacate_only _ _)
    | with_reducible intro _
    | rfl
    | split
    | (fail_if_no_progress clear_value *)

theorem refusedNote_only (a0 : Machine.Agent) (a1 : Nat) (a2 : Sys2Proof.MemEnv) (a3 : List (Nat × Nat)) (s : State) :
    Only [.mbx, .mcs, .xl, .win, .ctr, .flash, .start] s (refusedNote a0 a1 a2 a3 s) := by
  induction a3 generalizing s with
  | nil => exact Only.refl _ _
  | cons x r ih =>
    unfold refusedNote
    simp only
    split
    · exact Only.step (lineNote_only _ _ _ _ _ _ _) (Only.refl _ _) rfl
    · exact Only.trans (Only.step (lineNote_only _ _ _ _ _ _ _) (Only.refl _ _) rfl) (ih _)

theorem applyAtomic_only (a0 : Sys2Proof.MemEnv) (a1 : Nat) (a2 : Machine.Part) (a3 : Sys2Proof.Pkt) (s : State) :
    Only [.mbx, .phys, .mcs, .xl, .win, .ctr, .fab, .flash, .start] s (applyAtomic a0 a1 a2 a3 s).1 := by
  unfold applyAtomic
  repeat' first
    | with_reducible exact Only.refl _ _
    | with_reducible assumption
    | ((fail_if_no_progress extract_lets +onlyGivenNames x); try (refine Only.cut x ?_ ?_; rotate_left; intro _; clear_value x; rotate_left; unfold x))
    | with_reducible apply Only.foldl
    | with_reducible apply Only.ite
    | with_reducible apply Only.step (readNote_only _ _ _ _ _ _)
    | with_reducible apply Only.step (refusedNote_only _ _ _ _ _)
    | with_reducible apply Only.step (sendOwn_only _ _)
    | with_reducible apply Only.step (writeVa_only _ _ _ _ _ _)
    | with_reducible intro _
    | rfl
    | with_reducible apply Only.ofFst ‹_ = (_, _)›
    | split

theorem settle_only (a0 : Nat) (s : State) :
    Only [.led] s (settle a0 s) := by
  unfold settle
  repeat' first
    | with_reducible exact Only.refl _ _
    | with_reducible assumption
    | ((fail_if_no_progress extract_lets +onlyGivenNames x); try (refine Only.cut x ?_ ?_; rotate_left; intro _; clear_value x; rotate_left; unfold x))
    | with_reducible apply Only.foldl
    | with_reducible apply Only.ite
    | with_reducible apply Only.step (modLed_only _ _)
    | with_reducible apply Only.step (setPool_only _ _ _)
    | with_reducible intro _
    | rfl
    | split

theorem closeReq_only (a0 : Machine.LedEvent) (a1 : Nat) (s : State) :
    Only [.mbx, .win, .ctr, .led] s (closeReq a0 a1 s) := by
  unfold closeReq
  repeat' first
    | with_reducible exact Only.refl _ _
    | with_reducible assumption
    | ((fail_if_no_progress extract_lets +onlyGivenNames x); try (refine Only.cut x ?_ ?_; rotate_left; intro _; clear_value x; rotate_left; unfold x))
    | with_reducible apply Only.foldl
    | with_reducible apply Only.ite
    | with_reducible apply Only.step (event_only _ _ _ _ _)
    | with_reducible apply Only.step (issue_only _ _)
    | with_reducible apply Only.step (modLed_only _ _)
    | with_reducible apply Only.step (settle_only _ _)
    | with_reducible intro _
    | rfl
    | split

theorem applyEvent_only (a0 : Machine.LedEvent) (s : State) :
    Only [.mbx, .win, .ctr, .led] s (applyEvent a0 s) := by
  unfold applyEvent
  repeat' first
    | with_reducible exact Only.refl _ _
    | with_reducible assumption
    | ((fail_if_no_progress extract_lets +onlyGivenNames x); try (refine Only.cut x ?_ ?_; rotate_left; intro _; clear_value x; rotate_left; unfold x))
    | with_reducible apply Only.foldl
    | with_reducible apply Only.ite
    | with_reducible apply Only.step (closeAccount_only _ _ _ _)
    | with_reducible apply Only.step (closeReq_only _ _ _)
    | with_reducible apply Only.step (event_only _ _ _ _ _)
    | with_reducible apply Only.step (modLed_only _ _)
    | with_reducible apply Only.step (setPool_only _ _ _)
    | with_reducible apply Only.step (settle_only _ _)
    | with_reducible intro _
    | rfl
    | split

theorem applyEvents_only (a0 : Nat) (s : State) :
    Only [.mbx, .win, .ctr, .led] s (applyEvents a0 s) := by
  unfold applyEvents
  repeat' first
    | with_reducible exact Only.refl _ _
    | with_reducible assumption
    | ((fail_if_no_progress extract_lets +onlyGivenNames x); try (refine Only.cut x ?_ ?_; rotate_left; intro _; clear_value x; rotate_left; unfold x))
    | with_reducible apply Only.foldl
    | with_reducible apply Only.ite
    | with_reducible apply Only.step (applyEvent_only _ _)
    | with_reducible apply Only.step (modLed_only _ _)
    | with_reducible intro _
    | rfl
    | split

theorem applyFactory_only (a0 : Nat × List Sys2Proof.Byte) (s : State) :
    Only [.flash, .start] s (applyFactory a0 s) := by
  unfold applyFactory
  repeat' first
    | with_reducible exact Only.refl _ _
    | with_reducible assumption
    | ((fail_if_no_progress extract_lets +onlyGivenNames x); try (refine Only.cut x ?_ ?_; rotate_left; intro _; clear_value x; rotate_left; unfold x))
    | with_reducible apply Only.foldl
    | with_reducible apply Only.ite
    | with_reducible intro _
    | rfl
    | (fail_if_no_progress (with_reducible apply Only.upd); rotate_left; (intro p hp; cases p <;> first | rfl | exact ⟨rfl, rfl⟩ | exact ⟨rfl, rfl, rfl⟩ | exact absurd (by decide) hp))
    | split

theorem applyGet_only (a0 : Sys2Proof.MemEnv) (a1 : Nat) (a2 : Machine.Part) (a3 : Sys2Proof.Pkt) (s : State) :
    Only [.mbx, .mcs, .xl, .win, .ctr, .fab, .flash, .start] s (applyGet a0 a1 a2 a3 s).1 := by
  unfold applyGet
  repeat' first
    | with_reducible exact Only.refl _ _
    | with_reducible assumption
    | ((fail_if_no_progress extract_lets +onlyGivenNames x); try (refine Only.cut x ?_ ?_; rotate_left; intro _; clear_value x; rotate_left; unfold x))
    | with_reducible apply Only.foldl
    | with_reducible apply Only.ite
    | with_reducible apply Only.step (readNote_only _ _ _ _ _ _)
    | with_reducible apply Only.step (sendOwn_only _ _)
    | with_reducible intro _
    | rfl
    | split

theorem capUpdate_only (s : State) :
    Only [.mbx, .win, .ctr, .power, .mgmt] s (capUpdate s) := by
  unfold capUpdate
  repeat' first
    | with_reducible exact Only.refl _ _
    | with_reducible assumption
    | ((fail_if_no_progress extract_lets +onlyGivenNames x); try (refine Only.cut x ?_ ?_; rotate_left; intro _; clear_value x; rotate_left; unfold x))
    | with_reducible apply Only.foldl
    | with_reducible apply Only.ite
    | with_reducible apply Only.step (event_only _ _ _ _ _)
    | with_reducible apply Only.step (plEvent_only _ _ _)
    | with_reducible intro _
    | rfl
    | (fail_if_no_progress (with_reducible apply Only.upd); rotate_left; (intro p hp; cases p <;> first | rfl | exact ⟨rfl, rfl⟩ | exact ⟨rfl, rfl, rfl⟩ | exact absurd (by decide) hp))
    | split

theorem changeRole_only (a0 : Nat) (s : State) :
    Only [.mbx, .win, .ctr, .fab] s (changeRole a0 s) := by
  unfold changeRole
  repeat' first
    | with_reducible exact Only.refl _ _
    | with_reducible assumption
    | ((fail_if_no_progress extract_lets +onlyGivenNames x); try (refine Only.cut x ?_ ?_; rotate_left; intro _; clear_value x; rotate_left; unfold x))
    | with_reducible apply Only.foldl
    | with_reducible apply Only.ite
    | with_reducible apply Only.step (modPort_only _ _ _)
    | with_reducible apply Only.step (retrainQuiet_only _ _)
    | with_reducible apply Only.step (setPortSt_only _ _ _)
    | with_reducible apply Only.step (train_only _ _)
    | with_reducible intro _
    | rfl
    | split

theorem modPower_only (a0 : Machine.Power → Machine.Power) (s : State) :
    Only [.power] s (modPower a0 s) := by
  unfold modPower
  repeat' first
    | with_reducible exact Only.refl _ _
    | with_reducible assumption
    | ((fail_if_no_progress extract_lets +onlyGivenNames x); try (refine Only.cut x ?_ ?_; rotate_left; intro _; clear_value x; rotate_left; unfold x))
    | with_reducible apply Only.foldl
    | with_reducible apply Only.ite
    | with_reducible intro _
    | rfl
    | (fail_if_no_progress (with_reducible apply Only.upd); rotate_left; (intro p hp; cases p <;> first | rfl | exact ⟨rfl, rfl⟩ | exact ⟨rfl, rfl, rfl⟩ | exact absurd (by decide) hp))
    | split

theorem nextMethod_only (s : State) :
    Only [.led] s (nextMethod s) := by
  unfold nextMethod
  repeat' first
    | with_reducible exact Only.refl _ _
    | with_reducible assumption
    | ((fail_if_no_progress extract_lets +onlyGivenNames x); try (refine Only.cut x ?_ ?_; rotate_left; intro _; clear_value x; rotate_left; unfold x))
    | with_reducible apply Only.foldl
    | with_reducible apply Only.ite
    | with_reducible apply Only.step (modLed_only _ _)
    | with_reducible intro _
    | rfl
    | split

theorem modTr_only (a0 : Sys2Proof.Half) (a1 : Machine.Trace → Machine.Trace) (s : State) :
    Only [.trA, .trB] s (modTr a0 a1 s) := by
  unfold modTr
  repeat' first
    | with_reducible exact Only.refl _ _
    | with_reducible assumption
    | ((fail_if_no_progress extract_lets +onlyGivenNames x); try (refine Only.cut x ?_ ?_; rotate_left; intro _; clear_value x; rotate_left; unfold x))
    | with_reducible apply Only.foldl
    | with_reducible apply Only.ite
    | with_reducible intro _
    | rfl
    | (fail_if_no_progress (with_reducible apply Only.upd); rotate_left; (intro p hp; cases p <;> first | rfl | exact ⟨rfl, rfl⟩ | exact ⟨rfl, rfl, rfl⟩ | exact absurd (by decide) hp))
    | split

theorem newRing_only (a0 : Nat) (s : State) :
    Only [.trA, .trB] s (newRing a0 s) := by
  unfold newRing
  repeat' first
    | with_reducible exact Only.refl _ _
    | with_reducible assumption
    | ((fail_if_no_progress extract_lets +onlyGivenNames x); try (refine Only.cut x ?_ ?_; rotate_left; intro _; clear_value x; rotate_left; unfold x))
    | with_reducible apply Only.foldl
    | with_reducible apply Only.ite
    | with_reducible apply Only.step (modTr_only _ _ _)
    | with_reducible intro _
    | rfl
    | split

theorem ringSize_only (a0 : Nat) (s : State) :
    Only [.trA, .trB] s (ringSize a0 s) := by
  unfold ringSize
  repeat' first
    | with_reducible exact Only.refl _ _
    | with_reducible assumption
    | ((fail_if_no_progress extract_lets +onlyGivenNames x); try (refine Only.cut x ?_ ?_; rotate_left; intro _; clear_value x; rotate_left; unfold x))
    | with_reducible apply Only.foldl
    | with_reducible apply Only.ite
    | with_reducible apply Only.step (modTr_only _ _ _)
    | with_reducible apply Only.step (newRing_only _ _)
    | with_reducible intro _
    | rfl
    | split

theorem applyKey_only (a0 : Nat) (s : State) :
    Only [.mbx, .mcs, .win, .ctr, .fab, .power, .led, .trA, .trB, .mgmt] s (applyKey a0 s) := by
  unfold applyKey
  repeat' first
    | with_reducible exact Only.refl _ _
    | with_reducible assumption
    | ((fail_if_no_progress extract_lets +onlyGivenNames x); try (refine Only.cut x ?_ ?_; rotate_left; intro _; clear_value x; rotate_left; unfold x))
    | with_reducible apply Only.foldl
    | with_reducible apply Only.ite
    | with_reducible apply Only.step (capUpdate_only _)
    | with_reducible apply Only.step (changeRole_only _ _)
    | with_reducible apply Only.step (modMc_only _ _ _)
    | with_reducible apply Only.step (modPower_only _ _)
    | with_reducible apply Only.step (nextMethod_only _)
    | with_reducible apply Only.step (ringSize_only _ _)
    | with_reducible intro _
    | rfl
    | split

theorem clearEntry_only (a0 : Sys2Proof.Half) (a1 : Nat) (a2 : Nat) (s : State) :
    Only [.eng] s (clearEntry a0 a1 a2 s) := by
  unfold clearEntry
  repeat' first
    | with_reducible exact Only.refl _ _
    | with_reducible assumption
    | ((fail_if_no_progress extract_lets +onlyGivenNames x); try (refine Only.cut x ?_ ?_; rotate_left; intro _; clear_value x; rotate_left; unfold x))
    | with_reducible apply Only.foldl
    | with_reducible apply Only.ite
    | with_reducible apply Only.step (modEng_only _ _)
    | with_reducible intro _
    | rfl
    | split

theorem postColl_only (a0 : Sys2Proof.Half) (a1 : Nat) (a2 : Nat) (a3 : Nat) (s : State) :
    Only [.mbx, .work, .clusters, .tiles, .signals, .win, .ctr, .fab, .eng, .led] s (postColl a0 a1 a2 a3 s) := by
  unfold postColl
  repeat' first
    | with_reducible exact Only.refl _ _
    | with_reducible assumption
    | ((fail_if_no_progress extract_lets +onlyGivenNames x); try (refine Only.cut x ?_ ?_; rotate_left; intro _; clear_value x; rotate_left; unfold x))
    | with_reducible apply Only.foldl
    | with_reducible apply Only.ite
    | with_reducible apply Only.step (clearEntry_only _ _ _ _)
    | with_reducible apply Only.step (count_only _ _ _ _)
    | with_reducible apply Only.step (engineFail_only _ _ _ _ _ _ _)
    | with_reducible apply Only.step (event_only _ _ _ _ _)
    | with_reducible apply Only.step (modColl_only _ _ _ _ _)
    | with_reducible apply Only.step (modEng_only _ _)
    | with_reducible intro _
    | rfl
    | split

theorem startOp_only (a0 : Sys2Proof.Half) (a1 : Nat) (a2 : Nat) (a3 : Nat) (s : State) :
    Only [.mbx, .work, .clusters, .tiles, .signals, .mcs, .xl, .win, .ctr, .fab, .eng, .led, .flash, .start] s (startOp a0 a1 a2 a3 s) := by
  unfold startOp
  repeat' first
    | with_reducible exact Only.refl _ _
    | with_reducible assumption
    | ((fail_if_no_progress extract_lets +onlyGivenNames x); try (refine Only.cut x ?_ ?_; rotate_left; intro _; clear_value x; rotate_left; unfold x))
    | with_reducible apply Only.foldl
    | with_reducible apply Only.ite
    | with_reducible apply Only.step (clearEntry_only _ _ _ _)
    | with_reducible apply Only.step (count_only _ _ _ _)
    | with_reducible apply Only.step (doneSignal_only _ _ _ _)
    | with_reducible apply Only.step (engineFail_only _ _ _ _ _ _ _)
    | with_reducible apply Only.step (modEng_only _ _)
    | with_reducible apply Only.step (pushSignal_only _ _)
    | with_reducible apply Only.step (readNote_only _ _ _ _ _ _)
    | with_reducible apply Only.step (sendOwn_only _ _)
    | with_reducible intro _
    | rfl
    | split
    | (fail_if_no_progress clear_value *)

theorem fireEntry_only (a0 : Sys2Proof.Half) (a1 : Nat) (a2 : Nat) (s : State) :
    Only [.mbx, .work, .clusters, .tiles, .signals, .mcs, .snoop, .xl, .win, .ctr, .fab, .eng, .led, .flash, .start] s (fireEntry a0 a1 a2 s) := by
  unfold fireEntry
  repeat' first
    | with_reducible exact Only.refl _ _
    | with_reducible assumption
    | ((fail_if_no_progress extract_lets +onlyGivenNames x); try (refine Only.cut x ?_ ?_; rotate_left; intro _; clear_value x; rotate_left; unfold x))
    | with_reducible apply Only.foldl
    | with_reducible apply Only.ite
    | with_reducible apply Only.step (issueSnoops_only _ _)
    | with_reducible apply Only.step (postColl_only _ _ _ _ _)
    | with_reducible apply Only.step (startOp_only _ _ _ _ _)
    | with_reducible intro _
    | rfl
    | split

theorem fireAll_only (a0 : Sys2Proof.Half) (a1 : Nat → Nat → Bool) (s : State) :
    Only [.mbx, .work, .clusters, .tiles, .signals, .mcs, .snoop, .xl, .win, .ctr, .fab, .eng, .led, .flash, .start] s (fireAll a0 a1 s) := by
  unfold fireAll
  repeat' first
    | with_reducible exact Only.refl _ _
    | with_reducible assumption
    | ((fail_if_no_progress extract_lets +onlyGivenNames x); try (refine Only.cut x ?_ ?_; rotate_left; intro _; clear_value x; rotate_left; unfold x))
    | with_reducible apply Only.foldl
    | with_reducible apply Only.ite
    | with_reducible apply Only.step (fireEntry_only _ _ _ _)
    | with_reducible intro _
    | rfl
    | split

theorem counterCycle_only (a0 : Sys2Proof.Half) (a1 : Nat) (a2 : Nat) (a3 : List Nat) (a4 : List Nat) (s : State) :
    Only [.mbx, .work, .clusters, .tiles, .signals, .mcs, .snoop, .xl, .win, .ctr, .fab, .eng, .led, .flash, .start] s (counterCycle a0 a1 a2 a3 a4 s) := by
  unfold counterCycle
  repeat' first
    | with_reducible exact Only.refl _ _
    | with_reducible assumption
    | ((fail_if_no_progress extract_lets +onlyGivenNames x); try (refine Only.cut x ?_ ?_; rotate_left; intro _; clear_value x; rotate_left; unfold x))
    | with_reducible apply Only.foldl
    | with_reducible apply Only.ite
    | with_reducible apply Only.step (event_only _ _ _ _ _)
    | with_reducible apply Only.step (fireAll_only _ _ _)
    | with_reducible apply Only.step (modEng_only _ _)
    | with_reducible intro _
    | rfl
    | split

theorem applyPut_only (a0 : Nat) (a1 : Machine.Part) (a2 : Sys2Proof.Pkt) (s : State) :
    Only [.mbx, .work, .clusters, .tiles, .signals, .phys, .mcs, .snoop, .xl, .win, .ctr, .fab, .eng, .led, .flash, .start] s (applyPut a0 a1 a2 s).1 := by
  unfold applyPut
  repeat' first
    | with_reducible exact Only.refl _ _
    | with_reducible assumption
    | ((fail_if_no_progress extract_lets +onlyGivenNames x); try (refine Only.cut x ?_ ?_; rotate_left; intro _; clear_value x; rotate_left; unfold x))
    | with_reducible apply Only.foldl
    | with_reducible apply Only.ite
    | with_reducible apply Only.step (counterCycle_only _ _ _ _ _ _)
    | with_reducible apply Only.step (refusedNote_only _ _ _ _ _)
    | with_reducible apply Only.step (writeVa_only _ _ _ _ _ _)
    | with_reducible intro _
    | rfl
    | with_reducible apply Only.ofFst ‹_ = (_, _)›
    | split

theorem applyResp_only (a0 : Nat) (a1 : Sys2Proof.Pkt) (s : State) :
    Only [.mbx, .work, .clusters, .tiles, .signals, .phys, .mcs, .xl, .win, .ctr, .fab, .eng, .led, .flash, .start] s (applyResp a0 a1 s) := by
  unfold applyResp
  repeat' first
    | with_reducible exact Only.refl _ _
    | with_reducible assumption
    | ((fail_if_no_progress extract_lets +onlyGivenNames x); try (refine Only.cut x ?_ ?_; rotate_left; intro _; clear_value x; rotate_left; unfold x))
    | with_reducible apply Only.foldl
    | with_reducible apply Only.ite
    | with_reducible apply Only.step (modOp_only _ _ _ _)
    | with_reducible apply Only.step (opFail_only _ _ _ _ _)
    | with_reducible apply Only.step (writeVa_only _ _ _ _ _ _)
    | with_reducible intro _
    | rfl
    | with_reducible apply Only.ofFst ‹_ = (_, _)›
    | split

theorem flushWait_only (a0 : Machine.Par) (a1 : Nat) (s : State) :
    Only [.mbx, .win, .ctr, .fab, .eng] s (flushWait a0 a1 s) := by
  unfold flushWait
  repeat' first
    | with_reducible exact Only.refl _ _
    | with_reducible assumption
    | ((fail_if_no_progress extract_lets +onlyGivenNames x); try (refine Only.cut x ?_ ?_; rotate_left; intro _; clear_value x; rotate_left; unfold x))
    | with_reducible apply Only.foldl
    | with_reducible apply Only.ite
    | with_reducible apply Only.step (modP_only _ _ _)
    | with_reducible apply Only.step (sendColl_only _ _ _ _ _)
    | with_reducible intro _
    | rfl
    | split

theorem setDigBit_only (a0 : Sys2Proof.Half) (a1 : Nat) (a2 : Bool) (s : State) :
    Only [.fab] s (setDigBit a0 a1 a2 s) := by
  unfold setDigBit
  repeat' first
    | with_reducible exact Only.refl _ _
    | with_reducible assumption
    | ((fail_if_no_progress extract_lets +onlyGivenNames x); try (refine Only.cut x ?_ ?_; rotate_left; intro _; clear_value x; rotate_left; unfold x))
    | with_reducible apply Only.foldl
    | with_reducible apply Only.ite
    | with_reducible apply Only.step (modFab_only _ _)
    | with_reducible intro _
    | rfl
    | split

theorem applyRndv_only (a0 : Sys2Proof.Pkt) (s : State) :
    Only [.mbx, .win, .ctr, .fab, .eng] s (applyRndv a0 s) := by
  unfold applyRndv
  repeat' first
    | with_reducible exact Only.refl _ _
    | with_reducible assumption
    | ((fail_if_no_progress extract_lets +onlyGivenNames x); try (refine Only.cut x ?_ ?_; rotate_left; intro _; clear_value x; rotate_left; unfold x))
    | with_reducible apply Only.foldl
    | with_reducible apply Only.ite
    | with_reducible apply Only.step (event_only _ _ _ _ _)
    | with_reducible apply Only.step (flushWait_only _ _ _)
    | with_reducible apply Only.step (modGroup_only _ _ _)
    | with_reducible apply Only.step (moved_only _ _)
    | with_reducible apply Only.step (setDigBit_only _ _ _ _)
    | with_reducible intro _
    | rfl
    | split

theorem chunkApply_only (a0 : Machine.Par) (a1 : Sys2Proof.Pkt) (s : State) :
    Only [.mbx, .work, .clusters, .tiles, .signals, .phys, .mcs, .xl, .win, .ctr, .fab, .eng, .led, .flash, .start] s (chunkApply a0 a1 s) := by
  unfold chunkApply
  repeat' first
    | with_reducible exact Only.refl _ _
    | with_reducible assumption
    | ((fail_if_no_progress extract_lets +onlyGivenNames x); try (refine Only.cut x ?_ ?_; rotate_left; intro _; clear_value x; rotate_left; unfold x))
    | with_reducible apply Only.foldl
    | with_reducible apply Only.ite
    | with_reducible apply Only.step (doAct_only _ _ _)
    | with_reducible intro _
    | rfl
    | split

theorem collTouched_only (a0 : Sys2Proof.Pkt) (s : State) :
    Only [.eng] s (collTouched a0 s) := by
  unfold collTouched
  repeat' first
    | with_reducible exact Only.refl _ _
    | with_reducible assumption
    | ((fail_if_no_progress extract_lets +onlyGivenNames x); try (refine Only.cut x ?_ ?_; rotate_left; intro _; clear_value x; rotate_left; unfold x))
    | with_reducible apply Only.foldl
    | with_reducible apply Only.ite
    | with_reducible apply Only.step (modColl_only _ _ _ _ _)
    | with_reducible intro _
    | rfl
    | split

theorem pokeAll_only (s : State) :
    Only [.mbx, .work, .clusters, .tiles, .signals, .phys, .mcs, .xl, .win, .ctr, .fab, .eng, .led, .flash, .start] s (pokeAll s) := by
  unfold pokeAll
  repeat' first
    | with_reducible exact Only.refl _ _
    | with_reducible assumption
    | ((fail_if_no_progress extract_lets +onlyGivenNames x); try (refine Only.cut x ?_ ?_; rotate_left; intro _; clear_value x; rotate_left; unfold x))
    | with_reducible apply Only.foldl
    | with_reducible apply Only.ite
    | with_reducible apply Only.step (directPoke_only _ _)
    | with_reducible intro _
    | rfl
    | split

theorem pumpBatts_only (a0 : Machine.Par) (a1 : Nat) (s : State) :
    Only [.mbx, .work, .clusters, .tiles, .signals, .phys, .mcs, .xl, .win, .ctr, .fab, .eng, .led, .flash, .start] s (pumpBatts a0 a1 s) := by
  induction a1 generalizing s with
  | zero => exact Only.refl _ _
  | succ n ih =>
    unfold pumpBatts
    split
    · exact Only.refl _ _
    · rename_i c _
      split
      · exact Only.refl _ _
      · have k := ownNote_only a0 (a0.battAt c.batts) s
        simp only
        generalize ownNote a0 _ s = u at k ⊢
        split
        · exact Only.step (failP_only _ _ _ _) (Only.step k (Only.refl _ _) rfl) rfl
        · exact Only.trans (Only.step (doAct_only _ _ _) (Only.step (modP_only _ _ _) (Only.step k (Only.refl _ _) rfl) rfl) rfl) (ih _)

theorem reduceApply_only (a0 : Sys2Proof.Pkt) (s : State) :
    Only [.mbx, .work, .clusters, .tiles, .signals, .phys, .mcs, .xl, .win, .ctr, .fab, .eng, .led, .flash, .start] s (reduceApply a0 s) := by
  unfold reduceApply
  repeat' first
    | with_reducible exact Only.refl _ _
    | with_reducible assumption
    | ((fail_if_no_progress extract_lets +onlyGivenNames x); try (refine Only.cut x ?_ ?_; rotate_left; intro _; clear_value x; rotate_left; unfold x))
    | with_reducible apply Only.foldl
    | with_reducible apply Only.ite
    | with_reducible apply Only.step (doAct_only _ _ _)
    | with_reducible apply Only.step (failP_only _ _ _ _)
    | with_reducible apply Only.step (modP_only _ _ _)
    | with_reducible apply Only.step (moved_only _ _)
    | with_reducible apply Only.step (ownNote_only _ _ _)
    | with_reducible apply Only.step (pumpBatts_only _ _ _)
    | with_reducible apply Only.step (sendEmit_only _ _ _)
    | with_reducible intro _
    | rfl
    | split

theorem applyPkt_only (a0 : Sys2Proof.MemEnv) (a1 : Sys2Proof.Pkt) (s : State) :
    Only [.mbx, .work, .clusters, .tiles, .signals, .phys, .mcs, .snoop, .xl, .win, .ctr, .fab, .eng, .led, .flash, .start] s (applyPkt a0 a1 s).1 := by
  unfold applyPkt
  repeat' first
    | with_reducible exact Only.refl _ _
    | with_reducible assumption
    | ((fail_if_no_progress extract_lets +onlyGivenNames x); try (refine Only.cut x ?_ ?_; rotate_left; intro _; clear_value x; rotate_left; unfold x))
    | with_reducible apply Only.foldl
    | with_reducible apply Only.ite
    | with_reducible apply Only.step (applyAtomic_only _ _ _ _ _)
    | with_reducible apply Only.step (applyGet_only _ _ _ _ _)
    | with_reducible apply Only.step (applyPut_only _ _ _ _)
    | with_reducible apply Only.step (applyResp_only _ _ _)
    | with_reducible apply Only.step (applyRndv_only _ _)
    | with_reducible apply Only.step (chunkApply_only _ _ _)
    | with_reducible apply Only.step (collTouched_only _ _)
    | with_reducible apply Only.step (count_only _ _ _ _)
    | with_reducible apply Only.step (counterCycle_only _ _ _ _ _ _)
    | with_reducible apply Only.step (pokeAll_only _)
    | with_reducible apply Only.step (reduceApply_only _ _)
    | with_reducible intro _
    | rfl
    | with_reducible apply Only.ofFst ‹_ = (_, _)›
    | split

theorem modCxl_only (a0 : Sys2Proof.Half) (a1 : Machine.Cxl → Machine.Cxl) (s : State) :
    Only [.cxlA, .cxlB] s (modCxl a0 a1 s) := by
  unfold modCxl
  repeat' first
    | with_reducible exact Only.refl _ _
    | with_reducible assumption
    | ((fail_if_no_progress extract_lets +onlyGivenNames x); try (refine Only.cut x ?_ ?_; rotate_left; intro _; clear_value x; rotate_left; unfold x))
    | with_reducible apply Only.foldl
    | with_reducible apply Only.ite
    | with_reducible intro _
    | rfl
    | (fail_if_no_progress (with_reducible apply Only.upd); rotate_left; (intro p hp; cases p <;> first | rfl | exact ⟨rfl, rfl⟩ | exact ⟨rfl, rfl, rfl⟩ | exact absurd (by decide) hp))
    | split

theorem sendLoose_only (a0 : Sys2Proof.Pkt) (s : State) :
    Only [.mbx, .win, .ctr, .fab] s (sendLoose a0 s) := by
  unfold sendLoose
  repeat' first
    | with_reducible exact Only.refl _ _
    | with_reducible assumption
    | ((fail_if_no_progress extract_lets +onlyGivenNames x); try (refine Only.cut x ?_ ?_; rotate_left; intro _; clear_value x; rotate_left; unfold x))
    | with_reducible apply Only.foldl
    | with_reducible apply Only.ite
    | with_reducible apply Only.step (routeOwn_only _ _)
    | with_reducible intro _
    | rfl
    | with_reducible apply Only.ofFst ‹_ = (_, _)›
    | split

theorem setFlow_only (a0 : Sys2Proof.Pkt) (a1 : Machine.RxFlow) (s : State) :
    Only [.fab] s (setFlow a0 a1 s) := by
  unfold setFlow
  repeat' first
    | with_reducible exact Only.refl _ _
    | with_reducible assumption
    | ((fail_if_no_progress extract_lets +onlyGivenNames x); try (refine Only.cut x ?_ ?_; rotate_left; intro _; clear_value x; rotate_left; unfold x))
    | with_reducible apply Only.foldl
    | with_reducible apply Only.ite
    | with_reducible apply Only.step (modFab_only _ _)
    | with_reducible intro _
    | rfl
    | split

theorem sendAck_only (a0 : Sys2Proof.Pkt) (s : State) :
    Only [.mbx, .win, .ctr, .fab] s (sendAck a0 s) := by
  unfold sendAck
  repeat' first
    | with_reducible exact Only.refl _ _
    | with_reducible assumption
    | ((fail_if_no_progress extract_lets +onlyGivenNames x); try (refine Only.cut x ?_ ?_; rotate_left; intro _; clear_value x; rotate_left; unfold x))
    | with_reducible apply Only.foldl
    | with_reducible apply Only.ite
    | with_reducible apply Only.step (sendLoose_only _ _)
    | with_reducible apply Only.step (setFlow_only _ _ _)
    | with_reducible intro _
    | rfl
    | split

theorem sendRefusal_only (a0 : Sys2Proof.Pkt) (a1 : Nat) (s : State) :
    Only [.mbx, .win, .ctr, .fab] s (sendRefusal a0 a1 s) := by
  unfold sendRefusal
  repeat' first
    | with_reducible exact Only.refl _ _
    | with_reducible assumption
    | ((fail_if_no_progress extract_lets +onlyGivenNames x); try (refine Only.cut x ?_ ?_; rotate_left; intro _; clear_value x; rotate_left; unfold x))
    | with_reducible apply Only.foldl
    | with_reducible apply Only.ite
    | with_reducible apply Only.step (sendLoose_only _ _)
    | with_reducible apply Only.step (setFlow_only _ _ _)
    | with_reducible intro _
    | rfl
    | split

theorem runFlow_only (a0 : Sys2Proof.MemEnv) (a1 : Sys2Proof.Pkt) (a2 : Nat) (s : State) :
    Only [.mbx, .work, .clusters, .tiles, .signals, .phys, .mcs, .snoop, .xl, .win, .ctr, .fab, .eng, .led, .flash, .start] s (runFlow a0 a1 a2 s) := by
  induction a2 generalizing s with
  | zero => exact Only.refl _ _
  | succ n ih =>
    unfold runFlow
    simp only
    split
    · exact Only.step (setFlow_only _ _ _) (Only.refl _ _) rfl
    · split
      · exact Only.refl _ _
      · split
        · exact Only.step (issueSnoops_only _ _) (Only.refl _ _) rfl
        · refine Only.trans ?_ (ih _)
          split
          · exact Only.step (sendRefusal_only _ _ _) (Only.step (applyPkt_only _ _ _) (Only.step (setFlow_only _ _ _) (Only.refl _ _) rfl) rfl) rfl
          · split
            · exact Only.step (sendAck_only _ _) (Only.step (applyPkt_only _ _ _) (Only.step (setFlow_only _ _ _) (Only.refl _ _) rfl) rfl) rfl
            · exact Only.step (applyPkt_only _ _ _) (Only.step (setFlow_only _ _ _) (Only.refl _ _) rfl) rfl

theorem wakeEngines_only (s : State) :
    Only [.mbx, .work, .clusters, .tiles, .signals, .phys, .mcs, .snoop, .xl, .win, .ctr, .fab, .eng, .led, .flash, .start] s (wakeEngines s) := by
  unfold wakeEngines
  repeat' first
    | with_reducible exact Only.refl _ _
    | with_reducible assumption
    | ((fail_if_no_progress extract_lets +onlyGivenNames x); try (refine Only.cut x ?_ ?_; rotate_left; intro _; clear_value x; rotate_left; unfold x))
    | with_reducible apply Only.foldl
    | with_reducible apply Only.ite
    | with_reducible apply Only.step (fireAll_only _ _ _)
    | with_reducible apply Only.step (pokeAll_only _)
    | with_reducible apply Only.step (runFlow_only _ _ _ _)
    | with_reducible intro _
    | rfl
    | split

theorem dropFilter_only (s : State) :
    Only [.mbx, .work, .clusters, .tiles, .signals, .phys, .mcs, .snoop, .xl, .win, .ctr, .fab, .eng, .led, .flash, .start] s (dropFilter s) := by
  unfold dropFilter
  repeat' first
    | with_reducible exact Only.refl _ _
    | with_reducible assumption
    | ((fail_if_no_progress extract_lets +onlyGivenNames x); try (refine Only.cut x ?_ ?_; rotate_left; intro _; clear_value x; rotate_left; unfold x))
    | with_reducible apply Only.foldl
    | with_reducible apply Only.ite
    | with_reducible apply Only.step (wakeEngines_only _)
    | with_reducible intro _
    | rfl
    | (fail_if_no_progress (with_reducible apply Only.upd); rotate_left; (intro p hp; cases p <;> first | rfl | exact ⟨rfl, rfl⟩ | exact ⟨rfl, rfl, rfl⟩ | exact absurd (by decide) hp))
    | split

theorem portStops_only (a0 : Sys2Proof.Half) (a1 : Machine.Cxl → Machine.Cxl) (s : State) :
    Only [.mbx, .work, .clusters, .tiles, .signals, .phys, .mcs, .snoop, .xl, .win, .ctr, .fab, .eng, .led, .flash, .start, .cxlA, .cxlB] s (portStops a0 a1 s) := by
  unfold portStops
  repeat' first
    | with_reducible exact Only.refl _ _
    | with_reducible assumption
    | ((fail_if_no_progress extract_lets +onlyGivenNames x); try (refine Only.cut x ?_ ?_; rotate_left; intro _; clear_value x; rotate_left; unfold x))
    | with_reducible apply Only.foldl
    | with_reducible apply Only.ite
    | with_reducible apply Only.step (dropFilter_only _)
    | with_reducible apply Only.step (modCxl_only _ _ _)
    | with_reducible intro _
    | rfl
    | split

theorem applyStage_only (a0 : Nat) (a1 : Bool) (s : State) :
    Only [.mbx, .work, .clusters, .tiles, .signals, .phys, .mcs, .snoop, .xl, .win, .ctr, .fab, .eng, .led, .flash, .start, .cxlA, .cxlB] s (applyStage a0 a1 s) := by
  unfold applyStage
  repeat' first
    | with_reducible exact Only.refl _ _
    | with_reducible assumption
    | ((fail_if_no_progress extract_lets +onlyGivenNames x); try (refine Only.cut x ?_ ?_; rotate_left; intro _; clear_value x; rotate_left; unfold x))
    | with_reducible apply Only.foldl
    | with_reducible apply Only.ite
    | with_reducible apply Only.step (modCxl_only _ _ _)
    | with_reducible apply Only.step (portStops_only _ _ _)
    | with_reducible intro _
    | rfl
    | split

theorem mgmtEffect_only (a0 : Nat) (a1 : Nat) (s : State) :
    Only [.power] s (mgmtEffect a0 a1 s) := by
  unfold mgmtEffect
  repeat' first
    | with_reducible exact Only.refl _ _
    | with_reducible assumption
    | ((fail_if_no_progress extract_lets +onlyGivenNames x); try (refine Only.cut x ?_ ?_; rotate_left; intro _; clear_value x; rotate_left; unfold x))
    | with_reducible apply Only.foldl
    | with_reducible apply Only.ite
    | with_reducible apply Only.step (modPower_only _ _)
    | with_reducible intro _
    | rfl
    | split

theorem applyTarget_only (a0 : Nat) (s : State) :
    Only [.power] s (applyTarget a0 s) := by
  unfold applyTarget
  repeat' first
    | with_reducible exact Only.refl _ _
    | with_reducible assumption
    | ((fail_if_no_progress extract_lets +onlyGivenNames x); try (refine Only.cut x ?_ ?_; rotate_left; intro _; clear_value x; rotate_left; unfold x))
    | with_reducible apply Only.foldl
    | with_reducible apply Only.ite
    | with_reducible apply Only.step (mgmtEffect_only _ _ _)
    | with_reducible apply Only.step (modPower_only _ _)
    | with_reducible intro _
    | rfl
    | split

theorem armEntry_only (a0 : Sys2Proof.Half) (a1 : Nat) (a2 : Nat) (a3 : Nat) (s : State) :
    Only [.mbx, .work, .clusters, .tiles, .signals, .mcs, .snoop, .xl, .win, .ctr, .fab, .eng, .led, .flash, .start] s (armEntry a0 a1 a2 a3 s) := by
  unfold armEntry
  repeat' first
    | with_reducible exact Only.refl _ _
    | with_reducible assumption
    | ((fail_if_no_progress extract_lets +onlyGivenNames x); try (refine Only.cut x ?_ ?_; rotate_left; intro _; clear_value x; rotate_left; unfold x))
    | with_reducible apply Only.foldl
    | with_reducible apply Only.ite
    | with_reducible apply Only.step (fireEntry_only _ _ _ _)
    | with_reducible apply Only.step (modEng_only _ _)
    | with_reducible intro _
    | rfl
    | split

theorem rxCount_only (a0 : Nat) (a1 : Nat) (a2 : Nat) (s : State) :
    Only [.fab] s (rxCount a0 a1 a2 s) := by
  unfold rxCount
  repeat' first
    | with_reducible exact Only.refl _ _
    | with_reducible assumption
    | ((fail_if_no_progress extract_lets +onlyGivenNames x); try (refine Only.cut x ?_ ?_; rotate_left; intro _; clear_value x; rotate_left; unfold x))
    | with_reducible apply Only.foldl
    | with_reducible apply Only.ite
    | with_reducible apply Only.step (modPort_only _ _ _)
    | with_reducible intro _
    | rfl
    | split

theorem rxOne_only (a0 : Nat) (s : State) :
    Only [.ctr, .fab] s (rxOne a0 s) := by
  unfold rxOne
  repeat' first
    | with_reducible exact Only.refl _ _
    | with_reducible assumption
    | ((fail_if_no_progress extract_lets +onlyGivenNames x); try (refine Only.cut x ?_ ?_; rotate_left; intro _; clear_value x; rotate_left; unfold x))
    | with_reducible apply Only.foldl
    | with_reducible apply Only.ite
    | with_reducible apply Only.step (count_only _ _ _ _)
    | with_reducible apply Only.step (modPort_only _ _ _)
    | with_reducible apply Only.step (rxCount_only _ _ _ _)
    | with_reducible intro _
    | rfl
    | split

theorem armNotice_only (a0 : Nat) (a1 : Nat) (a2 : Sys2Proof.Pkt) (s : State) :
    Only [.ctr, .fab] s (armNotice a0 a1 a2 s) := by
  unfold armNotice
  repeat' first
    | with_reducible exact Only.refl _ _
    | with_reducible assumption
    | ((fail_if_no_progress extract_lets +onlyGivenNames x); try (refine Only.cut x ?_ ?_; rotate_left; intro _; clear_value x; rotate_left; unfold x))
    | with_reducible apply Only.foldl
    | with_reducible apply Only.ite
    | with_reducible apply Only.step (count_only _ _ _ _)
    | with_reducible apply Only.step (modFab_only _ _)
    | with_reducible apply Only.step (rxOne_only _ _)
    | with_reducible intro _
    | rfl
    | split

theorem sendBusy_only (a0 : Sys2Proof.Pkt) (s : State) :
    Only [.mbx, .win, .ctr, .fab] s (sendBusy a0 s) := by
  unfold sendBusy
  repeat' first
    | with_reducible exact Only.refl _ _
    | with_reducible assumption
    | ((fail_if_no_progress extract_lets +onlyGivenNames x); try (refine Only.cut x ?_ ?_; rotate_left; intro _; clear_value x; rotate_left; unfold x))
    | with_reducible apply Only.foldl
    | with_reducible apply Only.ite
    | with_reducible apply Only.step (sendLoose_only _ _)
    | with_reducible intro _
    | rfl
    | split

theorem arrive_only (a0 : Nat) (a1 : Nat) (a2 : Sys2Proof.Pkt) (a3 : Sys2Proof.MemEnv) (s : State) :
    Only [.mbx, .work, .clusters, .tiles, .signals, .phys, .mcs, .snoop, .xl, .win, .ctr, .fab, .eng, .led, .flash, .start] s (arrive a0 a1 a2 a3 s) := by
  unfold arrive
  repeat' first
    | with_reducible exact Only.refl _ _
    | with_reducible assumption
    | ((fail_if_no_progress extract_lets +onlyGivenNames x); try (refine Only.cut x ?_ ?_; rotate_left; intro _; clear_value x; rotate_left; unfold x))
    | with_reducible apply Only.foldl
    | with_reducible apply Only.ite
    | with_reducible apply Only.step (count_only _ _ _ _)
    | with_reducible apply Only.step (portEvent_only _ _ _)
    | with_reducible apply Only.step (runFlow_only _ _ _ _)
    | with_reducible apply Only.step (sendAck_only _ _)
    | with_reducible apply Only.step (sendBusy_only _ _)
    | with_reducible apply Only.step (setFlow_only _ _ _)
    | with_reducible intro _
    | rfl
    | split

theorem brakeStart_only (a0 : Bool) (s : State) :
    Only [.mbx, .win, .ctr] s (brakeStart a0 s) := by
  unfold brakeStart
  repeat' first
    | with_reducible exact Only.refl _ _
    | with_reducible assumption
    | ((fail_if_no_progress extract_lets +onlyGivenNames x); try (refine Only.cut x ?_ ?_; rotate_left; intro _; clear_value x; rotate_left; unfold x))
    | with_reducible apply Only.foldl
    | with_reducible apply Only.ite
    | with_reducible apply Only.step (event_only _ _ _ _ _)
    | with_reducible intro _
    | rfl
    | split

theorem closeAllReqs_only (a0 : Nat) (s : State) :
    Only [.led] s (closeAllReqs a0 s) := by
  unfold closeAllReqs
  repeat' first
    | with_reducible exact Only.refl _ _
    | with_reducible assumption
    | ((fail_if_no_progress extract_lets +onlyGivenNames x); try (refine Only.cut x ?_ ?_; rotate_left; intro _; clear_value x; rotate_left; unfold x))
    | with_reducible apply Only.foldl
    | with_reducible apply Only.ite
    | with_reducible apply Only.step (hostEvent_only _ _ _ _ _)
    | with_reducible intro _
    | rfl
    | split

theorem resumeWatch_only (a0 : Nat) (s : State) :
    Only [.mbx] s (resumeWatch a0 s) := by
  unfold resumeWatch
  repeat' first
    | with_reducible exact Only.refl _ _
    | with_reducible assumption
    | ((fail_if_no_progress extract_lets +onlyGivenNames x); try (refine Only.cut x ?_ ?_; rotate_left; intro _; clear_value x; rotate_left; unfold x))
    | with_reducible apply Only.foldl
    | with_reducible apply Only.ite
    | with_reducible intro _
    | rfl
    | (fail_if_no_progress (with_reducible apply Only.upd); rotate_left; (intro p hp; cases p <;> first | rfl | exact ⟨rfl, rfl⟩ | exact ⟨rfl, rfl, rfl⟩ | exact absurd (by decide) hp))
    | split

theorem endPause_only (s : State) :
    Only [.mbx, .crown] s (endPause s) := by
  unfold endPause
  repeat' first
    | with_reducible exact Only.refl _ _
    | with_reducible assumption
    | ((fail_if_no_progress extract_lets +onlyGivenNames x); try (refine Only.cut x ?_ ?_; rotate_left; intro _; clear_value x; rotate_left; unfold x))
    | with_reducible apply Only.foldl
    | with_reducible apply Only.ite
    | with_reducible apply Only.step (modCrown_only _ _)
    | with_reducible apply Only.step (resumeWatch_only _ _)
    | with_reducible intro _
    | rfl
    | split

theorem fenceAll_only (a0 : Nat) (a1 : Nat) (s : State) :
    Only [.mbx, .work, .clusters, .tiles, .signals, .win, .ctr, .fab, .eng, .led] s (fenceAll a0 a1 s) := by
  unfold fenceAll
  repeat' first
    | with_reducible exact Only.refl _ _
    | with_reducible assumption
    | ((fail_if_no_progress extract_lets +onlyGivenNames x); try (refine Only.cut x ?_ ?_; rotate_left; intro _; clear_value x; rotate_left; unfold x))
    | with_reducible apply Only.foldl
    | with_reducible apply Only.ite
    | with_reducible apply Only.step (fencePart_only _ _ _ _ _ _)
    | with_reducible intro _
    | rfl
    | split

theorem flushHeld_only (s : State) :
    Only [.mbx] s (flushHeld s) := by
  unfold flushHeld
  repeat' first
    | with_reducible exact Only.refl _ _
    | with_reducible assumption
    | ((fail_if_no_progress extract_lets +onlyGivenNames x); try (refine Only.cut x ?_ ?_; rotate_left; intro _; clear_value x; rotate_left; unfold x))
    | with_reducible apply Only.foldl
    | with_reducible apply Only.ite
    | with_reducible apply Only.step (msix_only _ _ _)
    | with_reducible intro _
    | rfl
    | (fail_if_no_progress (with_reducible apply Only.upd); rotate_left; (intro p hp; cases p <;> first | rfl | exact ⟨rfl, rfl⟩ | exact ⟨rfl, rfl, rfl⟩ | exact absurd (by decide) hp))
    | split

theorem noticeAll_only (a0 : Nat) (a1 : Nat) (a2 : List Nat) (s : State) :
    Only [.win, .ctr, .fab] s (noticeAll a0 a1 a2 s) := by
  unfold noticeAll
  repeat' first
    | with_reducible exact Only.refl _ _
    | with_reducible assumption
    | ((fail_if_no_progress extract_lets +onlyGivenNames x); try (refine Only.cut x ?_ ?_; rotate_left; intro _; clear_value x; rotate_left; unfold x))
    | with_reducible apply Only.foldl
    | with_reducible apply Only.ite
    | with_reducible apply Only.step (sendOn_only _ _ _)
    | with_reducible intro _
    | rfl
    | split

theorem withdrawModule_only (a0 : Nat) (a1 : Nat) (a2 : Nat) (s : State) :
    Only [.sched, .win, .ctr, .fab] s (withdrawModule a0 a1 a2 s) := by
  unfold withdrawModule
  repeat' first
    | with_reducible exact Only.refl _ _
    | with_reducible assumption
    | ((fail_if_no_progress extract_lets +onlyGivenNames x); try (refine Only.cut x ?_ ?_; rotate_left; intro _; clear_value x; rotate_left; unfold x))
    | with_reducible apply Only.foldl
    | with_reducible apply Only.ite
    | with_reducible apply Only.step (modFab_only _ _)
    | with_reducible apply Only.step (noticeAll_only _ _ _ _)
    | with_reducible apply Only.step (schedPut_only _ _ _ _ _ _ _ _)
    | with_reducible intro _
    | rfl
    | split

theorem enterSafe_only (a0 : Bool) (s : State) :
    Only [.sched, .mbx, .work, .clusters, .tiles, .signals, .win, .ctr, .fab, .eng, .crown, .power, .led, .mgmt] s (enterSafe a0 s) := by
  unfold enterSafe
  repeat' first
    | with_reducible exact Only.refl _ _
    | with_reducible assumption
    | ((fail_if_no_progress extract_lets +onlyGivenNames x); try (refine Only.cut x ?_ ?_; rotate_left; intro _; clear_value x; rotate_left; unfold x))
    | with_reducible apply Only.foldl
    | with_reducible apply Only.ite
    | with_reducible apply Only.step (answerTakeover_only _ _)
    | with_reducible apply Only.step (brakeStart_only _ _)
    | with_reducible apply Only.step (capUpdate_only _)
    | with_reducible apply Only.step (closeAllReqs_only _ _)
    | with_reducible apply Only.step (endPause_only _)
    | with_reducible apply Only.step (event_only _ _ _ _ _)
    | with_reducible apply Only.step (fenceAll_only _ _ _)
    | with_reducible apply Only.step (flushHeld_only _)
    | with_reducible apply Only.step (modCrown_only _ _)
    | with_reducible apply Only.step (plEvent_only _ _ _)
    | with_reducible apply Only.step (resumeWatch_only _ _)
    | with_reducible apply Only.step (vector0_only _)
    | with_reducible apply Only.step (withdrawModule_only _ _ _ _)
    | with_reducible intro _
    | rfl
    | split

theorem askVote_only (a0 : Sys2Proof.Half) (s : State) :
    Only [.sched, .mbx, .work, .clusters, .tiles, .signals, .win, .ctr, .fab, .eng, .crown, .power, .led, .mgmt] s (askVote a0 s) := by
  unfold askVote
  repeat' first
    | with_reducible exact Only.refl _ _
    | with_reducible assumption
    | ((fail_if_no_progress extract_lets +onlyGivenNames x); try (refine Only.cut x ?_ ?_; rotate_left; intro _; clear_value x; rotate_left; unfold x))
    | with_reducible apply Only.foldl
    | with_reducible apply Only.ite
    | with_reducible apply Only.step (enterSafe_only _ _)
    | with_reducible apply Only.step (modCrown_only _ _)
    | with_reducible intro _
    | rfl
    | split

theorem assertFences_only (s : State) :
    Only [.mbx, .work, .clusters, .tiles, .signals, .win, .ctr, .fab, .eng, .led] s (assertFences s) := by
  unfold assertFences
  repeat' first
    | with_reducible exact Only.refl _ _
    | with_reducible assumption
    | ((fail_if_no_progress extract_lets +onlyGivenNames x); try (refine Only.cut x ?_ ?_; rotate_left; intro _; clear_value x; rotate_left; unfold x))
    | with_reducible apply Only.foldl
    | with_reducible apply Only.ite
    | with_reducible apply Only.step (fencePart_only _ _ _ _ _ _)
    | with_reducible intro _
    | rfl
    | split

theorem attemptFailed_only (a0 : Nat) (a1 : Nat) (s : State) :
    Only [.mbx, .win, .ctr, .fab] s (attemptFailed a0 a1 s) := by
  unfold attemptFailed
  repeat' first
    | with_reducible exact Only.refl _ _
    | with_reducible assumption
    | ((fail_if_no_progress extract_lets +onlyGivenNames x); try (refine Only.cut x ?_ ?_; rotate_left; intro _; clear_value x; rotate_left; unfold x))
    | with_reducible apply Only.foldl
    | with_reducible apply Only.ite
    | with_reducible apply Only.step (count_only _ _ _ _)
    | with_reducible apply Only.step (modPort_only _ _ _)
    | with_reducible apply Only.step (portEvent_only _ _ _)
    | with_reducible apply Only.step (setPortSt_only _ _ _)
    | with_reducible intro _
    | rfl
    | split

theorem msixWrite_only (a0 : Sys2Proof.Half) (a1 : Nat) (a2 : Nat) (s : State) :
    Only [.mbx] s (msixWrite a0 a1 a2 s) := by
  unfold msixWrite
  repeat' first
    | with_reducible exact Only.refl _ _
    | with_reducible assumption
    | ((fail_if_no_progress extract_lets +onlyGivenNames x); try (refine Only.cut x ?_ ?_; rotate_left; intro _; clear_value x; rotate_left; unfold x))
    | with_reducible apply Only.foldl
    | with_reducible apply Only.ite
    | with_reducible apply Only.step (raiseVec_only _ _ _)
    | with_reducible intro _
    | rfl
    | (fail_if_no_progress (with_reducible apply Only.upd); rotate_left; (intro p hp; cases p <;> first | rfl | exact ⟨rfl, rfl⟩ | exact ⟨rfl, rfl, rfl⟩ | exact absurd (by decide) hp))
    | split

theorem clearFirst_only (a0 : Nat) (a1 : Nat) (s : State) :
    Only [.win, .eng] s (clearFirst a0 a1 s) := by
  unfold clearFirst
  repeat' first
    | with_reducible exact Only.refl _ _
    | with_reducible assumption
    | ((fail_if_no_progress extract_lets +onlyGivenNames x); try (refine Only.cut x ?_ ?_; rotate_left; intro _; clear_value x; rotate_left; unfold x))
    | with_reducible apply Only.foldl
    | with_reducible apply Only.ite
    | with_reducible apply Only.step (setWin_only _ _ _)
    | with_reducible intro _
    | rfl
    | (fail_if_no_progress (with_reducible apply Only.upd); rotate_left; (intro p hp; cases p <;> first | rfl | exact ⟨rfl, rfl⟩ | exact ⟨rfl, rfl, rfl⟩ | exact absurd (by decide) hp))
    | split

theorem clearLog_only (a0 : Nat) (a1 : Nat) (s : State) :
    Only [.mcs] s (clearLog a0 a1 s) := by
  unfold clearLog
  repeat' first
    | with_reducible exact Only.refl _ _
    | with_reducible assumption
    | ((fail_if_no_progress extract_lets +onlyGivenNames x); try (refine Only.cut x ?_ ?_; rotate_left; intro _; clear_value x; rotate_left; unfold x))
    | with_reducible apply Only.foldl
    | with_reducible apply Only.ite
    | with_reducible apply Only.step (modMc_only _ _ _)
    | with_reducible intro _
    | rfl
    | split

theorem clearOvf_only (a0 : Nat) (a1 : Nat) (s : State) :
    Only [.win] s (clearOvf a0 a1 s) := by
  unfold clearOvf
  repeat' first
    | with_reducible exact Only.refl _ _
    | with_reducible assumption
    | ((fail_if_no_progress extract_lets +onlyGivenNames x); try (refine Only.cut x ?_ ?_; rotate_left; intro _; clear_value x; rotate_left; unfold x))
    | with_reducible apply Only.foldl
    | with_reducible apply Only.ite
    | with_reducible apply Only.step (setWin_only _ _ _)
    | with_reducible intro _
    | rfl
    | split

theorem resend_only (a0 : Sys2Proof.Half) (a1 : Nat) (s : State) :
    Only [.mbx] s (resend a0 a1 s) := by
  unfold resend
  repeat' first
    | with_reducible exact Only.refl _ _
    | with_reducible assumption
    | ((fail_if_no_progress extract_lets +onlyGivenNames x); try (refine Only.cut x ?_ ?_; rotate_left; intro _; clear_value x; rotate_left; unfold x))
    | with_reducible apply Only.foldl
    | with_reducible apply Only.ite
    | with_reducible apply Only.step (msix_only _ _ _)
    | with_reducible intro _
    | rfl
    | split

theorem clearSts_only (a0 : Sys2Proof.Half) (a1 : Nat) (a2 : Nat) (s : State) :
    Only [.mbx, .win] s (clearSts a0 a1 a2 s) := by
  unfold clearSts
  repeat' first
    | with_reducible exact Only.refl _ _
    | with_reducible assumption
    | ((fail_if_no_progress extract_lets +onlyGivenNames x); try (refine Only.cut x ?_ ?_; rotate_left; intro _; clear_value x; rotate_left; unfold x))
    | with_reducible apply Only.foldl
    | with_reducible apply Only.ite
    | with_reducible apply Only.step (resend_only _ _ _)
    | with_reducible apply Only.step (setWin_only _ _ _)
    | with_reducible intro _
    | rfl
    | split

theorem winWrite_only (a0 : Sys2Proof.Half) (a1 : Nat) (a2 : Nat) (a3 : Nat) (s : State) :
    Only [.mbx, .mcs, .win, .eng] s (winWrite a0 a1 a2 a3 s) := by
  unfold winWrite
  repeat' first
    | with_reducible exact Only.refl _ _
    | with_reducible assumption
    | ((fail_if_no_progress extract_lets +onlyGivenNames x); try (refine Only.cut x ?_ ?_; rotate_left; intro _; clear_value x; rotate_left; unfold x))
    | with_reducible apply Only.foldl
    | with_reducible apply Only.ite
    | with_reducible apply Only.step (clearFirst_only _ _ _)
    | with_reducible apply Only.step (clearLog_only _ _ _)
    | with_reducible apply Only.step (clearOvf_only _ _ _)
    | with_reducible apply Only.step (clearSts_only _ _ _ _)
    | with_reducible apply Only.step (resend_only _ _ _)
    | with_reducible apply Only.step (setWin_only _ _ _)
    | with_reducible intro _
    | rfl
    | split

theorem barWrite_only (a0 : Sys2Proof.Half) (a1 : Nat) (a2 : Nat) (s : State) :
    Only [.time, .mbx, .mcs, .win, .eng, .trA, .trB] s (barWrite a0 a1 a2 s) := by
  unfold barWrite
  repeat' first
    | with_reducible exact Only.refl _ _
    | with_reducible assumption
    | ((fail_if_no_progress extract_lets +onlyGivenNames x); try (refine Only.cut x ?_ ?_; rotate_left; intro _; clear_value x; rotate_left; unfold x))
    | with_reducible apply Only.foldl
    | with_reducible apply Only.ite
    | with_reducible apply Only.onlyIf
    | with_reducible apply Only.step (modTr_only _ _ _)
    | with_reducible apply Only.step (msixWrite_only _ _ _ _)
    | with_reducible apply Only.step (winWrite_only _ _ _ _ _)
    | with_reducible intro _
    | rfl
    | (fail_if_no_progress (with_reducible apply Only.upd); rotate_left; (intro p hp; cases p <;> first | rfl | exact ⟨rfl, rfl⟩ | exact ⟨rfl, rfl, rfl⟩ | exact absurd (by decide) hp))
    | split
    | (fail_if_no_progress clear_value *)

theorem beaconDigest_only (a0 : Nat) (a1 : Sys2Proof.Beacon) (s : State) :
    Only [.mbx, .win, .ctr, .fab] s (beaconDigest a0 a1 s) := by
  unfold beaconDigest
  repeat' first
    | with_reducible exact Only.refl _ _
    | with_reducible assumption
    | ((fail_if_no_progress extract_lets +onlyGivenNames x); try (refine Only.cut x ?_ ?_; rotate_left; intro _; clear_value x; rotate_left; unfold x))
    | with_reducible apply Only.foldl
    | with_reducible apply Only.ite
    | with_reducible apply Only.step (modPort_only _ _ _)
    | with_reducible apply Only.step (portEvent_only _ _ _)
    | with_reducible apply Only.step (setDigBit_only _ _ _ _)
    | with_reducible intro _
    | rfl
    | split

theorem beaconFrame_only (s : State) :
    Only [.mbx, .win, .ctr, .fab] s (beaconFrame s) := by
  unfold beaconFrame
  repeat' first
    | with_reducible exact Only.refl _ _
    | with_reducible assumption
    | ((fail_if_no_progress extract_lets +onlyGivenNames x); try (refine Only.cut x ?_ ?_; rotate_left; intro _; clear_value x; rotate_left; unfold x))
    | with_reducible apply Only.foldl
    | with_reducible apply Only.ite
    | with_reducible apply Only.step (count_only _ _ _ _)
    | with_reducible apply Only.step (modPort_only _ _ _)
    | with_reducible apply Only.step (portEvent_only _ _ _)
    | with_reducible apply Only.step (sendOn_only _ _ _)
    | with_reducible intro _
    | rfl
    | split

theorem becomeActive_only (a0 : Nat) (s : State) :
    Only [.mbx, .win, .ctr, .fab] s (becomeActive a0 s) := by
  unfold becomeActive
  repeat' first
    | with_reducible exact Only.refl _ _
    | with_reducible assumption
    | ((fail_if_no_progress extract_lets +onlyGivenNames x); try (refine Only.cut x ?_ ?_; rotate_left; intro _; clear_value x; rotate_left; unfold x))
    | with_reducible apply Only.foldl
    | with_reducible apply Only.ite
    | with_reducible apply Only.step (count_only _ _ _ _)
    | with_reducible apply Only.step (modPort_only _ _ _)
    | with_reducible apply Only.step (portEvent_only _ _ _)
    | with_reducible apply Only.step (setPortSt_only _ _ _)
    | with_reducible intro _
    | rfl
    | split

theorem grant_only (a0 : Sys2Proof.Half) (a1 : Bool) (a2 : List Bool) (s : State) :
    Only [.mbx, .win, .ctr, .crown, .flash] s (grant a0 a1 a2 s) := by
  unfold grant
  repeat' first
    | with_reducible exact Only.refl _ _
    | with_reducible assumption
    | ((fail_if_no_progress extract_lets +onlyGivenNames x); try (refine Only.cut x ?_ ?_; rotate_left; intro _; clear_value x; rotate_left; unfold x))
    | with_reducible apply Only.foldl
    | with_reducible apply Only.ite
    | with_reducible apply Only.step (event_only _ _ _ _ _)
    | with_reducible apply Only.step (flashCheck_only _ _ _)
    | with_reducible apply Only.step (modCrown_only _ _)
    | with_reducible apply Only.step (modMon_only _ _ _)
    | with_reducible intro _
    | rfl
    | (fail_if_no_progress (with_reducible apply Only.upd); rotate_left; (intro p hp; cases p <;> first | rfl | exact ⟨rfl, rfl⟩ | exact ⟨rfl, rfl, rfl⟩ | exact absurd (by decide) hp))
    | with_reducible apply Only.ofSnd ‹_ = (_, _)›
    | split

theorem beginTakeover_only (a0 : Sys2Proof.Half) (a1 : Nat) (a2 : List Bool) (s : State) :
    Only [.mbx, .win, .ctr, .crown, .flash, .start, .mgmt] s (beginTakeover a0 a1 a2 s) := by
  unfold beginTakeover
  repeat' first
    | with_reducible exact Only.refl _ _
    | with_reducible assumption
    | ((fail_if_no_progress extract_lets +onlyGivenNames x); try (refine Only.cut x ?_ ?_; rotate_left; intro _; clear_value x; rotate_left; unfold x))
    | with_reducible apply Only.foldl
    | with_reducible apply Only.ite
    | with_reducible apply Only.step (endPause_only _)
    | with_reducible apply Only.step (grant_only _ _ _ _)
    | with_reducible apply Only.step (modCrown_only _ _)
    | with_reducible apply Only.step (plEvent_only _ _ _)
    | with_reducible apply Only.step (vector0_only _)
    | with_reducible intro _
    | rfl
    | (fail_if_no_progress (with_reducible apply Only.upd); rotate_left; (intro p hp; cases p <;> first | rfl | exact ⟨rfl, rfl⟩ | exact ⟨rfl, rfl, rfl⟩ | exact absurd (by decide) hp))
    | split

theorem bertSettle_only (s : State) :
    Only [.mbx] s (bertSettle s) := by
  unfold bertSettle
  repeat' first
    | with_reducible exact Only.refl _ _
    | with_reducible assumption
    | ((fail_if_no_progress extract_lets +onlyGivenNames x); try (refine Only.cut x ?_ ?_; rotate_left; intro _; clear_value x; rotate_left; unfold x))
    | with_reducible apply Only.foldl
    | with_reducible apply Only.ite
    | with_reducible apply Only.step (respond_only _ _ _ _ _)
    | with_reducible intro _
    | rfl
    | split

theorem boundaryDue_only (a0 : Nat) (s : State) :
    Only [.mbx, .win, .ctr, .led] s (boundaryDue a0 s) := by
  unfold boundaryDue
  repeat' first
    | with_reducible exact Only.refl _ _
    | with_reducible assumption
    | ((fail_if_no_progress extract_lets +onlyGivenNames x); try (refine Only.cut x ?_ ?_; rotate_left; intro _; clear_value x; rotate_left; unfold x))
    | with_reducible apply Only.foldl
    | with_reducible apply Only.ite
    | with_reducible apply Only.step (accountsDue_only _ _ _)
    | with_reducible apply Only.step (modLed_only _ _)
    | with_reducible intro _
    | rfl
    | split

theorem bridgeOpens_only (s : State) :
    Only [.mbx, .work, .clusters, .tiles, .signals, .phys, .mcs, .snoop, .xl, .win, .ctr, .fab, .eng, .led, .flash, .start] s (bridgeOpens s) := by
  unfold bridgeOpens
  repeat' first
    | with_reducible exact Only.refl _ _
    | with_reducible assumption
    | ((fail_if_no_progress extract_lets +onlyGivenNames x); try (refine Only.cut x ?_ ?_; rotate_left; intro _; clear_value x; rotate_left; unfold x))
    | with_reducible apply Only.foldl
    | with_reducible apply Only.ite
    | with_reducible apply Only.step (modFab_only _ _)
    | with_reducible apply Only.step (routeOn_only _ _ _)
    | with_reducible apply Only.step (wakeEngines_only _)
    | with_reducible intro _
    | rfl
    | with_reducible apply Only.ofFst ‹_ = (_, _)›
    | split

theorem bundleNote_only (a0 : Nat) (a1 : Sys2Proof.MemEnv) (a2 : Bool) (a3 : Nat) (a4 : Nat) (s : State) :
    Only [.mbx, .mcs, .xl, .win, .ctr, .flash, .start] s (bundleNote a0 a1 a2 a3 a4 s) := by
  unfold bundleNote
  repeat' first
    | with_reducible exact Only.refl _ _
    | with_reducible assumption
    | ((fail_if_no_progress extract_lets +onlyGivenNames x); try (refine Only.cut x ?_ ?_; rotate_left; intro _; clear_value x; rotate_left; unfold x))
    | with_reducible apply Only.foldl
    | with_reducible apply Only.ite
    | with_reducible apply Only.step (readNote_only _ _ _ _ _ _)
    | with_reducible intro _
    | rfl
    | split

theorem cacheClear_only (a0 : Nat) (s : State) :
    Only [.xl] s (cacheClear a0 s) := by
  unfold cacheClear
  repeat' first
    | with_reducible exact Only.refl _ _
    | with_reducible assumption
    | ((fail_if_no_progress extract_lets +onlyGivenNames x); try (refine Only.cut x ?_ ?_; rotate_left; intro _; clear_value x; rotate_left; unfold x))
    | with_reducible apply Only.foldl
    | with_reducible apply Only.ite
    | with_reducible intro _
    | rfl
    | (fail_if_no_progress (with_reducible apply Only.upd); rotate_left; (intro p hp; cases p <;> first | rfl | exact ⟨rfl, rfl⟩ | exact ⟨rfl, rfl, rfl⟩ | exact absurd (by decide) hp))
    | split

theorem cacheDrop_only (a0 : Nat) (a1 : Nat) (a2 : Nat) (s : State) :
    Only [.xl] s (cacheDrop a0 a1 a2 s) := by
  unfold cacheDrop
  repeat' first
    | with_reducible exact Only.refl _ _
    | with_reducible assumption
    | ((fail_if_no_progress extract_lets +onlyGivenNames x); try (refine Only.cut x ?_ ?_; rotate_left; intro _; clear_value x; rotate_left; unfold x))
    | with_reducible apply Only.foldl
    | with_reducible apply Only.ite
    | with_reducible intro _
    | rfl
    | (fail_if_no_progress (with_reducible apply Only.upd); rotate_left; (intro p hp; cases p <;> first | rfl | exact ⟨rfl, rfl⟩ | exact ⟨rfl, rfl, rfl⟩ | exact absurd (by decide) hp))
    | split

theorem modTime_only (a0 : Machine.Time → Machine.Time) (s : State) :
    Only [.time] s (modTime a0 s) := by
  unfold modTime
  repeat' first
    | with_reducible exact Only.refl _ _
    | with_reducible assumption
    | ((fail_if_no_progress extract_lets +onlyGivenNames x); try (refine Only.cut x ?_ ?_; rotate_left; intro _; clear_value x; rotate_left; unfold x))
    | with_reducible apply Only.foldl
    | with_reducible apply Only.ite
    | with_reducible intro _
    | rfl
    | (fail_if_no_progress (with_reducible apply Only.upd); rotate_left; (intro p hp; cases p <;> first | rfl | exact ⟨rfl, rfl⟩ | exact ⟨rfl, rfl, rfl⟩ | exact absurd (by decide) hp))
    | split

theorem cancelSet_only (a0 : Nat) (s : State) :
    Only [.time] s (cancelSet a0 s) := by
  unfold cancelSet
  repeat' first
    | with_reducible exact Only.refl _ _
    | with_reducible assumption
    | ((fail_if_no_progress extract_lets +onlyGivenNames x); try (refine Only.cut x ?_ ?_; rotate_left; intro _; clear_value x; rotate_left; unfold x))
    | with_reducible apply Only.foldl
    | with_reducible apply Only.ite
    | with_reducible apply Only.step (modTime_only _ _)
    | with_reducible intro _
    | rfl
    | split

theorem checkEnd_only (a0 : Nat) (s : State) :
    Only [.work, .tiles] s (checkEnd a0 s) := by
  unfold checkEnd
  repeat' first
    | with_reducible exact Only.refl _ _
    | with_reducible assumption
    | ((fail_if_no_progress extract_lets +onlyGivenNames x); try (refine Only.cut x ?_ ?_; rotate_left; intro _; clear_value x; rotate_left; unfold x))
    | with_reducible apply Only.foldl
    | with_reducible apply Only.ite
    | with_reducible apply Only.step (modLaunch_only _ _ _ _)
    | with_reducible apply Only.step (modTile_only _ _ _)
    | with_reducible intro _
    | rfl
    | split

theorem closeWins_only (a0 : Nat) (s : State) :
    Only [.clusters] s (closeWins a0 s) := by
  unfold closeWins
  repeat' first
    | with_reducible exact Only.refl _ _
    | with_reducible assumption
    | ((fail_if_no_progress extract_lets +onlyGivenNames x); try (refine Only.cut x ?_ ?_; rotate_left; intro _; clear_value x; rotate_left; unfold x))
    | with_reducible apply Only.foldl
    | with_reducible apply Only.ite
    | with_reducible apply Only.step (modCluster_only _ _ _)
    | with_reducible intro _
    | rfl
    | split

theorem driftHalf_only (a0 : Sys2Proof.Half) (a1 : Int) (s : State) :
    Only [.time] s (driftHalf a0 a1 s) := by
  unfold driftHalf
  repeat' first
    | with_reducible exact Only.refl _ _
    | with_reducible assumption
    | ((fail_if_no_progress extract_lets +onlyGivenNames x); try (refine Only.cut x ?_ ?_; rotate_left; intro _; clear_value x; rotate_left; unfold x))
    | with_reducible apply Only.foldl
    | with_reducible apply Only.ite
    | with_reducible apply Only.step (modTime_only _ _)
    | with_reducible intro _
    | rfl
    | split

theorem rtFlag_only (a0 : Nat) (s : State) :
    Only [.time] s (rtFlag a0 s) := by
  unfold rtFlag
  repeat' first
    | with_reducible exact Only.refl _ _
    | with_reducible assumption
    | ((fail_if_no_progress extract_lets +onlyGivenNames x); try (refine Only.cut x ?_ ?_; rotate_left; intro _; clear_value x; rotate_left; unfold x))
    | with_reducible apply Only.foldl
    | with_reducible apply Only.ite
    | with_reducible apply Only.step (modTime_only _ _)
    | with_reducible intro _
    | rfl
    | split

theorem compareHalf_only (a0 : Sys2Proof.Half) (a1 : Int) (s : State) :
    Only [.time, .mbx, .win, .ctr] s (compareHalf a0 a1 s) := by
  unfold compareHalf
  repeat' first
    | with_reducible exact Only.refl _ _
    | with_reducible assumption
    | ((fail_if_no_progress extract_lets +onlyGivenNames x); try (refine Only.cut x ?_ ?_; rotate_left; intro _; clear_value x; rotate_left; unfold x))
    | with_reducible apply Only.foldl
    | with_reducible apply Only.ite
    | with_reducible apply Only.step (driftHalf_only _ _ _)
    | with_reducible apply Only.step (event_only _ _ _ _ _)
    | with_reducible apply Only.step (modTime_only _ _)
    | with_reducible apply Only.step (rtFlag_only _ _)
    | with_reducible intro _
    | rfl
    | split

theorem complexFails_only (a0 : Sys2Proof.Half) (s : State) :
    Only [.sched, .mbx, .work, .clusters, .tiles, .signals, .win, .ctr, .fab, .eng, .crown, .power, .led, .mgmt] s (complexFails a0 s) := by
  unfold complexFails
  repeat' first
    | with_reducible exact Only.refl _ _
    | with_reducible assumption
    | ((fail_if_no_progress extract_lets +onlyGivenNames x); try (refine Only.cut x ?_ ?_; rotate_left; intro _; clear_value x; rotate_left; unfold x))
    | with_reducible apply Only.foldl
    | with_reducible apply Only.ite
    | with_reducible apply Only.step (endPause_only _)
    | with_reducible apply Only.step (enterSafe_only _ _)
    | with_reducible apply Only.step (modCrown_only _ _)
    | with_reducible apply Only.step (modMon_only _ _ _)
    | with_reducible apply Only.step (vector0_only _)
    | with_reducible intro _
    | rfl
    | split

theorem countArith_only (a0 : Nat) (a1 : List Machine.Rnd) (s : State) :
    Only [.ctr] s (countArith a0 a1 s) := by
  unfold countArith
  repeat' first
    | with_reducible exact Only.refl _ _
    | with_reducible assumption
    | ((fail_if_no_progress extract_lets +onlyGivenNames x); try (refine Only.cut x ?_ ?_; rotate_left; intro _; clear_value x; rotate_left; unfold x))
    | with_reducible apply Only.foldl
    | with_reducible apply Only.ite
    | with_reducible apply Only.step (countSat_only _ _ _ _)
    | with_reducible intro _
    | rfl
    | split

theorem countMoved_only (a0 : Nat) (a1 : Nat) (a2 : List Machine.Piece) (s : State) :
    Only [.ctr] s (countMoved a0 a1 a2 s) := by
  unfold countMoved
  repeat' first
    | with_reducible exact Only.refl _ _
    | with_reducible assumption
    | ((fail_if_no_progress extract_lets +onlyGivenNames x); try (refine Only.cut x ?_ ?_; rotate_left; intro _; clear_value x; rotate_left; unfold x))
    | with_reducible apply Only.foldl
    | with_reducible apply Only.ite
    | with_reducible apply Only.step (count_only _ _ _ _)
    | with_reducible intro _
    | rfl
    | split

theorem countRead_only (a0 : Nat) (a1 : Machine.Area) (a2 : Sys2Proof.StoreRead) (a3 : Bool) (s : State) :
    Only [.mbx, .win, .ctr] s (countRead a0 a1 a2 a3 s) := by
  unfold countRead
  repeat' first
    | with_reducible exact Only.refl _ _
    | with_reducible assumption
    | ((fail_if_no_progress extract_lets +onlyGivenNames x); try (refine Only.cut x ?_ ?_; rotate_left; intro _; clear_value x; rotate_left; unfold x))
    | with_reducible apply Only.foldl
    | with_reducible apply Only.ite
    | with_reducible apply Only.step (disarm_only _ _)
    | with_reducible apply Only.step (eventG_only _ _ _ _ _ _ _)
    | with_reducible intro _
    | rfl
    | split

theorem zeroScratch_only (a0 : Nat) (a1 : Machine.Group) (s : State) :
    Only [.mbx, .phys, .mcs, .xl, .win, .ctr, .flash, .start] s (zeroScratch a0 a1 s) := by
  unfold zeroScratch
  repeat' first
    | with_reducible exact Only.refl _ _
    | with_reducible assumption
    | ((fail_if_no_progress extract_lets +onlyGivenNames x); try (refine Only.cut x ?_ ?_; rotate_left; intro _; clear_value x; rotate_left; unfold x))
    | with_reducible apply Only.foldl
    | with_reducible apply Only.ite
    | with_reducible apply Only.step (writeVa_only _ _ _ _ _ _)
    | with_reducible intro _
    | rfl
    | with_reducible apply Only.ofFst ‹_ = (_, _)›
    | split

theorem resetEngine_only (a0 : Nat) (s : State) :
    Only [.mbx, .phys, .mcs, .xl, .win, .ctr, .eng, .flash, .start] s (resetEngine a0 s) := by
  unfold resetEngine
  repeat' first
    | with_reducible exact Only.refl _ _
    | with_reducible assumption
    | ((fail_if_no_progress extract_lets +onlyGivenNames x); try (refine Only.cut x ?_ ?_; rotate_left; intro _; clear_value x; rotate_left; unfold x))
    | with_reducible apply Only.foldl
    | with_reducible apply Only.ite
    | with_reducible apply Only.step (zeroScratch_only _ _ _)
    | with_reducible intro _
    | rfl
    | (fail_if_no_progress (with_reducible apply Only.upd); rotate_left; (intro p hp; cases p <;> first | rfl | exact ⟨rfl, rfl⟩ | exact ⟨rfl, rfl, rfl⟩ | exact absurd (by decide) hp))
    | split

theorem zeroStore_only (a0 : Nat) (s : State) :
    Only [.phys] s (zeroStore a0 s) := by
  unfold zeroStore
  repeat' first
    | with_reducible exact Only.refl _ _
    | with_reducible assumption
    | ((fail_if_no_progress extract_lets +onlyGivenNames x); try (refine Only.cut x ?_ ?_; rotate_left; intro _; clear_value x; rotate_left; unfold x))
    | with_reducible apply Only.foldl
    | with_reducible apply Only.ite
    | with_reducible intro _
    | rfl
    | (fail_if_no_progress (with_reducible apply Only.upd); rotate_left; (intro p hp; cases p <;> first | rfl | exact ⟨rfl, rfl⟩ | exact ⟨rfl, rfl, rfl⟩ | exact absurd (by decide) hp))
    | split

theorem zeroTile_only (a0 : Nat) (s : State) :
    Only [.tiles, .tileStores] s (zeroTile a0 s) := by
  unfold zeroTile
  repeat' first
    | with_reducible exact Only.refl _ _
    | with_reducible assumption
    | ((fail_if_no_progress extract_lets +onlyGivenNames x); try (refine Only.cut x ?_ ?_; rotate_left; intro _; clear_value x; rotate_left; unfold x))
    | with_reducible apply Only.foldl
    | with_reducible apply Only.ite
    | with_reducible intro _
    | rfl
    | (fail_if_no_progress (with_reducible apply Only.upd); rotate_left; (intro p hp; cases p <;> first | rfl | exact ⟨rfl, rfl⟩ | exact ⟨rfl, rfl, rfl⟩ | exact absurd (by decide) hp))
    | split

theorem zeroCluster_only (a0 : Nat) (s : State) :
    Only [.tiles, .tileStores, .phys, .xl] s (zeroCluster a0 s) := by
  unfold zeroCluster
  repeat' first
    | with_reducible exact Only.refl _ _
    | with_reducible assumption
    | ((fail_if_no_progress extract_lets +onlyGivenNames x); try (refine Only.cut x ?_ ?_; rotate_left; intro _; clear_value x; rotate_left; unfold x))
    | with_reducible apply Only.foldl
    | with_reducible apply Only.ite
    | with_reducible apply Only.step (cacheClear_only _ _)
    | with_reducible apply Only.step (zeroStore_only _ _)
    | with_reducible apply Only.step (zeroTile_only _ _)
    | with_reducible intro _
    | rfl
    | split

theorem createPart_only (a0 : Nat) (a1 : Nat) (a2 : List Nat) (a3 : Nat) (a4 : Nat) (s : State) :
    Only [.mbx, .work, .clusters, .tiles, .tileStores, .phys, .mcs, .xl, .win, .ctr, .eng, .flash, .start] s (createPart a0 a1 a2 a3 a4 s) := by
  unfold createPart
  repeat' first
    | with_reducible exact Only.refl _ _
    | with_reducible assumption
    | ((fail_if_no_progress extract_lets +onlyGivenNames x); try (refine Only.cut x ?_ ?_; rotate_left; intro _; clear_value x; rotate_left; unfold x))
    | with_reducible apply Only.foldl
    | with_reducible apply Only.ite
    | with_reducible apply Only.step (closeWins_only _ _)
    | with_reducible apply Only.step (modCluster_only _ _ _)
    | with_reducible apply Only.step (resetEngine_only _ _)
    | with_reducible apply Only.step (setPart_only _ _ _)
    | with_reducible apply Only.step (zeroCluster_only _ _)
    | with_reducible intro _
    | rfl
    | split

theorem writesNote_only (a0 : Machine.Agent) (a1 : Sys2Proof.MemEnv) (a2 : List (Nat × Nat)) (s : State) :
    Only [.mbx, .mcs, .win, .ctr, .flash, .start] s (writesNote a0 a1 a2 s) := by
  unfold writesNote
  repeat' first
    | with_reducible exact Only.refl _ _
    | with_reducible assumption
    | ((fail_if_no_progress extract_lets +onlyGivenNames x); try (refine Only.cut x ?_ ?_; rotate_left; intro _; clear_value x; rotate_left; unfold x))
    | with_reducible apply Only.foldl
    | with_reducible apply Only.ite
    | with_reducible apply Only.step (memNote_only _ _ _ _ _ _ _ _ _)
    | with_reducible intro _
    | rfl
    | split

theorem putOwn_only (a0 : Machine.Agent) (a1 : Nat) (a2 : List Sys2Proof.Byte) (s : State) :
    Only [.mbx, .phys, .mcs, .win, .ctr, .flash, .start] s (putOwn a0 a1 a2 s) := by
  unfold putOwn
  repeat' first
    | with_reducible exact Only.refl _ _
    | with_reducible assumption
    | ((fail_if_no_progress extract_lets +onlyGivenNames x); try (refine Only.cut x ?_ ?_; rotate_left; intro _; clear_value x; rotate_left; unfold x))
    | with_reducible apply Only.foldl
    | with_reducible apply Only.ite
    | with_reducible apply Only.step (storePhys_only _ _ _)
    | with_reducible apply Only.step (writesNote_only _ _ _ _)
    | with_reducible intro _
    | rfl
    | split

theorem ringWrite_only (a0 : Sys2Proof.Half) (a1 : Nat) (s : State) :
    Only [.mbx, .phys, .mcs, .win, .ctr, .flash, .start, .trA, .trB] s (ringWrite a0 a1 s) := by
  unfold ringWrite
  repeat' first
    | with_reducible exact Only.refl _ _
    | with_reducible assumption
    | ((fail_if_no_progress extract_lets +onlyGivenNames x); try (refine Only.cut x ?_ ?_; rotate_left; intro _; clear_value x; rotate_left; unfold x))
    | with_reducible apply Only.foldl
    | with_reducible apply Only.ite
    | with_reducible apply Only.step (count_only _ _ _ _)
    | with_reducible apply Only.step (modTr_only _ _ _)
    | with_reducible apply Only.step (putOwn_only _ _ _ _)
    | with_reducible intro _
    | rfl
    | split

theorem traceFlow_only (a0 : Sys2Proof.Half) (s : State) :
    Only [.mbx, .phys, .mcs, .win, .ctr, .flash, .start, .trA, .trB] s (traceFlow a0 s) := by
  unfold traceFlow
  repeat' first
    | with_reducible exact Only.refl _ _
    | with_reducible assumption
    | ((fail_if_no_progress extract_lets +onlyGivenNames x); try (refine Only.cut x ?_ ?_; rotate_left; intro _; clear_value x; rotate_left; unfold x))
    | with_reducible apply Only.foldl
    | with_reducible apply Only.ite
    | with_reducible apply Only.step (modTr_only _ _ _)
    | with_reducible apply Only.step (ringWrite_only _ _ _)
    | with_reducible intro _
    | rfl
    | split

theorem crumb_only (a0 : Sys2Proof.Half) (a1 : List Nat) (s : State) :
    Only [.mbx, .phys, .mcs, .win, .ctr, .flash, .start, .trA, .trB] s (crumb a0 a1 s) := by
  unfold crumb
  repeat' first
    | with_reducible exact Only.refl _ _
    | with_reducible assumption
    | ((fail_if_no_progress extract_lets +onlyGivenNames x); try (refine Only.cut x ?_ ?_; rotate_left; intro _; clear_value x; rotate_left; unfold x))
    | with_reducible apply Only.foldl
    | with_reducible apply Only.ite
    | with_reducible apply Only.step (count_only _ _ _ _)
    | with_reducible apply Only.step (modTr_only _ _ _)
    | with_reducible apply Only.step (traceFlow_only _ _)
    | with_reducible intro _
    | rfl
    | split

theorem sendSignal_only (a0 : Nat) (a1 : Nat) (a2 : Nat) (a3 : Nat) (a4 : Nat) (a5 : Bool) (s : State) :
    Only [.signals] s (sendSignal a0 a1 a2 a3 a4 a5 s) := by
  unfold sendSignal
  repeat' first
    | with_reducible exact Only.refl _ _
    | with_reducible assumption
    | ((fail_if_no_progress extract_lets +onlyGivenNames x); try (refine Only.cut x ?_ ?_; rotate_left; intro _; clear_value x; rotate_left; unfold x))
    | with_reducible apply Only.foldl
    | with_reducible apply Only.ite
    | with_reducible apply Only.step (pushSignal_only _ _)
    | with_reducible intro _
    | rfl
    | split

theorem csend_only (a0 : Nat) (a1 : Nat) (s : State) :
    Only [.signals] s (csend a0 a1 s) := by
  unfold csend
  repeat' first
    | with_reducible exact Only.refl _ _
    | with_reducible assumption
    | ((fail_if_no_progress extract_lets +onlyGivenNames x); try (refine Only.cut x ?_ ?_; rotate_left; intro _; clear_value x; rotate_left; unfold x))
    | with_reducible apply Only.foldl
    | with_reducible apply Only.ite
    | with_reducible apply Only.step (sendSignal_only _ _ _ _ _ _ _)
    | with_reducible intro _
    | rfl
    | split

theorem ctrClear_only (a0 : Nat) (a1 : Nat) (s : State) :
    Only [.mcs, .ctr] s (ctrClear a0 a1 s) := by
  unfold ctrClear
  repeat' first
    | with_reducible exact Only.refl _ _
    | with_reducible assumption
    | ((fail_if_no_progress extract_lets +onlyGivenNames x); try (refine Only.cut x ?_ ?_; rotate_left; intro _; clear_value x; rotate_left; unfold x))
    | with_reducible apply Only.foldl
    | with_reducible apply Only.ite
    | with_reducible apply Only.step (modMc_only _ _ _)
    | with_reducible apply Only.step (setCtr_only _ _ _ _)
    | with_reducible intro _
    | rfl
    | split

theorem demote_only (a0 : Sys2Proof.Half) (s : State) :
    Only [.mbx, .win, .ctr, .crown] s (demote a0 s) := by
  unfold demote
  repeat' first
    | with_reducible exact Only.refl _ _
    | with_reducible assumption
    | ((fail_if_no_progress extract_lets +onlyGivenNames x); try (refine Only.cut x ?_ ?_; rotate_left; intro _; clear_value x; rotate_left; unfold x))
    | with_reducible apply Only.foldl
    | with_reducible apply Only.ite
    | with_reducible apply Only.step (event_only _ _ _ _ _)
    | with_reducible apply Only.step (modCrown_only _ _)
    | with_reducible apply Only.step (modMon_only _ _ _)
    | with_reducible intro _
    | rfl
    | split

theorem dropTaps_only (a0 : Nat) (s : State) :
    Only [.taps] s (dropTaps a0 s) := by
  unfold dropTaps
  repeat' first
    | with_reducible exact Only.refl _ _
    | with_reducible assumption
    | ((fail_if_no_progress extract_lets +onlyGivenNames x); try (refine Only.cut x ?_ ?_; rotate_left; intro _; clear_value x; rotate_left; unfold x))
    | with_reducible apply Only.foldl
    | with_reducible apply Only.ite
    | with_reducible intro _
    | rfl
    | (fail_if_no_progress (with_reducible apply Only.upd); rotate_left; (intro p hp; cases p <;> first | rfl | exact ⟨rfl, rfl⟩ | exact ⟨rfl, rfl, rfl⟩ | exact absurd (by decide) hp))
    | split

theorem destroyPart_only (a0 : Nat) (s : State) :
    Only [.mbx, .work, .clusters, .tiles, .tileStores, .phys, .mcs, .xl, .win, .ctr, .eng, .flash, .start, .taps] s (destroyPart a0 s) := by
  unfold destroyPart
  repeat' first
    | with_reducible exact Only.refl _ _
    | with_reducible assumption
    | ((fail_if_no_progress extract_lets +onlyGivenNames x); try (refine Only.cut x ?_ ?_; rotate_left; intro _; clear_value x; rotate_left; unfold x))
    | with_reducible apply Only.foldl
    | with_reducible apply Only.ite
    | with_reducible apply Only.step (dropTaps_only _ _)
    | with_reducible apply Only.step (modCluster_only _ _ _)
    | with_reducible apply Only.step (resetEngine_only _ _)
    | with_reducible apply Only.step (setPart_only _ _ _)
    | with_reducible apply Only.step (zeroCluster_only _ _)
    | with_reducible intro _
    | rfl
    | (fail_if_no_progress (with_reducible apply Only.upd); rotate_left; (intro p hp; cases p <;> first | rfl | exact ⟨rfl, rfl⟩ | exact ⟨rfl, rfl, rfl⟩ | exact absurd (by decide) hp))
    | split

theorem directStart_only (a0 : Machine.Par) (s : State) :
    Only [.mbx, .work, .clusters, .tiles, .signals, .phys, .mcs, .xl, .win, .ctr, .fab, .eng, .led, .flash, .start] s (directStart a0 s) := by
  unfold directStart
  repeat' first
    | with_reducible exact Only.refl _ _
    | with_reducible assumption
    | ((fail_if_no_progress extract_lets +onlyGivenNames x); try (refine Only.cut x ?_ ?_; rotate_left; intro _; clear_value x; rotate_left; unfold x))
    | with_reducible apply Only.foldl
    | with_reducible apply Only.ite
    | with_reducible apply Only.step (directPoke_only _ _)
    | with_reducible apply Only.step (doAct_only _ _ _)
    | with_reducible apply Only.step (failP_only _ _ _ _)
    | with_reducible apply Only.step (modP_only _ _ _)
    | with_reducible apply Only.step (ownNote_only _ _ _)
    | with_reducible intro _
    | rfl
    | split
    | (fail_if_no_progress clear_value *)

theorem disablePort_only (a0 : Nat) (s : State) :
    Only [.mbx, .win, .ctr, .fab] s (disablePort a0 s) := by
  unfold disablePort
  repeat' first
    | with_reducible exact Only.refl _ _
    | with_reducible assumption
    | ((fail_if_no_progress extract_lets +onlyGivenNames x); try (refine Only.cut x ?_ ?_; rotate_left; intro _; clear_value x; rotate_left; unfold x))
    | with_reducible apply Only.foldl
    | with_reducible apply Only.ite
    | with_reducible apply Only.step (modPort_only _ _ _)
    | with_reducible apply Only.step (setPortSt_only _ _ _)
    | with_reducible intro _
    | rfl
    | split

theorem takeFree_only (s : State) :
    Only [.free] s (takeFree s) := by
  unfold takeFree
  repeat' first
    | with_reducible exact Only.refl _ _
    | with_reducible assumption
    | ((fail_if_no_progress extract_lets +onlyGivenNames x); try (refine Only.cut x ?_ ?_; rotate_left; intro _; clear_value x; rotate_left; unfold x))
    | with_reducible apply Only.foldl
    | with_reducible apply Only.ite
    | with_reducible intro _
    | rfl
    | (fail_if_no_progress (with_reducible apply Only.upd); rotate_left; (intro p hp; cases p <;> first | rfl | exact ⟨rfl, rfl⟩ | exact ⟨rfl, rfl, rfl⟩ | exact absurd (by decide) hp))
    | split

theorem discipline_only (a0 : Bool) (s : State) :
    Only [.time, .free] s (discipline a0 s) := by
  unfold discipline
  repeat' first
    | with_reducible exact Only.refl _ _
    | with_reducible assumption
    | ((fail_if_no_progress extract_lets +onlyGivenNames x); try (refine Only.cut x ?_ ?_; rotate_left; intro _; clear_value x; rotate_left; unfold x))
    | with_reducible apply Only.foldl
    | with_reducible apply Only.ite
    | with_reducible apply Only.step (modTime_only _ _)
    | with_reducible apply Only.step (takeFree_only _)
    | with_reducible intro _
    | rfl
    | split

theorem failLaunch_only (a0 : Nat) (a1 : Nat) (a2 : Nat) (a3 : Nat) (a4 : Nat) (a5 : Bool) (s : State) :
    Only [.mbx, .work, .clusters, .tiles, .signals, .win, .ctr, .fab, .eng, .led] s (failLaunch a0 a1 a2 a3 a4 a5 s) := by
  unfold failLaunch
  repeat' first
    | with_reducible exact Only.refl _ _
    | with_reducible assumption
    | ((fail_if_no_progress extract_lets +onlyGivenNames x); try (refine Only.cut x ?_ ?_; rotate_left; intro _; clear_value x; rotate_left; unfold x))
    | with_reducible apply Only.foldl
    | with_reducible apply Only.ite
    | with_reducible apply Only.step (fenceWith_only _ _ _ _ _ _ _)
    | with_reducible apply Only.step (modLaunch_only _ _ _ _)
    | with_reducible intro _
    | rfl
    | split
    | (fail_if_no_progress clear_value *)

theorem tileFault_only (a0 : Bool) (a1 : Nat) (a2 : Nat) (a3 : Machine.TFault) (s : State) :
    Only [.mbx, .work, .clusters, .tiles, .signals, .win, .ctr, .fab, .eng, .led] s (tileFault a0 a1 a2 a3 s) := by
  unfold tileFault
  repeat' first
    | with_reducible exact Only.refl _ _
    | with_reducible assumption
    | ((fail_if_no_progress extract_lets +onlyGivenNames x); try (refine Only.cut x ?_ ?_; rotate_left; intro _; clear_value x; rotate_left; unfold x))
    | with_reducible apply Only.foldl
    | with_reducible apply Only.ite
    | with_reducible apply Only.step (event_only _ _ _ _ _)
    | with_reducible apply Only.step (eventG_only _ _ _ _ _ _ _)
    | with_reducible apply Only.step (failLaunch_only _ _ _ _ _ _ _)
    | with_reducible apply Only.step (modCluster_only _ _ _)
    | with_reducible apply Only.step (modTile_only _ _ _)
    | with_reducible intro _
    | rfl
    | split

theorem dispatchDesc_only (a0 : Nat) (s : State) :
    Only [.mbx, .work, .clusters, .tiles, .signals, .win, .ctr, .fab, .eng, .led] s (dispatchDesc a0 s) := by
  unfold dispatchDesc
  repeat' first
    | with_reducible exact Only.refl _ _
    | with_reducible assumption
    | ((fail_if_no_progress extract_lets +onlyGivenNames x); try (refine Only.cut x ?_ ?_; rotate_left; intro _; clear_value x; rotate_left; unfold x))
    | with_reducible apply Only.foldl
    | with_reducible apply Only.ite
    | with_reducible apply Only.step (modTile_only _ _ _)
    | with_reducible apply Only.step (tileFault_only _ _ _ _ _)
    | with_reducible intro _
    | rfl
    | split

theorem dispatchAll_only (a0 : Nat) (a1 : Nat) (s : State) :
    Only [.mbx, .work, .clusters, .tiles, .signals, .win, .ctr, .fab, .eng, .led] s (dispatchAll a0 a1 s) := by
  induction a1 generalizing s with
  | zero => exact Only.refl _ _
  | succ n ih =>
    unfold dispatchAll
    exact Only.trans (Only.step (dispatchDesc_only _ _) (Only.refl _ _) rfl) (ih _)

theorem dispatch_only (a0 : Nat) (s : State) :
    Only [.mbx, .work, .clusters, .tiles, .signals, .win, .ctr, .fab, .eng, .led] s (dispatch a0 s) := by
  unfold dispatch
  repeat' first
    | with_reducible exact Only.refl _ _
    | with_reducible assumption
    | ((fail_if_no_progress extract_lets +onlyGivenNames x); try (refine Only.cut x ?_ ?_; rotate_left; intro _; clear_value x; rotate_left; unfold x))
    | with_reducible apply Only.foldl
    | with_reducible apply Only.ite
    | with_reducible apply Only.step (dispatchAll_only _ _ _)
    | with_reducible intro _
    | rfl
    | split

theorem dispatchOne_only (a0 : Nat) (a1 : Nat) (s : State) :
    Only [.sched, .mbx, .win, .ctr] s (dispatchOne a0 a1 s) := by
  unfold dispatchOne
  repeat' first
    | with_reducible exact Only.refl _ _
    | with_reducible assumption
    | ((fail_if_no_progress extract_lets +onlyGivenNames x); try (refine Only.cut x ?_ ?_; rotate_left; intro _; clear_value x; rotate_left; unfold x))
    | with_reducible apply Only.foldl
    | with_reducible apply Only.ite
    | with_reducible apply Only.step (event_only _ _ _ _ _)
    | with_reducible apply Only.step (setSched_only _ _ _)
    | with_reducible intro _
    | rfl
    | (fail_if_no_progress (with_reducible apply Only.upd); rotate_left; (intro p hp; cases p <;> first | rfl | exact ⟨rfl, rfl⟩ | exact ⟨rfl, rfl, rfl⟩ | exact absurd (by decide) hp))
    | split

theorem drainSteps_only (a0 : Nat) (a1 : Nat) (s : State) :
    Only [.win, .ctr, .fab] s (drainSteps a0 a1 s) := by
  induction a1 generalizing s with
  | zero => exact Only.refl _ _
  | succ n ih =>
    unfold drainSteps
    split
    · exact Only.trans (Only.step (leave_only _ _ _ _) (Only.step (setQueue_only _ _ _) (Only.refl _ _) rfl) rfl) (ih _)
    · exact Only.refl _ _

theorem drainPort_only (a0 : Nat) (s : State) :
    Only [.win, .ctr, .fab] s (drainPort a0 s) := by
  unfold drainPort
  repeat' first
    | with_reducible exact Only.refl _ _
    | with_reducible assumption
    | ((fail_if_no_progress extract_lets +onlyGivenNames x); try (refine Only.cut x ?_ ?_; rotate_left; intro _; clear_value x; rotate_left; unfold x))
    | with_reducible apply Only.foldl
    | with_reducible apply Only.ite
    | with_reducible apply Only.step (drainSteps_only _ _ _)
    | with_reducible intro _
    | rfl
    | split

theorem setMaps_only (a0 : Nat) (a1 : Nat) (a2 : Nat) (a3 : Machine.Ctx → Machine.Ctx) (s : State) :
    Only [.work, .xl] s (setMaps a0 a1 a2 a3 s) := by
  unfold setMaps
  repeat' first
    | with_reducible exact Only.refl _ _
    | with_reducible assumption
    | ((fail_if_no_progress extract_lets +onlyGivenNames x); try (refine Only.cut x ?_ ?_; rotate_left; intro _; clear_value x; rotate_left; unfold x))
    | with_reducible apply Only.foldl
    | with_reducible apply Only.ite
    | with_reducible apply Only.step (cacheDrop_only _ _ _ _)
    | with_reducible apply Only.step (modCtx_only _ _ _)
    | with_reducible intro _
    | rfl
    | (fail_if_no_progress (with_reducible apply Only.upd); rotate_left; (intro p hp; cases p <;> first | rfl | exact ⟨rfl, rfl⟩ | exact ⟨rfl, rfl, rfl⟩ | exact absurd (by decide) hp))
    | split

theorem zeroRuns_only (a0 : List (Nat × Nat)) (s : State) :
    Only [.phys] s (zeroRuns a0 s) := by
  unfold zeroRuns
  repeat' first
    | with_reducible exact Only.refl _ _
    | with_reducible assumption
    | ((fail_if_no_progress extract_lets +onlyGivenNames x); try (refine Only.cut x ?_ ?_; rotate_left; intro _; clear_value x; rotate_left; unfold x))
    | with_reducible apply Only.foldl
    | with_reducible apply Only.ite
    | with_reducible intro _
    | rfl
    | (fail_if_no_progress (with_reducible apply Only.upd); rotate_left; (intro p hp; cases p <;> first | rfl | exact ⟨rfl, rfl⟩ | exact ⟨rfl, rfl, rfl⟩ | exact absurd (by decide) hp))
    | split

theorem place_only (a0 : Nat) (a1 : Nat) (a2 : Nat) (a3 : Bool) (a4 : Bool) (a5 : Nat) (a6 : Nat) (a7 : List (Nat × Nat)) (s : State) :
    Only [.work, .phys, .xl, .free] s (place a0 a1 a2 a3 a4 a5 a6 a7 s) := by
  unfold place
  repeat' first
    | with_reducible exact Only.refl _ _
    | with_reducible assumption
    | ((fail_if_no_progress extract_lets +onlyGivenNames x); try (refine Only.cut x ?_ ?_; rotate_left; intro _; clear_value x; rotate_left; unfold x))
    | with_reducible apply Only.foldl
    | with_reducible apply Only.ite
    | with_reducible apply Only.step (setMaps_only _ _ _ _ _)
    | with_reducible apply Only.step (takeFree_only _)
    | with_reducible apply Only.step (zeroRuns_only _ _)
    | with_reducible intro _
    | rfl
    | split

theorem dropHit_only (a0 : Nat) (a1 : Sys2Proof.Pkt) (a2 : Nat) (s : State) :
    Only [.fab] s (dropHit a0 a1 a2 s) := by
  unfold dropHit
  repeat' first
    | with_reducible exact Only.refl _ _
    | with_reducible assumption
    | ((fail_if_no_progress extract_lets +onlyGivenNames x); try (refine Only.cut x ?_ ?_; rotate_left; intro _; clear_value x; rotate_left; unfold x))
    | with_reducible apply Only.foldl
    | with_reducible apply Only.ite
    | with_reducible apply Only.step (modPort_only _ _ _)
    | with_reducible apply Only.step (rxCount_only _ _ _ _)
    | with_reducible intro _
    | rfl
    | split

theorem dropLowering_only (a0 : Nat) (s : State) :
    Only [.power] s (dropLowering a0 s) := by
  unfold dropLowering
  repeat' first
    | with_reducible exact Only.refl _ _
    | with_reducible assumption
    | ((fail_if_no_progress extract_lets +onlyGivenNames x); try (refine Only.cut x ?_ ?_; rotate_left; intro _; clear_value x; rotate_left; unfold x))
    | with_reducible apply Only.foldl
    | with_reducible apply Only.ite
    | with_reducible apply Only.step (modPower_only _ _)
    | with_reducible intro _
    | rfl
    | split

theorem tracePut_only (a0 : Sys2Proof.Half) (a1 : Nat) (a2 : Nat) (a3 : Bool) (s : State) :
    Only [.mbx, .phys, .mcs, .win, .ctr, .flash, .start, .trA, .trB] s (tracePut a0 a1 a2 a3 s) := by
  unfold tracePut
  repeat' first
    | with_reducible exact Only.refl _ _
    | with_reducible assumption
    | ((fail_if_no_progress extract_lets +onlyGivenNames x); try (refine Only.cut x ?_ ?_; rotate_left; intro _; clear_value x; rotate_left; unfold x))
    | with_reducible apply Only.foldl
    | with_reducible apply Only.ite
    | with_reducible apply Only.step (count_only _ _ _ _)
    | with_reducible apply Only.step (modTr_only _ _ _)
    | with_reducible apply Only.step (traceFlow_only _ _)
    | with_reducible intro _
    | rfl
    | split

theorem putSync_only (a0 : Sys2Proof.Half) (a1 : Nat) (a2 : Nat) (s : State) :
    Only [.mbx, .phys, .mcs, .win, .ctr, .flash, .start, .trA, .trB] s (putSync a0 a1 a2 s) := by
  unfold putSync
  repeat' first
    | with_reducible exact Only.refl _ _
    | with_reducible assumption
    | ((fail_if_no_progress extract_lets +onlyGivenNames x); try (refine Only.cut x ?_ ?_; rotate_left; intro _; clear_value x; rotate_left; unfold x))
    | with_reducible apply Only.foldl
    | with_reducible apply Only.ite
    | with_reducible apply Only.step (tracePut_only _ _ _ _ _)
    | with_reducible intro _
    | rfl
    | split

theorem putSyncFree_only (a0 : Sys2Proof.Half) (a1 : Nat) (s : State) :
    Only [.mbx, .phys, .mcs, .win, .ctr, .flash, .start, .trA, .trB, .free] s (putSyncFree a0 a1 s) := by
  unfold putSyncFree
  repeat' first
    | with_reducible exact Only.refl _ _
    | with_reducible assumption
    | ((fail_if_no_progress extract_lets +onlyGivenNames x); try (refine Only.cut x ?_ ?_; rotate_left; intro _; clear_value x; rotate_left; unfold x))
    | with_reducible apply Only.foldl
    | with_reducible apply Only.ite
    | with_reducible apply Only.step (putSync_only _ _ _ _)
    | with_reducible apply Only.step (takeFree_only _)
    | with_reducible intro _
    | rfl
    | split

theorem dueSync_only (a0 : Sys2Proof.Half) (a1 : Nat) (s : State) :
    Only [.mbx, .phys, .mcs, .win, .ctr, .flash, .start, .trA, .trB, .free] s (dueSync a0 a1 s) := by
  unfold dueSync
  repeat' first
    | with_reducible exact Only.refl _ _
    | with_reducible assumption
    | ((fail_if_no_progress extract_lets +onlyGivenNames x); try (refine Only.cut x ?_ ?_; rotate_left; intro _; clear_value x; rotate_left; unfold x))
    | with_reducible apply Only.foldl
    | with_reducible apply Only.ite
    | with_reducible apply Only.step (putSyncFree_only _ _ _)
    | with_reducible intro _
    | rfl
    | split

theorem endWindow_only (s : State) :
    Only [.power, .free] s (endWindow s) := by
  unfold endWindow
  repeat' first
    | with_reducible exact Only.refl _ _
    | with_reducible assumption
    | ((fail_if_no_progress extract_lets +onlyGivenNames x); try (refine Only.cut x ?_ ?_; rotate_left; intro _; clear_value x; rotate_left; unfold x))
    | with_reducible apply Only.foldl
    | with_reducible apply Only.ite
    | with_reducible apply Only.step (modPower_only _ _)
    | with_reducible apply Only.step (takeFree_only _)
    | with_reducible intro _
    | rfl
    | split

theorem endWithdrawEntry_only (a0 : Machine.Comparator) (s : State) :
    Only [.sched] s (endWithdrawEntry a0 s) := by
  unfold endWithdrawEntry
  repeat' first
    | with_reducible exact Only.refl _ _
    | with_reducible assumption
    | ((fail_if_no_progress extract_lets +onlyGivenNames x); try (refine Only.cut x ?_ ?_; rotate_left; intro _; clear_value x; rotate_left; unfold x))
    | with_reducible apply Only.foldl
    | with_reducible apply Only.ite
    | with_reducible intro _
    | rfl
    | (fail_if_no_progress (with_reducible apply Only.upd); rotate_left; (intro p hp; cases p <;> first | rfl | exact ⟨rfl, rfl⟩ | exact ⟨rfl, rfl, rfl⟩ | exact absurd (by decide) hp))
    | split

theorem modStage_only (a0 : Nat) (a1 : Machine.Stage → Machine.Stage) (s : State) :
    Only [.crown] s (modStage a0 a1 s) := by
  unfold modStage
  repeat' first
    | with_reducible exact Only.refl _ _
    | with_reducible assumption
    | ((fail_if_no_progress extract_lets +onlyGivenNames x); try (refine Only.cut x ?_ ?_; rotate_left; intro _; clear_value x; rotate_left; unfold x))
    | with_reducible apply Only.foldl
    | with_reducible apply Only.ite
    | with_reducible apply Only.step (modCrown_only _ _)
    | with_reducible intro _
    | rfl
    | split

theorem rejectWrite_only (a0 : Nat) (s : State) :
    Only [.mbx, .win, .ctr, .crown] s (rejectWrite a0 s) := by
  unfold rejectWrite
  repeat' first
    | with_reducible exact Only.refl _ _
    | with_reducible assumption
    | ((fail_if_no_progress extract_lets +onlyGivenNames x); try (refine Only.cut x ?_ ?_; rotate_left; intro _; clear_value x; rotate_left; unfold x))
    | with_reducible apply Only.foldl
    | with_reducible apply Only.ite
    | with_reducible apply Only.step (event_only _ _ _ _ _)
    | with_reducible apply Only.step (modStage_only _ _ _)
    | with_reducible intro _
    | rfl
    | split

theorem pumpTx_only (s : State) :
    Only [.mbx, .win, .ctr, .fab] s (pumpTx s) := by
  unfold pumpTx
  repeat' first
    | with_reducible exact Only.refl _ _
    | with_reducible assumption
    | ((fail_if_no_progress extract_lets +onlyGivenNames x); try (refine Only.cut x ?_ ?_; rotate_left; intro _; clear_value x; rotate_left; unfold x))
    | with_reducible apply Only.foldl
    | with_reducible apply Only.ite
    | with_reducible apply Only.step (modFab_only _ _)
    | with_reducible apply Only.step (sendOwn_only _ _)
    | with_reducible intro _
    | rfl
    | split

theorem waitUntil_only (a0 : Nat) (s : State) :
    Only [.time] s (waitUntil a0 s) := by
  unfold waitUntil
  repeat' first
    | with_reducible exact Only.refl _ _
    | with_reducible assumption
    | ((fail_if_no_progress extract_lets +onlyGivenNames x); try (refine Only.cut x ?_ ?_; rotate_left; intro _; clear_value x; rotate_left; unfold x))
    | with_reducible apply Only.foldl
    | with_reducible apply Only.ite
    | with_reducible apply Only.step (advance_only _ _)
    | with_reducible intro _
    | rfl
    | split

theorem modMgmt_only (a0 : Machine.Mgmt → Machine.Mgmt) (s : State) :
    Only [.mgmt] s (modMgmt a0 s) := by
  unfold modMgmt
  repeat' first
    | with_reducible exact Only.refl _ _
    | with_reducible assumption
    | ((fail_if_no_progress extract_lets +onlyGivenNames x); try (refine Only.cut x ?_ ?_; rotate_left; intro _; clear_value x; rotate_left; unfold x))
    | with_reducible apply Only.foldl
    | with_reducible apply Only.ite
    | with_reducible intro _
    | rfl
    | (fail_if_no_progress (with_reducible apply Only.upd); rotate_left; (intro p hp; cases p <;> first | rfl | exact ⟨rfl, rfl⟩ | exact ⟨rfl, rfl, rfl⟩ | exact absurd (by decide) hp))
    | split

theorem modStart_only (a0 : Machine.Start → Machine.Start) (s : State) :
    Only [.start] s (modStart a0 s) := by
  unfold modStart
  repeat' first
    | with_reducible exact Only.refl _ _
    | with_reducible assumption
    | ((fail_if_no_progress extract_lets +onlyGivenNames x); try (refine Only.cut x ?_ ?_; rotate_left; intro _; clear_value x; rotate_left; unfold x))
    | with_reducible apply Only.foldl
    | with_reducible apply Only.ite
    | with_reducible intro _
    | rfl
    | (fail_if_no_progress (with_reducible apply Only.upd); rotate_left; (intro p hp; cases p <;> first | rfl | exact ⟨rfl, rfl⟩ | exact ⟨rfl, rfl, rfl⟩ | exact absurd (by decide) hp))
    | split

theorem openEpoch_only (s : State) :
    Only [.fab, .power, .led, .flash] s (openEpoch s) := by
  unfold openEpoch
  repeat' first
    | with_reducible exact Only.refl _ _
    | with_reducible assumption
    | ((fail_if_no_progress extract_lets +onlyGivenNames x); try (refine Only.cut x ?_ ?_; rotate_left; intro _; clear_value x; rotate_left; unfold x))
    | with_reducible apply Only.foldl
    | with_reducible apply Only.ite
    | with_reducible apply Only.step (modFab_only _ _)
    | with_reducible apply Only.step (modLed_only _ _)
    | with_reducible intro _
    | rfl
    | (fail_if_no_progress (with_reducible apply Only.upd); rotate_left; (intro p hp; cases p <;> first | rfl | exact ⟨rfl, rfl⟩ | exact ⟨rfl, rfl, rfl⟩ | exact absurd (by decide) hp))
    | split

theorem railsLost_only (s : State) :
    Only [.mbx, .work, .clusters, .tiles, .signals, .tileStores, .phys, .hostMem, .mcs, .snoop, .xl, .memMode, .win, .ctr, .fab, .eng, .fw, .trA, .trB, .taps, .cxlA, .cxlB, .bridge] s (railsLost s) := by
  unfold railsLost
  repeat' first
    | with_reducible exact Only.refl _ _
    | with_reducible assumption
    | ((fail_if_no_progress extract_lets +onlyGivenNames x); try (refine Only.cut x ?_ ?_; rotate_left; intro _; clear_value x; rotate_left; unfold x))
    | with_reducible apply Only.foldl
    | with_reducible apply Only.ite
    | with_reducible intro _
    | rfl
    | (fail_if_no_progress (with_reducible apply Only.upd); rotate_left; (intro p hp; cases p <;> first | rfl | exact ⟨rfl, rfl⟩ | exact ⟨rfl, rfl, rfl⟩ | exact absurd (by decide) hp))
    | split

theorem toRails_only (s : State) :
    Only [.power, .start] s (toRails s) := by
  unfold toRails
  repeat' first
    | with_reducible exact Only.refl _ _
    | with_reducible assumption
    | ((fail_if_no_progress extract_lets +onlyGivenNames x); try (refine Only.cut x ?_ ?_; rotate_left; intro _; clear_value x; rotate_left; unfold x))
    | with_reducible apply Only.foldl
    | with_reducible apply Only.ite
    | with_reducible intro _
    | rfl
    | (fail_if_no_progress (with_reducible apply Only.upd); rotate_left; (intro p hp; cases p <;> first | rfl | exact ⟨rfl, rfl⟩ | exact ⟨rfl, rfl, rfl⟩ | exact absurd (by decide) hp))
    | split

theorem runStarter_only (s : State) :
    Only [.mbx, .work, .clusters, .tiles, .signals, .tileStores, .phys, .hostMem, .mcs, .snoop, .xl, .memMode, .win, .ctr, .fab, .eng, .power, .led, .flash, .start, .fw, .trA, .trB, .taps, .cxlA, .cxlB, .bridge] s (runStarter s) := by
  unfold runStarter
  repeat' first
    | with_reducible exact Only.refl _ _
    | with_reducible assumption
    | ((fail_if_no_progress extract_lets +onlyGivenNames x); try (refine Only.cut x ?_ ?_; rotate_left; intro _; clear_value x; rotate_left; unfold x))
    | with_reducible apply Only.foldl
    | with_reducible apply Only.ite
    | with_reducible apply Only.step (modStart_only _ _)
    | with_reducible apply Only.step (openEpoch_only _)
    | with_reducible apply Only.step (railsLost_only _)
    | with_reducible apply Only.step (toRails_only _)
    | with_reducible intro _
    | rfl
    | split

theorem flashRead_only (a0 : Sys2Proof.Retry) (s : State) :
    Only [.mbx, .win, .ctr] s (flashRead a0 s) := by
  unfold flashRead
  repeat' first
    | with_reducible exact Only.refl _ _
    | with_reducible assumption
    | ((fail_if_no_progress extract_lets +onlyGivenNames x); try (refine Only.cut x ?_ ?_; rotate_left; intro _; clear_value x; rotate_left; unfold x))
    | with_reducible apply Only.foldl
    | with_reducible apply Only.ite
    | with_reducible apply Only.step (event_only _ _ _ _ _)
    | with_reducible intro _
    | rfl
    | split

theorem supervisorStart_only (a0 : Sys2Proof.Retry) (s : State) :
    Only [.mbx, .work, .clusters, .tiles, .signals, .tileStores, .phys, .hostMem, .mcs, .snoop, .xl, .memMode, .win, .ctr, .fab, .eng, .crown, .power, .led, .flash, .start, .fw, .trA, .trB, .taps, .cxlA, .cxlB, .bridge] s (supervisorStart a0 s) := by
  unfold supervisorStart
  repeat' first
    | with_reducible exact Only.refl _ _
    | with_reducible assumption
    | ((fail_if_no_progress extract_lets +onlyGivenNames x); try (refine Only.cut x ?_ ?_; rotate_left; intro _; clear_value x; rotate_left; unfold x))
    | with_reducible apply Only.foldl
    | with_reducible apply Only.ite
    | with_reducible apply Only.step (flashRead_only _ _)
    | with_reducible apply Only.step (modCrown_only _ _)
    | with_reducible apply Only.step (modStart_only _ _)
    | with_reducible apply Only.step (runStarter_only _)
    | with_reducible apply Only.step (writeDir_only _ _ _)
    | with_reducible intro _
    | rfl
    | with_reducible apply Only.ofSnd ‹_ = (_, _)›
    | split

theorem waitCount_only (a0 : Nat) (s : State) :
    Only [.time] s (waitCount a0 s) := by
  unfold waitCount
  repeat' first
    | with_reducible exact Only.refl _ _
    | with_reducible assumption
    | ((fail_if_no_progress extract_lets +onlyGivenNames x); try (refine Only.cut x ?_ ?_; rotate_left; intro _; clear_value x; rotate_left; unfold x))
    | with_reducible apply Only.foldl
    | with_reducible apply Only.ite
    | with_reducible apply Only.step (advance_only _ _)
    | with_reducible intro _
    | rfl
    | split

theorem schedEndAll_only (a0 : Nat) (a1 : Nat → Machine.SchedEntry → Bool) (s : State) :
    Only [.sched] s (schedEndAll a0 a1 s) := by
  unfold schedEndAll
  repeat' first
    | with_reducible exact Only.refl _ _
    | with_reducible assumption
    | ((fail_if_no_progress extract_lets +onlyGivenNames x); try (refine Only.cut x ?_ ?_; rotate_left; intro _; clear_value x; rotate_left; unfold x))
    | with_reducible apply Only.foldl
    | with_reducible apply Only.ite
    | with_reducible intro _
    | rfl
    | (fail_if_no_progress (with_reducible apply Only.upd); rotate_left; (intro p hp; cases p <;> first | rfl | exact ⟨rfl, rfl⟩ | exact ⟨rfl, rfl, rfl⟩ | exact absurd (by decide) hp))
    | split

theorem finishClose_only (a0 : Nat) (s : State) :
    Only [.sched, .mbx, .work, .xl, .led, .fw, .taps] s (finishClose a0 s) := by
  unfold finishClose
  repeat' first
    | with_reducible exact Only.refl _ _
    | with_reducible assumption
    | ((fail_if_no_progress extract_lets +onlyGivenNames x); try (refine Only.cut x ?_ ?_; rotate_left; intro _; clear_value x; rotate_left; unfold x))
    | with_reducible apply Only.foldl
    | with_reducible apply Only.ite
    | with_reducible apply Only.step (cacheDrop_only _ _ _ _)
    | with_reducible apply Only.step (hostEvent_only _ _ _ _ _)
    | with_reducible apply Only.step (respond_only _ _ _ _ _)
    | with_reducible apply Only.step (schedEndAll_only _ _ _)
    | with_reducible apply Only.step (setCtx_only _ _ _)
    | with_reducible intro _
    | rfl
    | (fail_if_no_progress (with_reducible apply Only.upd); rotate_left; (intro p hp; cases p <;> first | rfl | exact ⟨rfl, rfl⟩ | exact ⟨rfl, rfl, rfl⟩ | exact absurd (by decide) hp))
    | split

theorem resetToDestroy_only (a0 : Nat) (a1 : Nat) (s : State) :
    Only [.mbx, .work, .clusters, .tiles, .signals, .win, .ctr, .fab, .eng, .led] s (resetToDestroy a0 a1 s) := by
  unfold resetToDestroy
  repeat' first
    | with_reducible exact Only.refl _ _
    | with_reducible assumption
    | ((fail_if_no_progress extract_lets +onlyGivenNames x); try (refine Only.cut x ?_ ?_; rotate_left; intro _; clear_value x; rotate_left; unfold x))
    | with_reducible apply Only.foldl
    | with_reducible apply Only.ite
    | with_reducible apply Only.step (fencePart_only _ _ _ _ _ _)
    | with_reducible apply Only.step (modPart_only _ _ _)
    | with_reducible intro _
    | rfl
    | split

theorem startColl_only (a0 : Machine.Coll) (a1 : Nat) (s : State) :
    Only [.mbx, .work, .clusters, .tiles, .signals, .phys, .mcs, .xl, .win, .ctr, .fab, .eng, .led, .flash, .start] s (startColl a0 a1 s) := by
  unfold startColl
  simp only
  repeat' first
    | with_reducible exact Only.refl _ _
    | with_reducible apply Only.foldl
    | with_reducible apply Only.ite
    | with_reducible apply Only.step (collFail_only _ _ _ _ _ _)
    | with_reducible apply Only.step (directStart_only _ _)
    | with_reducible apply Only.step (doAct_only _ _ _)
    | with_reducible apply Only.step (event_only _ _ _ _ _)
    | with_reducible apply Only.step (failP_only _ _ _ _)
    | with_reducible apply Only.step (modColl_only _ _ _ _ _)
    | with_reducible apply Only.step (ownNote_only _ _ _)
    | with_reducible apply Only.step (pumpBatts_only _ _ _)
    | with_reducible apply Only.step (sendColl_only _ _ _ _ _)
    | with_reducible apply Only.step (setCtr_only _ _ _ _)
    | with_reducible apply Only.step (signalDone_only _ _)
    | with_reducible intro _
    | rfl
    | split

theorem waitHalf_only (a0 : Sys2Proof.Half) (a1 : Nat) (s : State) :
    Only [.time] s (waitHalf a0 a1 s) := by
  unfold waitHalf
  repeat' first
    | with_reducible exact Only.refl _ _
    | with_reducible assumption
    | ((fail_if_no_progress extract_lets +onlyGivenNames x); try (refine Only.cut x ?_ ?_; rotate_left; intro _; clear_value x; rotate_left; unfold x))
    | with_reducible apply Only.foldl
    | with_reducible apply Only.ite
    | with_reducible apply Only.step (advance_only _ _)
    | with_reducible intro _
    | rfl
    | split

theorem startFailed_only (a0 : Nat) (a1 : Nat) (s : State) :
    Only [.ctr, .start, .mgmt] s (startFailed a0 a1 s) := by
  unfold startFailed
  repeat' first
    | with_reducible exact Only.refl _ _
    | with_reducible assumption
    | ((fail_if_no_progress extract_lets +onlyGivenNames x); try (refine Only.cut x ?_ ?_; rotate_left; intro _; clear_value x; rotate_left; unfold x))
    | with_reducible apply Only.foldl
    | with_reducible apply Only.ite
    | with_reducible apply Only.step (modStart_only _ _)
    | with_reducible apply Only.step (plEvent_only _ _ _)
    | with_reducible intro _
    | rfl
    | split

theorem writeSettings_only (a0 : Sys2Proof.Retry) (a1 : Machine.FMap (List Sys2Proof.Byte)) (s : State) :
    Only [.mbx, .win, .ctr, .flash, .start] s (writeSettings a0 a1 s).2 := by
  unfold writeSettings
  repeat' first
    | with_reducible exact Only.refl _ _
    | with_reducible assumption
    | ((fail_if_no_progress extract_lets +onlyGivenNames x); try (refine Only.cut x ?_ ?_; rotate_left; intro _; clear_value x; rotate_left; unfold x))
    | with_reducible apply Only.foldl
    | with_reducible apply Only.ite
    | with_reducible apply Only.step (flashTry_only _ _ _ _ _)
    | with_reducible intro _
    | rfl
    | (fail_if_no_progress (with_reducible apply Only.upd); rotate_left; (intro p hp; cases p <;> first | rfl | exact ⟨rfl, rfl⟩ | exact ⟨rfl, rfl, rfl⟩ | exact absurd (by decide) hp))
    | with_reducible apply Only.ofSnd ‹_ = (_, _)›
    | split
    | (fail_if_no_progress clear_value *)

theorem recordSettings_only (a0 : Sys2Proof.Retry) (a1 : List (Nat × List Sys2Proof.Byte)) (s : State) :
    Only [.mbx, .win, .ctr, .fab, .flash, .start] s (recordSettings a0 a1 s).2 := by
  unfold recordSettings
  repeat' first
    | with_reducible exact Only.refl _ _
    | with_reducible assumption
    | ((fail_if_no_progress extract_lets +onlyGivenNames x); try (refine Only.cut x ?_ ?_; rotate_left; intro _; clear_value x; rotate_left; unfold x))
    | with_reducible apply Only.foldl
    | with_reducible apply Only.ite
    | with_reducible apply Only.step (modFab_only _ _)
    | with_reducible apply Only.step (writeSettings_only _ _ _)
    | with_reducible intro _
    | rfl
    | with_reducible apply Only.ofSnd ‹_ = (_, _)›
    | split

theorem setStop_only (a0 : Nat) (a1 : Option Machine.Stopped) (s : State) :
    Only [.fw] s (setStop a0 a1 s) := by
  unfold setStop
  repeat' first
    | with_reducible exact Only.refl _ _
    | with_reducible assumption
    | ((fail_if_no_progress extract_lets +onlyGivenNames x); try (refine Only.cut x ?_ ?_; rotate_left; intro _; clear_value x; rotate_left; unfold x))
    | with_reducible apply Only.foldl
    | with_reducible apply Only.ite
    | with_reducible intro _
    | rfl
    | (fail_if_no_progress (with_reducible apply Only.upd); rotate_left; (intro p hp; cases p <;> first | rfl | exact ⟨rfl, rfl⟩ | exact ⟨rfl, rfl, rfl⟩ | exact absurd (by decide) hp))
    | split

theorem flushAnswers_only (s : State) :
    Only [.mbx] s (flushAnswers s) := by
  unfold flushAnswers
  repeat' first
    | with_reducible exact Only.refl _ _
    | with_reducible assumption
    | ((fail_if_no_progress extract_lets +onlyGivenNames x); try (refine Only.cut x ?_ ?_; rotate_left; intro _; clear_value x; rotate_left; unfold x))
    | with_reducible apply Only.foldl
    | with_reducible apply Only.ite
    | with_reducible apply Only.step (respond_only _ _ _ _ _)
    | with_reducible apply Only.step (setRun_only _ _ _)
    | with_reducible intro _
    | rfl
    | split

theorem recordEnds_only (s : State) :
    Only [.mbx, .work, .tiles, .taps] s (recordEnds s) := by
  unfold recordEnds
  repeat' first
    | with_reducible exact Only.refl _ _
    | with_reducible assumption
    | ((fail_if_no_progress extract_lets +onlyGivenNames x); try (refine Only.cut x ?_ ?_; rotate_left; intro _; clear_value x; rotate_left; unfold x))
    | with_reducible apply Only.foldl
    | with_reducible apply Only.ite
    | with_reducible apply Only.step (endLaunch_only _ _ _ _)
    | with_reducible intro _
    | rfl
    | split

theorem resumeService_only (s : State) :
    Only [.mbx, .work, .clusters, .tiles, .signals, .win, .ctr, .fab, .eng, .led, .taps] s (resumeService s) := by
  unfold resumeService
  repeat' first
    | with_reducible exact Only.refl _ _
    | with_reducible assumption
    | ((fail_if_no_progress extract_lets +onlyGivenNames x); try (refine Only.cut x ?_ ?_; rotate_left; intro _; clear_value x; rotate_left; unfold x))
    | with_reducible apply Only.foldl
    | with_reducible apply Only.ite
    | with_reducible apply Only.step (answerFaulty_only _)
    | with_reducible apply Only.step (assertFences_only _)
    | with_reducible apply Only.step (flushAnswers_only _)
    | with_reducible apply Only.step (recordEnds_only _)
    | with_reducible intro _
    | rfl
    | split

theorem sideNote_only (a0 : Machine.Agent) (a1 : Nat) (a2 : Sys2Proof.MemEnv) (a3 : Machine.Side) (a4 : Nat) (s : State) :
    Only [.mbx, .mcs, .xl, .win, .ctr, .flash, .start] s (sideNote a0 a1 a2 a3 a4 s) := by
  unfold sideNote
  repeat' first
    | with_reducible exact Only.refl _ _
    | with_reducible assumption
    | ((fail_if_no_progress extract_lets +onlyGivenNames x); try (refine Only.cut x ?_ ?_; rotate_left; intro _; clear_value x; rotate_left; unfold x))
    | with_reducible apply Only.foldl
    | with_reducible apply Only.ite
    | with_reducible apply Only.step (lineNote_only _ _ _ _ _ _ _)
    | with_reducible intro _
    | rfl
    | split

theorem writeSide_only (a0 : Machine.Agent) (a1 : Nat) (a2 : Sys2Proof.MemEnv) (a3 : Machine.Side) (a4 : List Sys2Proof.Byte) (s : State) :
    Only [.mbx, .phys, .hostMem, .mcs, .xl, .win, .ctr, .flash, .start] s (writeSide a0 a1 a2 a3 a4 s).1 := by
  unfold writeSide
  repeat' first
    | with_reducible exact Only.refl _ _
    | with_reducible assumption
    | ((fail_if_no_progress extract_lets +onlyGivenNames x); try (refine Only.cut x ?_ ?_; rotate_left; intro _; clear_value x; rotate_left; unfold x))
    | with_reducible apply Only.foldl
    | with_reducible apply Only.ite
    | with_reducible apply Only.step (lineNote_only _ _ _ _ _ _ _)
    | with_reducible apply Only.step (storePhys_only _ _ _)
    | with_reducible intro _
    | rfl
    | (fail_if_no_progress (with_reducible apply Only.upd); rotate_left; (intro p hp; cases p <;> first | rfl | exact ⟨rfl, rfl⟩ | exact ⟨rfl, rfl, rfl⟩ | exact absurd (by decide) hp))
    | split

theorem moveLines_only (a0 : Machine.Agent) (a1 : Nat) (a2 : Sys2Proof.MemEnv) (a3 : Bool) (a4 : Nat) (a5 : Machine.Side) (a6 : Machine.Side) (a7 : Nat) (s : State) :
    Only [.mbx, .phys, .hostMem, .mcs, .xl, .win, .ctr, .flash, .start, .free] s (moveLines a0 a1 a2 a3 a4 a5 a6 a7 s).1 := by
  induction a4 generalizing a5 a6 a7 s with
  | zero => exact Only.refl _ _
  | succ n ih =>
    unfold moveLines
    split
    · exact Only.refl _ _
    · simp only
      have k1 := fun k => sideNote_only a0 a1 a2 a5 k s
      have k2 : ∀ u, Only [.free] u (if a3 = true then takeFree u else u) := by
        intro u; split
        · exact takeFree_only _
        · exact Only.refl _ _
      split
      · exact Only.step (k1 _) (Only.refl _ _) rfl
      · split
        · rename_i hu
          exact Only.ofFst hu (Only.step (writeSide_only _ _ _ _ _ _) (Only.step (k2 _) (Only.step (k1 _) (Only.refl _ _) rfl) rfl) rfl)
        · rename_i hu
          refine Only.trans ?_ (ih _ _ _ _)
          exact Only.ofFst hu (Only.step (writeSide_only _ _ _ _ _ _) (Only.step (k2 _) (Only.step (k1 _) (Only.refl _ _) rfl) rfl) rfl)

theorem moveAll_only (a0 : Machine.Agent) (a1 : Nat) (a2 : Sys2Proof.MemEnv) (a3 : Machine.Side) (a4 : Machine.Side) (a5 : Nat) (s : State) :
    Only [.mbx, .phys, .hostMem, .mcs, .xl, .win, .ctr, .flash, .start, .free] s (moveAll a0 a1 a2 a3 a4 a5 s).1 := by
  unfold moveAll
  repeat' first
    | with_reducible exact Only.refl _ _
    | with_reducible assumption
    | ((fail_if_no_progress extract_lets +onlyGivenNames x); try (refine Only.cut x ?_ ?_; rotate_left; intro _; clear_value x; rotate_left; unfold x))
    | with_reducible apply Only.foldl
    | with_reducible apply Only.ite
    | with_reducible apply Only.step (moveLines_only _ _ _ _ _ _ _ _ _)
    | with_reducible intro _
    | rfl
    | with_reducible apply Only.ofFst ‹_ = (_, _)›
    | split

theorem raiseFloors_only (s : State) :
    Only [.crown] s (raiseFloors s) := by
  unfold raiseFloors
  repeat' first
    | with_reducible exact Only.refl _ _
    | with_reducible assumption
    | ((fail_if_no_progress extract_lets +onlyGivenNames x); try (refine Only.cut x ?_ ?_; rotate_left; intro _; clear_value x; rotate_left; unfold x))
    | with_reducible apply Only.foldl
    | with_reducible apply Only.ite
    | with_reducible apply Only.step (modCrown_only _ _)
    | with_reducible intro _
    | rfl
    | split

theorem startGrant_only (a0 : Sys2Proof.Half) (a1 : List Bool) (s : State) :
    Only [.mbx, .win, .ctr, .crown, .flash, .start] s (startGrant a0 a1 s) := by
  unfold startGrant
  repeat' first
    | with_reducible exact Only.refl _ _
    | with_reducible assumption
    | ((fail_if_no_progress extract_lets +onlyGivenNames x); try (refine Only.cut x ?_ ?_; rotate_left; intro _; clear_value x; rotate_left; unfold x))
    | with_reducible apply Only.foldl
    | with_reducible apply Only.ite
    | with_reducible apply Only.step (flushHeld_only _)
    | with_reducible apply Only.step (grant_only _ _ _ _)
    | with_reducible apply Only.step (modCrown_only _ _)
    | with_reducible apply Only.step (modMon_only _ _ _)
    | with_reducible apply Only.step (modStart_only _ _)
    | with_reducible apply Only.step (raiseFloors_only _)
    | with_reducible apply Only.step (vector0_only _)
    | with_reducible intro _
    | rfl
    | split

theorem progress_only (a0 : Nat) (s : State) :
    Only [.work] s (progress a0 s) := by
  unfold progress
  repeat' first
    | with_reducible exact Only.refl _ _
    | with_reducible assumption
    | ((fail_if_no_progress extract_lets +onlyGivenNames x); try (refine Only.cut x ?_ ?_; rotate_left; intro _; clear_value x; rotate_left; unfold x))
    | with_reducible apply Only.foldl
    | with_reducible apply Only.ite
    | with_reducible apply Only.step (modLaunch_only _ _ _ _)
    | with_reducible intro _
    | rfl
    | split

theorem finish_only (a0 : Nat) (a1 : Machine.Desc) (s : State) :
    Only [.mbx, .work, .clusters, .tiles, .signals, .win, .ctr, .fab, .eng, .led] s (finish a0 a1 s) := by
  unfold finish
  repeat' first
    | with_reducible exact Only.refl _ _
    | with_reducible assumption
    | ((fail_if_no_progress extract_lets +onlyGivenNames x); try (refine Only.cut x ?_ ?_; rotate_left; intro _; clear_value x; rotate_left; unfold x))
    | with_reducible apply Only.foldl
    | with_reducible apply Only.ite
    | with_reducible apply Only.step (checkEnd_only _ _)
    | with_reducible apply Only.step (count_only _ _ _ _)
    | with_reducible apply Only.step (dispatch_only _ _)
    | with_reducible apply Only.step (modTile_only _ _ _)
    | with_reducible apply Only.step (progress_only _ _)
    | with_reducible apply Only.step (sendSignal_only _ _ _ _ _ _ _)
    | with_reducible apply Only.step (tileFault_only _ _ _ _ _)
    | with_reducible intro _
    | rfl
    | split

theorem storeFault_only (a0 : Bool) (a1 : Nat) (a2 : Nat) (a3 : Machine.Area) (s : State) :
    Only [.mbx, .work, .clusters, .tiles, .signals, .win, .ctr, .fab, .eng, .led] s (storeFault a0 a1 a2 a3 s) := by
  unfold storeFault
  repeat' first
    | with_reducible exact Only.refl _ _
    | with_reducible assumption
    | ((fail_if_no_progress extract_lets +onlyGivenNames x); try (refine Only.cut x ?_ ?_; rotate_left; intro _; clear_value x; rotate_left; unfold x))
    | with_reducible apply Only.foldl
    | with_reducible apply Only.ite
    | with_reducible apply Only.step (disarm_only _ _)
    | with_reducible apply Only.step (eventG_only _ _ _ _ _ _ _)
    | with_reducible apply Only.step (modCluster_only _ _ _)
    | with_reducible apply Only.step (tileFault_only _ _ _ _ _)
    | with_reducible intro _
    | rfl
    | split

theorem localReads_only (a0 : Nat) (a1 : Nat) (a2 : List (Nat × Nat)) (a3 : Sys2Proof.StoreReads) (s : State) :
    Only [.mbx, .work, .clusters, .tiles, .signals, .win, .ctr, .fab, .eng, .led] s (localReads a0 a1 a2 a3 s).2 := by
  unfold localReads
  repeat' first
    | with_reducible exact Only.refl _ _
    | with_reducible assumption
    | ((fail_if_no_progress extract_lets +onlyGivenNames x); try (refine Only.cut x ?_ ?_; rotate_left; intro _; clear_value x; rotate_left; unfold x))
    | with_reducible apply Only.foldl
    | with_reducible apply Only.ite
    | with_reducible apply Only.step (countRead_only _ _ _ _ _)
    | with_reducible apply Only.step (storeFault_only _ _ _ _ _)
    | with_reducible intro _
    | rfl
    | split

theorem writeEntry_only (a0 : Sys2Proof.Half) (a1 : Nat) (a2 : Nat) (a3 : Nat) (a4 : Bool) (s : State) :
    Only [.mbx, .work, .clusters, .tiles, .signals, .mcs, .snoop, .xl, .win, .ctr, .fab, .eng, .led, .flash, .start] s (writeEntry a0 a1 a2 a3 a4 s) := by
  unfold writeEntry
  repeat' first
    | with_reducible exact Only.refl _ _
    | with_reducible assumption
    | ((fail_if_no_progress extract_lets +onlyGivenNames x); try (refine Only.cut x ?_ ?_; rotate_left; intro _; clear_value x; rotate_left; unfold x))
    | with_reducible apply Only.foldl
    | with_reducible apply Only.ite
    | with_reducible apply Only.step (counterCycle_only _ _ _ _ _ _)
    | with_reducible apply Only.step (fireEntry_only _ _ _ _)
    | with_reducible apply Only.step (modEng_only _ _)
    | with_reducible intro _
    | rfl
    | split

theorem retrain_only (a0 : Nat) (s : State) :
    Only [.mbx, .win, .ctr, .fab] s (retrain a0 s) := by
  unfold retrain
  repeat' first
    | with_reducible exact Only.refl _ _
    | with_reducible assumption
    | ((fail_if_no_progress extract_lets +onlyGivenNames x); try (refine Only.cut x ?_ ?_; rotate_left; intro _; clear_value x; rotate_left; unfold x))
    | with_reducible apply Only.foldl
    | with_reducible apply Only.ite
    | with_reducible apply Only.step (modPort_only _ _ _)
    | with_reducible apply Only.step (train_only _ _)
    | with_reducible intro _
    | rfl
    | split

theorem linkLost_only (a0 : Nat) (s : State) :
    Only [.mbx, .win, .ctr, .fab] s (linkLost a0 s) := by
  unfold linkLost
  repeat' first
    | with_reducible exact Only.refl _ _
    | with_reducible assumption
    | ((fail_if_no_progress extract_lets +onlyGivenNames x); try (refine Only.cut x ?_ ?_; rotate_left; intro _; clear_value x; rotate_left; unfold x))
    | with_reducible apply Only.foldl
    | with_reducible apply Only.ite
    | with_reducible apply Only.step (retrain_only _ _)
    | with_reducible apply Only.step (retrainQuiet_only _ _)
    | with_reducible apply Only.step (train_only _ _)
    | with_reducible intro _
    | rfl
    | split

theorem tryClose_only (a0 : Nat) (s : State) :
    Only [.sched, .mbx, .work, .xl, .led, .fw, .taps] s (tryClose a0 s) := by
  unfold tryClose
  repeat' first
    | with_reducible exact Only.refl _ _
    | with_reducible assumption
    | ((fail_if_no_progress extract_lets +onlyGivenNames x); try (refine Only.cut x ?_ ?_; rotate_left; intro _; clear_value x; rotate_left; unfold x))
    | with_reducible apply Only.foldl
    | with_reducible apply Only.ite
    | with_reducible apply Only.step (finishClose_only _ _)
    | with_reducible intro _
    | rfl
    | split

theorem releaseFence_only (a0 : Nat) (s : State) :
    Only [.sched, .mbx, .work, .clusters, .tiles, .signals, .tileStores, .phys, .mcs, .xl, .win, .ctr, .eng, .led, .flash, .start, .fw, .taps] s (releaseFence a0 s) := by
  unfold releaseFence
  repeat' first
    | with_reducible exact Only.refl _ _
    | with_reducible assumption
    | ((fail_if_no_progress extract_lets +onlyGivenNames x); try (refine Only.cut x ?_ ?_; rotate_left; intro _; clear_value x; rotate_left; unfold x))
    | with_reducible apply Only.foldl
    | with_reducible apply Only.ite
    | with_reducible apply Only.step (closeWins_only _ _)
    | with_reducible apply Only.step (destroyPart_only _ _)
    | with_reducible apply Only.step (dropTaps_only _ _)
    | with_reducible apply Only.step (endLaunch_only _ _ _ _)
    | with_reducible apply Only.step (modCluster_only _ _ _)
    | with_reducible apply Only.step (modPart_only _ _ _)
    | with_reducible apply Only.step (resetEngine_only _ _)
    | with_reducible apply Only.step (respond_only _ _ _ _ _)
    | with_reducible apply Only.step (tryClose_only _ _)
    | with_reducible apply Only.step (zeroCluster_only _ _)
    | with_reducible intro _
    | rfl
    | (fail_if_no_progress (with_reducible apply Only.upd); rotate_left; (intro p hp; cases p <;> first | rfl | exact ⟨rfl, rfl⟩ | exact ⟨rfl, rfl, rfl⟩ | exact absurd (by decide) hp))
    | split

theorem houseAdd_only (a0 : Nat) (a1 : Bool) (s : State) :
    Only [.led] s (houseAdd a0 a1 s) := by
  unfold houseAdd
  repeat' first
    | with_reducible exact Only.refl _ _
    | with_reducible assumption
    | ((fail_if_no_progress extract_lets +onlyGivenNames x); try (refine Only.cut x ?_ ?_; rotate_left; intro _; clear_value x; rotate_left; unfold x))
    | with_reducible apply Only.foldl
    | with_reducible apply Only.ite
    | with_reducible apply Only.step (setPool_only _ _ _)
    | with_reducible intro _
    | rfl
    | split

theorem gapNow_only (s : State) :
    Only [.mbx, .win, .ctr, .led] s (gapNow s) := by
  unfold gapNow
  repeat' first
    | with_reducible exact Only.refl _ _
    | with_reducible assumption
    | ((fail_if_no_progress extract_lets +onlyGivenNames x); try (refine Only.cut x ?_ ?_; rotate_left; intro _; clear_value x; rotate_left; unfold x))
    | with_reducible apply Only.foldl
    | with_reducible apply Only.ite
    | with_reducible apply Only.step (applyEvents_only _ _)
    | with_reducible apply Only.step (boundaryDue_only _ _)
    | with_reducible apply Only.step (event_only _ _ _ _ _)
    | with_reducible apply Only.step (houseAdd_only _ _ _)
    | with_reducible apply Only.step (modLed_only _ _)
    | with_reducible intro _
    | rfl
    | split

theorem markLate_only (a0 : Sys2Proof.Half) (s : State) :
    Only [.mbx, .win, .ctr, .led] s (markLate a0 s) := by
  unfold markLate
  repeat' first
    | with_reducible exact Only.refl _ _
    | with_reducible assumption
    | ((fail_if_no_progress extract_lets +onlyGivenNames x); try (refine Only.cut x ?_ ?_; rotate_left; intro _; clear_value x; rotate_left; unfold x))
    | with_reducible apply Only.foldl
    | with_reducible apply Only.ite
    | with_reducible apply Only.step (event_only _ _ _ _ _)
    | with_reducible apply Only.step (modLed_only _ _)
    | with_reducible intro _
    | rfl
    | split

theorem methodUpdate_only (a0 : Nat) (s : State) :
    Only [.led] s (methodUpdate a0 s) := by
  unfold methodUpdate
  repeat' first
    | with_reducible exact Only.refl _ _
    | with_reducible assumption
    | ((fail_if_no_progress extract_lets +onlyGivenNames x); try (refine Only.cut x ?_ ?_; rotate_left; intro _; clear_value x; rotate_left; unfold x))
    | with_reducible apply Only.foldl
    | with_reducible apply Only.ite
    | with_reducible apply Only.step (modLed_only _ _)
    | with_reducible intro _
    | rfl
    | split

theorem nextSpan_only (a0 : Nat) (s : State) :
    Only [.led] s (nextSpan a0 s) := by
  unfold nextSpan
  repeat' first
    | with_reducible exact Only.refl _ _
    | with_reducible assumption
    | ((fail_if_no_progress extract_lets +onlyGivenNames x); try (refine Only.cut x ?_ ?_; rotate_left; intro _; clear_value x; rotate_left; unfold x))
    | with_reducible apply Only.foldl
    | with_reducible apply Only.ite
    | with_reducible apply Only.step (modLed_only _ _)
    | with_reducible intro _
    | rfl
    | split

theorem reconcile_only (a0 : List Sys2Proof.ActivityRow) (a1 : List Sys2Proof.ActivityRow) (a2 : Nat) (a3 : Nat) (a4 : Nat) (a5 : Bool) (s : State) :
    Only [.mbx, .win, .ctr, .led, .free] s (reconcile a0 a1 a2 a3 a4 a5 s) := by
  unfold reconcile
  repeat' first
    | with_reducible exact Only.refl _ _
    | with_reducible assumption
    | ((fail_if_no_progress extract_lets +onlyGivenNames x); try (refine Only.cut x ?_ ?_; rotate_left; intro _; clear_value x; rotate_left; unfold x))
    | with_reducible apply Only.foldl
    | with_reducible apply Only.ite
    | with_reducible apply Only.step (applyEvents_only _ _)
    | with_reducible apply Only.step (event_only _ _ _ _ _)
    | with_reducible apply Only.step (houseAdd_only _ _ _)
    | with_reducible apply Only.step (modLed_only _ _)
    | with_reducible apply Only.step (setPool_only _ _ _)
    | with_reducible apply Only.step (settle_only _ _)
    | with_reducible apply Only.step (takeFree_only _)
    | with_reducible intro _
    | rfl
    | split

theorem reconcileTo_only (a0 : Nat) (a1 : Nat) (a2 : Nat) (s : State) :
    Only [.mbx, .win, .ctr, .led, .free] s (reconcileTo a0 a1 a2 s) := by
  unfold reconcileTo
  repeat' first
    | with_reducible exact Only.refl _ _
    | with_reducible assumption
    | ((fail_if_no_progress extract_lets +onlyGivenNames x); try (refine Only.cut x ?_ ?_; rotate_left; intro _; clear_value x; rotate_left; unfold x))
    | with_reducible apply Only.foldl
    | with_reducible apply Only.ite
    | with_reducible apply Only.step (modLed_only _ _)
    | with_reducible apply Only.step (reconcile_only _ _ _ _ _ _ _)
    | with_reducible intro _
    | rfl
    | split

theorem seeFree_only (s : State) :
    Only [.led] s (seeFree s) := by
  unfold seeFree
  repeat' first
    | with_reducible exact Only.refl _ _
    | with_reducible assumption
    | ((fail_if_no_progress extract_lets +onlyGivenNames x); try (refine Only.cut x ?_ ?_; rotate_left; intro _; clear_value x; rotate_left; unfold x))
    | with_reducible apply Only.foldl
    | with_reducible apply Only.ite
    | with_reducible apply Only.step (modLed_only _ _)
    | with_reducible intro _
    | rfl
    | split

theorem thermalUpdate_only (s : State) :
    Only [.mbx, .win, .ctr, .power, .mgmt] s (thermalUpdate s) := by
  unfold thermalUpdate
  repeat' first
    | with_reducible exact Only.refl _ _
    | with_reducible assumption
    | ((fail_if_no_progress extract_lets +onlyGivenNames x); try (refine Only.cut x ?_ ?_; rotate_left; intro _; clear_value x; rotate_left; unfold x))
    | with_reducible apply Only.foldl
    | with_reducible apply Only.ite
    | with_reducible apply Only.step (capUpdate_only _)
    | with_reducible apply Only.step (event_only _ _ _ _ _)
    | with_reducible apply Only.step (modPower_only _ _)
    | with_reducible intro _
    | rfl
    | split

theorem failUsers_only (a0 : Nat) (a1 : Nat) (a2 : Nat) (s : State) :
    Only [.mbx, .work, .clusters, .tiles, .signals, .win, .ctr, .fab, .eng, .led] s (failUsers a0 a1 a2 s) := by
  unfold failUsers
  repeat' first
    | with_reducible exact Only.refl _ _
    | with_reducible assumption
    | ((fail_if_no_progress extract_lets +onlyGivenNames x); try (refine Only.cut x ?_ ?_; rotate_left; intro _; clear_value x; rotate_left; unfold x))
    | with_reducible apply Only.foldl
    | with_reducible apply Only.ite
    | with_reducible apply Only.step (failLaunch_only _ _ _ _ _ _ _)
    | with_reducible intro _
    | rfl
    | split

theorem freeAlloc_only (a0 : Nat) (a1 : Nat) (s : State) :
    Only [.work, .xl] s (freeAlloc a0 a1 s) := by
  unfold freeAlloc
  repeat' first
    | with_reducible exact Only.refl _ _
    | with_reducible assumption
    | ((fail_if_no_progress extract_lets +onlyGivenNames x); try (refine Only.cut x ?_ ?_; rotate_left; intro _; clear_value x; rotate_left; unfold x))
    | with_reducible apply Only.foldl
    | with_reducible apply Only.ite
    | with_reducible apply Only.step (setMaps_only _ _ _ _ _)
    | with_reducible intro _
    | rfl
    | split

theorem flashImage_only (a0 : Nat) (a1 : Nat) (a2 : Sys2Proof.Retry) (s : State) :
    Only [.mbx, .win, .ctr] s (flashImage a0 a1 a2 s).2 := by
  unfold flashImage
  repeat' first
    | with_reducible exact Only.refl _ _
    | with_reducible assumption
    | ((fail_if_no_progress extract_lets +onlyGivenNames x); try (refine Only.cut x ?_ ?_; rotate_left; intro _; clear_value x; rotate_left; unfold x))
    | with_reducible apply Only.foldl
    | with_reducible apply Only.ite
    | with_reducible apply Only.step (event_only _ _ _ _ _)
    | with_reducible apply Only.step (flashCheck_only _ _ _)
    | with_reducible intro _
    | rfl
    | with_reducible apply Only.ofSnd ‹_ = (_, _)›
    | split

theorem takeFactory_only (a0 : List Sys2Proof.Byte) (s : State) :
    Only [.flash, .start] s (takeFactory a0 s) := by
  unfold takeFactory
  repeat' first
    | with_reducible exact Only.refl _ _
    | with_reducible assumption
    | ((fail_if_no_progress extract_lets +onlyGivenNames x); try (refine Only.cut x ?_ ?_; rotate_left; intro _; clear_value x; rotate_left; unfold x))
    | with_reducible apply Only.foldl
    | with_reducible apply Only.ite
    | with_reducible apply Only.step (applyFactory_only _ _)
    | with_reducible intro _
    | rfl
    | (fail_if_no_progress (with_reducible apply Only.upd); rotate_left; (intro p hp; cases p <;> first | rfl | exact ⟨rfl, rfl⟩ | exact ⟨rfl, rfl, rfl⟩ | exact absurd (by decide) hp))
    | split

theorem stageFactory_only (a0 : List Sys2Proof.Byte) (a1 : Sys2Proof.Retry) (s : State) :
    Only [.mbx, .win, .ctr, .flash, .start] s (repState (stageFactory a0 a1 s)) := by
  unfold stageFactory
  repeat' first
    | with_reducible exact Only.refl _ _
    | with_reducible assumption
    | ((fail_if_no_progress extract_lets +onlyGivenNames x); try (refine Only.cut x ?_ ?_; rotate_left; intro _; clear_value x; rotate_left; unfold x))
    | with_reducible apply Only.foldl
    | with_reducible apply Only.ite
    | (fail_if_no_progress simp only [repState_ans, repState_stay, repState_badArg, repState_refuse, repState_okRep])
    | with_reducible apply Only.step (flashImage_only _ _ _ _)
    | with_reducible apply Only.step (takeFactory_only _ _)
    | with_reducible intro _
    | rfl
    | (fail_if_no_progress (with_reducible apply Only.upd); rotate_left; (intro p hp; cases p <;> first | rfl | exact ⟨rfl, rfl⟩ | exact ⟨rfl, rfl, rfl⟩ | exact absurd (by decide) hp))
    | with_reducible apply Only.ofSnd ‹_ = (_, _)›
    | split

theorem writeSlot_only (a0 : Nat) (a1 : Option (List Sys2Proof.Byte)) (a2 : Sys2Proof.Retry) (s : State) :
    Only [.mbx, .win, .ctr, .flash, .start] s (writeSlot a0 a1 a2 s).2 := by
  unfold writeSlot
  repeat' first
    | with_reducible exact Only.refl _ _
    | with_reducible assumption
    | ((fail_if_no_progress extract_lets +onlyGivenNames x); try (refine Only.cut x ?_ ?_; rotate_left; intro _; clear_value x; rotate_left; unfold x))
    | with_reducible apply Only.foldl
    | with_reducible apply Only.ite
    | with_reducible apply Only.step (writeDir_only _ _ _)
    | with_reducible intro _
    | rfl
    | (fail_if_no_progress (with_reducible apply Only.upd); rotate_left; (intro p hp; cases p <;> first | rfl | exact ⟨rfl, rfl⟩ | exact ⟨rfl, rfl, rfl⟩ | exact absurd (by decide) hp))
    | with_reducible apply Only.ofSnd ‹_ = (_, _)›
    | split

theorem stageSlot_only (a0 : List Sys2Proof.Byte) (a1 : Sys2Proof.Retry) (a2 : Sys2Proof.Retry) (a3 : Sys2Proof.Retry) (s : State) :
    Only [.mbx, .win, .ctr, .flash, .start] s (repState (stageSlot a0 a1 a2 a3 s)) := by
  unfold stageSlot
  repeat' first
    | with_reducible exact Only.refl _ _
    | with_reducible assumption
    | ((fail_if_no_progress extract_lets +onlyGivenNames x); try (refine Only.cut x ?_ ?_; rotate_left; intro _; clear_value x; rotate_left; unfold x))
    | with_reducible apply Only.foldl
    | with_reducible apply Only.ite
    | (fail_if_no_progress simp only [repState_ans, repState_stay, repState_badArg, repState_refuse, repState_okRep])
    | with_reducible apply Only.step (flashImage_only _ _ _ _)
    | with_reducible apply Only.step (writeSlot_only _ _ _ _)
    | with_reducible intro _
    | rfl
    | (fail_if_no_progress (with_reducible apply Only.upd); rotate_left; (intro p hp; cases p <;> first | rfl | exact ⟨rfl, rfl⟩ | exact ⟨rfl, rfl, rfl⟩ | exact absurd (by decide) hp))
    | with_reducible apply Only.ofSnd ‹_ = (_, _)›
    | split
    | (fail_if_no_progress clear_value *)

theorem refreshStandby_only (s : State) :
    Only [.crown] s (refreshStandby s) := by
  unfold refreshStandby
  repeat' first
    | with_reducible exact Only.refl _ _
    | with_reducible assumption
    | ((fail_if_no_progress extract_lets +onlyGivenNames x); try (refine Only.cut x ?_ ?_; rotate_left; intro _; clear_value x; rotate_left; unfold x))
    | with_reducible apply Only.foldl
    | with_reducible apply Only.ite
    | with_reducible apply Only.step (modCrown_only _ _)
    | with_reducible apply Only.step (modMon_only _ _ _)
    | with_reducible intro _
    | rfl
    | split

theorem powerLost_only (s : State) :
    Only [.ident, .pins, .time, .sched, .mbx, .work, .clusters, .tiles, .signals, .tileStores, .phys, .hostMem, .mcs, .snoop, .xl, .memMode, .win, .ctr, .fab, .eng, .crown, .power, .led, .start, .fw, .trA, .trB, .taps, .cxlA, .cxlB, .mgmt, .bridge] s (powerLost s) := by
  unfold powerLost
  repeat' first
    | with_reducible exact Only.refl _ _
    | with_reducible assumption
    | ((fail_if_no_progress extract_lets +onlyGivenNames x); try (refine Only.cut x ?_ ?_; rotate_left; intro _; clear_value x; rotate_left; unfold x))
    | with_reducible apply Only.foldl
    | with_reducible apply Only.ite
    | with_reducible intro _
    | rfl
    | (fail_if_no_progress (with_reducible apply Only.upd); rotate_left; (intro p hp; cases p <;> first | rfl | exact ⟨rfl, rfl⟩ | exact ⟨rfl, rfl, rfl⟩ | exact absurd (by decide) hp))
    | split

theorem orderlyShutdown_only (s : State) :
    Only [.sched, .mbx, .work, .clusters, .tiles, .signals, .win, .ctr, .fab, .eng, .power, .led, .mgmt] s (orderlyShutdown s) := by
  unfold orderlyShutdown
  repeat' first
    | with_reducible exact Only.refl _ _
    | with_reducible assumption
    | ((fail_if_no_progress extract_lets +onlyGivenNames x); try (refine Only.cut x ?_ ?_; rotate_left; intro _; clear_value x; rotate_left; unfold x))
    | with_reducible apply Only.foldl
    | with_reducible apply Only.ite
    | with_reducible apply Only.step (brakeStart_only _ _)
    | with_reducible apply Only.step (capUpdate_only _)
    | with_reducible apply Only.step (closeAllReqs_only _ _)
    | with_reducible apply Only.step (fenceAll_only _ _ _)
    | with_reducible apply Only.step (modLed_only _ _)
    | with_reducible apply Only.step (plEvent_only _ _ _)
    | with_reducible apply Only.step (withdrawModule_only _ _ _ _)
    | with_reducible intro _
    | rfl
    | (fail_if_no_progress (with_reducible apply Only.upd); rotate_left; (intro p hp; cases p <;> first | rfl | exact ⟨rfl, rfl⟩ | exact ⟨rfl, rfl, rfl⟩ | exact absurd (by decide) hp))
    | split

theorem loadTile_only (a0 : Machine.Part) (a1 : Machine.Recipe) (a2 : List Nat) (a3 : Machine.Stream) (s : State) :
    Only [.tiles] s (loadTile a0 a1 a2 a3 s) := by
  unfold loadTile
  repeat' first
    | with_reducible exact Only.refl _ _
    | with_reducible assumption
    | ((fail_if_no_progress extract_lets +onlyGivenNames x); try (refine Only.cut x ?_ ?_; rotate_left; intro _; clear_value x; rotate_left; unfold x))
    | with_reducible apply Only.foldl
    | with_reducible apply Only.ite
    | with_reducible apply Only.step (modTile_only _ _ _)
    | with_reducible intro _
    | rfl
    | split

theorem markRead_only (a0 : List Machine.Receipt) (s : State) :
    Only [.led] s (markRead a0 s) := by
  unfold markRead
  repeat' first
    | with_reducible exact Only.refl _ _
    | with_reducible assumption
    | ((fail_if_no_progress extract_lets +onlyGivenNames x); try (refine Only.cut x ?_ ?_; rotate_left; intro _; clear_value x; rotate_left; unfold x))
    | with_reducible apply Only.foldl
    | with_reducible apply Only.ite
    | with_reducible apply Only.step (modLed_only _ _)
    | with_reducible intro _
    | rfl
    | split

theorem ledgerRead_only (a0 : Nat) (a1 : Nat) (a2 : Nat) (a3 : Option (Nat × Nat)) (s : State) :
    Only [.led] s (ledgerRead a0 a1 a2 a3 s).2.2.2 := by
  unfold ledgerRead
  repeat' first
    | with_reducible exact Only.refl _ _
    | with_reducible assumption
    | ((fail_if_no_progress extract_lets +onlyGivenNames x); try (refine Only.cut x ?_ ?_; rotate_left; intro _; clear_value x; rotate_left; unfold x))
    | with_reducible apply Only.foldl
    | with_reducible apply Only.ite
    | with_reducible apply Only.step (markRead_only _ _)
    | with_reducible intro _
    | rfl
    | split
    | (fail_if_no_progress clear_value *)

theorem testEnds_only (a1 : Nat) (s : State) :
    Only [.mbx, .win, .ctr, .fab] s (testEnds s a1) := by
  unfold testEnds
  repeat' first
    | with_reducible exact Only.refl _ _
    | with_reducible assumption
    | ((fail_if_no_progress extract_lets +onlyGivenNames x); try (refine Only.cut x ?_ ?_; rotate_left; intro _; clear_value x; rotate_left; unfold x))
    | with_reducible apply Only.foldl
    | with_reducible apply Only.ite
    | with_reducible apply Only.step (retrainQuiet_only _ _)
    | with_reducible intro _
    | rfl
    | split

theorem trainByCtl_only (a0 : Bool) (a1 : Nat) (s : State) :
    Only [.mbx, .win, .ctr, .fab] s (trainByCtl a0 a1 s) := by
  unfold trainByCtl
  repeat' first
    | with_reducible exact Only.refl _ _
    | with_reducible assumption
    | ((fail_if_no_progress extract_lets +onlyGivenNames x); try (refine Only.cut x ?_ ?_; rotate_left; intro _; clear_value x; rotate_left; unfold x))
    | with_reducible apply Only.foldl
    | with_reducible apply Only.ite
    | with_reducible apply Only.step (modPort_only _ _ _)
    | with_reducible apply Only.step (retrainQuiet_only _ _)
    | with_reducible apply Only.step (train_only _ _)
    | with_reducible intro _
    | rfl
    | split

theorem linkTrain_only (a0 : Bool) (a1 : List Sys2Proof.Byte) (s : State) :
    Only [.mbx, .win, .ctr, .fab] s (repState (linkTrain a0 a1 s)) := by
  unfold linkTrain
  repeat' first
    | with_reducible exact Only.refl _ _
    | with_reducible assumption
    | ((fail_if_no_progress extract_lets +onlyGivenNames x); try (refine Only.cut x ?_ ?_; rotate_left; intro _; clear_value x; rotate_left; unfold x))
    | with_reducible apply Only.foldl
    | with_reducible apply Only.ite
    | (fail_if_no_progress simp only [repState_ans, repState_stay, repState_badArg, repState_refuse, repState_okRep])
    | with_reducible apply Only.step (modFab_only _ _)
    | with_reducible apply Only.step (trainByCtl_only _ _ _)
    | with_reducible intro _
    | rfl
    | split

theorem storeLocal_only (a0 : Nat) (a1 : Nat) (a2 : List Sys2Proof.Byte) (s : State) :
    Only [.tileStores, .phys] s (storeLocal a0 a1 a2 s) := by
  unfold storeLocal
  repeat' first
    | with_reducible exact Only.refl _ _
    | with_reducible assumption
    | ((fail_if_no_progress extract_lets +onlyGivenNames x); try (refine Only.cut x ?_ ?_; rotate_left; intro _; clear_value x; rotate_left; unfold x))
    | with_reducible apply Only.foldl
    | with_reducible apply Only.ite
    | with_reducible apply Only.step (storePhys_only _ _ _)
    | with_reducible intro _
    | rfl
    | (fail_if_no_progress (with_reducible apply Only.upd); rotate_left; (intro p hp; cases p <;> first | rfl | exact ⟨rfl, rfl⟩ | exact ⟨rfl, rfl, rfl⟩ | exact absurd (by decide) hp))
    | split

theorem loadPieces_only (a0 : Nat) (a1 : Sys2Proof.MemEnv) (a2 : List Machine.Piece) (s : State) :
    Only [.mbx, .tileStores, .phys, .mcs, .xl, .win, .ctr, .flash, .start] s (loadPieces a0 a1 a2 s).1 := by
  induction a2 generalizing s with
  | nil => exact Only.refl _ _
  | cons x r ih =>
    unfold loadPieces
    simp only
    split
    · exact Only.step (lineNote_only _ _ _ _ _ _ _) (Only.refl _ _) rfl
    · exact Only.trans (Only.step (storeLocal_only _ _ _ _) (Only.step (lineNote_only _ _ _ _ _ _ _) (Only.refl _ _) rfl) rfl) (ih _)

theorem watchdogAnswer_only (a0 : Nat) (s : State) :
    Only [.mbx] s (watchdogAnswer a0 s) := by
  unfold watchdogAnswer
  repeat' first
    | with_reducible exact Only.refl _ _
    | with_reducible assumption
    | ((fail_if_no_progress extract_lets +onlyGivenNames x); try (refine Only.cut x ?_ ?_; rotate_left; intro _; clear_value x; rotate_left; unfold x))
    | with_reducible apply Only.foldl
    | with_reducible apply Only.ite
    | with_reducible apply Only.step (answerPage_only _ _ _ _ _)
    | with_reducible apply Only.step (setRun_only _ _ _)
    | with_reducible intro _
    | rfl
    | split
    | (fail_if_no_progress clear_value *)

theorem markEvent_only (a0 : Nat) (a1 : Nat) (a2 : Nat) (a3 : Nat) (s : State) :
    Only [.led] s (markEvent a0 a1 a2 a3 s) := by
  unfold markEvent
  repeat' first
    | with_reducible exact Only.refl _ _
    | with_reducible assumption
    | ((fail_if_no_progress extract_lets +onlyGivenNames x); try (refine Only.cut x ?_ ?_; rotate_left; intro _; clear_value x; rotate_left; unfold x))
    | with_reducible apply Only.foldl
    | with_reducible apply Only.ite
    | with_reducible intro _
    | rfl
    | (fail_if_no_progress (with_reducible apply Only.upd); rotate_left; (intro p hp; cases p <;> first | rfl | exact ⟨rfl, rfl⟩ | exact ⟨rfl, rfl, rfl⟩ | exact absurd (by decide) hp))
    | split

theorem tableWrite_only (a0 : Nat) (a1 : List (Option Sys2Proof.Byte)) (s : State) :
    Only [.xl] s (tableWrite a0 a1 s) := by
  unfold tableWrite
  repeat' first
    | with_reducible exact Only.refl _ _
    | with_reducible assumption
    | ((fail_if_no_progress extract_lets +onlyGivenNames x); try (refine Only.cut x ?_ ?_; rotate_left; intro _; clear_value x; rotate_left; unfold x))
    | with_reducible apply Only.foldl
    | with_reducible apply Only.ite
    | with_reducible intro _
    | rfl
    | (fail_if_no_progress (with_reducible apply Only.upd); rotate_left; (intro p hp; cases p <;> first | rfl | exact ⟨rfl, rfl⟩ | exact ⟨rfl, rfl, rfl⟩ | exact absurd (by decide) hp))
    | split

theorem takeDraws_only (a0 : Nat) (a1 : Nat) (a2 : Nat) (s : State) :
    Only [.tiles] s (takeDraws a0 a1 a2 s) := by
  unfold takeDraws
  repeat' first
    | with_reducible exact Only.refl _ _
    | with_reducible assumption
    | ((fail_if_no_progress extract_lets +onlyGivenNames x); try (refine Only.cut x ?_ ?_; rotate_left; intro _; clear_value x; rotate_left; unfold x))
    | with_reducible apply Only.foldl
    | with_reducible apply Only.ite
    | with_reducible apply Only.step (modTile_only _ _ _)
    | with_reducible intro _
    | rfl
    | split

theorem writeRows_only (a0 : Nat) (a1 : Nat) (a2 : Nat) (a3 : Nat) (a4 : List (List Machine.Rnd)) (s : State) :
    Only [.tileStores, .phys, .ctr] s (writeRows a0 a1 a2 a3 a4 s) := by
  unfold writeRows
  repeat' first
    | with_reducible exact Only.refl _ _
    | with_reducible assumption
    | ((fail_if_no_progress extract_lets +onlyGivenNames x); try (refine Only.cut x ?_ ?_; rotate_left; intro _; clear_value x; rotate_left; unfold x))
    | with_reducible apply Only.foldl
    | with_reducible apply Only.ite
    | with_reducible apply Only.step (countArith_only _ _ _)
    | with_reducible apply Only.step (storeLocal_only _ _ _ _)
    | with_reducible intro _
    | rfl
    | split

theorem mmaRun_only (a0 : Nat) (a1 : Nat) (s : State) :
    Only [.tiles, .tileStores, .phys, .ctr, .free] s (mmaRun a0 a1 s) := by
  unfold mmaRun
  repeat' first
    | with_reducible exact Only.refl _ _
    | with_reducible assumption
    | ((fail_if_no_progress extract_lets +onlyGivenNames x); try (refine Only.cut x ?_ ?_; rotate_left; intro _; clear_value x; rotate_left; unfold x))
    | with_reducible apply Only.foldl
    | with_reducible apply Only.ite
    | with_reducible apply Only.step (countSat_only _ _ _ _)
    | with_reducible apply Only.step (modTile_only _ _ _)
    | with_reducible apply Only.step (takeDraws_only _ _ _ _)
    | with_reducible apply Only.step (takeFree_only _)
    | with_reducible apply Only.step (writeRows_only _ _ _ _ _ _)
    | with_reducible intro _
    | rfl
    | split

theorem lamRun_only (a0 : Nat) (a1 : Nat) (s : State) :
    Only [.tiles, .tileStores, .phys, .ctr] s (lamRun a0 a1 s) := by
  unfold lamRun
  repeat' first
    | with_reducible exact Only.refl _ _
    | with_reducible assumption
    | ((fail_if_no_progress extract_lets +onlyGivenNames x); try (refine Only.cut x ?_ ?_; rotate_left; intro _; clear_value x; rotate_left; unfold x))
    | with_reducible apply Only.foldl
    | with_reducible apply Only.ite
    | with_reducible apply Only.step (countSat_only _ _ _ _)
    | with_reducible apply Only.step (modTile_only _ _ _)
    | with_reducible apply Only.step (writeRows_only _ _ _ _ _ _)
    | with_reducible intro _
    | rfl
    | split

theorem schedClear_only (s : State) :
    Only [.sched] s (schedClear s) := by
  unfold schedClear
  repeat' first
    | with_reducible exact Only.refl _ _
    | with_reducible assumption
    | ((fail_if_no_progress extract_lets +onlyGivenNames x); try (refine Only.cut x ?_ ?_; rotate_left; intro _; clear_value x; rotate_left; unfold x))
    | with_reducible apply Only.foldl
    | with_reducible apply Only.ite
    | with_reducible intro _
    | rfl
    | (fail_if_no_progress (with_reducible apply Only.upd); rotate_left; (intro p hp; cases p <;> first | rfl | exact ⟨rfl, rfl⟩ | exact ⟨rfl, rfl, rfl⟩ | exact absurd (by decide) hp))
    | split

theorem takeMid_only (s : State) :
    Only [.ident] s (takeMid s) := by
  unfold takeMid
  repeat' first
    | with_reducible exact Only.refl _ _
    | with_reducible assumption
    | ((fail_if_no_progress extract_lets +onlyGivenNames x); try (refine Only.cut x ?_ ?_; rotate_left; intro _; clear_value x; rotate_left; unfold x))
    | with_reducible apply Only.foldl
    | with_reducible apply Only.ite
    | with_reducible intro _
    | rfl
    | (fail_if_no_progress (with_reducible apply Only.upd); rotate_left; (intro p hp; cases p <;> first | rfl | exact ⟨rfl, rfl⟩ | exact ⟨rfl, rfl, rfl⟩ | exact absurd (by decide) hp))
    | split

theorem moduleReset_only (s : State) :
    Only [.ident, .sched, .mbx, .work, .clusters, .tiles, .signals, .tileStores, .phys, .hostMem, .mcs, .snoop, .xl, .memMode, .win, .ctr, .fab, .eng, .crown, .power, .led, .start, .fw, .trA, .trB, .taps, .cxlA, .cxlB, .mgmt, .bridge] s (moduleReset s) := by
  unfold moduleReset
  repeat' first
    | with_reducible exact Only.refl _ _
    | with_reducible assumption
    | ((fail_if_no_progress extract_lets +onlyGivenNames x); try (refine Only.cut x ?_ ?_; rotate_left; intro _; clear_value x; rotate_left; unfold x))
    | with_reducible apply Only.foldl
    | with_reducible apply Only.ite
    | with_reducible apply Only.step (capUpdate_only _)
    | with_reducible apply Only.step (hostEvent_only _ _ _ _ _)
    | with_reducible apply Only.step (modCrown_only _ _)
    | with_reducible apply Only.step (railsLost_only _)
    | with_reducible apply Only.step (schedClear_only _)
    | with_reducible apply Only.step (takeMid_only _)
    | with_reducible apply Only.step (toRails_only _)
    | with_reducible intro _
    | rfl
    | (fail_if_no_progress (with_reducible apply Only.upd); rotate_left; (intro p hp; cases p <;> first | rfl | exact ⟨rfl, rfl⟩ | exact ⟨rfl, rfl, rfl⟩ | exact absurd (by decide) hp))
    | split

theorem scheduleReset_only (a0 : Nat) (a1 : Nat) (s : State) :
    Only [.sched, .win, .ctr, .fab, .start] s (scheduleReset a0 a1 s) := by
  unfold scheduleReset
  repeat' first
    | with_reducible exact Only.refl _ _
    | with_reducible assumption
    | ((fail_if_no_progress extract_lets +onlyGivenNames x); try (refine Only.cut x ?_ ?_; rotate_left; intro _; clear_value x; rotate_left; unfold x))
    | with_reducible apply Only.foldl
    | with_reducible apply Only.ite
    | with_reducible apply Only.step (withdrawModule_only _ _ _ _)
    | with_reducible intro _
    | rfl
    | (fail_if_no_progress (with_reducible apply Only.upd); rotate_left; (intro p hp; cases p <;> first | rfl | exact ⟨rfl, rfl⟩ | exact ⟨rfl, rfl, rfl⟩ | exact absurd (by decide) hp))
    | split

theorem sendAgain_only (a0 : Machine.Resend) (s : State) :
    Only [.mbx, .win, .ctr, .fab] s (sendAgain a0 s) := by
  unfold sendAgain
  repeat' first
    | with_reducible exact Only.refl _ _
    | with_reducible assumption
    | ((fail_if_no_progress extract_lets +onlyGivenNames x); try (refine Only.cut x ?_ ?_; rotate_left; intro _; clear_value x; rotate_left; unfold x))
    | with_reducible apply Only.foldl
    | with_reducible apply Only.ite
    | with_reducible apply Only.step (modFab_only _ _)
    | with_reducible apply Only.step (routeOwn_only _ _)
    | with_reducible intro _
    | rfl
    | with_reducible apply Only.ofFst ‹_ = (_, _)›
    | split
    | (fail_if_no_progress clear_value *)

theorem setPathBad_only (a0 : Sys2Proof.Half) (a1 : Nat) (s : State) :
    Only [.mbx, .win, .ctr, .fab] s (setPathBad a0 a1 s) := by
  unfold setPathBad
  repeat' first
    | with_reducible exact Only.refl _ _
    | with_reducible assumption
    | ((fail_if_no_progress extract_lets +onlyGivenNames x); try (refine Only.cut x ?_ ?_; rotate_left; intro _; clear_value x; rotate_left; unfold x))
    | with_reducible apply Only.foldl
    | with_reducible apply Only.ite
    | with_reducible apply Only.step (event_only _ _ _ _ _)
    | with_reducible apply Only.step (modFab_only _ _)
    | with_reducible intro _
    | rfl
    | split

theorem resendStep_only (a0 : Machine.Resend) (s : State) :
    Only [.mbx, .work, .clusters, .tiles, .signals, .win, .ctr, .fab, .eng, .led] s (resendStep a0 s) := by
  unfold resendStep
  repeat' first
    | with_reducible exact Only.refl _ _
    | with_reducible assumption
    | ((fail_if_no_progress extract_lets +onlyGivenNames x); try (refine Only.cut x ?_ ?_; rotate_left; intro _; clear_value x; rotate_left; unfold x))
    | with_reducible apply Only.foldl
    | with_reducible apply Only.ite
    | with_reducible apply Only.step (atPort_only _ _ _ _ _)
    | with_reducible apply Only.step (modFab_only _ _)
    | with_reducible apply Only.step (ownerFail_only _ _ _ _)
    | with_reducible apply Only.step (pumpTx_only _)
    | with_reducible apply Only.step (sendAgain_only _ _)
    | with_reducible apply Only.step (setPathBad_only _ _ _)
    | with_reducible intro _
    | rfl
    | split

theorem resendAt_only (a0 : Machine.Resend) (a1 : Nat) (s : State) :
    Only [.mbx, .work, .clusters, .tiles, .signals, .win, .ctr, .fab, .eng, .led] s (resendAt a0 a1 s) := by
  unfold resendAt
  repeat' first
    | with_reducible exact Only.refl _ _
    | with_reducible assumption
    | ((fail_if_no_progress extract_lets +onlyGivenNames x); try (refine Only.cut x ?_ ?_; rotate_left; intro _; clear_value x; rotate_left; unfold x))
    | with_reducible apply Only.foldl
    | with_reducible apply Only.ite
    | with_reducible apply Only.step (modFab_only _ _)
    | with_reducible apply Only.step (resendStep_only _ _)
    | with_reducible intro _
    | rfl
    | split

theorem isolate_only (a0 : Nat) (s : State) :
    Only [.mbx, .win, .ctr, .fab] s (isolate a0 s) := by
  unfold isolate
  repeat' first
    | with_reducible exact Only.refl _ _
    | with_reducible assumption
    | ((fail_if_no_progress extract_lets +onlyGivenNames x); try (refine Only.cut x ?_ ?_; rotate_left; intro _; clear_value x; rotate_left; unfold x))
    | with_reducible apply Only.foldl
    | with_reducible apply Only.ite
    | with_reducible apply Only.step (modPort_only _ _ _)
    | with_reducible apply Only.step (setPortSt_only _ _ _)
    | with_reducible intro _
    | rfl
    | split

theorem nlfRun_only (a0 : Nat) (a1 : Nat) (s : State) :
    Only [.tiles, .tileStores, .phys, .ctr] s (nlfRun a0 a1 s) := by
  unfold nlfRun
  repeat' first
    | with_reducible exact Only.refl _ _
    | with_reducible assumption
    | ((fail_if_no_progress extract_lets +onlyGivenNames x); try (refine Only.cut x ?_ ?_; rotate_left; intro _; clear_value x; rotate_left; unfold x))
    | with_reducible apply Only.foldl
    | with_reducible apply Only.ite
    | with_reducible apply Only.step (takeDraws_only _ _ _ _)
    | with_reducible apply Only.step (writeRows_only _ _ _ _ _ _)
    | with_reducible intro _
    | rfl
    | split

theorem openPool_only (a0 : Nat) (s : State) :
    Only [.led] s (openPool a0 s) := by
  unfold openPool
  repeat' first
    | with_reducible exact Only.refl _ _
    | with_reducible assumption
    | ((fail_if_no_progress extract_lets +onlyGivenNames x); try (refine Only.cut x ?_ ?_; rotate_left; intro _; clear_value x; rotate_left; unfold x))
    | with_reducible apply Only.foldl
    | with_reducible apply Only.ite
    | with_reducible apply Only.step (setPool_only _ _ _)
    | with_reducible intro _
    | rfl
    | split

theorem openCtx_only (a0 : Nat) (a1 : Nat) (a2 : Nat) (a3 : List Nat) (s : State) :
    Only [.mbx, .work, .led] s (openCtx a0 a1 a2 a3 s) := by
  unfold openCtx
  repeat' first
    | with_reducible exact Only.refl _ _
    | with_reducible assumption
    | ((fail_if_no_progress extract_lets +onlyGivenNames x); try (refine Only.cut x ?_ ?_; rotate_left; intro _; clear_value x; rotate_left; unfold x))
    | with_reducible apply Only.foldl
    | with_reducible apply Only.ite
    | with_reducible apply Only.step (openPool_only _ _)
    | with_reducible apply Only.step (setCtx_only _ _ _)
    | with_reducible intro _
    | rfl
    | (fail_if_no_progress (with_reducible apply Only.upd); rotate_left; (intro p hp; cases p <;> first | rfl | exact ⟨rfl, rfl⟩ | exact ⟨rfl, rfl, rfl⟩ | exact absurd (by decide) hp))
    | split

theorem submit_only (a0 : Sys2Proof.Half) (a1 : Nat) (a2 : Sys2Proof.Retry) (s : State) :
    Only [.mbx, .win, .ctr] s (submit a0 a1 a2 s) := by
  unfold submit
  repeat' first
    | with_reducible exact Only.refl _ _
    | with_reducible assumption
    | ((fail_if_no_progress extract_lets +onlyGivenNames x); try (refine Only.cut x ?_ ?_; rotate_left; intro _; clear_value x; rotate_left; unfold x))
    | with_reducible apply Only.foldl
    | with_reducible apply Only.ite
    | with_reducible apply Only.step (answerPage_only _ _ _ _ _)
    | with_reducible apply Only.step (disarm_only _ _)
    | with_reducible apply Only.step (event_only _ _ _ _ _)
    | with_reducible apply Only.step (eventG_only _ _ _ _ _ _ _)
    | with_reducible apply Only.step (setPage_only _ _ _)
    | with_reducible apply Only.step (setWatch_only _ _ _)
    | with_reducible apply Only.step (watchdogAnswer_only _ _)
    | with_reducible intro _
    | rfl
    | (fail_if_no_progress (with_reducible apply Only.upd); rotate_left; (intro p hp; cases p <;> first | rfl | exact ⟨rfl, rfl⟩ | exact ⟨rfl, rfl, rfl⟩ | exact absurd (by decide) hp))
    | split

theorem standbyAsks_only (s : State) :
    Only [.sched, .mbx, .work, .clusters, .tiles, .signals, .win, .ctr, .fab, .eng, .crown, .power, .led, .mgmt] s (standbyAsks s) := by
  unfold standbyAsks
  repeat' first
    | with_reducible exact Only.refl _ _
    | with_reducible assumption
    | ((fail_if_no_progress extract_lets +onlyGivenNames x); try (refine Only.cut x ?_ ?_; rotate_left; intro _; clear_value x; rotate_left; unfold x))
    | with_reducible apply Only.foldl
    | with_reducible apply Only.ite
    | with_reducible apply Only.step (askVote_only _ _)
    | with_reducible intro _
    | rfl
    | split

theorem schedEnd_only (a0 : Nat) (a1 : Nat) (s : State) :
    Only [.sched] s (schedEnd a0 a1 s) := by
  unfold schedEnd
  repeat' first
    | with_reducible exact Only.refl _ _
    | with_reducible assumption
    | ((fail_if_no_progress extract_lets +onlyGivenNames x); try (refine Only.cut x ?_ ?_; rotate_left; intro _; clear_value x; rotate_left; unfold x))
    | with_reducible apply Only.foldl
    | with_reducible apply Only.ite
    | with_reducible apply Only.step (setSched_only _ _ _)
    | with_reducible intro _
    | rfl
    | split

theorem mapCluster_only (a0 : Nat) (s : State) :
    Only [.clusters] s (mapCluster a0 s) := by
  unfold mapCluster
  repeat' first
    | with_reducible exact Only.refl _ _
    | with_reducible assumption
    | ((fail_if_no_progress extract_lets +onlyGivenNames x); try (refine Only.cut x ?_ ?_; rotate_left; intro _; clear_value x; rotate_left; unfold x))
    | with_reducible apply Only.foldl
    | with_reducible apply Only.ite
    | with_reducible apply Only.step (modCluster_only _ _ _)
    | with_reducible intro _
    | rfl
    | split

theorem ledgerSet_only (a0 : Nat) (s : State) :
    Only [.led] s (ledgerSet a0 s) := by
  unfold ledgerSet
  repeat' first
    | with_reducible exact Only.refl _ _
    | with_reducible assumption
    | ((fail_if_no_progress extract_lets +onlyGivenNames x); try (refine Only.cut x ?_ ?_; rotate_left; intro _; clear_value x; rotate_left; unfold x))
    | with_reducible apply Only.foldl
    | with_reducible apply Only.ite
    | with_reducible apply Only.step (modLed_only _ _)
    | with_reducible intro _
    | rfl
    | split

theorem passColls_only (a0 : Nat) (a1 : Nat) (s : State) :
    Only [.mbx, .win, .ctr] s (passColls a0 a1 s) := by
  unfold passColls
  repeat' first
    | with_reducible exact Only.refl _ _
    | with_reducible assumption
    | ((fail_if_no_progress extract_lets +onlyGivenNames x); try (refine Only.cut x ?_ ?_; rotate_left; intro _; clear_value x; rotate_left; unfold x))
    | with_reducible apply Only.foldl
    | with_reducible apply Only.ite
    | with_reducible apply Only.step (event_only _ _ _ _ _)
    | with_reducible intro _
    | rfl
    | split

theorem passEntries_only (a0 : Nat) (s : State) :
    Only [.sched] s (passEntries a0 s) := by
  unfold passEntries
  repeat' first
    | with_reducible exact Only.refl _ _
    | with_reducible assumption
    | ((fail_if_no_progress extract_lets +onlyGivenNames x); try (refine Only.cut x ?_ ?_; rotate_left; intro _; clear_value x; rotate_left; unfold x))
    | with_reducible apply Only.foldl
    | with_reducible apply Only.ite
    | with_reducible intro _
    | rfl
    | (fail_if_no_progress (with_reducible apply Only.upd); rotate_left; (intro p hp; cases p <;> first | rfl | exact ⟨rfl, rfl⟩ | exact ⟨rfl, rfl, rfl⟩ | exact absurd (by decide) hp))
    | split

theorem passLaunches_only (a0 : Nat) (s : State) :
    Only [.work] s (passLaunches a0 s) := by
  unfold passLaunches
  repeat' first
    | with_reducible exact Only.refl _ _
    | with_reducible assumption
    | ((fail_if_no_progress extract_lets +onlyGivenNames x); try (refine Only.cut x ?_ ?_; rotate_left; intro _; clear_value x; rotate_left; unfold x))
    | with_reducible apply Only.foldl
    | with_reducible apply Only.ite
    | with_reducible apply Only.step (modLaunch_only _ _ _ _)
    | with_reducible intro _
    | rfl
    | split

theorem stepEntries_only (s : State) :
    Only [.sched, .mbx, .win, .ctr, .fab, .power, .start, .fw] s (stepEntries s) := by
  unfold stepEntries
  repeat' first
    | with_reducible exact Only.refl _ _
    | with_reducible assumption
    | ((fail_if_no_progress extract_lets +onlyGivenNames x); try (refine Only.cut x ?_ ?_; rotate_left; intro _; clear_value x; rotate_left; unfold x))
    | with_reducible apply Only.foldl
    | with_reducible apply Only.ite
    | with_reducible apply Only.step (event_only _ _ _ _ _)
    | with_reducible apply Only.step (modFab_only _ _)
    | with_reducible apply Only.step (schedEndAll_only _ _ _)
    | with_reducible intro _
    | rfl
    | (fail_if_no_progress (with_reducible apply Only.upd); rotate_left; (intro p hp; cases p <;> first | rfl | exact ⟨rfl, rfl⟩ | exact ⟨rfl, rfl, rfl⟩ | exact absurd (by decide) hp))
    | split

theorem loadTime_only (a0 : Nat) (s : State) :
    Only [.time, .sched, .mbx, .work, .win, .ctr, .fab, .power, .led, .start, .fw, .free] s (loadTime a0 s) := by
  unfold loadTime
  repeat' first
    | with_reducible exact Only.refl _ _
    | with_reducible assumption
    | ((fail_if_no_progress extract_lets +onlyGivenNames x); try (refine Only.cut x ?_ ?_; rotate_left; intro _; clear_value x; rotate_left; unfold x))
    | with_reducible apply Only.foldl
    | with_reducible apply Only.ite
    | with_reducible apply Only.step (endWindow_only _)
    | with_reducible apply Only.step (ledgerSet_only _ _)
    | with_reducible apply Only.step (modTime_only _ _)
    | with_reducible apply Only.step (passColls_only _ _ _)
    | with_reducible apply Only.step (passEntries_only _ _)
    | with_reducible apply Only.step (passLaunches_only _ _)
    | with_reducible apply Only.step (stepEntries_only _)
    | with_reducible intro _
    | rfl
    | split

theorem slip_only (a0 : Nat) (s : State) :
    Only [.time] s (slip a0 s) := by
  unfold slip
  repeat' first
    | with_reducible exact Only.refl _ _
    | with_reducible assumption
    | ((fail_if_no_progress extract_lets +onlyGivenNames x); try (refine Only.cut x ?_ ?_; rotate_left; intro _; clear_value x; rotate_left; unfold x))
    | with_reducible apply Only.foldl
    | with_reducible apply Only.ite
    | with_reducible apply Only.step (modTime_only _ _)
    | with_reducible apply Only.step (rtFlag_only _ _)
    | with_reducible intro _
    | rfl
    | split

theorem trainAll_only (s : State) :
    Only [.mbx, .win, .ctr, .fab] s (trainAll s) := by
  unfold trainAll
  repeat' first
    | with_reducible exact Only.refl _ _
    | with_reducible assumption
    | ((fail_if_no_progress extract_lets +onlyGivenNames x); try (refine Only.cut x ?_ ?_; rotate_left; intro _; clear_value x; rotate_left; unfold x))
    | with_reducible apply Only.foldl
    | with_reducible apply Only.ite
    | with_reducible apply Only.step (modPort_only _ _ _)
    | with_reducible apply Only.step (train_only _ _)
    | with_reducible intro _
    | rfl
    | split

theorem storeRuns_only (a0 : List (Nat × Nat)) (a1 : List Sys2Proof.Byte) (s : State) :
    Only [.phys] s (storeRuns a0 a1 s) := by
  induction a0 generalizing a1 s with
  | nil => exact Only.refl _ _
  | cons x r ih => exact Only.trans (Only.step (storePhys_only _ _ _) (Only.refl _ _) rfl) (ih _ _)

theorem loadBundle_only (a0 : Nat) (a1 : Nat) (a2 : Sys2Proof.MemEnv) (a3 : List Sys2Proof.Byte) (s : State) :
    Only [.mbx, .work, .phys, .mcs, .xl, .win, .ctr, .flash, .start, .free] s (repState (loadBundle a0 a1 a2 a3 s)) := by
  unfold loadBundle
  have one : ∀ (a b c d : Nat) (e f : Bool) (u : State) (va : Nat) (rs : List (Nat × Nat)) (v : State),
      drawSeg a b c d e f u = some (va, rs, v) → Only [.work, .phys, .xl, .free] u v := by
    intro a b c d e f u va rs v h
    unfold drawSeg at h
    simp only at h
    split at h
    · cases h; exact Only.step (place_only _ _ _ _ _ _ _ _ _) (Only.refl _ _) rfl
    · cases h
  have all : ∀ (l : List (Segment × Bool × Nat × Nat)) (c d : Nat) (u v : State) (x : List (Nat × List (Nat × Nat))),
      drawSegs c d l u = some (x, v) → Only [.work, .phys, .xl, .free] u v := by
    intro l
    induction l with
    | nil => intro c d u v x h; unfold drawSegs at h; cases h; exact Only.refl _ _
    | cons y r ih =>
      intro c d u v x h
      unfold drawSegs at h
      split at h
      · rw [Option.map_eq_some_iff] at h
        obtain ⟨⟨q, w⟩, h1, h2⟩ := h
        cases h2; exact ih _ _ _ _ _ h1
      · split at h
        · cases h
        · rename_i h0
          rw [Option.map_eq_some_iff] at h
          obtain ⟨⟨q, w⟩, h1, h2⟩ := h
          cases h2; exact Only.trans (one _ _ _ _ _ _ _ _ _ _ h0) (ih _ _ _ _ _ h1)
  split
  · exact Only.refl _ _
  · simp only
    split
    · exact Only.refl _ _
    · rename_i h1
      split
      · exact Only.refl _ _
      · rename_i h2
        split
        · exact Only.step (writesNote_only _ _ _ _) (Only.refl _ _) rfl
        · split
          · exact Only.refl _ _
          · split
            · exact Only.refl _ _
            · refine Only.step (modCtx_only _ _ _) ?_ rfl
              refine Only.foldl ?_ (fun u x => Only.step (storeRuns_only _ _ _) (Only.refl _ _) rfl)
              refine Only.step (storeRuns_only _ _ _) ?_ rfl
              exact Only.step (writesNote_only _ _ _ _)
                (Only.step (one _ _ _ _ _ _ _ _ _ _ h2) (Only.step (all _ _ _ _ _ _ h1) (Only.refl _ _) rfl) rfl) rfl

theorem redUpdate_only (a0 : Nat) (a1 : Nat) (a2 : Nat) (a3 : List Machine.Num) (s : State) :
    Only [.tileStores, .phys, .ctr] s (redUpdate a0 a1 a2 a3 s) := by
  unfold redUpdate
  repeat' first
    | with_reducible exact Only.refl _ _
    | with_reducible assumption
    | ((fail_if_no_progress extract_lets +onlyGivenNames x); try (refine Only.cut x ?_ ?_; rotate_left; intro _; clear_value x; rotate_left; unfold x))
    | with_reducible apply Only.foldl
    | with_reducible apply Only.ite
    | with_reducible apply Only.step (writeRows_only _ _ _ _ _ _)
    | with_reducible intro _
    | rfl
    | split

theorem redAccum_only (a0 : Nat) (a1 : Nat) (s : State) :
    Only [.tileStores, .phys, .ctr] s (redAccum a0 a1 s) := by
  unfold redAccum
  repeat' first
    | with_reducible exact Only.refl _ _
    | with_reducible assumption
    | ((fail_if_no_progress extract_lets +onlyGivenNames x); try (refine Only.cut x ?_ ?_; rotate_left; intro _; clear_value x; rotate_left; unfold x))
    | with_reducible apply Only.foldl
    | with_reducible apply Only.ite
    | with_reducible apply Only.step (redUpdate_only _ _ _ _ _)
    | with_reducible intro _
    | rfl
    | split

theorem redReduce_only (a0 : Nat) (a1 : Nat) (s : State) :
    Only [.tiles, .tileStores, .phys, .ctr] s (redReduce a0 a1 s) := by
  unfold redReduce
  repeat' first
    | with_reducible exact Only.refl _ _
    | with_reducible assumption
    | ((fail_if_no_progress extract_lets +onlyGivenNames x); try (refine Only.cut x ?_ ?_; rotate_left; intro _; clear_value x; rotate_left; unfold x))
    | with_reducible apply Only.foldl
    | with_reducible apply Only.ite
    | with_reducible apply Only.step (countSat_only _ _ _ _)
    | with_reducible apply Only.step (takeDraws_only _ _ _ _)
    | with_reducible apply Only.step (writeRows_only _ _ _ _ _ _)
    | with_reducible intro _
    | rfl
    | split

theorem tagEvents_only (a0 : Nat) (a1 : Nat) (a2 : List Nat) (s : State) :
    Only [.led] s (tagEvents a0 a1 a2 s).2 := by
  induction a2 generalizing s with
  | nil => exact Only.refl _ _
  | cons x r ih =>
    unfold tagEvents
    exact Only.trans (Only.step (hostEvent_only _ _ _ _ _) (Only.refl _ _) rfl) (ih _)

theorem reqBody_only (a0 : Nat) (a1 : Machine.Hdr) (a2 : List Sys2Proof.Byte) (s : State) :
    Only [.led] s (repState (reqBody a0 a1 a2 s)) := by
  unfold reqBody
  repeat' first
    | with_reducible exact Only.refl _ _
    | with_reducible assumption
    | ((fail_if_no_progress extract_lets +onlyGivenNames x); try (refine Only.cut x ?_ ?_; rotate_left; intro _; clear_value x; rotate_left; unfold x))
    | with_reducible apply Only.foldl
    | with_reducible apply Only.ite
    | (fail_if_no_progress simp only [repState_ans, repState_stay, repState_badArg, repState_refuse, repState_okRep])
    | with_reducible apply Only.step (tagEvents_only _ _ _ _)
    | with_reducible intro _
    | rfl
    | with_reducible apply Only.ofSnd ‹_ = (_, _)›
    | split

theorem stagePldm_only (a0 : Nat) (a1 : List Sys2Proof.Byte) (a2 : Sys2Proof.Retry) (a3 : Sys2Proof.Retry) (a4 : Sys2Proof.Retry) (s : State) :
    Only [.mbx, .win, .ctr, .flash, .start, .mgmt] s (stagePldm a0 a1 a2 a3 a4 s).2 := by
  have k3 : Only [.mbx, .win, .ctr, .flash, .start, .mgmt] s (repState (if pkgKind a1 = 3 then stageFactory a1 a2 s else stageSlot a1 a2 a3 a4 s)) := by
    split
    · exact Only.step (stageFactory_only _ _ _) (Only.refl _ _) rfl
    · exact Only.step (stageSlot_only _ _ _ _ _) (Only.refl _ _) rfl
  unfold stagePldm
  simp only
  generalize (if pkgKind a1 = 3 then stageFactory a1 a2 s else stageSlot a1 a2 a3 a4 s) = y at k3
  split
  · exact Only.refl _ _
  · split
    · exact Only.refl _ _
    · cases y with
      | ans st d l u =>
        exact (Only.step (modMgmt_only _ _) (k3 : Only [.mbx, .win, .ctr, .flash, .start, .mgmt] s u) (by decide) :
          Only [.mbx, .win, .ctr, .flash, .start, .mgmt] s (modMgmt (fun m => { m with update := if st = stOk then a0 else 0 }) u))
      | stay r u => exact k3

theorem stageRecovery_only (a0 : Nat) (a1 : List Sys2Proof.Byte) (a2 : Sys2Proof.Retry) (a3 : Sys2Proof.Retry) (s : State) :
    Only [.mbx, .win, .ctr, .flash, .start, .mgmt] s (stageRecovery a0 a1 a2 a3 s).2 := by
  unfold stageRecovery
  repeat' first
    | with_reducible exact Only.refl _ _
    | with_reducible assumption
    | ((fail_if_no_progress extract_lets +onlyGivenNames x); try (refine Only.cut x ?_ ?_; rotate_left; intro _; clear_value x; rotate_left; unfold x))
    | with_reducible apply Only.foldl
    | with_reducible apply Only.ite
    | with_reducible apply Only.step (flashImage_only _ _ _ _)
    | with_reducible apply Only.step (modMgmt_only _ _)
    | with_reducible apply Only.step (writeDir_only _ _ _)
    | with_reducible intro _
    | rfl
    | (fail_if_no_progress (with_reducible apply Only.upd); rotate_left; (intro p hp; cases p <;> first | rfl | exact ⟨rfl, rfl⟩ | exact ⟨rfl, rfl, rfl⟩ | exact absurd (by decide) hp))
    | with_reducible apply Only.ofSnd ‹_ = (_, _)›
    | split

theorem resendAll_only (a0 : Machine.Resend) (s : State) :
    Only [.mbx, .work, .clusters, .tiles, .signals, .win, .ctr, .fab, .eng, .led] s (resendAll a0 s) := by
  unfold resendAll
  repeat' first
    | with_reducible exact Only.refl _ _
    | with_reducible assumption
    | ((fail_if_no_progress extract_lets +onlyGivenNames x); try (refine Only.cut x ?_ ?_; rotate_left; intro _; clear_value x; rotate_left; unfold x))
    | with_reducible apply Only.foldl
    | with_reducible apply Only.ite
    | with_reducible apply Only.step (resendAt_only _ _ _)
    | with_reducible apply Only.step (resendStep_only _ _)
    | with_reducible intro _
    | rfl
    | split

theorem swapTable_only (a0 : Sys2Proof.Retry) (s : State) :
    Only [.mbx, .win, .ctr, .fab, .flash, .start] s (swapTable a0 s) := by
  unfold swapTable
  repeat' first
    | with_reducible exact Only.refl _ _
    | with_reducible assumption
    | ((fail_if_no_progress extract_lets +onlyGivenNames x); try (refine Only.cut x ?_ ?_; rotate_left; intro _; clear_value x; rotate_left; unfold x))
    | with_reducible apply Only.foldl
    | with_reducible apply Only.ite
    | with_reducible apply Only.step (event_only _ _ _ _ _)
    | with_reducible apply Only.step (modFab_only _ _)
    | with_reducible apply Only.step (recordSettings_only _ _ _)
    | with_reducible intro _
    | rfl
    | with_reducible apply Only.ofSnd ‹_ = (_, _)›
    | split

theorem startNegotiation_only (s : State) :
    Only [.fab] s (startNegotiation s) := by
  unfold startNegotiation
  repeat' first
    | with_reducible exact Only.refl _ _
    | with_reducible assumption
    | ((fail_if_no_progress extract_lets +onlyGivenNames x); try (refine Only.cut x ?_ ?_; rotate_left; intro _; clear_value x; rotate_left; unfold x))
    | with_reducible apply Only.foldl
    | with_reducible apply Only.ite
    | with_reducible apply Only.step (modPort_only _ _ _)
    | with_reducible intro _
    | rfl
    | split

theorem writeStage_only (a0 : Sys2Proof.Half) (a1 : Nat) (a2 : Nat) (a3 : Bool) (s : State) :
    Only [.mbx, .work, .clusters, .tiles, .signals, .phys, .mcs, .snoop, .xl, .win, .ctr, .fab, .eng, .crown, .led, .flash, .start, .cxlA, .cxlB] s (writeStage a0 a1 a2 a3 s) := by
  unfold writeStage
  repeat' first
    | with_reducible exact Only.refl _ _
    | with_reducible assumption
    | ((fail_if_no_progress extract_lets +onlyGivenNames x); try (refine Only.cut x ?_ ?_; rotate_left; intro _; clear_value x; rotate_left; unfold x))
    | with_reducible apply Only.foldl
    | with_reducible apply Only.ite
    | with_reducible apply Only.step (applyStage_only _ _ _)
    | with_reducible apply Only.step (demote_only _ _)
    | with_reducible apply Only.step (event_only _ _ _ _ _)
    | with_reducible apply Only.step (rejectWrite_only _ _)
    | with_reducible intro _
    | rfl
    | split

theorem storePieces_only (a0 : Nat) (a1 : Sys2Proof.MemEnv) (a2 : List Machine.Piece) (s : State) :
    Only [.mbx, .phys, .mcs, .xl, .win, .ctr, .flash, .start] s (storePieces a0 a1 a2 s).1 := by
  induction a2 generalizing s with
  | nil => exact Only.refl _ _
  | cons x r ih =>
    unfold storePieces
    simp only
    split
    · exact Only.step (lineNote_only _ _ _ _ _ _ _) (Only.refl _ _) rfl
    · exact Only.trans (Only.step (storePhys_only _ _ _) (Only.step (lineNote_only _ _ _ _ _ _ _) (Only.refl _ _) rfl) rfl) (ih _)

theorem floorsArrive_only (s : State) :
    Only [.crown] s (floorsArrive s) := by
  unfold floorsArrive
  repeat' first
    | with_reducible exact Only.refl _ _
    | with_reducible assumption
    | ((fail_if_no_progress extract_lets +onlyGivenNames x); try (refine Only.cut x ?_ ?_; rotate_left; intro _; clear_value x; rotate_left; unfold x))
    | with_reducible apply Only.foldl
    | with_reducible apply Only.ite
    | with_reducible apply Only.step (modStage_only _ _ _)
    | with_reducible intro _
    | rfl
    | split

theorem setTap_only (a0 : Nat) (a1 : Option Machine.Tap) (s : State) :
    Only [.taps] s (setTap a0 a1 s) := by
  unfold setTap
  repeat' first
    | with_reducible exact Only.refl _ _
    | with_reducible assumption
    | ((fail_if_no_progress extract_lets +onlyGivenNames x); try (refine Only.cut x ?_ ?_; rotate_left; intro _; clear_value x; rotate_left; unfold x))
    | with_reducible apply Only.foldl
    | with_reducible apply Only.ite
    | with_reducible intro _
    | rfl
    | (fail_if_no_progress (with_reducible apply Only.upd); rotate_left; (intro p hp; cases p <;> first | rfl | exact ⟨rfl, rfl⟩ | exact ⟨rfl, rfl, rfl⟩ | exact absurd (by decide) hp))
    | split

theorem tapCopy_only (a0 : Nat) (a1 : Nat) (a2 : Sys2Proof.MemEnv) (a3 : Nat) (a4 : Machine.Tap) (s : State) :
    Only [.mbx, .phys, .mcs, .win, .ctr, .flash, .start, .taps] s (tapCopy a0 a1 a2 a3 a4 s) := by
  unfold tapCopy
  repeat' first
    | with_reducible exact Only.refl _ _
    | with_reducible assumption
    | ((fail_if_no_progress extract_lets +onlyGivenNames x); try (refine Only.cut x ?_ ?_; rotate_left; intro _; clear_value x; rotate_left; unfold x))
    | with_reducible apply Only.foldl
    | with_reducible apply Only.ite
    | with_reducible apply Only.step (putOwn_only _ _ _ _)
    | with_reducible apply Only.step (setTap_only _ _ _)
    | with_reducible apply Only.step (writesNote_only _ _ _ _)
    | with_reducible intro _
    | rfl
    | split

theorem physNote_only (a0 : Machine.Agent) (a1 : Nat) (a2 : Nat) (s : State) :
    Only [.mbx, .mcs, .win, .ctr, .flash, .start] s (physNote a0 a1 a2 s) := by
  unfold physNote
  repeat' first
    | with_reducible exact Only.refl _ _
    | with_reducible assumption
    | ((fail_if_no_progress extract_lets +onlyGivenNames x); try (refine Only.cut x ?_ ?_; rotate_left; intro _; clear_value x; rotate_left; unfold x))
    | with_reducible apply Only.foldl
    | with_reducible apply Only.ite
    | with_reducible apply Only.step (memNote_only _ _ _ _ _ _ _ _ _)
    | with_reducible intro _
    | rfl
    | split

theorem moverSignal_only (a0 : Nat) (a1 : Nat) (a2 : Nat) (s : State) :
    Only [.signals, .free] s (moverSignal a0 a1 a2 s) := by
  unfold moverSignal
  repeat' first
    | with_reducible exact Only.refl _ _
    | with_reducible assumption
    | ((fail_if_no_progress extract_lets +onlyGivenNames x); try (refine Only.cut x ?_ ?_; rotate_left; intro _; clear_value x; rotate_left; unfold x))
    | with_reducible apply Only.foldl
    | with_reducible apply Only.ite
    | with_reducible apply Only.step (pushSignal_only _ _)
    | with_reducible apply Only.step (takeFree_only _)
    | with_reducible intro _
    | rfl
    | split

theorem tierMoveEnd_only (a0 : Nat) (a1 : Machine.RunCmd) (s : State) :
    Only [.mbx] s (tierMoveEnd a0 a1 s) := by
  unfold tierMoveEnd
  repeat' first
    | with_reducible exact Only.refl _ _
    | with_reducible assumption
    | ((fail_if_no_progress extract_lets +onlyGivenNames x); try (refine Only.cut x ?_ ?_; rotate_left; intro _; clear_value x; rotate_left; unfold x))
    | with_reducible apply Only.foldl
    | with_reducible apply Only.ite
    | with_reducible apply Only.step (respond_only _ _ _ _ _)
    | with_reducible intro _
    | rfl
    | split

theorem tileCount_only (a0 : Machine.Signal) (s : State) :
    Only [.mbx, .work, .clusters, .tiles, .signals, .win, .ctr, .fab, .eng, .led] s (tileCount a0 s) := by
  unfold tileCount
  repeat' first
    | with_reducible exact Only.refl _ _
    | with_reducible assumption
    | ((fail_if_no_progress extract_lets +onlyGivenNames x); try (refine Only.cut x ?_ ?_; rotate_left; intro _; clear_value x; rotate_left; unfold x))
    | with_reducible apply Only.foldl
    | with_reducible apply Only.ite
    | with_reducible apply Only.step (modTile_only _ _ _)
    | with_reducible apply Only.step (tileFault_only _ _ _ _ _)
    | with_reducible intro _
    | rfl
    | split

theorem putMark_only (a0 : Sys2Proof.Half) (a1 : Bool) (s : State) :
    Only [.mbx, .phys, .mcs, .win, .ctr, .flash, .start, .trA, .trB] s (putMark a0 a1 s) := by
  unfold putMark
  repeat' first
    | with_reducible exact Only.refl _ _
    | with_reducible assumption
    | ((fail_if_no_progress extract_lets +onlyGivenNames x); try (refine Only.cut x ?_ ?_; rotate_left; intro _; clear_value x; rotate_left; unfold x))
    | with_reducible apply Only.foldl
    | with_reducible apply Only.ite
    | with_reducible apply Only.step (modTr_only _ _ _)
    | with_reducible apply Only.step (traceFlow_only _ _)
    | with_reducible intro _
    | rfl
    | split

theorem traceDrain_only (a0 : Sys2Proof.Half) (s : State) :
    Only [.time, .mbx, .phys, .mcs, .win, .ctr, .flash, .start, .trA, .trB] s (traceDrain a0 s) := by
  unfold traceDrain
  repeat' first
    | with_reducible exact Only.refl _ _
    | with_reducible assumption
    | ((fail_if_no_progress extract_lets +onlyGivenNames x); try (refine Only.cut x ?_ ?_; rotate_left; intro _; clear_value x; rotate_left; unfold x))
    | with_reducible apply Only.foldl
    | with_reducible apply Only.ite
    | with_reducible apply Only.step (traceFlow_only _ _)
    | with_reducible apply Only.step (waitHalf_only _ _ _)
    | with_reducible intro _
    | rfl
    | split

theorem stopCapture_only (a0 : Sys2Proof.Half) (s : State) :
    Only [.time, .mbx, .phys, .mcs, .win, .ctr, .flash, .start, .trA, .trB, .free] s (stopCapture a0 s) := by
  unfold stopCapture
  repeat' first
    | with_reducible exact Only.refl _ _
    | with_reducible assumption
    | ((fail_if_no_progress extract_lets +onlyGivenNames x); try (refine Only.cut x ?_ ?_; rotate_left; intro _; clear_value x; rotate_left; unfold x))
    | with_reducible apply Only.foldl
    | with_reducible apply Only.ite
    | with_reducible apply Only.step (crumb_only _ _ _)
    | with_reducible apply Only.step (modTr_only _ _ _)
    | with_reducible apply Only.step (putMark_only _ _ _)
    | with_reducible apply Only.step (takeFree_only _)
    | with_reducible apply Only.step (traceDrain_only _ _)
    | with_reducible intro _
    | rfl
    | split

theorem stopTrace_only (s : State) :
    Only [.time, .mbx, .phys, .mcs, .win, .ctr, .flash, .start, .trA, .trB, .free] s (stopTrace s) := by
  unfold stopTrace
  repeat' first
    | with_reducible exact Only.refl _ _
    | with_reducible assumption
    | ((fail_if_no_progress extract_lets +onlyGivenNames x); try (refine Only.cut x ?_ ?_; rotate_left; intro _; clear_value x; rotate_left; unfold x))
    | with_reducible apply Only.foldl
    | with_reducible apply Only.ite
    | with_reducible apply Only.step (newRing_only _ _)
    | with_reducible apply Only.step (stopCapture_only _ _)
    | with_reducible intro _
    | rfl
    | split

theorem setArg_only (a0 : Nat) (a1 : Nat) (s : State) :
    Only [.sched] s (setArg a0 a1 s) := by
  unfold setArg
  repeat' first
    | with_reducible exact Only.refl _ _
    | with_reducible assumption
    | ((fail_if_no_progress extract_lets +onlyGivenNames x); try (refine Only.cut x ?_ ?_; rotate_left; intro _; clear_value x; rotate_left; unfold x))
    | with_reducible apply Only.foldl
    | with_reducible apply Only.ite
    | with_reducible apply Only.step (setSched_only _ _ _)
    | with_reducible intro _
    | rfl
    | split

theorem startCapture_only (a0 : Sys2Proof.Half) (s : State) :
    Only [.mbx, .phys, .mcs, .win, .ctr, .flash, .start, .trA, .trB, .free] s (startCapture a0 s) := by
  unfold startCapture
  repeat' first
    | with_reducible exact Only.refl _ _
    | with_reducible assumption
    | ((fail_if_no_progress extract_lets +onlyGivenNames x); try (refine Only.cut x ?_ ?_; rotate_left; intro _; clear_value x; rotate_left; unfold x))
    | with_reducible apply Only.foldl
    | with_reducible apply Only.ite
    | with_reducible apply Only.step (modTr_only _ _ _)
    | with_reducible apply Only.step (putMark_only _ _ _)
    | with_reducible apply Only.step (putSyncFree_only _ _ _)
    | with_reducible intro _
    | rfl
    | split

theorem flushBranch_only (a0 : Sys2Proof.Half) (a1 : Nat) (s : State) :
    Only [.mbx, .phys, .mcs, .win, .ctr, .flash, .start, .trA, .trB] s (flushBranch a0 a1 s) := by
  unfold flushBranch
  repeat' first
    | with_reducible exact Only.refl _ _
    | with_reducible assumption
    | ((fail_if_no_progress extract_lets +onlyGivenNames x); try (refine Only.cut x ?_ ?_; rotate_left; intro _; clear_value x; rotate_left; unfold x))
    | with_reducible apply Only.foldl
    | with_reducible apply Only.ite
    | with_reducible apply Only.step (modTr_only _ _ _)
    | with_reducible apply Only.step (tracePut_only _ _ _ _ _)
    | with_reducible intro _
    | rfl
    | split

theorem joinPort_only (a0 : Nat) (s : State) :
    Only [.mbx, .win, .ctr, .fab] s (joinPort a0 s) := by
  unfold joinPort
  repeat' first
    | with_reducible exact Only.refl _ _
    | with_reducible assumption
    | ((fail_if_no_progress extract_lets +onlyGivenNames x); try (refine Only.cut x ?_ ?_; rotate_left; intro _; clear_value x; rotate_left; unfold x))
    | with_reducible apply Only.foldl
    | with_reducible apply Only.ite
    | with_reducible apply Only.step (modPort_only _ _ _)
    | with_reducible apply Only.step (setPortSt_only _ _ _)
    | with_reducible intro _
    | rfl
    | split

theorem swapDue_only (a0 : Nat) (a1 : Sys2Proof.Retry) (s : State) :
    Only [.mbx, .win, .ctr, .fab, .flash, .start] s (swapDue a0 a1 s) := by
  unfold swapDue
  repeat' first
    | with_reducible exact Only.refl _ _
    | with_reducible assumption
    | ((fail_if_no_progress extract_lets +onlyGivenNames x); try (refine Only.cut x ?_ ?_; rotate_left; intro _; clear_value x; rotate_left; unfold x))
    | with_reducible apply Only.foldl
    | with_reducible apply Only.ite
    | with_reducible apply Only.step (swapTable_only _ _)
    | with_reducible intro _
    | rfl
    | split

theorem withdrawPort_only (a0 : Nat) (s : State) :
    Only [.mbx, .win, .ctr, .fab] s (withdrawPort a0 s) := by
  unfold withdrawPort
  repeat' first
    | with_reducible exact Only.refl _ _
    | with_reducible assumption
    | ((fail_if_no_progress extract_lets +onlyGivenNames x); try (refine Only.cut x ?_ ?_; rotate_left; intro _; clear_value x; rotate_left; unfold x))
    | with_reducible apply Only.foldl
    | with_reducible apply Only.ite
    | with_reducible apply Only.step (modPort_only _ _ _)
    | with_reducible apply Only.step (setPortSt_only _ _ _)
    | with_reducible intro _
    | rfl
    | split

theorem holdCredits_only (s : State) :
    Only [.fab] s (holdCredits s) := by
  unfold holdCredits
  repeat' first
    | with_reducible exact Only.refl _ _
    | with_reducible assumption
    | ((fail_if_no_progress extract_lets +onlyGivenNames x); try (refine Only.cut x ?_ ?_; rotate_left; intro _; clear_value x; rotate_left; unfold x))
    | with_reducible apply Only.foldl
    | with_reducible apply Only.ite
    | with_reducible apply Only.step (modPort_only _ _ _)
    | with_reducible intro _
    | rfl
    | split

theorem vecRun_only (a0 : Nat) (a1 : Nat) (s : State) :
    Only [.tiles, .tileStores, .phys, .ctr] s (vecRun a0 a1 s) := by
  unfold vecRun
  repeat' first
    | with_reducible exact Only.refl _ _
    | with_reducible assumption
    | ((fail_if_no_progress extract_lets +onlyGivenNames x); try (refine Only.cut x ?_ ?_; rotate_left; intro _; clear_value x; rotate_left; unfold x))
    | with_reducible apply Only.foldl
    | with_reducible apply Only.ite
    | with_reducible apply Only.step (countSat_only _ _ _ _)
    | with_reducible apply Only.step (takeDraws_only _ _ _ _)
    | with_reducible apply Only.step (writeRows_only _ _ _ _ _ _)
    | with_reducible intro _
    | rfl
    | split

theorem runVote_only (a0 : Bool × Bool × Bool) (a1 : List Bool) (s : State) :
    Only [.mbx, .win, .ctr, .crown, .flash, .start, .mgmt] s (runVote a0 a1 s) := by
  unfold runVote
  repeat' first
    | with_reducible exact Only.refl _ _
    | with_reducible assumption
    | ((fail_if_no_progress extract_lets +onlyGivenNames x); try (refine Only.cut x ?_ ?_; rotate_left; intro _; clear_value x; rotate_left; unfold x))
    | with_reducible apply Only.foldl
    | with_reducible apply Only.ite
    | with_reducible apply Only.step (beginTakeover_only _ _ _ _)
    | with_reducible apply Only.step (event_only _ _ _ _ _)
    | with_reducible apply Only.step (modCrown_only _ _)
    | with_reducible intro _
    | rfl
    | split

theorem rtDone_only (a0 : Nat) (s : State) :
    Only [.tiles] s (rtDone a0 s) := by
  unfold rtDone
  repeat' first
    | with_reducible exact Only.refl _ _
    | with_reducible assumption
    | ((fail_if_no_progress extract_lets +onlyGivenNames x); try (refine Only.cut x ?_ ?_; rotate_left; intro _; clear_value x; rotate_left; unfold x))
    | with_reducible apply Only.foldl
    | with_reducible apply Only.ite
    | with_reducible apply Only.step (modTile_only _ _ _)
    | with_reducible intro _
    | rfl
    | split

theorem tick_only (s : State) :
    Only [.time] s (tick s) := by
  unfold tick
  repeat' first
    | with_reducible exact Only.refl _ _
    | with_reducible assumption
    | ((fail_if_no_progress extract_lets +onlyGivenNames x); try (refine Only.cut x ?_ ?_; rotate_left; intro _; clear_value x; rotate_left; unfold x))
    | with_reducible apply Only.foldl
    | with_reducible apply Only.ite
    | with_reducible apply Only.step (advance_only _ _)
    | with_reducible intro _
    | rfl
    | split

end Sys2Proof
end

