-- ==== Sys2Proof/Laws/Command.lean ====
section
/-!
SUPPORT. The skeletons that commands run in: a mailbox command that firmware accepts, the answer of one that ends, a
management request, a unit of a tile and its sequencer; what each comes to and which zones it can change.
-/
namespace Sys2Proof

open Machine Claims

theorem runCmd_accepted {op : Nat} {sel} {body} {mb : Fin 128} {s : State} (h : accepted s mb op = true)
    (hs : sel (load s mb) = true) :
    runCmd op sel body mb s = match body (key s mb) (head s mb) (load s mb) (placed s mb op) s with
      | .ans st det r s' => respond (key s mb) st det r
          (if (st = stOk ∨ st = stCapLimited) ∧ journalled op then { s' with crown := { s'.crown with journal := s'.crown.journal + 1 } } else s')
      | .stay rc' s' => setRun (key s mb) (some rc') s' := by
  simp only [accepted, Bool.and_eq_true, Bool.not_eq_true', decide_eq_true_eq, Option.isNone_iff_eq_none] at h
  obtain ⟨⟨⟨⟨⟨⟨h1, h2⟩, h3⟩, h4⟩, h5⟩, h6⟩, h7⟩ := h
  have hf : fwPort s = some (crownHalf s, s.crown.claim) := by simp [fwPort, h3, crownHalf]
  have hn : (gated s op (load s mb)).find? (fun i => decide (judge s i s.crown.claim = Verdict.stale)) = none := by
    rw [List.find?_eq_none]
    intro i hi
    have := List.all_eq_true.mp h5 i hi
    simp only [stageOpen, decide_eq_true_eq] at this
    simp [this]
  have ha : ((gated s op (load s mb)).all fun i => decide (judge s i s.crown.claim = Verdict.accepted)) = true := h5
  unfold runCmd
  simp only [head, load, key] at *
  simp only [hf, hn, ha, h1, h2, h4, h6, h7, hs, and_self, if_true, Bool.false_eq_true, false_and, if_false, Bool.not_true]
  rfl

theorem runOp_ok {op : Nat} {body} {mb : Fin 128} {s : State} {r u} (h : accepted s mb op = true)
    (hb : body (key s mb) (head s mb) (load s mb) (placed s mb op) s = okRep r u) :
    runOp op body mb s = answered s mb op r u := by
  unfold runOp; rw [runCmd_accepted h rfl, hb]; simp [okRep, answered, noted]
theorem runCmd_ok {op : Nat} {sel body} {mb : Fin 128} {s : State} {r u} (h : accepted s mb op = true) (hs : sel (load s mb) = true)
    (hb : body (key s mb) (head s mb) (load s mb) (placed s mb op) s = okRep r u) :
    runCmd op sel body mb s = answered s mb op r u := by
  rw [runCmd_accepted h hs, hb]; simp [okRep, answered, noted]
theorem runOp_stay {op : Nat} {body} {mb : Fin 128} {s : State} {r u} (h : accepted s mb op = true)
    (hb : body (key s mb) (head s mb) (load s mb) (placed s mb op) s = .stay r u) :
    runOp op body mb s = stays s mb r u := by
  unfold runOp; rw [runCmd_accepted h rfl, hb]; rfl

theorem only_journal {ps : List Zone} {s t : State} (h : Only ps s t) (hc : Zone.crown ∈ ps) (n : Nat) :
    Only ps s { t with crown := { t.crown with journal := n } } := by
  refine h.trans ?_
  intro p hp
  cases p <;> first | rfl | exact ⟨rfl, rfl⟩ | exact ⟨rfl, rfl, rfl⟩ | exact absurd hc hp

theorem runCmd_only {ps : List Zone} {op : Nat} {sel : List Byte → Bool}
    {body : Nat → Hdr → List Byte → RunCmd → State → Rep} {mb : Fin 128} {s : State}
    (hb : ∀ k h pl rc, Only ps s (repState (body k h pl rc s))) (hs : Zone.sub [.mbx, .win, .ctr, .crown] ps = true) :
    Only ps s (runCmd op sel body mb s) := by
  have hm : Zone.mbx ∈ ps ∧ Zone.win ∈ ps ∧ Zone.ctr ∈ ps ∧ Zone.crown ∈ ps := by simpa [Zone.sub] using hs
  have h1 : Zone.sub [.mbx] ps = true := by simp [Zone.sub, hm.1]
  have h3 : Zone.sub [.mbx, .win, .ctr] ps = true := by simp [Zone.sub, hm]
  unfold runCmd
  simp only
  split
  · exact Only.refl _ _
  split
  · split
    · exact Only.step (respond_only _ _ _ _ _) (Only.refl _ _) h1
    · split
      · exact Only.step (respond_only _ _ _ _ _) (Only.refl _ _) h1
      · split
        · exact Only.step (demote_only _ _) (Only.step (event_only _ _ _ _ _)
            (Only.step (rejectWrite_only _ _) (Only.refl _ _) hs) h3) hs
        split
        · exact Only.refl _ _
        split
        · rename_i h
          have hb' := hb _ _ _ _ |> (h ▸ ·)
          refine Only.step (respond_only _ _ _ _ _) ?_ h1
          split
          · exact only_journal hb' hm.2.2.2 _
          · exact hb'
        · rename_i h
          have hb' := hb _ _ _ _ |> (h ▸ ·)
          exact Only.step (setRun_only _ _ _) hb' h1
  · exact Only.refl _ _

theorem runOp_only {ps : List Zone} {op : Nat} {body : Nat → Hdr → List Byte → RunCmd → State → Rep} {mb : Fin 128}
    {s : State} (hb : ∀ k h pl rc, Only ps s (repState (body k h pl rc s))) (hs : Zone.sub [.mbx, .win, .ctr, .crown] ps = true) :
    Only ps s (runOp op body mb s) := runCmd_only hb hs

theorem answer_only {ps : List Zone} {k op : Nat} {r : Rep} {s : State} (hr : Only ps s (repState r))
    (hs : Zone.sub [.mbx, .crown] ps = true) : Only ps s (answer k op r) := by
  have hm : Zone.mbx ∈ ps ∧ Zone.crown ∈ ps := by simpa [Zone.sub] using hs
  have h1 : Zone.sub [.mbx] ps = true := by simp [Zone.sub, hm.1]
  unfold answer
  split
  · refine Only.step (respond_only _ _ _ _ _) ?_ h1
    split
    · exact only_journal hr hm.2 _
    · exact hr
  · exact Only.step (setRun_only _ _ _) hr h1

theorem onMgmt_only {ps : List Zone} {f : State → State} {s0 s : State} (h : Only ps s0 s) (hf : Only ps s0 (f s)) : Only ps s0 (onMgmt f s) := by
  unfold onMgmt; split
  · exact hf
  · exact h

theorem afterSpdm_only {ps : List Zone} {n : Nat} {f : State → State} {s : State} (hf : Only ps s (f s))
    (hs : Zone.sub [.mgmt] ps = true) : Only ps s (afterSpdm n f s) := by
  unfold afterSpdm
  refine onMgmt_only (Only.refl _ _) ?_
  split
  · exact Only.step (reply_only _ _ _) (Only.refl _ _) hs
  · exact hf

theorem afterSnoops_only {ps : List Zone} {mb : Fin 128} {op : Nat} {rng : List Byte → Option (Nat × Nat)}
    {f : State → State} {s : State} (hf : Only ps s (f s)) (hs : Zone.sub [.snoop] ps = true) :
    Only ps s (afterSnoops mb op rng f s) := by
  unfold afterSnoops
  simp only
  refine Only.ite (fun _ => ?_) (fun _ => hf)
  exact Only.ite (fun _ => Only.refl _ _) (fun _ => Only.step (issueSnoops_only _ _) (Only.refl _ _) hs)

theorem brakeChange_only {ps : List Zone} {f : State → State} {s : State} (hf : Only ps s (f s))
    (hs : Zone.sub [.mbx, .win, .ctr, .power, .mgmt] ps = true) : Only ps s (brakeChange f s) := by
  have hm : Zone.mbx ∈ ps ∧ Zone.win ∈ ps ∧ Zone.ctr ∈ ps ∧ Zone.power ∈ ps ∧ Zone.mgmt ∈ ps := by simpa [Zone.sub] using hs
  unfold brakeChange
  exact Only.step (capUpdate_only _) (Only.step (brakeStart_only _ _) hf (by simp [Zone.sub, hm]))
    (by simp [Zone.sub, hm])

/-- The zones that the fault of a tile can change. -/
def tileZones : List Zone := [.mbx, .work, .clusters, .tiles, .signals, .win, .ctr, .fab, .eng, .led]

theorem tileZones_up {ps qs : List Zone} (hs : Zone.sub tileZones ps = true) (h : ∀ q ∈ qs, q ∈ tileZones) :
    Zone.sub qs ps = true := by
  simp only [Zone.sub, List.all_eq_true, decide_eq_true_eq] at hs ⊢
  exact fun q hq => hs q (h q hq)

theorem localReads_zones {ps : List Zone} {t idx : Nat} {l : List (Nat × Nat)} {ts : StoreReads} {s : State}
    (hs : Zone.sub tileZones ps = true) : Only ps s (localReads t idx l ts s).2 :=
  Only.step (localReads_only _ _ _ _ _) (Only.refl _ _) (tileZones_up hs (by decide))

theorem runSeq_only {ps : List Zone} {op t ts reads check ready body} {s : State}
    (hb : ∀ d u, Only ps u (body d u)) (hs : Zone.sub tileZones ps = true) :
    Only ps s (runSeq op t ts reads check ready body s) := by
  have up := fun qs => tileZones_up (qs := qs) hs
  unfold runSeq
  simp only
  split
  · exact Only.refl _ _
  · split
    · exact Only.refl _ _
    · rename_i d _ _
      have k : Only ps s (if d.go = true then s else modTile t (fun x => { consumeWait d.bits x with hold := some { d with go := true } }) s) := by
        split
        · exact Only.refl _ _
        · exact Only.step (modTile_only _ _ _) (Only.refl _ _) (up _ (by decide))
      generalize (if d.go = true then s
        else modTile t (fun x => { consumeWait d.bits x with hold := some { d with go := true } }) s) = u at k ⊢
      split
      · exact Only.step (tileFault_only _ _ _ _ _) k (up _ (by decide))
      · split
        · exact k
        · split
          · rename_i h
            exact k.trans (Only.ofSnd h (localReads_zones hs))
          · rename_i h
            have k2 := k.trans (Only.ofSnd h (localReads_zones hs))
            exact Only.step (finish_only _ _ _) (Only.step (modTile_only _ _ _) (k2.trans (hb _ _)) (up _ (by decide)))
              (up _ (by decide))

theorem runUnit_only {ps : List Zone} {q op t ts check reads body} {s : State}
    (hb : ∀ d u, Only ps u (body d u).2) (hs : Zone.sub tileZones ps = true) :
    Only ps s (runUnit q op t ts check reads body s) := by
  have up := fun qs => tileZones_up (qs := qs) hs
  unfold runUnit
  simp only
  split
  · exact Only.refl _ _
  · split
    · exact Only.refl _ _
    · split
      · exact Only.step (tileFault_only _ _ _ _ _) (Only.refl _ _) (up _ (by decide))
      · split
        · rename_i h
          exact Only.ofSnd h (localReads_zones hs)
        · rename_i h
          have k : Only ps s _ := Only.ofSnd h (localReads_zones hs)
          split
          · rename_i h
            exact Only.step (tileFault_only _ _ _ _ _) (k.trans (Only.ofSnd h (hb _ _))) (up _ (by decide))
          · rename_i h
            exact Only.step (modTile_only _ _ _) (k.trans (Only.ofSnd h (hb _ _))) (up _ (by decide))

end Sys2Proof
end

