-- ==== Sys2Proof/Laws/Store.lean ====
section
/-!
SUPPORT. The laws of sparse maps and byte memories: what is written reads back, every other place stays, and the canonical
form of a memory is kept.
-/
namespace Sys2Proof.Machine

variable {α : Type}

-- ---------------------------------------------------------------- sparse maps

@[simp] theorem FMap.get_nil (d : α) (k : Nat) : FMap.get d [] k = d := rfl

theorem FMap.get_put (d : α) (m : FMap α) (k j : Nat) (v : α) :
    FMap.get d (FMap.put m k v) j = if k = j then v else FMap.get d m j := by
  induction m with
  | nil => simp [FMap.put, FMap.get]
  | cons x r ih =>
    obtain ⟨i, w⟩ := x
    simp only [FMap.put]
    split
    · simp [FMap.get]
    · split
      · simp only [FMap.get]; grind
      · simp only [FMap.get, ih]; grind

theorem FMap.get_del (d : α) (m : FMap α) (k j : Nat) :
    FMap.get d (FMap.del m k) j = if k = j then d else FMap.get d m j := by
  induction m with
  | nil => simp [FMap.del, FMap.get]
  | cons x r ih =>
    obtain ⟨i, w⟩ := x
    simp only [FMap.del, List.filter_cons] at ih ⊢
    by_cases h : i = k <;> simp [h, FMap.get] <;> grind

/-- A map after a write, at any key. -/
theorem FMap.get_set [DecidableEq α] (d : α) (m : FMap α) (k j : Nat) (v : α) :
    FMap.get d (FMap.set d m k v) j = if k = j then v else FMap.get d m j := by
  unfold FMap.set; split
  · rw [FMap.get_del]; grind
  · rw [FMap.get_put]

@[simp] theorem FMap.get_set_self [DecidableEq α] (d : α) (m : FMap α) (k : Nat) (v : α) :
    FMap.get d (FMap.set d m k v) k = v := by simp [FMap.get_set]

@[simp] theorem FMap.get_mod_self [DecidableEq α] (d : α) (m : FMap α) (k : Nat) (f : α → α) :
    FMap.get d (FMap.mod d m k f) k = f (FMap.get d m k) := by simp [FMap.mod]

theorem FMap.get_mod [DecidableEq α] (d : α) (m : FMap α) (k j : Nat) (f : α → α) :
    FMap.get d (FMap.mod d m k f) j = if k = j then f (FMap.get d m k) else FMap.get d m j := FMap.get_set ..

-- ---------------------------------------------------------------- the canonical form

theorem FMap.ok_cons [DecidableEq α] (d : α) (x : Nat × α) (m : FMap α) :
    FMap.ok d (x :: m) = true ↔ x.2 ≠ d ∧ (∀ y ∈ m.head?, x.1 < y.1) ∧ FMap.ok d m = true := by
  cases m with
  | nil => simp [FMap.ok]
  | cons y r => obtain ⟨i, v⟩ := x; obtain ⟨j, w⟩ := y; simp [FMap.ok, and_assoc]

theorem FMap.ok_tail [DecidableEq α] {d : α} {x : Nat × α} {m : FMap α} (h : FMap.ok d (x :: m) = true) :
    FMap.ok d m = true := ((FMap.ok_cons d x m).1 h).2.2

/-- In a canonical map every later key is greater. -/
theorem FMap.ok_lt [DecidableEq α] {d : α} {m : FMap α} {x : Nat × α} (h : FMap.ok d (x :: m) = true) :
    ∀ y ∈ m, x.1 < y.1 := by
  induction m generalizing x with
  | nil => simp
  | cons z r ih =>
    have hx := (FMap.ok_cons d x (z :: r)).1 h
    intro y hy
    have hz : x.1 < z.1 := hx.2.1 z (by simp)
    rcases List.mem_cons.1 hy with rfl | hy
    · exact hz
    · exact Nat.lt_trans hz (ih hx.2.2 y hy)

/-- What is left of a canonical map is canonical. -/
theorem FMap.ok_filter [DecidableEq α] {d : α} {m : FMap α} (p : Nat × α → Bool) (h : FMap.ok d m = true) :
    FMap.ok d (m.filter p) = true := by
  induction m with
  | nil => exact h
  | cons x r ih =>
    have hx := (FMap.ok_cons d x r).1 h
    have hr := ih hx.2.2
    rw [List.filter_cons]; split
    · refine (FMap.ok_cons d x _).2 ⟨hx.1, ?_, hr⟩
      intro y hy
      exact FMap.ok_lt h y (List.mem_filter.1 (List.mem_of_mem_head? hy)).1
    · exact hr

theorem FMap.ok_put [DecidableEq α] {d : α} {m : FMap α} (k : Nat) (v : α) (hv : v ≠ d) (h : FMap.ok d m = true) :
    FMap.ok d (FMap.put m k v) = true := by
  induction m with
  | nil => simp [FMap.put, FMap.ok, hv]
  | cons x r ih =>
    obtain ⟨j, w⟩ := x
    have hx := (FMap.ok_cons d (j, w) r).1 h
    simp only [FMap.put]
    split
    · refine (FMap.ok_cons d _ _).2 ⟨hv, ?_, h⟩
      simpa using ‹k < j›
    · split
      · subst k; exact (FMap.ok_cons d _ _).2 ⟨hv, hx.2.1, hx.2.2⟩
      · refine (FMap.ok_cons d _ _).2 ⟨hx.1, ?_, ih hx.2.2⟩
        intro y hy
        have hjk : j < k := by omega
        cases r with
        | nil => simp [FMap.put] at hy; subst hy; exact hjk
        | cons z t =>
          obtain ⟨i, u⟩ := z
          have hji : j < i := hx.2.1 (i, u) (by simp)
          simp only [FMap.put] at hy
          split at hy
          · simp at hy; subst hy; exact hjk
          · split at hy <;> (simp at hy; subst hy; first | exact hjk | exact hji)

/-- A write keeps the canonical form. -/
theorem FMap.ok_set [DecidableEq α] {d : α} {m : FMap α} (k : Nat) (v : α) (h : FMap.ok d m = true) :
    FMap.ok d (FMap.set d m k v) = true := by
  unfold FMap.set; split
  · exact FMap.ok_filter _ h
  · exact FMap.ok_put k v ‹_› h

-- ---------------------------------------------------------------- byte memories

theorem Memory.read_write (m : Memory) (a b : Nat) (v : Byte) :
    Memory.read (Memory.write m a v) b = if a = b then v else Memory.read m b := FMap.get_set ..

theorem Memory.write_wf {m : Memory} (a : Nat) (v : Byte) (h : Memory.wf m = true) : Memory.wf (Memory.write m a v) = true :=
  FMap.ok_set a v h

theorem Memory.store_wf (l : List Byte) : ∀ {m : Memory} (a : Nat), Memory.wf m = true → Memory.wf (Memory.store m a l) = true := by
  induction l with
  | nil => exact fun _ h => h
  | cons b r ih => exact fun a h => ih (a + 1) (Memory.write_wf a b h)

theorem Memory.clear_wf {m : Memory} (a n : Nat) (h : Memory.wf m = true) : Memory.wf (Memory.clear m a n) = true :=
  FMap.ok_filter _ h

@[simp] theorem Memory.nil_wf : Memory.wf [] = true := rfl

/-- A memory after a store, at any address. -/
theorem Memory.read_store (l : List Byte) : ∀ (m : Memory) (a b : Nat), Memory.read (Memory.store m a l) b =
    if a ≤ b ∧ b < a + l.length then l.getD (b - a) 0 else Memory.read m b := by
  induction l with
  | nil => intro m a b; have : ¬ (a ≤ b ∧ b < a) := by omega
           simp [Memory.store, this]
  | cons v r ih =>
    intro m a b
    simp only [Memory.store, ih, Memory.read_write, List.length_cons]
    by_cases h : a = b
    · subst h
      have h2 : ¬ (a + 1 ≤ a ∧ a < a + 1 + r.length) := by omega
      rw [if_neg h2]; simp
    · by_cases h2 : a + 1 ≤ b ∧ b < a + 1 + r.length
      · have e : b - a = (b - (a + 1)) + 1 := by omega
        have h3 : a ≤ b ∧ b < a + (r.length + 1) := by omega
        simp [h2, h3, e]
      · have h3 : ¬ (a ≤ b ∧ b < a + (r.length + 1)) := by omega
        rw [if_neg h2, if_neg h3, if_neg h]

theorem Memory.read_clear (m : Memory) (a n b : Nat) :
    Memory.read (Memory.clear m a n) b = if a ≤ b ∧ b < a + n then emptyByte else Memory.read m b := by
  simp only [Memory.read, Memory.clear]
  induction m with
  | nil => simp [FMap.get]
  | cons x r ih =>
    obtain ⟨i, v⟩ := x
    rw [List.filter_cons]
    by_cases h : i < a ∨ a + n ≤ i
    · have h' : (decide (i < a) || decide (a + n ≤ i)) = true := by simpa using h
      rw [if_pos h']
      simp only [FMap.get, ih]
      by_cases e : i = b
      · have : ¬ (a ≤ b ∧ b < a + n) := by omega
        simp [e, this]
      · simp [e]
    · have h' : ¬ (decide (i < a) || decide (a + n ≤ i)) = true := by simpa using h
      rw [if_neg h', ih]
      simp only [FMap.get]
      by_cases e : i = b
      · have : a ≤ b ∧ b < a + n := by omega
        simp [this]
      · simp [e]

theorem Memory.bytes_length (m : Memory) : ∀ (n a : Nat), (Memory.bytes m a n).length = n := by
  intro n; induction n with
  | zero => exact fun _ => rfl
  | succ n ih => intro a; simp [Memory.bytes, ih]

/-- What is stored reads back. -/
theorem Memory.bytes_store (l : List Byte) : ∀ (m : Memory) (a : Nat), Memory.bytes (Memory.store m a l) a l.length = l := by
  have key : ∀ (n : Nat) (m : Memory) (a : Nat) (f : Nat → Byte), (∀ i < n, Memory.read m (a + i) = f i) →
      Memory.bytes m a n = (List.range n).map f := by
    intro n
    induction n with
    | zero => intro m a f _; rfl
    | succ n ih =>
      intro m a f h
      rw [Memory.bytes, List.range_succ_eq_map, List.map_cons, List.map_map, ih m (a + 1) (f ∘ Nat.succ)]
      · rw [← h 0 (by omega)]; rfl
      · intro i hi; have := h (i + 1) (by omega); rw [show a + 1 + i = a + (i + 1) by omega, this]; rfl
  intro m a
  rw [key l.length _ a (fun i => l.getD i 0)]
  · apply List.ext_getElem <;> simp
    intro i h; simp [h]
  · intro i h
    rw [Memory.read_store, if_pos (by omega), show a + i - a = i by omega]

@[simp] theorem natLe_length : ∀ (n v : Nat), (natLe n v).length = n := by
  intro n; induction n with
  | zero => exact fun _ => rfl
  | succ n ih => intro v; simp [natLe, ih]

end Sys2Proof.Machine
end

