-- ==== Sys2Proof/Laws/State.lean ====
section
/-!
SUPPORT. What each basic update of the state does to each field, and what reads back after it.
-/
namespace Sys2Proof.Machine

-- ---------------------------------------------------------------- modTime

@[simp] theorem modTime_pending (f : Time → Time) (s : State) : (modTime f s).pending = s.pending := rfl
@[simp] theorem modTime_ident (f : Time → Time) (s : State) : (modTime f s).ident = s.ident := rfl
@[simp] theorem modTime_pins (f : Time → Time) (s : State) : (modTime f s).pins = s.pins := rfl
@[simp] theorem modTime_sched (f : Time → Time) (s : State) : (modTime f s).sched = s.sched := rfl
@[simp] theorem modTime_mbx (f : Time → Time) (s : State) : (modTime f s).mbx = s.mbx := rfl
@[simp] theorem modTime_work (f : Time → Time) (s : State) : (modTime f s).work = s.work := rfl
@[simp] theorem modTime_comp (f : Time → Time) (s : State) : (modTime f s).comp = s.comp := rfl
@[simp] theorem modTime_mem (f : Time → Time) (s : State) : (modTime f s).mem = s.mem := rfl
@[simp] theorem modTime_obs (f : Time → Time) (s : State) : (modTime f s).obs = s.obs := rfl
@[simp] theorem modTime_fab (f : Time → Time) (s : State) : (modTime f s).fab = s.fab := rfl
@[simp] theorem modTime_eng (f : Time → Time) (s : State) : (modTime f s).eng = s.eng := rfl
@[simp] theorem modTime_crown (f : Time → Time) (s : State) : (modTime f s).crown = s.crown := rfl
@[simp] theorem modTime_power (f : Time → Time) (s : State) : (modTime f s).power = s.power := rfl
@[simp] theorem modTime_led (f : Time → Time) (s : State) : (modTime f s).led = s.led := rfl
@[simp] theorem modTime_flash (f : Time → Time) (s : State) : (modTime f s).flash = s.flash := rfl
@[simp] theorem modTime_start (f : Time → Time) (s : State) : (modTime f s).start = s.start := rfl
@[simp] theorem modTime_fw (f : Time → Time) (s : State) : (modTime f s).fw = s.fw := rfl
@[simp] theorem modTime_trA (f : Time → Time) (s : State) : (modTime f s).trA = s.trA := rfl
@[simp] theorem modTime_trB (f : Time → Time) (s : State) : (modTime f s).trB = s.trB := rfl
@[simp] theorem modTime_taps (f : Time → Time) (s : State) : (modTime f s).taps = s.taps := rfl
@[simp] theorem modTime_tapNext (f : Time → Time) (s : State) : (modTime f s).tapNext = s.tapNext := rfl
@[simp] theorem modTime_cxlA (f : Time → Time) (s : State) : (modTime f s).cxlA = s.cxlA := rfl
@[simp] theorem modTime_cxlB (f : Time → Time) (s : State) : (modTime f s).cxlB = s.cxlB := rfl
@[simp] theorem modTime_mgmt (f : Time → Time) (s : State) : (modTime f s).mgmt = s.mgmt := rfl
@[simp] theorem modTime_brRetrain (f : Time → Time) (s : State) : (modTime f s).brRetrain = s.brRetrain := rfl
@[simp] theorem modTime_free (f : Time → Time) (s : State) : (modTime f s).free = s.free := rfl
@[simp] theorem modTime_time (f : Time → Time) (s : State) : (modTime f s).time = f s.time := rfl

-- ---------------------------------------------------------------- setSched

@[simp] theorem setSched_pending (i : Nat) (e : SchedEntry) (s : State) : (setSched i e s).pending = s.pending := rfl
@[simp] theorem setSched_ident (i : Nat) (e : SchedEntry) (s : State) : (setSched i e s).ident = s.ident := rfl
@[simp] theorem setSched_pins (i : Nat) (e : SchedEntry) (s : State) : (setSched i e s).pins = s.pins := rfl
@[simp] theorem setSched_time (i : Nat) (e : SchedEntry) (s : State) : (setSched i e s).time = s.time := rfl
@[simp] theorem setSched_mbx (i : Nat) (e : SchedEntry) (s : State) : (setSched i e s).mbx = s.mbx := rfl
@[simp] theorem setSched_work (i : Nat) (e : SchedEntry) (s : State) : (setSched i e s).work = s.work := rfl
@[simp] theorem setSched_comp (i : Nat) (e : SchedEntry) (s : State) : (setSched i e s).comp = s.comp := rfl
@[simp] theorem setSched_mem (i : Nat) (e : SchedEntry) (s : State) : (setSched i e s).mem = s.mem := rfl
@[simp] theorem setSched_obs (i : Nat) (e : SchedEntry) (s : State) : (setSched i e s).obs = s.obs := rfl
@[simp] theorem setSched_fab (i : Nat) (e : SchedEntry) (s : State) : (setSched i e s).fab = s.fab := rfl
@[simp] theorem setSched_eng (i : Nat) (e : SchedEntry) (s : State) : (setSched i e s).eng = s.eng := rfl
@[simp] theorem setSched_crown (i : Nat) (e : SchedEntry) (s : State) : (setSched i e s).crown = s.crown := rfl
@[simp] theorem setSched_power (i : Nat) (e : SchedEntry) (s : State) : (setSched i e s).power = s.power := rfl
@[simp] theorem setSched_led (i : Nat) (e : SchedEntry) (s : State) : (setSched i e s).led = s.led := rfl
@[simp] theorem setSched_flash (i : Nat) (e : SchedEntry) (s : State) : (setSched i e s).flash = s.flash := rfl
@[simp] theorem setSched_start (i : Nat) (e : SchedEntry) (s : State) : (setSched i e s).start = s.start := rfl
@[simp] theorem setSched_fw (i : Nat) (e : SchedEntry) (s : State) : (setSched i e s).fw = s.fw := rfl
@[simp] theorem setSched_trA (i : Nat) (e : SchedEntry) (s : State) : (setSched i e s).trA = s.trA := rfl
@[simp] theorem setSched_trB (i : Nat) (e : SchedEntry) (s : State) : (setSched i e s).trB = s.trB := rfl
@[simp] theorem setSched_taps (i : Nat) (e : SchedEntry) (s : State) : (setSched i e s).taps = s.taps := rfl
@[simp] theorem setSched_tapNext (i : Nat) (e : SchedEntry) (s : State) : (setSched i e s).tapNext = s.tapNext := rfl
@[simp] theorem setSched_cxlA (i : Nat) (e : SchedEntry) (s : State) : (setSched i e s).cxlA = s.cxlA := rfl
@[simp] theorem setSched_cxlB (i : Nat) (e : SchedEntry) (s : State) : (setSched i e s).cxlB = s.cxlB := rfl
@[simp] theorem setSched_mgmt (i : Nat) (e : SchedEntry) (s : State) : (setSched i e s).mgmt = s.mgmt := rfl
@[simp] theorem setSched_brRetrain (i : Nat) (e : SchedEntry) (s : State) : (setSched i e s).brRetrain = s.brRetrain := rfl
@[simp] theorem setSched_free (i : Nat) (e : SchedEntry) (s : State) : (setSched i e s).free = s.free := rfl
@[simp] theorem setSched_sched (i : Nat) (e : SchedEntry) (s : State) : (setSched i e s).sched = { s.sched with tab := FMap.set {} s.sched.tab i e } := rfl

-- ---------------------------------------------------------------- setPage

@[simp] theorem setPage_pending (k : Nat) (p : Page) (s : State) : (setPage k p s).pending = s.pending := rfl
@[simp] theorem setPage_ident (k : Nat) (p : Page) (s : State) : (setPage k p s).ident = s.ident := rfl
@[simp] theorem setPage_pins (k : Nat) (p : Page) (s : State) : (setPage k p s).pins = s.pins := rfl
@[simp] theorem setPage_time (k : Nat) (p : Page) (s : State) : (setPage k p s).time = s.time := rfl
@[simp] theorem setPage_sched (k : Nat) (p : Page) (s : State) : (setPage k p s).sched = s.sched := rfl
@[simp] theorem setPage_work (k : Nat) (p : Page) (s : State) : (setPage k p s).work = s.work := rfl
@[simp] theorem setPage_comp (k : Nat) (p : Page) (s : State) : (setPage k p s).comp = s.comp := rfl
@[simp] theorem setPage_mem (k : Nat) (p : Page) (s : State) : (setPage k p s).mem = s.mem := rfl
@[simp] theorem setPage_obs (k : Nat) (p : Page) (s : State) : (setPage k p s).obs = s.obs := rfl
@[simp] theorem setPage_fab (k : Nat) (p : Page) (s : State) : (setPage k p s).fab = s.fab := rfl
@[simp] theorem setPage_eng (k : Nat) (p : Page) (s : State) : (setPage k p s).eng = s.eng := rfl
@[simp] theorem setPage_crown (k : Nat) (p : Page) (s : State) : (setPage k p s).crown = s.crown := rfl
@[simp] theorem setPage_power (k : Nat) (p : Page) (s : State) : (setPage k p s).power = s.power := rfl
@[simp] theorem setPage_led (k : Nat) (p : Page) (s : State) : (setPage k p s).led = s.led := rfl
@[simp] theorem setPage_flash (k : Nat) (p : Page) (s : State) : (setPage k p s).flash = s.flash := rfl
@[simp] theorem setPage_start (k : Nat) (p : Page) (s : State) : (setPage k p s).start = s.start := rfl
@[simp] theorem setPage_fw (k : Nat) (p : Page) (s : State) : (setPage k p s).fw = s.fw := rfl
@[simp] theorem setPage_trA (k : Nat) (p : Page) (s : State) : (setPage k p s).trA = s.trA := rfl
@[simp] theorem setPage_trB (k : Nat) (p : Page) (s : State) : (setPage k p s).trB = s.trB := rfl
@[simp] theorem setPage_taps (k : Nat) (p : Page) (s : State) : (setPage k p s).taps = s.taps := rfl
@[simp] theorem setPage_tapNext (k : Nat) (p : Page) (s : State) : (setPage k p s).tapNext = s.tapNext := rfl
@[simp] theorem setPage_cxlA (k : Nat) (p : Page) (s : State) : (setPage k p s).cxlA = s.cxlA := rfl
@[simp] theorem setPage_cxlB (k : Nat) (p : Page) (s : State) : (setPage k p s).cxlB = s.cxlB := rfl
@[simp] theorem setPage_mgmt (k : Nat) (p : Page) (s : State) : (setPage k p s).mgmt = s.mgmt := rfl
@[simp] theorem setPage_brRetrain (k : Nat) (p : Page) (s : State) : (setPage k p s).brRetrain = s.brRetrain := rfl
@[simp] theorem setPage_free (k : Nat) (p : Page) (s : State) : (setPage k p s).free = s.free := rfl
@[simp] theorem setPage_mbx (k : Nat) (p : Page) (s : State) : (setPage k p s).mbx = { s.mbx with pages := FMap.set {} s.mbx.pages k p } := rfl

-- ---------------------------------------------------------------- setRun

@[simp] theorem setRun_pending (k : Nat) (r : Option RunCmd) (s : State) : (setRun k r s).pending = s.pending := rfl
@[simp] theorem setRun_ident (k : Nat) (r : Option RunCmd) (s : State) : (setRun k r s).ident = s.ident := rfl
@[simp] theorem setRun_pins (k : Nat) (r : Option RunCmd) (s : State) : (setRun k r s).pins = s.pins := rfl
@[simp] theorem setRun_time (k : Nat) (r : Option RunCmd) (s : State) : (setRun k r s).time = s.time := rfl
@[simp] theorem setRun_sched (k : Nat) (r : Option RunCmd) (s : State) : (setRun k r s).sched = s.sched := rfl
@[simp] theorem setRun_work (k : Nat) (r : Option RunCmd) (s : State) : (setRun k r s).work = s.work := rfl
@[simp] theorem setRun_comp (k : Nat) (r : Option RunCmd) (s : State) : (setRun k r s).comp = s.comp := rfl
@[simp] theorem setRun_mem (k : Nat) (r : Option RunCmd) (s : State) : (setRun k r s).mem = s.mem := rfl
@[simp] theorem setRun_obs (k : Nat) (r : Option RunCmd) (s : State) : (setRun k r s).obs = s.obs := rfl
@[simp] theorem setRun_fab (k : Nat) (r : Option RunCmd) (s : State) : (setRun k r s).fab = s.fab := rfl
@[simp] theorem setRun_eng (k : Nat) (r : Option RunCmd) (s : State) : (setRun k r s).eng = s.eng := rfl
@[simp] theorem setRun_crown (k : Nat) (r : Option RunCmd) (s : State) : (setRun k r s).crown = s.crown := rfl
@[simp] theorem setRun_power (k : Nat) (r : Option RunCmd) (s : State) : (setRun k r s).power = s.power := rfl
@[simp] theorem setRun_led (k : Nat) (r : Option RunCmd) (s : State) : (setRun k r s).led = s.led := rfl
@[simp] theorem setRun_flash (k : Nat) (r : Option RunCmd) (s : State) : (setRun k r s).flash = s.flash := rfl
@[simp] theorem setRun_start (k : Nat) (r : Option RunCmd) (s : State) : (setRun k r s).start = s.start := rfl
@[simp] theorem setRun_fw (k : Nat) (r : Option RunCmd) (s : State) : (setRun k r s).fw = s.fw := rfl
@[simp] theorem setRun_trA (k : Nat) (r : Option RunCmd) (s : State) : (setRun k r s).trA = s.trA := rfl
@[simp] theorem setRun_trB (k : Nat) (r : Option RunCmd) (s : State) : (setRun k r s).trB = s.trB := rfl
@[simp] theorem setRun_taps (k : Nat) (r : Option RunCmd) (s : State) : (setRun k r s).taps = s.taps := rfl
@[simp] theorem setRun_tapNext (k : Nat) (r : Option RunCmd) (s : State) : (setRun k r s).tapNext = s.tapNext := rfl
@[simp] theorem setRun_cxlA (k : Nat) (r : Option RunCmd) (s : State) : (setRun k r s).cxlA = s.cxlA := rfl
@[simp] theorem setRun_cxlB (k : Nat) (r : Option RunCmd) (s : State) : (setRun k r s).cxlB = s.cxlB := rfl
@[simp] theorem setRun_mgmt (k : Nat) (r : Option RunCmd) (s : State) : (setRun k r s).mgmt = s.mgmt := rfl
@[simp] theorem setRun_brRetrain (k : Nat) (r : Option RunCmd) (s : State) : (setRun k r s).brRetrain = s.brRetrain := rfl
@[simp] theorem setRun_free (k : Nat) (r : Option RunCmd) (s : State) : (setRun k r s).free = s.free := rfl
@[simp] theorem setRun_mbx (k : Nat) (r : Option RunCmd) (s : State) : (setRun k r s).mbx = { s.mbx with run := FMap.set none s.mbx.run k r } := rfl

-- ---------------------------------------------------------------- setWatch

@[simp] theorem setWatch_pending (k : Nat) (d : Option Nat) (s : State) : (setWatch k d s).pending = s.pending := rfl
@[simp] theorem setWatch_ident (k : Nat) (d : Option Nat) (s : State) : (setWatch k d s).ident = s.ident := rfl
@[simp] theorem setWatch_pins (k : Nat) (d : Option Nat) (s : State) : (setWatch k d s).pins = s.pins := rfl
@[simp] theorem setWatch_time (k : Nat) (d : Option Nat) (s : State) : (setWatch k d s).time = s.time := rfl
@[simp] theorem setWatch_sched (k : Nat) (d : Option Nat) (s : State) : (setWatch k d s).sched = s.sched := rfl
@[simp] theorem setWatch_work (k : Nat) (d : Option Nat) (s : State) : (setWatch k d s).work = s.work := rfl
@[simp] theorem setWatch_comp (k : Nat) (d : Option Nat) (s : State) : (setWatch k d s).comp = s.comp := rfl
@[simp] theorem setWatch_mem (k : Nat) (d : Option Nat) (s : State) : (setWatch k d s).mem = s.mem := rfl
@[simp] theorem setWatch_obs (k : Nat) (d : Option Nat) (s : State) : (setWatch k d s).obs = s.obs := rfl
@[simp] theorem setWatch_fab (k : Nat) (d : Option Nat) (s : State) : (setWatch k d s).fab = s.fab := rfl
@[simp] theorem setWatch_eng (k : Nat) (d : Option Nat) (s : State) : (setWatch k d s).eng = s.eng := rfl
@[simp] theorem setWatch_crown (k : Nat) (d : Option Nat) (s : State) : (setWatch k d s).crown = s.crown := rfl
@[simp] theorem setWatch_power (k : Nat) (d : Option Nat) (s : State) : (setWatch k d s).power = s.power := rfl
@[simp] theorem setWatch_led (k : Nat) (d : Option Nat) (s : State) : (setWatch k d s).led = s.led := rfl
@[simp] theorem setWatch_flash (k : Nat) (d : Option Nat) (s : State) : (setWatch k d s).flash = s.flash := rfl
@[simp] theorem setWatch_start (k : Nat) (d : Option Nat) (s : State) : (setWatch k d s).start = s.start := rfl
@[simp] theorem setWatch_fw (k : Nat) (d : Option Nat) (s : State) : (setWatch k d s).fw = s.fw := rfl
@[simp] theorem setWatch_trA (k : Nat) (d : Option Nat) (s : State) : (setWatch k d s).trA = s.trA := rfl
@[simp] theorem setWatch_trB (k : Nat) (d : Option Nat) (s : State) : (setWatch k d s).trB = s.trB := rfl
@[simp] theorem setWatch_taps (k : Nat) (d : Option Nat) (s : State) : (setWatch k d s).taps = s.taps := rfl
@[simp] theorem setWatch_tapNext (k : Nat) (d : Option Nat) (s : State) : (setWatch k d s).tapNext = s.tapNext := rfl
@[simp] theorem setWatch_cxlA (k : Nat) (d : Option Nat) (s : State) : (setWatch k d s).cxlA = s.cxlA := rfl
@[simp] theorem setWatch_cxlB (k : Nat) (d : Option Nat) (s : State) : (setWatch k d s).cxlB = s.cxlB := rfl
@[simp] theorem setWatch_mgmt (k : Nat) (d : Option Nat) (s : State) : (setWatch k d s).mgmt = s.mgmt := rfl
@[simp] theorem setWatch_brRetrain (k : Nat) (d : Option Nat) (s : State) : (setWatch k d s).brRetrain = s.brRetrain := rfl
@[simp] theorem setWatch_free (k : Nat) (d : Option Nat) (s : State) : (setWatch k d s).free = s.free := rfl
@[simp] theorem setWatch_mbx (k : Nat) (d : Option Nat) (s : State) : (setWatch k d s).mbx = { s.mbx with watch := FMap.set none s.mbx.watch k d } := rfl

-- ---------------------------------------------------------------- setCtx

@[simp] theorem setCtx_pending (i : Nat) (c : Option Ctx) (s : State) : (setCtx i c s).pending = s.pending := rfl
@[simp] theorem setCtx_ident (i : Nat) (c : Option Ctx) (s : State) : (setCtx i c s).ident = s.ident := rfl
@[simp] theorem setCtx_pins (i : Nat) (c : Option Ctx) (s : State) : (setCtx i c s).pins = s.pins := rfl
@[simp] theorem setCtx_time (i : Nat) (c : Option Ctx) (s : State) : (setCtx i c s).time = s.time := rfl
@[simp] theorem setCtx_sched (i : Nat) (c : Option Ctx) (s : State) : (setCtx i c s).sched = s.sched := rfl
@[simp] theorem setCtx_mbx (i : Nat) (c : Option Ctx) (s : State) : (setCtx i c s).mbx = s.mbx := rfl
@[simp] theorem setCtx_comp (i : Nat) (c : Option Ctx) (s : State) : (setCtx i c s).comp = s.comp := rfl
@[simp] theorem setCtx_mem (i : Nat) (c : Option Ctx) (s : State) : (setCtx i c s).mem = s.mem := rfl
@[simp] theorem setCtx_obs (i : Nat) (c : Option Ctx) (s : State) : (setCtx i c s).obs = s.obs := rfl
@[simp] theorem setCtx_fab (i : Nat) (c : Option Ctx) (s : State) : (setCtx i c s).fab = s.fab := rfl
@[simp] theorem setCtx_eng (i : Nat) (c : Option Ctx) (s : State) : (setCtx i c s).eng = s.eng := rfl
@[simp] theorem setCtx_crown (i : Nat) (c : Option Ctx) (s : State) : (setCtx i c s).crown = s.crown := rfl
@[simp] theorem setCtx_power (i : Nat) (c : Option Ctx) (s : State) : (setCtx i c s).power = s.power := rfl
@[simp] theorem setCtx_led (i : Nat) (c : Option Ctx) (s : State) : (setCtx i c s).led = s.led := rfl
@[simp] theorem setCtx_flash (i : Nat) (c : Option Ctx) (s : State) : (setCtx i c s).flash = s.flash := rfl
@[simp] theorem setCtx_start (i : Nat) (c : Option Ctx) (s : State) : (setCtx i c s).start = s.start := rfl
@[simp] theorem setCtx_fw (i : Nat) (c : Option Ctx) (s : State) : (setCtx i c s).fw = s.fw := rfl
@[simp] theorem setCtx_trA (i : Nat) (c : Option Ctx) (s : State) : (setCtx i c s).trA = s.trA := rfl
@[simp] theorem setCtx_trB (i : Nat) (c : Option Ctx) (s : State) : (setCtx i c s).trB = s.trB := rfl
@[simp] theorem setCtx_taps (i : Nat) (c : Option Ctx) (s : State) : (setCtx i c s).taps = s.taps := rfl
@[simp] theorem setCtx_tapNext (i : Nat) (c : Option Ctx) (s : State) : (setCtx i c s).tapNext = s.tapNext := rfl
@[simp] theorem setCtx_cxlA (i : Nat) (c : Option Ctx) (s : State) : (setCtx i c s).cxlA = s.cxlA := rfl
@[simp] theorem setCtx_cxlB (i : Nat) (c : Option Ctx) (s : State) : (setCtx i c s).cxlB = s.cxlB := rfl
@[simp] theorem setCtx_mgmt (i : Nat) (c : Option Ctx) (s : State) : (setCtx i c s).mgmt = s.mgmt := rfl
@[simp] theorem setCtx_brRetrain (i : Nat) (c : Option Ctx) (s : State) : (setCtx i c s).brRetrain = s.brRetrain := rfl
@[simp] theorem setCtx_free (i : Nat) (c : Option Ctx) (s : State) : (setCtx i c s).free = s.free := rfl
@[simp] theorem setCtx_work (i : Nat) (c : Option Ctx) (s : State) : (setCtx i c s).work = { s.work with ctxs := FMap.set none s.work.ctxs i c } := rfl

-- ---------------------------------------------------------------- setPart

@[simp] theorem setPart_pending (i : Nat) (p : Option Machine.Part) (s : State) : (setPart i p s).pending = s.pending := rfl
@[simp] theorem setPart_ident (i : Nat) (p : Option Machine.Part) (s : State) : (setPart i p s).ident = s.ident := rfl
@[simp] theorem setPart_pins (i : Nat) (p : Option Machine.Part) (s : State) : (setPart i p s).pins = s.pins := rfl
@[simp] theorem setPart_time (i : Nat) (p : Option Machine.Part) (s : State) : (setPart i p s).time = s.time := rfl
@[simp] theorem setPart_sched (i : Nat) (p : Option Machine.Part) (s : State) : (setPart i p s).sched = s.sched := rfl
@[simp] theorem setPart_mbx (i : Nat) (p : Option Machine.Part) (s : State) : (setPart i p s).mbx = s.mbx := rfl
@[simp] theorem setPart_comp (i : Nat) (p : Option Machine.Part) (s : State) : (setPart i p s).comp = s.comp := rfl
@[simp] theorem setPart_mem (i : Nat) (p : Option Machine.Part) (s : State) : (setPart i p s).mem = s.mem := rfl
@[simp] theorem setPart_obs (i : Nat) (p : Option Machine.Part) (s : State) : (setPart i p s).obs = s.obs := rfl
@[simp] theorem setPart_fab (i : Nat) (p : Option Machine.Part) (s : State) : (setPart i p s).fab = s.fab := rfl
@[simp] theorem setPart_eng (i : Nat) (p : Option Machine.Part) (s : State) : (setPart i p s).eng = s.eng := rfl
@[simp] theorem setPart_crown (i : Nat) (p : Option Machine.Part) (s : State) : (setPart i p s).crown = s.crown := rfl
@[simp] theorem setPart_power (i : Nat) (p : Option Machine.Part) (s : State) : (setPart i p s).power = s.power := rfl
@[simp] theorem setPart_led (i : Nat) (p : Option Machine.Part) (s : State) : (setPart i p s).led = s.led := rfl
@[simp] theorem setPart_flash (i : Nat) (p : Option Machine.Part) (s : State) : (setPart i p s).flash = s.flash := rfl
@[simp] theorem setPart_start (i : Nat) (p : Option Machine.Part) (s : State) : (setPart i p s).start = s.start := rfl
@[simp] theorem setPart_fw (i : Nat) (p : Option Machine.Part) (s : State) : (setPart i p s).fw = s.fw := rfl
@[simp] theorem setPart_trA (i : Nat) (p : Option Machine.Part) (s : State) : (setPart i p s).trA = s.trA := rfl
@[simp] theorem setPart_trB (i : Nat) (p : Option Machine.Part) (s : State) : (setPart i p s).trB = s.trB := rfl
@[simp] theorem setPart_taps (i : Nat) (p : Option Machine.Part) (s : State) : (setPart i p s).taps = s.taps := rfl
@[simp] theorem setPart_tapNext (i : Nat) (p : Option Machine.Part) (s : State) : (setPart i p s).tapNext = s.tapNext := rfl
@[simp] theorem setPart_cxlA (i : Nat) (p : Option Machine.Part) (s : State) : (setPart i p s).cxlA = s.cxlA := rfl
@[simp] theorem setPart_cxlB (i : Nat) (p : Option Machine.Part) (s : State) : (setPart i p s).cxlB = s.cxlB := rfl
@[simp] theorem setPart_mgmt (i : Nat) (p : Option Machine.Part) (s : State) : (setPart i p s).mgmt = s.mgmt := rfl
@[simp] theorem setPart_brRetrain (i : Nat) (p : Option Machine.Part) (s : State) : (setPart i p s).brRetrain = s.brRetrain := rfl
@[simp] theorem setPart_free (i : Nat) (p : Option Machine.Part) (s : State) : (setPart i p s).free = s.free := rfl
@[simp] theorem setPart_work (i : Nat) (p : Option Machine.Part) (s : State) : (setPart i p s).work = { s.work with parts := FMap.set none s.work.parts i p } := rfl

-- ---------------------------------------------------------------- modCluster

@[simp] theorem modCluster_pending (c : Nat) (f : Cluster → Cluster) (s : State) : (modCluster c f s).pending = s.pending := rfl
@[simp] theorem modCluster_ident (c : Nat) (f : Cluster → Cluster) (s : State) : (modCluster c f s).ident = s.ident := rfl
@[simp] theorem modCluster_pins (c : Nat) (f : Cluster → Cluster) (s : State) : (modCluster c f s).pins = s.pins := rfl
@[simp] theorem modCluster_time (c : Nat) (f : Cluster → Cluster) (s : State) : (modCluster c f s).time = s.time := rfl
@[simp] theorem modCluster_sched (c : Nat) (f : Cluster → Cluster) (s : State) : (modCluster c f s).sched = s.sched := rfl
@[simp] theorem modCluster_mbx (c : Nat) (f : Cluster → Cluster) (s : State) : (modCluster c f s).mbx = s.mbx := rfl
@[simp] theorem modCluster_work (c : Nat) (f : Cluster → Cluster) (s : State) : (modCluster c f s).work = s.work := rfl
@[simp] theorem modCluster_mem (c : Nat) (f : Cluster → Cluster) (s : State) : (modCluster c f s).mem = s.mem := rfl
@[simp] theorem modCluster_obs (c : Nat) (f : Cluster → Cluster) (s : State) : (modCluster c f s).obs = s.obs := rfl
@[simp] theorem modCluster_fab (c : Nat) (f : Cluster → Cluster) (s : State) : (modCluster c f s).fab = s.fab := rfl
@[simp] theorem modCluster_eng (c : Nat) (f : Cluster → Cluster) (s : State) : (modCluster c f s).eng = s.eng := rfl
@[simp] theorem modCluster_crown (c : Nat) (f : Cluster → Cluster) (s : State) : (modCluster c f s).crown = s.crown := rfl
@[simp] theorem modCluster_power (c : Nat) (f : Cluster → Cluster) (s : State) : (modCluster c f s).power = s.power := rfl
@[simp] theorem modCluster_led (c : Nat) (f : Cluster → Cluster) (s : State) : (modCluster c f s).led = s.led := rfl
@[simp] theorem modCluster_flash (c : Nat) (f : Cluster → Cluster) (s : State) : (modCluster c f s).flash = s.flash := rfl
@[simp] theorem modCluster_start (c : Nat) (f : Cluster → Cluster) (s : State) : (modCluster c f s).start = s.start := rfl
@[simp] theorem modCluster_fw (c : Nat) (f : Cluster → Cluster) (s : State) : (modCluster c f s).fw = s.fw := rfl
@[simp] theorem modCluster_trA (c : Nat) (f : Cluster → Cluster) (s : State) : (modCluster c f s).trA = s.trA := rfl
@[simp] theorem modCluster_trB (c : Nat) (f : Cluster → Cluster) (s : State) : (modCluster c f s).trB = s.trB := rfl
@[simp] theorem modCluster_taps (c : Nat) (f : Cluster → Cluster) (s : State) : (modCluster c f s).taps = s.taps := rfl
@[simp] theorem modCluster_tapNext (c : Nat) (f : Cluster → Cluster) (s : State) : (modCluster c f s).tapNext = s.tapNext := rfl
@[simp] theorem modCluster_cxlA (c : Nat) (f : Cluster → Cluster) (s : State) : (modCluster c f s).cxlA = s.cxlA := rfl
@[simp] theorem modCluster_cxlB (c : Nat) (f : Cluster → Cluster) (s : State) : (modCluster c f s).cxlB = s.cxlB := rfl
@[simp] theorem modCluster_mgmt (c : Nat) (f : Cluster → Cluster) (s : State) : (modCluster c f s).mgmt = s.mgmt := rfl
@[simp] theorem modCluster_brRetrain (c : Nat) (f : Cluster → Cluster) (s : State) : (modCluster c f s).brRetrain = s.brRetrain := rfl
@[simp] theorem modCluster_free (c : Nat) (f : Cluster → Cluster) (s : State) : (modCluster c f s).free = s.free := rfl
@[simp] theorem modCluster_tiles (c : Nat) (f : Cluster → Cluster) (s : State) : (modCluster c f s).comp.tiles = s.comp.tiles := rfl
@[simp] theorem modCluster_signals (c : Nat) (f : Cluster → Cluster) (s : State) : (modCluster c f s).comp.signals = s.comp.signals := rfl
@[simp] theorem modCluster_ts (c : Nat) (f : Cluster → Cluster) (s : State) : (modCluster c f s).comp.ts = s.comp.ts := rfl
@[simp] theorem modCluster_clusters (c : Nat) (f : Cluster → Cluster) (s : State) : (modCluster c f s).comp.clusters = FMap.mod {} s.comp.clusters c f := rfl

-- ---------------------------------------------------------------- modTile

@[simp] theorem modTile_pending (t : Nat) (f : Tile → Tile) (s : State) : (modTile t f s).pending = s.pending := rfl
@[simp] theorem modTile_ident (t : Nat) (f : Tile → Tile) (s : State) : (modTile t f s).ident = s.ident := rfl
@[simp] theorem modTile_pins (t : Nat) (f : Tile → Tile) (s : State) : (modTile t f s).pins = s.pins := rfl
@[simp] theorem modTile_time (t : Nat) (f : Tile → Tile) (s : State) : (modTile t f s).time = s.time := rfl
@[simp] theorem modTile_sched (t : Nat) (f : Tile → Tile) (s : State) : (modTile t f s).sched = s.sched := rfl
@[simp] theorem modTile_mbx (t : Nat) (f : Tile → Tile) (s : State) : (modTile t f s).mbx = s.mbx := rfl
@[simp] theorem modTile_work (t : Nat) (f : Tile → Tile) (s : State) : (modTile t f s).work = s.work := rfl
@[simp] theorem modTile_mem (t : Nat) (f : Tile → Tile) (s : State) : (modTile t f s).mem = s.mem := rfl
@[simp] theorem modTile_obs (t : Nat) (f : Tile → Tile) (s : State) : (modTile t f s).obs = s.obs := rfl
@[simp] theorem modTile_fab (t : Nat) (f : Tile → Tile) (s : State) : (modTile t f s).fab = s.fab := rfl
@[simp] theorem modTile_eng (t : Nat) (f : Tile → Tile) (s : State) : (modTile t f s).eng = s.eng := rfl
@[simp] theorem modTile_crown (t : Nat) (f : Tile → Tile) (s : State) : (modTile t f s).crown = s.crown := rfl
@[simp] theorem modTile_power (t : Nat) (f : Tile → Tile) (s : State) : (modTile t f s).power = s.power := rfl
@[simp] theorem modTile_led (t : Nat) (f : Tile → Tile) (s : State) : (modTile t f s).led = s.led := rfl
@[simp] theorem modTile_flash (t : Nat) (f : Tile → Tile) (s : State) : (modTile t f s).flash = s.flash := rfl
@[simp] theorem modTile_start (t : Nat) (f : Tile → Tile) (s : State) : (modTile t f s).start = s.start := rfl
@[simp] theorem modTile_fw (t : Nat) (f : Tile → Tile) (s : State) : (modTile t f s).fw = s.fw := rfl
@[simp] theorem modTile_trA (t : Nat) (f : Tile → Tile) (s : State) : (modTile t f s).trA = s.trA := rfl
@[simp] theorem modTile_trB (t : Nat) (f : Tile → Tile) (s : State) : (modTile t f s).trB = s.trB := rfl
@[simp] theorem modTile_taps (t : Nat) (f : Tile → Tile) (s : State) : (modTile t f s).taps = s.taps := rfl
@[simp] theorem modTile_tapNext (t : Nat) (f : Tile → Tile) (s : State) : (modTile t f s).tapNext = s.tapNext := rfl
@[simp] theorem modTile_cxlA (t : Nat) (f : Tile → Tile) (s : State) : (modTile t f s).cxlA = s.cxlA := rfl
@[simp] theorem modTile_cxlB (t : Nat) (f : Tile → Tile) (s : State) : (modTile t f s).cxlB = s.cxlB := rfl
@[simp] theorem modTile_mgmt (t : Nat) (f : Tile → Tile) (s : State) : (modTile t f s).mgmt = s.mgmt := rfl
@[simp] theorem modTile_brRetrain (t : Nat) (f : Tile → Tile) (s : State) : (modTile t f s).brRetrain = s.brRetrain := rfl
@[simp] theorem modTile_free (t : Nat) (f : Tile → Tile) (s : State) : (modTile t f s).free = s.free := rfl
@[simp] theorem modTile_clusters (t : Nat) (f : Tile → Tile) (s : State) : (modTile t f s).comp.clusters = s.comp.clusters := rfl
@[simp] theorem modTile_signals (t : Nat) (f : Tile → Tile) (s : State) : (modTile t f s).comp.signals = s.comp.signals := rfl
@[simp] theorem modTile_ts (t : Nat) (f : Tile → Tile) (s : State) : (modTile t f s).comp.ts = s.comp.ts := rfl
@[simp] theorem modTile_tiles (t : Nat) (f : Tile → Tile) (s : State) : (modTile t f s).comp.tiles = FMap.mod {} s.comp.tiles t f := rfl

-- ---------------------------------------------------------------- pushSignal

@[simp] theorem pushSignal_pending (g : Signal) (s : State) : (pushSignal g s).pending = s.pending := rfl
@[simp] theorem pushSignal_ident (g : Signal) (s : State) : (pushSignal g s).ident = s.ident := rfl
@[simp] theorem pushSignal_pins (g : Signal) (s : State) : (pushSignal g s).pins = s.pins := rfl
@[simp] theorem pushSignal_time (g : Signal) (s : State) : (pushSignal g s).time = s.time := rfl
@[simp] theorem pushSignal_sched (g : Signal) (s : State) : (pushSignal g s).sched = s.sched := rfl
@[simp] theorem pushSignal_mbx (g : Signal) (s : State) : (pushSignal g s).mbx = s.mbx := rfl
@[simp] theorem pushSignal_work (g : Signal) (s : State) : (pushSignal g s).work = s.work := rfl
@[simp] theorem pushSignal_mem (g : Signal) (s : State) : (pushSignal g s).mem = s.mem := rfl
@[simp] theorem pushSignal_obs (g : Signal) (s : State) : (pushSignal g s).obs = s.obs := rfl
@[simp] theorem pushSignal_fab (g : Signal) (s : State) : (pushSignal g s).fab = s.fab := rfl
@[simp] theorem pushSignal_eng (g : Signal) (s : State) : (pushSignal g s).eng = s.eng := rfl
@[simp] theorem pushSignal_crown (g : Signal) (s : State) : (pushSignal g s).crown = s.crown := rfl
@[simp] theorem pushSignal_power (g : Signal) (s : State) : (pushSignal g s).power = s.power := rfl
@[simp] theorem pushSignal_led (g : Signal) (s : State) : (pushSignal g s).led = s.led := rfl
@[simp] theorem pushSignal_flash (g : Signal) (s : State) : (pushSignal g s).flash = s.flash := rfl
@[simp] theorem pushSignal_start (g : Signal) (s : State) : (pushSignal g s).start = s.start := rfl
@[simp] theorem pushSignal_fw (g : Signal) (s : State) : (pushSignal g s).fw = s.fw := rfl
@[simp] theorem pushSignal_trA (g : Signal) (s : State) : (pushSignal g s).trA = s.trA := rfl
@[simp] theorem pushSignal_trB (g : Signal) (s : State) : (pushSignal g s).trB = s.trB := rfl
@[simp] theorem pushSignal_taps (g : Signal) (s : State) : (pushSignal g s).taps = s.taps := rfl
@[simp] theorem pushSignal_tapNext (g : Signal) (s : State) : (pushSignal g s).tapNext = s.tapNext := rfl
@[simp] theorem pushSignal_cxlA (g : Signal) (s : State) : (pushSignal g s).cxlA = s.cxlA := rfl
@[simp] theorem pushSignal_cxlB (g : Signal) (s : State) : (pushSignal g s).cxlB = s.cxlB := rfl
@[simp] theorem pushSignal_mgmt (g : Signal) (s : State) : (pushSignal g s).mgmt = s.mgmt := rfl
@[simp] theorem pushSignal_brRetrain (g : Signal) (s : State) : (pushSignal g s).brRetrain = s.brRetrain := rfl
@[simp] theorem pushSignal_free (g : Signal) (s : State) : (pushSignal g s).free = s.free := rfl
@[simp] theorem pushSignal_clusters (g : Signal) (s : State) : (pushSignal g s).comp.clusters = s.comp.clusters := rfl
@[simp] theorem pushSignal_tiles (g : Signal) (s : State) : (pushSignal g s).comp.tiles = s.comp.tiles := rfl
@[simp] theorem pushSignal_ts (g : Signal) (s : State) : (pushSignal g s).comp.ts = s.comp.ts := rfl
@[simp] theorem pushSignal_signals (g : Signal) (s : State) : (pushSignal g s).comp.signals = s.comp.signals ++ [g] := rfl

-- ---------------------------------------------------------------- storePhys

@[simp] theorem storePhys_pending (pa : Nat) (l : List Byte) (s : State) : (storePhys pa l s).pending = s.pending := rfl
@[simp] theorem storePhys_ident (pa : Nat) (l : List Byte) (s : State) : (storePhys pa l s).ident = s.ident := rfl
@[simp] theorem storePhys_pins (pa : Nat) (l : List Byte) (s : State) : (storePhys pa l s).pins = s.pins := rfl
@[simp] theorem storePhys_time (pa : Nat) (l : List Byte) (s : State) : (storePhys pa l s).time = s.time := rfl
@[simp] theorem storePhys_sched (pa : Nat) (l : List Byte) (s : State) : (storePhys pa l s).sched = s.sched := rfl
@[simp] theorem storePhys_mbx (pa : Nat) (l : List Byte) (s : State) : (storePhys pa l s).mbx = s.mbx := rfl
@[simp] theorem storePhys_work (pa : Nat) (l : List Byte) (s : State) : (storePhys pa l s).work = s.work := rfl
@[simp] theorem storePhys_comp (pa : Nat) (l : List Byte) (s : State) : (storePhys pa l s).comp = s.comp := rfl
@[simp] theorem storePhys_obs (pa : Nat) (l : List Byte) (s : State) : (storePhys pa l s).obs = s.obs := rfl
@[simp] theorem storePhys_fab (pa : Nat) (l : List Byte) (s : State) : (storePhys pa l s).fab = s.fab := rfl
@[simp] theorem storePhys_eng (pa : Nat) (l : List Byte) (s : State) : (storePhys pa l s).eng = s.eng := rfl
@[simp] theorem storePhys_crown (pa : Nat) (l : List Byte) (s : State) : (storePhys pa l s).crown = s.crown := rfl
@[simp] theorem storePhys_power (pa : Nat) (l : List Byte) (s : State) : (storePhys pa l s).power = s.power := rfl
@[simp] theorem storePhys_led (pa : Nat) (l : List Byte) (s : State) : (storePhys pa l s).led = s.led := rfl
@[simp] theorem storePhys_flash (pa : Nat) (l : List Byte) (s : State) : (storePhys pa l s).flash = s.flash := rfl
@[simp] theorem storePhys_start (pa : Nat) (l : List Byte) (s : State) : (storePhys pa l s).start = s.start := rfl
@[simp] theorem storePhys_fw (pa : Nat) (l : List Byte) (s : State) : (storePhys pa l s).fw = s.fw := rfl
@[simp] theorem storePhys_trA (pa : Nat) (l : List Byte) (s : State) : (storePhys pa l s).trA = s.trA := rfl
@[simp] theorem storePhys_trB (pa : Nat) (l : List Byte) (s : State) : (storePhys pa l s).trB = s.trB := rfl
@[simp] theorem storePhys_taps (pa : Nat) (l : List Byte) (s : State) : (storePhys pa l s).taps = s.taps := rfl
@[simp] theorem storePhys_tapNext (pa : Nat) (l : List Byte) (s : State) : (storePhys pa l s).tapNext = s.tapNext := rfl
@[simp] theorem storePhys_cxlA (pa : Nat) (l : List Byte) (s : State) : (storePhys pa l s).cxlA = s.cxlA := rfl
@[simp] theorem storePhys_cxlB (pa : Nat) (l : List Byte) (s : State) : (storePhys pa l s).cxlB = s.cxlB := rfl
@[simp] theorem storePhys_mgmt (pa : Nat) (l : List Byte) (s : State) : (storePhys pa l s).mgmt = s.mgmt := rfl
@[simp] theorem storePhys_brRetrain (pa : Nat) (l : List Byte) (s : State) : (storePhys pa l s).brRetrain = s.brRetrain := rfl
@[simp] theorem storePhys_free (pa : Nat) (l : List Byte) (s : State) : (storePhys pa l s).free = s.free := rfl
@[simp] theorem storePhys_host (pa : Nat) (l : List Byte) (s : State) : (storePhys pa l s).mem.host = s.mem.host := rfl
@[simp] theorem storePhys_mcs (pa : Nat) (l : List Byte) (s : State) : (storePhys pa l s).mem.mcs = s.mem.mcs := rfl
@[simp] theorem storePhys_filter (pa : Nat) (l : List Byte) (s : State) : (storePhys pa l s).mem.filter = s.mem.filter := rfl
@[simp] theorem storePhys_snoops (pa : Nat) (l : List Byte) (s : State) : (storePhys pa l s).mem.snoops = s.mem.snoops := rfl
@[simp] theorem storePhys_snoopBad (pa : Nat) (l : List Byte) (s : State) : (storePhys pa l s).mem.snoopBad = s.mem.snoopBad := rfl
@[simp] theorem storePhys_tierOff (pa : Nat) (l : List Byte) (s : State) : (storePhys pa l s).mem.tierOff = s.mem.tierOff := rfl
@[simp] theorem storePhys_bad (pa : Nat) (l : List Byte) (s : State) : (storePhys pa l s).mem.bad = s.mem.bad := rfl
@[simp] theorem storePhys_xl (pa : Nat) (l : List Byte) (s : State) : (storePhys pa l s).mem.xl = s.mem.xl := rfl
@[simp] theorem storePhys_xlErr (pa : Nat) (l : List Byte) (s : State) : (storePhys pa l s).mem.xlErr = s.mem.xlErr := rfl
@[simp] theorem storePhys_pte (pa : Nat) (l : List Byte) (s : State) : (storePhys pa l s).mem.pte = s.mem.pte := rfl
@[simp] theorem storePhys_perHalf (pa : Nat) (l : List Byte) (s : State) : (storePhys pa l s).mem.perHalf = s.mem.perHalf := rfl
@[simp] theorem storePhys_windowGib (pa : Nat) (l : List Byte) (s : State) : (storePhys pa l s).mem.windowGib = s.mem.windowGib := rfl
@[simp] theorem storePhys_phys (pa : Nat) (l : List Byte) (s : State) : (storePhys pa l s).mem.phys = Memory.store s.mem.phys pa l := rfl

-- ---------------------------------------------------------------- modMc

@[simp] theorem modMc_pending (i : Nat) (f : Mc → Mc) (s : State) : (modMc i f s).pending = s.pending := rfl
@[simp] theorem modMc_ident (i : Nat) (f : Mc → Mc) (s : State) : (modMc i f s).ident = s.ident := rfl
@[simp] theorem modMc_pins (i : Nat) (f : Mc → Mc) (s : State) : (modMc i f s).pins = s.pins := rfl
@[simp] theorem modMc_time (i : Nat) (f : Mc → Mc) (s : State) : (modMc i f s).time = s.time := rfl
@[simp] theorem modMc_sched (i : Nat) (f : Mc → Mc) (s : State) : (modMc i f s).sched = s.sched := rfl
@[simp] theorem modMc_mbx (i : Nat) (f : Mc → Mc) (s : State) : (modMc i f s).mbx = s.mbx := rfl
@[simp] theorem modMc_work (i : Nat) (f : Mc → Mc) (s : State) : (modMc i f s).work = s.work := rfl
@[simp] theorem modMc_comp (i : Nat) (f : Mc → Mc) (s : State) : (modMc i f s).comp = s.comp := rfl
@[simp] theorem modMc_obs (i : Nat) (f : Mc → Mc) (s : State) : (modMc i f s).obs = s.obs := rfl
@[simp] theorem modMc_fab (i : Nat) (f : Mc → Mc) (s : State) : (modMc i f s).fab = s.fab := rfl
@[simp] theorem modMc_eng (i : Nat) (f : Mc → Mc) (s : State) : (modMc i f s).eng = s.eng := rfl
@[simp] theorem modMc_crown (i : Nat) (f : Mc → Mc) (s : State) : (modMc i f s).crown = s.crown := rfl
@[simp] theorem modMc_power (i : Nat) (f : Mc → Mc) (s : State) : (modMc i f s).power = s.power := rfl
@[simp] theorem modMc_led (i : Nat) (f : Mc → Mc) (s : State) : (modMc i f s).led = s.led := rfl
@[simp] theorem modMc_flash (i : Nat) (f : Mc → Mc) (s : State) : (modMc i f s).flash = s.flash := rfl
@[simp] theorem modMc_start (i : Nat) (f : Mc → Mc) (s : State) : (modMc i f s).start = s.start := rfl
@[simp] theorem modMc_fw (i : Nat) (f : Mc → Mc) (s : State) : (modMc i f s).fw = s.fw := rfl
@[simp] theorem modMc_trA (i : Nat) (f : Mc → Mc) (s : State) : (modMc i f s).trA = s.trA := rfl
@[simp] theorem modMc_trB (i : Nat) (f : Mc → Mc) (s : State) : (modMc i f s).trB = s.trB := rfl
@[simp] theorem modMc_taps (i : Nat) (f : Mc → Mc) (s : State) : (modMc i f s).taps = s.taps := rfl
@[simp] theorem modMc_tapNext (i : Nat) (f : Mc → Mc) (s : State) : (modMc i f s).tapNext = s.tapNext := rfl
@[simp] theorem modMc_cxlA (i : Nat) (f : Mc → Mc) (s : State) : (modMc i f s).cxlA = s.cxlA := rfl
@[simp] theorem modMc_cxlB (i : Nat) (f : Mc → Mc) (s : State) : (modMc i f s).cxlB = s.cxlB := rfl
@[simp] theorem modMc_mgmt (i : Nat) (f : Mc → Mc) (s : State) : (modMc i f s).mgmt = s.mgmt := rfl
@[simp] theorem modMc_brRetrain (i : Nat) (f : Mc → Mc) (s : State) : (modMc i f s).brRetrain = s.brRetrain := rfl
@[simp] theorem modMc_free (i : Nat) (f : Mc → Mc) (s : State) : (modMc i f s).free = s.free := rfl
@[simp] theorem modMc_phys (i : Nat) (f : Mc → Mc) (s : State) : (modMc i f s).mem.phys = s.mem.phys := rfl
@[simp] theorem modMc_host (i : Nat) (f : Mc → Mc) (s : State) : (modMc i f s).mem.host = s.mem.host := rfl
@[simp] theorem modMc_filter (i : Nat) (f : Mc → Mc) (s : State) : (modMc i f s).mem.filter = s.mem.filter := rfl
@[simp] theorem modMc_snoops (i : Nat) (f : Mc → Mc) (s : State) : (modMc i f s).mem.snoops = s.mem.snoops := rfl
@[simp] theorem modMc_snoopBad (i : Nat) (f : Mc → Mc) (s : State) : (modMc i f s).mem.snoopBad = s.mem.snoopBad := rfl
@[simp] theorem modMc_tierOff (i : Nat) (f : Mc → Mc) (s : State) : (modMc i f s).mem.tierOff = s.mem.tierOff := rfl
@[simp] theorem modMc_bad (i : Nat) (f : Mc → Mc) (s : State) : (modMc i f s).mem.bad = s.mem.bad := rfl
@[simp] theorem modMc_xl (i : Nat) (f : Mc → Mc) (s : State) : (modMc i f s).mem.xl = s.mem.xl := rfl
@[simp] theorem modMc_xlErr (i : Nat) (f : Mc → Mc) (s : State) : (modMc i f s).mem.xlErr = s.mem.xlErr := rfl
@[simp] theorem modMc_pte (i : Nat) (f : Mc → Mc) (s : State) : (modMc i f s).mem.pte = s.mem.pte := rfl
@[simp] theorem modMc_perHalf (i : Nat) (f : Mc → Mc) (s : State) : (modMc i f s).mem.perHalf = s.mem.perHalf := rfl
@[simp] theorem modMc_windowGib (i : Nat) (f : Mc → Mc) (s : State) : (modMc i f s).mem.windowGib = s.mem.windowGib := rfl
@[simp] theorem modMc_mcs (i : Nat) (f : Mc → Mc) (s : State) : (modMc i f s).mem.mcs = FMap.mod {} s.mem.mcs i f := rfl

-- ---------------------------------------------------------------- setWin

@[simp] theorem setWin_pending (blk : Nat) (w : Win) (s : State) : (setWin blk w s).pending = s.pending := rfl
@[simp] theorem setWin_ident (blk : Nat) (w : Win) (s : State) : (setWin blk w s).ident = s.ident := rfl
@[simp] theorem setWin_pins (blk : Nat) (w : Win) (s : State) : (setWin blk w s).pins = s.pins := rfl
@[simp] theorem setWin_time (blk : Nat) (w : Win) (s : State) : (setWin blk w s).time = s.time := rfl
@[simp] theorem setWin_sched (blk : Nat) (w : Win) (s : State) : (setWin blk w s).sched = s.sched := rfl
@[simp] theorem setWin_mbx (blk : Nat) (w : Win) (s : State) : (setWin blk w s).mbx = s.mbx := rfl
@[simp] theorem setWin_work (blk : Nat) (w : Win) (s : State) : (setWin blk w s).work = s.work := rfl
@[simp] theorem setWin_comp (blk : Nat) (w : Win) (s : State) : (setWin blk w s).comp = s.comp := rfl
@[simp] theorem setWin_mem (blk : Nat) (w : Win) (s : State) : (setWin blk w s).mem = s.mem := rfl
@[simp] theorem setWin_fab (blk : Nat) (w : Win) (s : State) : (setWin blk w s).fab = s.fab := rfl
@[simp] theorem setWin_eng (blk : Nat) (w : Win) (s : State) : (setWin blk w s).eng = s.eng := rfl
@[simp] theorem setWin_crown (blk : Nat) (w : Win) (s : State) : (setWin blk w s).crown = s.crown := rfl
@[simp] theorem setWin_power (blk : Nat) (w : Win) (s : State) : (setWin blk w s).power = s.power := rfl
@[simp] theorem setWin_led (blk : Nat) (w : Win) (s : State) : (setWin blk w s).led = s.led := rfl
@[simp] theorem setWin_flash (blk : Nat) (w : Win) (s : State) : (setWin blk w s).flash = s.flash := rfl
@[simp] theorem setWin_start (blk : Nat) (w : Win) (s : State) : (setWin blk w s).start = s.start := rfl
@[simp] theorem setWin_fw (blk : Nat) (w : Win) (s : State) : (setWin blk w s).fw = s.fw := rfl
@[simp] theorem setWin_trA (blk : Nat) (w : Win) (s : State) : (setWin blk w s).trA = s.trA := rfl
@[simp] theorem setWin_trB (blk : Nat) (w : Win) (s : State) : (setWin blk w s).trB = s.trB := rfl
@[simp] theorem setWin_taps (blk : Nat) (w : Win) (s : State) : (setWin blk w s).taps = s.taps := rfl
@[simp] theorem setWin_tapNext (blk : Nat) (w : Win) (s : State) : (setWin blk w s).tapNext = s.tapNext := rfl
@[simp] theorem setWin_cxlA (blk : Nat) (w : Win) (s : State) : (setWin blk w s).cxlA = s.cxlA := rfl
@[simp] theorem setWin_cxlB (blk : Nat) (w : Win) (s : State) : (setWin blk w s).cxlB = s.cxlB := rfl
@[simp] theorem setWin_mgmt (blk : Nat) (w : Win) (s : State) : (setWin blk w s).mgmt = s.mgmt := rfl
@[simp] theorem setWin_brRetrain (blk : Nat) (w : Win) (s : State) : (setWin blk w s).brRetrain = s.brRetrain := rfl
@[simp] theorem setWin_free (blk : Nat) (w : Win) (s : State) : (setWin blk w s).free = s.free := rfl
@[simp] theorem setWin_ctr (blk : Nat) (w : Win) (s : State) : (setWin blk w s).obs.ctr = s.obs.ctr := rfl
@[simp] theorem setWin_win (blk : Nat) (w : Win) (s : State) : (setWin blk w s).obs.win = FMap.set (winInit blk) s.obs.win blk w := rfl

-- ---------------------------------------------------------------- setCtr

@[simp] theorem setCtr_pending (blk i v : Nat) (s : State) : (setCtr blk i v s).pending = s.pending := rfl
@[simp] theorem setCtr_ident (blk i v : Nat) (s : State) : (setCtr blk i v s).ident = s.ident := rfl
@[simp] theorem setCtr_pins (blk i v : Nat) (s : State) : (setCtr blk i v s).pins = s.pins := rfl
@[simp] theorem setCtr_time (blk i v : Nat) (s : State) : (setCtr blk i v s).time = s.time := rfl
@[simp] theorem setCtr_sched (blk i v : Nat) (s : State) : (setCtr blk i v s).sched = s.sched := rfl
@[simp] theorem setCtr_mbx (blk i v : Nat) (s : State) : (setCtr blk i v s).mbx = s.mbx := rfl
@[simp] theorem setCtr_work (blk i v : Nat) (s : State) : (setCtr blk i v s).work = s.work := rfl
@[simp] theorem setCtr_comp (blk i v : Nat) (s : State) : (setCtr blk i v s).comp = s.comp := rfl
@[simp] theorem setCtr_mem (blk i v : Nat) (s : State) : (setCtr blk i v s).mem = s.mem := rfl
@[simp] theorem setCtr_fab (blk i v : Nat) (s : State) : (setCtr blk i v s).fab = s.fab := rfl
@[simp] theorem setCtr_eng (blk i v : Nat) (s : State) : (setCtr blk i v s).eng = s.eng := rfl
@[simp] theorem setCtr_crown (blk i v : Nat) (s : State) : (setCtr blk i v s).crown = s.crown := rfl
@[simp] theorem setCtr_power (blk i v : Nat) (s : State) : (setCtr blk i v s).power = s.power := rfl
@[simp] theorem setCtr_led (blk i v : Nat) (s : State) : (setCtr blk i v s).led = s.led := rfl
@[simp] theorem setCtr_flash (blk i v : Nat) (s : State) : (setCtr blk i v s).flash = s.flash := rfl
@[simp] theorem setCtr_start (blk i v : Nat) (s : State) : (setCtr blk i v s).start = s.start := rfl
@[simp] theorem setCtr_fw (blk i v : Nat) (s : State) : (setCtr blk i v s).fw = s.fw := rfl
@[simp] theorem setCtr_trA (blk i v : Nat) (s : State) : (setCtr blk i v s).trA = s.trA := rfl
@[simp] theorem setCtr_trB (blk i v : Nat) (s : State) : (setCtr blk i v s).trB = s.trB := rfl
@[simp] theorem setCtr_taps (blk i v : Nat) (s : State) : (setCtr blk i v s).taps = s.taps := rfl
@[simp] theorem setCtr_tapNext (blk i v : Nat) (s : State) : (setCtr blk i v s).tapNext = s.tapNext := rfl
@[simp] theorem setCtr_cxlA (blk i v : Nat) (s : State) : (setCtr blk i v s).cxlA = s.cxlA := rfl
@[simp] theorem setCtr_cxlB (blk i v : Nat) (s : State) : (setCtr blk i v s).cxlB = s.cxlB := rfl
@[simp] theorem setCtr_mgmt (blk i v : Nat) (s : State) : (setCtr blk i v s).mgmt = s.mgmt := rfl
@[simp] theorem setCtr_brRetrain (blk i v : Nat) (s : State) : (setCtr blk i v s).brRetrain = s.brRetrain := rfl
@[simp] theorem setCtr_free (blk i v : Nat) (s : State) : (setCtr blk i v s).free = s.free := rfl
@[simp] theorem setCtr_win (blk i v : Nat) (s : State) : (setCtr blk i v s).obs.win = s.obs.win := rfl
@[simp] theorem setCtr_ctr (blk i v : Nat) (s : State) : (setCtr blk i v s).obs.ctr = FMap.set 0 s.obs.ctr (2048 * blk + i) v := rfl

-- ---------------------------------------------------------------- modFab

@[simp] theorem modFab_pending (f : Fab → Fab) (s : State) : (modFab f s).pending = s.pending := rfl
@[simp] theorem modFab_ident (f : Fab → Fab) (s : State) : (modFab f s).ident = s.ident := rfl
@[simp] theorem modFab_pins (f : Fab → Fab) (s : State) : (modFab f s).pins = s.pins := rfl
@[simp] theorem modFab_time (f : Fab → Fab) (s : State) : (modFab f s).time = s.time := rfl
@[simp] theorem modFab_sched (f : Fab → Fab) (s : State) : (modFab f s).sched = s.sched := rfl
@[simp] theorem modFab_mbx (f : Fab → Fab) (s : State) : (modFab f s).mbx = s.mbx := rfl
@[simp] theorem modFab_work (f : Fab → Fab) (s : State) : (modFab f s).work = s.work := rfl
@[simp] theorem modFab_comp (f : Fab → Fab) (s : State) : (modFab f s).comp = s.comp := rfl
@[simp] theorem modFab_mem (f : Fab → Fab) (s : State) : (modFab f s).mem = s.mem := rfl
@[simp] theorem modFab_obs (f : Fab → Fab) (s : State) : (modFab f s).obs = s.obs := rfl
@[simp] theorem modFab_eng (f : Fab → Fab) (s : State) : (modFab f s).eng = s.eng := rfl
@[simp] theorem modFab_crown (f : Fab → Fab) (s : State) : (modFab f s).crown = s.crown := rfl
@[simp] theorem modFab_power (f : Fab → Fab) (s : State) : (modFab f s).power = s.power := rfl
@[simp] theorem modFab_led (f : Fab → Fab) (s : State) : (modFab f s).led = s.led := rfl
@[simp] theorem modFab_flash (f : Fab → Fab) (s : State) : (modFab f s).flash = s.flash := rfl
@[simp] theorem modFab_start (f : Fab → Fab) (s : State) : (modFab f s).start = s.start := rfl
@[simp] theorem modFab_fw (f : Fab → Fab) (s : State) : (modFab f s).fw = s.fw := rfl
@[simp] theorem modFab_trA (f : Fab → Fab) (s : State) : (modFab f s).trA = s.trA := rfl
@[simp] theorem modFab_trB (f : Fab → Fab) (s : State) : (modFab f s).trB = s.trB := rfl
@[simp] theorem modFab_taps (f : Fab → Fab) (s : State) : (modFab f s).taps = s.taps := rfl
@[simp] theorem modFab_tapNext (f : Fab → Fab) (s : State) : (modFab f s).tapNext = s.tapNext := rfl
@[simp] theorem modFab_cxlA (f : Fab → Fab) (s : State) : (modFab f s).cxlA = s.cxlA := rfl
@[simp] theorem modFab_cxlB (f : Fab → Fab) (s : State) : (modFab f s).cxlB = s.cxlB := rfl
@[simp] theorem modFab_mgmt (f : Fab → Fab) (s : State) : (modFab f s).mgmt = s.mgmt := rfl
@[simp] theorem modFab_brRetrain (f : Fab → Fab) (s : State) : (modFab f s).brRetrain = s.brRetrain := rfl
@[simp] theorem modFab_free (f : Fab → Fab) (s : State) : (modFab f s).free = s.free := rfl
@[simp] theorem modFab_fab (f : Fab → Fab) (s : State) : (modFab f s).fab = f s.fab := rfl

-- ---------------------------------------------------------------- modPort

@[simp] theorem modPort_pending (p : Nat) (f : Port → Port) (s : State) : (modPort p f s).pending = s.pending := rfl
@[simp] theorem modPort_ident (p : Nat) (f : Port → Port) (s : State) : (modPort p f s).ident = s.ident := rfl
@[simp] theorem modPort_pins (p : Nat) (f : Port → Port) (s : State) : (modPort p f s).pins = s.pins := rfl
@[simp] theorem modPort_time (p : Nat) (f : Port → Port) (s : State) : (modPort p f s).time = s.time := rfl
@[simp] theorem modPort_sched (p : Nat) (f : Port → Port) (s : State) : (modPort p f s).sched = s.sched := rfl
@[simp] theorem modPort_mbx (p : Nat) (f : Port → Port) (s : State) : (modPort p f s).mbx = s.mbx := rfl
@[simp] theorem modPort_work (p : Nat) (f : Port → Port) (s : State) : (modPort p f s).work = s.work := rfl
@[simp] theorem modPort_comp (p : Nat) (f : Port → Port) (s : State) : (modPort p f s).comp = s.comp := rfl
@[simp] theorem modPort_mem (p : Nat) (f : Port → Port) (s : State) : (modPort p f s).mem = s.mem := rfl
@[simp] theorem modPort_obs (p : Nat) (f : Port → Port) (s : State) : (modPort p f s).obs = s.obs := rfl
@[simp] theorem modPort_eng (p : Nat) (f : Port → Port) (s : State) : (modPort p f s).eng = s.eng := rfl
@[simp] theorem modPort_crown (p : Nat) (f : Port → Port) (s : State) : (modPort p f s).crown = s.crown := rfl
@[simp] theorem modPort_power (p : Nat) (f : Port → Port) (s : State) : (modPort p f s).power = s.power := rfl
@[simp] theorem modPort_led (p : Nat) (f : Port → Port) (s : State) : (modPort p f s).led = s.led := rfl
@[simp] theorem modPort_flash (p : Nat) (f : Port → Port) (s : State) : (modPort p f s).flash = s.flash := rfl
@[simp] theorem modPort_start (p : Nat) (f : Port → Port) (s : State) : (modPort p f s).start = s.start := rfl
@[simp] theorem modPort_fw (p : Nat) (f : Port → Port) (s : State) : (modPort p f s).fw = s.fw := rfl
@[simp] theorem modPort_trA (p : Nat) (f : Port → Port) (s : State) : (modPort p f s).trA = s.trA := rfl
@[simp] theorem modPort_trB (p : Nat) (f : Port → Port) (s : State) : (modPort p f s).trB = s.trB := rfl
@[simp] theorem modPort_taps (p : Nat) (f : Port → Port) (s : State) : (modPort p f s).taps = s.taps := rfl
@[simp] theorem modPort_tapNext (p : Nat) (f : Port → Port) (s : State) : (modPort p f s).tapNext = s.tapNext := rfl
@[simp] theorem modPort_cxlA (p : Nat) (f : Port → Port) (s : State) : (modPort p f s).cxlA = s.cxlA := rfl
@[simp] theorem modPort_cxlB (p : Nat) (f : Port → Port) (s : State) : (modPort p f s).cxlB = s.cxlB := rfl
@[simp] theorem modPort_mgmt (p : Nat) (f : Port → Port) (s : State) : (modPort p f s).mgmt = s.mgmt := rfl
@[simp] theorem modPort_brRetrain (p : Nat) (f : Port → Port) (s : State) : (modPort p f s).brRetrain = s.brRetrain := rfl
@[simp] theorem modPort_free (p : Nat) (f : Port → Port) (s : State) : (modPort p f s).free = s.free := rfl
@[simp] theorem modPort_fab (p : Nat) (f : Port → Port) (s : State) : (modPort p f s).fab = { s.fab with ports := FMap.mod {} s.fab.ports p f } := rfl

-- ---------------------------------------------------------------- modEng

@[simp] theorem modEng_pending (f : Eng → Eng) (s : State) : (modEng f s).pending = s.pending := rfl
@[simp] theorem modEng_ident (f : Eng → Eng) (s : State) : (modEng f s).ident = s.ident := rfl
@[simp] theorem modEng_pins (f : Eng → Eng) (s : State) : (modEng f s).pins = s.pins := rfl
@[simp] theorem modEng_time (f : Eng → Eng) (s : State) : (modEng f s).time = s.time := rfl
@[simp] theorem modEng_sched (f : Eng → Eng) (s : State) : (modEng f s).sched = s.sched := rfl
@[simp] theorem modEng_mbx (f : Eng → Eng) (s : State) : (modEng f s).mbx = s.mbx := rfl
@[simp] theorem modEng_work (f : Eng → Eng) (s : State) : (modEng f s).work = s.work := rfl
@[simp] theorem modEng_comp (f : Eng → Eng) (s : State) : (modEng f s).comp = s.comp := rfl
@[simp] theorem modEng_mem (f : Eng → Eng) (s : State) : (modEng f s).mem = s.mem := rfl
@[simp] theorem modEng_obs (f : Eng → Eng) (s : State) : (modEng f s).obs = s.obs := rfl
@[simp] theorem modEng_fab (f : Eng → Eng) (s : State) : (modEng f s).fab = s.fab := rfl
@[simp] theorem modEng_crown (f : Eng → Eng) (s : State) : (modEng f s).crown = s.crown := rfl
@[simp] theorem modEng_power (f : Eng → Eng) (s : State) : (modEng f s).power = s.power := rfl
@[simp] theorem modEng_led (f : Eng → Eng) (s : State) : (modEng f s).led = s.led := rfl
@[simp] theorem modEng_flash (f : Eng → Eng) (s : State) : (modEng f s).flash = s.flash := rfl
@[simp] theorem modEng_start (f : Eng → Eng) (s : State) : (modEng f s).start = s.start := rfl
@[simp] theorem modEng_fw (f : Eng → Eng) (s : State) : (modEng f s).fw = s.fw := rfl
@[simp] theorem modEng_trA (f : Eng → Eng) (s : State) : (modEng f s).trA = s.trA := rfl
@[simp] theorem modEng_trB (f : Eng → Eng) (s : State) : (modEng f s).trB = s.trB := rfl
@[simp] theorem modEng_taps (f : Eng → Eng) (s : State) : (modEng f s).taps = s.taps := rfl
@[simp] theorem modEng_tapNext (f : Eng → Eng) (s : State) : (modEng f s).tapNext = s.tapNext := rfl
@[simp] theorem modEng_cxlA (f : Eng → Eng) (s : State) : (modEng f s).cxlA = s.cxlA := rfl
@[simp] theorem modEng_cxlB (f : Eng → Eng) (s : State) : (modEng f s).cxlB = s.cxlB := rfl
@[simp] theorem modEng_mgmt (f : Eng → Eng) (s : State) : (modEng f s).mgmt = s.mgmt := rfl
@[simp] theorem modEng_brRetrain (f : Eng → Eng) (s : State) : (modEng f s).brRetrain = s.brRetrain := rfl
@[simp] theorem modEng_free (f : Eng → Eng) (s : State) : (modEng f s).free = s.free := rfl
@[simp] theorem modEng_eng (f : Eng → Eng) (s : State) : (modEng f s).eng = f s.eng := rfl

-- ---------------------------------------------------------------- modCrown

@[simp] theorem modCrown_pending (f : Crown → Crown) (s : State) : (modCrown f s).pending = s.pending := rfl
@[simp] theorem modCrown_ident (f : Crown → Crown) (s : State) : (modCrown f s).ident = s.ident := rfl
@[simp] theorem modCrown_pins (f : Crown → Crown) (s : State) : (modCrown f s).pins = s.pins := rfl
@[simp] theorem modCrown_time (f : Crown → Crown) (s : State) : (modCrown f s).time = s.time := rfl
@[simp] theorem modCrown_sched (f : Crown → Crown) (s : State) : (modCrown f s).sched = s.sched := rfl
@[simp] theorem modCrown_mbx (f : Crown → Crown) (s : State) : (modCrown f s).mbx = s.mbx := rfl
@[simp] theorem modCrown_work (f : Crown → Crown) (s : State) : (modCrown f s).work = s.work := rfl
@[simp] theorem modCrown_comp (f : Crown → Crown) (s : State) : (modCrown f s).comp = s.comp := rfl
@[simp] theorem modCrown_mem (f : Crown → Crown) (s : State) : (modCrown f s).mem = s.mem := rfl
@[simp] theorem modCrown_obs (f : Crown → Crown) (s : State) : (modCrown f s).obs = s.obs := rfl
@[simp] theorem modCrown_fab (f : Crown → Crown) (s : State) : (modCrown f s).fab = s.fab := rfl
@[simp] theorem modCrown_eng (f : Crown → Crown) (s : State) : (modCrown f s).eng = s.eng := rfl
@[simp] theorem modCrown_power (f : Crown → Crown) (s : State) : (modCrown f s).power = s.power := rfl
@[simp] theorem modCrown_led (f : Crown → Crown) (s : State) : (modCrown f s).led = s.led := rfl
@[simp] theorem modCrown_flash (f : Crown → Crown) (s : State) : (modCrown f s).flash = s.flash := rfl
@[simp] theorem modCrown_start (f : Crown → Crown) (s : State) : (modCrown f s).start = s.start := rfl
@[simp] theorem modCrown_fw (f : Crown → Crown) (s : State) : (modCrown f s).fw = s.fw := rfl
@[simp] theorem modCrown_trA (f : Crown → Crown) (s : State) : (modCrown f s).trA = s.trA := rfl
@[simp] theorem modCrown_trB (f : Crown → Crown) (s : State) : (modCrown f s).trB = s.trB := rfl
@[simp] theorem modCrown_taps (f : Crown → Crown) (s : State) : (modCrown f s).taps = s.taps := rfl
@[simp] theorem modCrown_tapNext (f : Crown → Crown) (s : State) : (modCrown f s).tapNext = s.tapNext := rfl
@[simp] theorem modCrown_cxlA (f : Crown → Crown) (s : State) : (modCrown f s).cxlA = s.cxlA := rfl
@[simp] theorem modCrown_cxlB (f : Crown → Crown) (s : State) : (modCrown f s).cxlB = s.cxlB := rfl
@[simp] theorem modCrown_mgmt (f : Crown → Crown) (s : State) : (modCrown f s).mgmt = s.mgmt := rfl
@[simp] theorem modCrown_brRetrain (f : Crown → Crown) (s : State) : (modCrown f s).brRetrain = s.brRetrain := rfl
@[simp] theorem modCrown_free (f : Crown → Crown) (s : State) : (modCrown f s).free = s.free := rfl
@[simp] theorem modCrown_crown (f : Crown → Crown) (s : State) : (modCrown f s).crown = f s.crown := rfl

-- ---------------------------------------------------------------- modPower

@[simp] theorem modPower_pending (f : Power → Power) (s : State) : (modPower f s).pending = s.pending := rfl
@[simp] theorem modPower_ident (f : Power → Power) (s : State) : (modPower f s).ident = s.ident := rfl
@[simp] theorem modPower_pins (f : Power → Power) (s : State) : (modPower f s).pins = s.pins := rfl
@[simp] theorem modPower_time (f : Power → Power) (s : State) : (modPower f s).time = s.time := rfl
@[simp] theorem modPower_sched (f : Power → Power) (s : State) : (modPower f s).sched = s.sched := rfl
@[simp] theorem modPower_mbx (f : Power → Power) (s : State) : (modPower f s).mbx = s.mbx := rfl
@[simp] theorem modPower_work (f : Power → Power) (s : State) : (modPower f s).work = s.work := rfl
@[simp] theorem modPower_comp (f : Power → Power) (s : State) : (modPower f s).comp = s.comp := rfl
@[simp] theorem modPower_mem (f : Power → Power) (s : State) : (modPower f s).mem = s.mem := rfl
@[simp] theorem modPower_obs (f : Power → Power) (s : State) : (modPower f s).obs = s.obs := rfl
@[simp] theorem modPower_fab (f : Power → Power) (s : State) : (modPower f s).fab = s.fab := rfl
@[simp] theorem modPower_eng (f : Power → Power) (s : State) : (modPower f s).eng = s.eng := rfl
@[simp] theorem modPower_crown (f : Power → Power) (s : State) : (modPower f s).crown = s.crown := rfl
@[simp] theorem modPower_led (f : Power → Power) (s : State) : (modPower f s).led = s.led := rfl
@[simp] theorem modPower_flash (f : Power → Power) (s : State) : (modPower f s).flash = s.flash := rfl
@[simp] theorem modPower_start (f : Power → Power) (s : State) : (modPower f s).start = s.start := rfl
@[simp] theorem modPower_fw (f : Power → Power) (s : State) : (modPower f s).fw = s.fw := rfl
@[simp] theorem modPower_trA (f : Power → Power) (s : State) : (modPower f s).trA = s.trA := rfl
@[simp] theorem modPower_trB (f : Power → Power) (s : State) : (modPower f s).trB = s.trB := rfl
@[simp] theorem modPower_taps (f : Power → Power) (s : State) : (modPower f s).taps = s.taps := rfl
@[simp] theorem modPower_tapNext (f : Power → Power) (s : State) : (modPower f s).tapNext = s.tapNext := rfl
@[simp] theorem modPower_cxlA (f : Power → Power) (s : State) : (modPower f s).cxlA = s.cxlA := rfl
@[simp] theorem modPower_cxlB (f : Power → Power) (s : State) : (modPower f s).cxlB = s.cxlB := rfl
@[simp] theorem modPower_mgmt (f : Power → Power) (s : State) : (modPower f s).mgmt = s.mgmt := rfl
@[simp] theorem modPower_brRetrain (f : Power → Power) (s : State) : (modPower f s).brRetrain = s.brRetrain := rfl
@[simp] theorem modPower_free (f : Power → Power) (s : State) : (modPower f s).free = s.free := rfl
@[simp] theorem modPower_power (f : Power → Power) (s : State) : (modPower f s).power = f s.power := rfl

-- ---------------------------------------------------------------- modLed

@[simp] theorem modLed_pending (f : Machine.Ledger → Machine.Ledger) (s : State) : (modLed f s).pending = s.pending := rfl
@[simp] theorem modLed_ident (f : Machine.Ledger → Machine.Ledger) (s : State) : (modLed f s).ident = s.ident := rfl
@[simp] theorem modLed_pins (f : Machine.Ledger → Machine.Ledger) (s : State) : (modLed f s).pins = s.pins := rfl
@[simp] theorem modLed_time (f : Machine.Ledger → Machine.Ledger) (s : State) : (modLed f s).time = s.time := rfl
@[simp] theorem modLed_sched (f : Machine.Ledger → Machine.Ledger) (s : State) : (modLed f s).sched = s.sched := rfl
@[simp] theorem modLed_mbx (f : Machine.Ledger → Machine.Ledger) (s : State) : (modLed f s).mbx = s.mbx := rfl
@[simp] theorem modLed_work (f : Machine.Ledger → Machine.Ledger) (s : State) : (modLed f s).work = s.work := rfl
@[simp] theorem modLed_comp (f : Machine.Ledger → Machine.Ledger) (s : State) : (modLed f s).comp = s.comp := rfl
@[simp] theorem modLed_mem (f : Machine.Ledger → Machine.Ledger) (s : State) : (modLed f s).mem = s.mem := rfl
@[simp] theorem modLed_obs (f : Machine.Ledger → Machine.Ledger) (s : State) : (modLed f s).obs = s.obs := rfl
@[simp] theorem modLed_fab (f : Machine.Ledger → Machine.Ledger) (s : State) : (modLed f s).fab = s.fab := rfl
@[simp] theorem modLed_eng (f : Machine.Ledger → Machine.Ledger) (s : State) : (modLed f s).eng = s.eng := rfl
@[simp] theorem modLed_crown (f : Machine.Ledger → Machine.Ledger) (s : State) : (modLed f s).crown = s.crown := rfl
@[simp] theorem modLed_power (f : Machine.Ledger → Machine.Ledger) (s : State) : (modLed f s).power = s.power := rfl
@[simp] theorem modLed_flash (f : Machine.Ledger → Machine.Ledger) (s : State) : (modLed f s).flash = s.flash := rfl
@[simp] theorem modLed_start (f : Machine.Ledger → Machine.Ledger) (s : State) : (modLed f s).start = s.start := rfl
@[simp] theorem modLed_fw (f : Machine.Ledger → Machine.Ledger) (s : State) : (modLed f s).fw = s.fw := rfl
@[simp] theorem modLed_trA (f : Machine.Ledger → Machine.Ledger) (s : State) : (modLed f s).trA = s.trA := rfl
@[simp] theorem modLed_trB (f : Machine.Ledger → Machine.Ledger) (s : State) : (modLed f s).trB = s.trB := rfl
@[simp] theorem modLed_taps (f : Machine.Ledger → Machine.Ledger) (s : State) : (modLed f s).taps = s.taps := rfl
@[simp] theorem modLed_tapNext (f : Machine.Ledger → Machine.Ledger) (s : State) : (modLed f s).tapNext = s.tapNext := rfl
@[simp] theorem modLed_cxlA (f : Machine.Ledger → Machine.Ledger) (s : State) : (modLed f s).cxlA = s.cxlA := rfl
@[simp] theorem modLed_cxlB (f : Machine.Ledger → Machine.Ledger) (s : State) : (modLed f s).cxlB = s.cxlB := rfl
@[simp] theorem modLed_mgmt (f : Machine.Ledger → Machine.Ledger) (s : State) : (modLed f s).mgmt = s.mgmt := rfl
@[simp] theorem modLed_brRetrain (f : Machine.Ledger → Machine.Ledger) (s : State) : (modLed f s).brRetrain = s.brRetrain := rfl
@[simp] theorem modLed_free (f : Machine.Ledger → Machine.Ledger) (s : State) : (modLed f s).free = s.free := rfl
@[simp] theorem modLed_led (f : Machine.Ledger → Machine.Ledger) (s : State) : (modLed f s).led = f s.led := rfl

-- ---------------------------------------------------------------- modStart

@[simp] theorem modStart_pending (f : Start → Start) (s : State) : (modStart f s).pending = s.pending := rfl
@[simp] theorem modStart_ident (f : Start → Start) (s : State) : (modStart f s).ident = s.ident := rfl
@[simp] theorem modStart_pins (f : Start → Start) (s : State) : (modStart f s).pins = s.pins := rfl
@[simp] theorem modStart_time (f : Start → Start) (s : State) : (modStart f s).time = s.time := rfl
@[simp] theorem modStart_sched (f : Start → Start) (s : State) : (modStart f s).sched = s.sched := rfl
@[simp] theorem modStart_mbx (f : Start → Start) (s : State) : (modStart f s).mbx = s.mbx := rfl
@[simp] theorem modStart_work (f : Start → Start) (s : State) : (modStart f s).work = s.work := rfl
@[simp] theorem modStart_comp (f : Start → Start) (s : State) : (modStart f s).comp = s.comp := rfl
@[simp] theorem modStart_mem (f : Start → Start) (s : State) : (modStart f s).mem = s.mem := rfl
@[simp] theorem modStart_obs (f : Start → Start) (s : State) : (modStart f s).obs = s.obs := rfl
@[simp] theorem modStart_fab (f : Start → Start) (s : State) : (modStart f s).fab = s.fab := rfl
@[simp] theorem modStart_eng (f : Start → Start) (s : State) : (modStart f s).eng = s.eng := rfl
@[simp] theorem modStart_crown (f : Start → Start) (s : State) : (modStart f s).crown = s.crown := rfl
@[simp] theorem modStart_power (f : Start → Start) (s : State) : (modStart f s).power = s.power := rfl
@[simp] theorem modStart_led (f : Start → Start) (s : State) : (modStart f s).led = s.led := rfl
@[simp] theorem modStart_flash (f : Start → Start) (s : State) : (modStart f s).flash = s.flash := rfl
@[simp] theorem modStart_fw (f : Start → Start) (s : State) : (modStart f s).fw = s.fw := rfl
@[simp] theorem modStart_trA (f : Start → Start) (s : State) : (modStart f s).trA = s.trA := rfl
@[simp] theorem modStart_trB (f : Start → Start) (s : State) : (modStart f s).trB = s.trB := rfl
@[simp] theorem modStart_taps (f : Start → Start) (s : State) : (modStart f s).taps = s.taps := rfl
@[simp] theorem modStart_tapNext (f : Start → Start) (s : State) : (modStart f s).tapNext = s.tapNext := rfl
@[simp] theorem modStart_cxlA (f : Start → Start) (s : State) : (modStart f s).cxlA = s.cxlA := rfl
@[simp] theorem modStart_cxlB (f : Start → Start) (s : State) : (modStart f s).cxlB = s.cxlB := rfl
@[simp] theorem modStart_mgmt (f : Start → Start) (s : State) : (modStart f s).mgmt = s.mgmt := rfl
@[simp] theorem modStart_brRetrain (f : Start → Start) (s : State) : (modStart f s).brRetrain = s.brRetrain := rfl
@[simp] theorem modStart_free (f : Start → Start) (s : State) : (modStart f s).free = s.free := rfl
@[simp] theorem modStart_start (f : Start → Start) (s : State) : (modStart f s).start = f s.start := rfl

-- ---------------------------------------------------------------- modMgmt

@[simp] theorem modMgmt_pending (f : Mgmt → Mgmt) (s : State) : (modMgmt f s).pending = s.pending := rfl
@[simp] theorem modMgmt_ident (f : Mgmt → Mgmt) (s : State) : (modMgmt f s).ident = s.ident := rfl
@[simp] theorem modMgmt_pins (f : Mgmt → Mgmt) (s : State) : (modMgmt f s).pins = s.pins := rfl
@[simp] theorem modMgmt_time (f : Mgmt → Mgmt) (s : State) : (modMgmt f s).time = s.time := rfl
@[simp] theorem modMgmt_sched (f : Mgmt → Mgmt) (s : State) : (modMgmt f s).sched = s.sched := rfl
@[simp] theorem modMgmt_mbx (f : Mgmt → Mgmt) (s : State) : (modMgmt f s).mbx = s.mbx := rfl
@[simp] theorem modMgmt_work (f : Mgmt → Mgmt) (s : State) : (modMgmt f s).work = s.work := rfl
@[simp] theorem modMgmt_comp (f : Mgmt → Mgmt) (s : State) : (modMgmt f s).comp = s.comp := rfl
@[simp] theorem modMgmt_mem (f : Mgmt → Mgmt) (s : State) : (modMgmt f s).mem = s.mem := rfl
@[simp] theorem modMgmt_obs (f : Mgmt → Mgmt) (s : State) : (modMgmt f s).obs = s.obs := rfl
@[simp] theorem modMgmt_fab (f : Mgmt → Mgmt) (s : State) : (modMgmt f s).fab = s.fab := rfl
@[simp] theorem modMgmt_eng (f : Mgmt → Mgmt) (s : State) : (modMgmt f s).eng = s.eng := rfl
@[simp] theorem modMgmt_crown (f : Mgmt → Mgmt) (s : State) : (modMgmt f s).crown = s.crown := rfl
@[simp] theorem modMgmt_power (f : Mgmt → Mgmt) (s : State) : (modMgmt f s).power = s.power := rfl
@[simp] theorem modMgmt_led (f : Mgmt → Mgmt) (s : State) : (modMgmt f s).led = s.led := rfl
@[simp] theorem modMgmt_flash (f : Mgmt → Mgmt) (s : State) : (modMgmt f s).flash = s.flash := rfl
@[simp] theorem modMgmt_start (f : Mgmt → Mgmt) (s : State) : (modMgmt f s).start = s.start := rfl
@[simp] theorem modMgmt_fw (f : Mgmt → Mgmt) (s : State) : (modMgmt f s).fw = s.fw := rfl
@[simp] theorem modMgmt_trA (f : Mgmt → Mgmt) (s : State) : (modMgmt f s).trA = s.trA := rfl
@[simp] theorem modMgmt_trB (f : Mgmt → Mgmt) (s : State) : (modMgmt f s).trB = s.trB := rfl
@[simp] theorem modMgmt_taps (f : Mgmt → Mgmt) (s : State) : (modMgmt f s).taps = s.taps := rfl
@[simp] theorem modMgmt_tapNext (f : Mgmt → Mgmt) (s : State) : (modMgmt f s).tapNext = s.tapNext := rfl
@[simp] theorem modMgmt_cxlA (f : Mgmt → Mgmt) (s : State) : (modMgmt f s).cxlA = s.cxlA := rfl
@[simp] theorem modMgmt_cxlB (f : Mgmt → Mgmt) (s : State) : (modMgmt f s).cxlB = s.cxlB := rfl
@[simp] theorem modMgmt_brRetrain (f : Mgmt → Mgmt) (s : State) : (modMgmt f s).brRetrain = s.brRetrain := rfl
@[simp] theorem modMgmt_free (f : Mgmt → Mgmt) (s : State) : (modMgmt f s).free = s.free := rfl
@[simp] theorem modMgmt_mgmt (f : Mgmt → Mgmt) (s : State) : (modMgmt f s).mgmt = f s.mgmt := rfl

-- ---------------------------------------------------------------- setTap

@[simp] theorem setTap_pending (i : Nat) (t : Option Tap) (s : State) : (setTap i t s).pending = s.pending := rfl
@[simp] theorem setTap_ident (i : Nat) (t : Option Tap) (s : State) : (setTap i t s).ident = s.ident := rfl
@[simp] theorem setTap_pins (i : Nat) (t : Option Tap) (s : State) : (setTap i t s).pins = s.pins := rfl
@[simp] theorem setTap_time (i : Nat) (t : Option Tap) (s : State) : (setTap i t s).time = s.time := rfl
@[simp] theorem setTap_sched (i : Nat) (t : Option Tap) (s : State) : (setTap i t s).sched = s.sched := rfl
@[simp] theorem setTap_mbx (i : Nat) (t : Option Tap) (s : State) : (setTap i t s).mbx = s.mbx := rfl
@[simp] theorem setTap_work (i : Nat) (t : Option Tap) (s : State) : (setTap i t s).work = s.work := rfl
@[simp] theorem setTap_comp (i : Nat) (t : Option Tap) (s : State) : (setTap i t s).comp = s.comp := rfl
@[simp] theorem setTap_mem (i : Nat) (t : Option Tap) (s : State) : (setTap i t s).mem = s.mem := rfl
@[simp] theorem setTap_obs (i : Nat) (t : Option Tap) (s : State) : (setTap i t s).obs = s.obs := rfl
@[simp] theorem setTap_fab (i : Nat) (t : Option Tap) (s : State) : (setTap i t s).fab = s.fab := rfl
@[simp] theorem setTap_eng (i : Nat) (t : Option Tap) (s : State) : (setTap i t s).eng = s.eng := rfl
@[simp] theorem setTap_crown (i : Nat) (t : Option Tap) (s : State) : (setTap i t s).crown = s.crown := rfl
@[simp] theorem setTap_power (i : Nat) (t : Option Tap) (s : State) : (setTap i t s).power = s.power := rfl
@[simp] theorem setTap_led (i : Nat) (t : Option Tap) (s : State) : (setTap i t s).led = s.led := rfl
@[simp] theorem setTap_flash (i : Nat) (t : Option Tap) (s : State) : (setTap i t s).flash = s.flash := rfl
@[simp] theorem setTap_start (i : Nat) (t : Option Tap) (s : State) : (setTap i t s).start = s.start := rfl
@[simp] theorem setTap_fw (i : Nat) (t : Option Tap) (s : State) : (setTap i t s).fw = s.fw := rfl
@[simp] theorem setTap_trA (i : Nat) (t : Option Tap) (s : State) : (setTap i t s).trA = s.trA := rfl
@[simp] theorem setTap_trB (i : Nat) (t : Option Tap) (s : State) : (setTap i t s).trB = s.trB := rfl
@[simp] theorem setTap_tapNext (i : Nat) (t : Option Tap) (s : State) : (setTap i t s).tapNext = s.tapNext := rfl
@[simp] theorem setTap_cxlA (i : Nat) (t : Option Tap) (s : State) : (setTap i t s).cxlA = s.cxlA := rfl
@[simp] theorem setTap_cxlB (i : Nat) (t : Option Tap) (s : State) : (setTap i t s).cxlB = s.cxlB := rfl
@[simp] theorem setTap_mgmt (i : Nat) (t : Option Tap) (s : State) : (setTap i t s).mgmt = s.mgmt := rfl
@[simp] theorem setTap_brRetrain (i : Nat) (t : Option Tap) (s : State) : (setTap i t s).brRetrain = s.brRetrain := rfl
@[simp] theorem setTap_free (i : Nat) (t : Option Tap) (s : State) : (setTap i t s).free = s.free := rfl
@[simp] theorem setTap_taps (i : Nat) (t : Option Tap) (s : State) : (setTap i t s).taps = FMap.set none s.taps i t := rfl

-- ---------------------------------------------------------------- takeFree

@[simp] theorem takeFree_pending (s : State) : (takeFree s).pending = s.pending := rfl
@[simp] theorem takeFree_ident (s : State) : (takeFree s).ident = s.ident := rfl
@[simp] theorem takeFree_pins (s : State) : (takeFree s).pins = s.pins := rfl
@[simp] theorem takeFree_time (s : State) : (takeFree s).time = s.time := rfl
@[simp] theorem takeFree_sched (s : State) : (takeFree s).sched = s.sched := rfl
@[simp] theorem takeFree_mbx (s : State) : (takeFree s).mbx = s.mbx := rfl
@[simp] theorem takeFree_work (s : State) : (takeFree s).work = s.work := rfl
@[simp] theorem takeFree_comp (s : State) : (takeFree s).comp = s.comp := rfl
@[simp] theorem takeFree_mem (s : State) : (takeFree s).mem = s.mem := rfl
@[simp] theorem takeFree_obs (s : State) : (takeFree s).obs = s.obs := rfl
@[simp] theorem takeFree_fab (s : State) : (takeFree s).fab = s.fab := rfl
@[simp] theorem takeFree_eng (s : State) : (takeFree s).eng = s.eng := rfl
@[simp] theorem takeFree_crown (s : State) : (takeFree s).crown = s.crown := rfl
@[simp] theorem takeFree_power (s : State) : (takeFree s).power = s.power := rfl
@[simp] theorem takeFree_led (s : State) : (takeFree s).led = s.led := rfl
@[simp] theorem takeFree_flash (s : State) : (takeFree s).flash = s.flash := rfl
@[simp] theorem takeFree_start (s : State) : (takeFree s).start = s.start := rfl
@[simp] theorem takeFree_fw (s : State) : (takeFree s).fw = s.fw := rfl
@[simp] theorem takeFree_trA (s : State) : (takeFree s).trA = s.trA := rfl
@[simp] theorem takeFree_trB (s : State) : (takeFree s).trB = s.trB := rfl
@[simp] theorem takeFree_taps (s : State) : (takeFree s).taps = s.taps := rfl
@[simp] theorem takeFree_tapNext (s : State) : (takeFree s).tapNext = s.tapNext := rfl
@[simp] theorem takeFree_cxlA (s : State) : (takeFree s).cxlA = s.cxlA := rfl
@[simp] theorem takeFree_cxlB (s : State) : (takeFree s).cxlB = s.cxlB := rfl
@[simp] theorem takeFree_mgmt (s : State) : (takeFree s).mgmt = s.mgmt := rfl
@[simp] theorem takeFree_brRetrain (s : State) : (takeFree s).brRetrain = s.brRetrain := rfl
@[simp] theorem takeFree_free (s : State) : (takeFree s).free = s.free + 1 := rfl

-- ---------------------------------------------------------------- reading back

theorem page_setPage (k j : Nat) (p : Page) (s : State) : page (setPage k p s) j = if k = j then p else page s j :=
  FMap.get_set ..

theorem running_setRun (k j : Nat) (r : Option RunCmd) (s : State) :
    running (setRun k r s) j = if k = j then r else running s j := FMap.get_set ..

theorem ctx_setCtx (i j : Nat) (c : Option Ctx) (s : State) : ctx? (setCtx i c s) j = if i = j then c else ctx? s j :=
  FMap.get_set ..

theorem part_setPart (i j : Nat) (p : Option Machine.Part) (s : State) :
    part? (setPart i p s) j = if i = j then p else part? s j := FMap.get_set ..

theorem sched_setSched (i j : Nat) (e : SchedEntry) (s : State) : sched (setSched i e s) j = if i = j then e else sched s j :=
  FMap.get_set ..

theorem cluster_modCluster (i j : Nat) (f : Cluster → Cluster) (s : State) :
    cluster (modCluster i f s) j = if i = j then f (cluster s i) else cluster s j := FMap.get_set ..

theorem tile_modTile (i j : Nat) (f : Tile → Tile) (s : State) :
    tile (modTile i f s) j = if i = j then f (tile s i) else tile s j := FMap.get_set ..

theorem port_modPort (i j : Nat) (f : Port → Port) (s : State) :
    port (modPort i f s) j = if i = j then f (port s i) else port s j := FMap.get_set ..

theorem mc_modMc (i j : Nat) (f : Mc → Mc) (s : State) :
    mcOf (modMc i f s) j = if i = j then f (mcOf s i) else mcOf s j := FMap.get_set ..

theorem win_setWin (i j : Nat) (w : Win) (s : State) : win (setWin i w s) j = if i = j then w else win s j := by
  unfold win setWin
  by_cases h : i = j
  · subst h; simp
  · simp only [FMap.set, h, if_false]
    split
    · rw [FMap.get_del, if_neg h]
    · rw [FMap.get_put, if_neg h]

theorem ctr_setCtr (b i c j v : Nat) (s : State) :
    ctr (setCtr b i v s) c j = if 2048 * b + i = 2048 * c + j then v else ctr s c j := FMap.get_set ..

theorem tap_setTap (i j : Nat) (t : Option Tap) (s : State) : tapAt (setTap i t s) j = if i = j then t else tapAt s j :=
  FMap.get_set ..

@[simp] theorem mon_modMon_self (h : Half) (f : Monitor → Monitor) (s : State) : mon (modMon h f s) h = f (mon s h) := by
  cases h <;> rfl

@[simp] theorem mon_modMon_other (h : Half) (f : Monitor → Monitor) (s : State) :
    mon (modMon h f s) h.other = mon s h.other := by cases h <;> rfl

@[simp] theorem cxl_modCxl_self (h : Half) (f : Cxl → Cxl) (s : State) : cxl (modCxl h f s) h = f (cxl s h) := by
  cases h <;> rfl

@[simp] theorem cxl_modCxl_other (h : Half) (f : Cxl → Cxl) (s : State) :
    cxl (modCxl h f s) h.other = cxl s h.other := by cases h <;> rfl

@[simp] theorem tr_modTr_self (h : Half) (f : Trace → Trace) (s : State) : tr (modTr h f s) h = f (tr s h) := by
  cases h <;> rfl

@[simp] theorem tr_modTr_other (h : Half) (f : Trace → Trace) (s : State) :
    tr (modTr h f s) h.other = tr s h.other := by cases h <;> rfl

end Sys2Proof.Machine
end

