-- ==== Sys2Proof/Machine/Outputs.lean ====
section
/-!
DEFINITION. What the module shows or sends, as functions of its state: flits on the wire (R332, R336, R337, R339, R365),
the capability word (R327) and the numeric sensors whose value the state holds (R598). No command reads them. The LEDs
(R603) are in Manage.lean.
-/
namespace Sys2Proof.Machine

/-- A word from its fields: low bit, width, value. -/
def fieldsWord : List (Nat × Nat × Nat) → Nat
  | [] => 0
  | (lo, w, v) :: r => v % 2 ^ w * 2 ^ lo + fieldsWord r

/-- One bit of the CRC-32C register (R339: Castagnoli, reflected). -/
def crcShift (c : BitVec 32) : BitVec 32 :=
  if c.getLsbD 0 then (c >>> 1) ^^^ 0x82F63B78#32 else c >>> 1

/-- The same for `n` bits. -/
def crcBits : Nat → BitVec 32 → BitVec 32
  | 0, c => c
  | n + 1, c => crcBits n (crcShift c)

/-- CRC-32C of a byte string (R339). -/
def crc32c (l : List Byte) : BitVec 32 :=
  (l.foldl (fun c b => crcBits 8 (c ^^^ b.zeroExtend 32)) 0xFFFFFFFF#32) ^^^ 0xFFFFFFFF#32

/-- Fields of the header flit below the trailer (R337); `crc` takes VC, DL_CROSSED, ALT and HOPS as zero (R339). -/
def headerWord (crc : Bool) (k : Pkt) : Nat :=
  let z (v : Nat) : Nat := if crc then 0 else v
  fieldsWord
    [(0, 8, k.opcode), (8, 3, z k.vc), (11, 1, b2n k.mcast), (12, 1, z (b2n k.alt)), (13, 1, z (b2n k.dlCrossed)),
     (14, 1, k.srcHalf.num), (15, 1, k.destHalf.num), (16, 12, k.destMid), (28, 12, k.srcMid), (40, 8, z k.hops),
     (48, 5, k.ringId), (224, 48, k.targetVa), (275, 13, k.payload.length), (288, 16, k.tag), (304, 32, k.seq),
     (336, 16, k.groupId), (352, 32, k.groupSeq), (384, 64, k.destMask), (448, 32, k.opArg)]

/-- E2E_CRC of a packet (R339). -/
def e2eCrc (k : Pkt) : BitVec 32 := crc32c (natLe 60 (headerWord true k) ++ k.payload)

/-- The flits of a packet (R336): the header, then the payload, whose last flit is filled with zeros. -/
def packetFlits (k : Pkt) : List Byte :=
  natLe 60 (headerWord false k) ++ natLe 4 (e2eCrc k).toNat ++ k.payload ++
    List.replicate ((64 - k.payload.length % 64) % 64) 0

/-- The BEACON flit of a port (R365), from the packet that stands for it in the state. -/
def beaconFlit (s : State) (p : Nat) : List Byte :=
  let k := beaconPkt s p
  let body := natLe 60 (headerWord false { k with targetVa := 0, tag := 0, seq := 0, destMask := 0, opArg := 0 } +
    fieldsWord [(272, 2, k.opArg), (274, 2, k.opArg / 4), (276, 1, k.opArg / 16), (280, 8, p), (288, 32, k.seq),
                (320, 64, k.targetVa), (384, 64, k.destMask)])
  body ++ natLe 4 (crc32c body).toNat

/-- CTRL_SEQ of the next link-control flit (R331, R332): one leaves in every 32nd slot, 136/35 ticks apart, the first with 0. -/
def ctrlSeq (s : State) (p : Nat) : Nat := 35 * (s.time.clk - (port s p).up) / 136 % 65536

/-- RETURN of a VC (R333): the flits freed and those lost; from the tick of the own withdrawal on it stands still, VC6 apart
(R373). -/
def returned (x : Port) (v : Nat) : Nat :=
  match x.retHeld with
  | some l => if v = 6 then nth x.freed v else nth l v
  | none => nth x.freed v

/-- The link-control flit that a port sends now (R332). -/
def controlFlit (s : State) (p : Nat) : List Byte :=
  let x := port s p
  let body := natLe 60 (fieldsWord
    ([(0, 8, 1), (8, 1, b2n (x.st = 5)), (9, 1, b2n x.retrain), (10, 1, b2n x.test.isSome), (16, 16, ctrlSeq s p)] ++
     (List.range 8).map (fun v => (96 + 16 * v, 16, returned x v)) ++
     (List.range 8).map (fun v => (224 + 16 * v, 16, nth x.sentFlits v))))
  body ++ natLe 4 (crc32c body).toNat

/-- Flits on the wire, each with its two framing bits (R331): 01 a header, 10 payload. -/
def framed (k : Pkt) : List (Nat × List Byte) :=
  (List.range (flits k)).map (fun i => (if i = 0 then 1 else 2, sliceB (packetFlits k) (64 * i) 64))

/-- Flit slots from slot `i` on (R331, R335): a link-control flit, framed 11, in every 32nd, packet flits in the others. -/
def slotsFrom (ctl : List Byte) : Nat → List (Nat × List Byte) → Nat → List (Nat × List Byte)
  | 0, _, _ => []
  | f + 1, l, i =>
    if i % 32 = 31 then (3, ctl) :: slotsFrom ctl f l (i + 1)
    else match l with
      | x :: r => x :: slotsFrom ctl f r (i + 1)
      | [] => (0, []) :: slotsFrom ctl f [] (i + 1)

/-- The message of a codeword (R331): ten flits with their framing bits, 514 symbols of 10 bits. The 30 parity symbols of
RS(544,514) follow on the wire; the field and the generator of the code are not in the spec. -/
def codewordBits (l : List (Nat × List Byte)) : Nat :=
  (List.range 10).foldl (fun w i => let x := l.getD i (0, []); w + (x.1 % 4 + 4 * leNat x.2) * 2 ^ (514 * i)) 0

/-- The capability word that a port sends in NEGOTIATE (R327): both protocols, no switch. -/
def capabilityWord (s : State) (p : Nat) : CapWord :=
  { protoMask := 3, mid := s.ident.mid, port := p, role := roleOf s p, isSwitch := false,
    linkDelay := (port s p).linkDelay, buffer := (List.range 8).map (nth s.fab.vcAlloc) }

/-- The heartbeat that a half's monitor sends on a path (R424), with the HB_SEQ of its last one. -/
def heartbeatBytes (s : State) (h : Half) (path2 : Bool) : List Byte :=
  let m := mon s h
  let holds := decide (h = s.crown.holder)
  let body := natLe 12 (fieldsWord
    [(0, 1, h.num), (1, 1, b2n holds), (2, 1, b2n m.live), (3, 1, b2n (holds && s.crown.activating.isSome)),
     (4, 2, if holds then 0 else m.standby), (16, 16, if path2 then m.seq2 else m.seq1),
     (32, 32, if m.own = 0 then m.heard else m.own), (64, 32, s.crown.ckptSeq)])
  body ++ natLe 4 (crc32c body).toNat

/-- The 32 bytes of a claim record (R417). -/
def claimBytes (r : ClaimRec) : List Byte :=
  let body := natLe 28 (fieldsWord
    [(0, 32, 0x4E575243), (64, 32, r.claim), (96, 1, r.holder.num), (128, 32, r.takeovers), (160, 64, r.grantRt)])
  body ++ natLe 4 (crc32c body).toNat

/-- The numeric sensors whose value the state holds (R598): ID 1, the input voltage, in millivolts, and IDs 49-52 in
watts. The other sensors measure voltages, currents and temperatures, which are the environment's. -/
def sensor (s : State) (id : Nat) : Option Nat :=
  if id = 1 then some s.power.mv
  else if id = 49 then some (nth s.power.hist 0)
  else if id = 50 then some s.power.peakW
  else if id = 51 then some s.power.avgW
  else if id = 52 then some (effective s)
  else none

end Sys2Proof.Machine
end

