-- ==== Sys2Proof/Machine/Reads.lean ====
section
/-!
DEFINITION. What a host read of BAR0 returns (R275-R283, R71, R489-R493, R499, R572 and the registers of each block). A
read changes nothing, but for the latch of RT_NOW (R71), which has a row of its own.
-/
namespace Sys2Proof.Machine

/-- 4 bytes of a byte string at an offset; 0 beyond it. -/
def wordOf (l : List Byte) (off : Nat) : Nat := leNat ((l.drop off).take 4)

/-- The identity and capability block of a port (R277). -/
def idBlock (s : State) (port : Half) : List Byte :=
  natLe 4 0x94404B41 ++ natLe 4 (variantCode s.ident.variant * 2 ^ 16 + 0xB100 + port.num) ++ natLe 8 s.ident.serial ++
  natLe 4 (idUnits s) ++ natLe 4 0x01010100 ++ natLe 4 (mbState s port) ++ natLe 4 s.crown.claim ++
  natLe 4 s.fw.ctrlVer ++ natLe 4 s.fw.tileVer

/-- The mailbox summary of a port (R280): MB_DONE, MB_OWNED, MB_BOUND. -/
def summary (s : State) (port : Half) : List Byte :=
  let bits (p : Nat → Bool) : List Byte := natLe 16 (bitsWord ((List.range 128).map (fun n => (n, p n))))
  bits (fun n => (page s (mbKey port n)).own = 2) ++ bits (fun n => (page s (mbKey port n)).own = 1) ++
    bits (fun n => FMap.get 0 s.mbx.bind n != 0)

/-- The control line of a page (R283). -/
def controlLine (p : Page) : List Byte :=
  natLe 64 (fieldsWord [(0, 2, p.own), (32, 16, p.status), (48, 16, p.respLen), (64, 64, p.tagEcho),
    (128, 16, p.opEcho), (144, 16, p.ifVer), (160, 32, p.detail), (192, 64, p.doneRt), (256, 64, p.arrival)])

/-- `n` bytes of a mailbox page from an offset (R282, R286): of any size and alignment, up to the page's end. -/
def pageBytes (p : Page) (off n : Nat) : List Byte :=
  (((controlLine p).drop off).take n ++ Memory.bytes p.bytes (max off 0x40) (off + n - max off 0x40)).take (0x1000 - off)

/-- A word of a mailbox page. -/
def pageWord (p : Page) (off : Nat) : Nat := leNat (pageBytes p off 4)

/-- A schedule entry as it reads (R62). -/
def schedWord (s : State) (i : Nat) : Nat :=
  let e := sched s i
  fieldsWord [(0, 64, e.rt), (64, 8, e.action), (72, 1, b2n e.lateOk), (73, 1, b2n e.resultFree), (80, 4, e.st),
    (84, 2, e.owner), (96, 32, handleOf s i), (128, 128, e.arg)]

/-- Entries of a range of the schedule table that are not PENDING (R71). -/
def schedFree (s : State) (lo n : Nat) : Nat :=
  ((List.range n).filter (fun i => (sched s (lo + i)).st != 1)).length

/-- The rack-time readout but for the high word of RT_NOW (R71). -/
def timeWord (s : State) (off : Nat) : Nat :=
  if off = 0 then now s % 2 ^ 32
  else if off = 8 then rtStatus s
  else if off = 0x10 then s.time.setLast % 2 ^ 32
  else if off = 0x14 then s.time.setLast / 2 ^ 32 % 2 ^ 32
  else if off = 0x18 then s.time.setResult
  else if off = 0x1C then schedFree s 32 224 + 2 ^ 16 * schedFree s 0 32
  else if 0x1000 ≤ off ∧ off < 0x3000 then schedWord s ((off - 0x1000) / 32) / 2 ^ (8 * (off % 32)) % 2 ^ 32
  else 0

/-- INJ (R499). -/
def injWord (w : Win) : Nat :=
  fieldsWord [(0, 42, w.target), (42, 2, w.mode), (44, 8, w.checker), (63, 1, b2n w.armed)]

/-- The common header of a status window (R489-R492). -/
def headerBytes (s : State) (blk : Nat) : List Byte :=
  let w := win s blk
  natLe 4 (stsOf s blk).toNat ++ natLe 4 0 ++ natLe 4 w.en.toNat ++ natLe 4 w.latchEn.toNat ++
  natLe 4 (w.bit + 256 * w.code + 2 ^ 30 * b2n w.injected + 2 ^ 31 * b2n w.valid) ++ natLe 4 0 ++ natLe 8 w.rt ++
  natLe 8 w.info ++ natLe 4 (w.later + 2 ^ 31 * b2n w.ovf) ++ natLe 4 0 ++ natLe 8 (injWord w) ++ natLe 4 w.vec ++
  natLe 4 (blk + 2 ^ 16)

/-- A map of 4,096 bits, one for each MID, of a half. -/
def midMap (m : FMap Bool) (h : Half) (off : Nat) : Nat :=
  bitsWord ((List.range 32).map (fun i => (i, FMap.get false m (4096 * h.num + 8 * off + i))))

/-- LAST_VOTE (R441). Ballots: 0 none, 1 half A, 2 half B. -/
def voteWord (v : Vote) : Nat :=
  fieldsWord [(0, 4, v.outcome), (4, 2, if v.outcome = 0 then 0 else v.requester.num), (6, 2, v.ballotA),
    (8, 2, v.ballotB), (10, 2, v.ballotC), (12, 2, v.result), (32, 32, v.claimAfter)]

/-- The registers of the power block (R463). -/
def powerBytes (s : State) : List Byte :=
  natLe 8 (stsOf s 3).toNat ++ natLe 2 s.power.thermalW ++ natLe 2 (mgmtInput s) ++ natLe 2 s.power.hostCap ++
  natLe 2 (effective s) ++ natLe 2 (setting s 0x0103) ++ natLe 2 (setting s 0x0101) ++ natLe 4 (leaseLeft s) ++
  natLe 2 (s.power.mv / 10) ++ natLe 2 s.power.clock ++ natLe 2 s.power.avgW ++ natLe 2 s.power.peakW ++
  natLe 8 s.power.winEnd

/-- The registers of the ledger block (R487). -/
def ledgerBytes (s : State) : List Byte :=
  let e := s.led.epoch * 2 ^ 40
  natLe 8 (stsOf s 4).toNat ++ natLe 8 (e + s.led.seq % 2 ^ 40) ++ natLe 8 (e + s.led.lastSheet % 2 ^ 40) ++
  natLe 8 s.led.k16 ++ natLe 8 (s.led.input / 1000)

/-- The arbiter registers and the error log of a memory controller (R226, R227, R609). -/
def mcWord (s : State) (m off : Nat) : Nat :=
  let c := arbView (mcOf s m)
  if 0x500 ≤ off ∧ off < 0x600 then
    match c.log[(off - 0x500) / 16]? with
    | some e => fieldsWord [(0, 48, e.pa), (48, 8, e.kind), (63, 1, 1), (64, 64, e.rt)] / 2 ^ (8 * (off % 16)) % 2 ^ 32
    | none => 0
  else if 16 ≤ m then 0
  else if 0x400 ≤ off ∧ off < 0x420 then nth c.weight ((off - 0x400) / 4)
  else if 0x420 ≤ off ∧ off < 0x440 then nth c.credit ((off - 0x420) / 4)
  else if 0x440 ≤ off ∧ off < 0x448 then wordOf (natLe 8 c.clock) (off - 0x440)
  else if 0x480 ≤ off ∧ off < 0x4C0 then wordOf (natLe 8 (nth c.grant ((off - 0x480) / 8))) (off % 8)
  else if 0x4C0 ≤ off ∧ off < 0x4E0 then nth c.starve ((off - 0x4C0) / 4)
  else if 0x4E0 ≤ off ∧ off < 0x500 then nth c.waitMax ((off - 0x4E0) / 4)
  else 0

/-- A block's own registers, from offset 0x100 of its window (R489). -/
def ownWord (s : State) (blk off : Nat) : Nat :=
  match blkMc blk with
  | some m => mcWord s m off
  | none =>
    let o := off - 0x100
    if blk = 2 then wordOf (natLe 8 (stsOf s 2).toNat ++ natLe 8 (voteWord s.crown.last) ++ natLe 8 s.crown.last.rt) o
    else if blk = 3 then wordOf (powerBytes s) o
    else if blk = 4 then wordOf (ledgerBytes s) o
    else if blk = 5 then wordOf (natLe 8 (startSts s) ++ natLe 8 s.start.readyRt ++
      natLe 4 (s.start.defects.length % 2 ^ 16 + 2 ^ 16 * s.start.added)) o
    else if blk = 8 ∨ blk = 9 then
      wordOf (natLe 8 (trState s (Half.ofNum blk)) ++ natLe 8 (tr s (Half.ofNum blk)).write) o
    else if blk = 0xA ∨ blk = 0xB then
      if 0x200 ≤ off ∧ off < 0x400 then midMap s.fab.pathBad (Half.ofNum blk) (off - 0x200)
      else if 0x400 ≤ off ∧ off < 0x600 then midMap s.fab.digMap (Half.ofNum blk) (off - 0x400)
      else 0
    else if blk = 0xC then wordOf (natLe 8 s.eng.errA) o
    else if blk = 0xD then wordOf (natLe 8 s.eng.errB) o
    else if 0x40 ≤ blk ∧ blk < 0x64 then
      let x := cluster s (blk - 0x40)
      wordOf ((List.range 64).map (fun n => BitVec.ofNat 8 (FMap.get 0 x.codes n)) ++ natLe 8 x.xlVa ++
        natLe 8 x.xlKind ++ natLe 8 (absentMap s (blk - 0x40))) o
    else if 0x80 ≤ blk then wordOf (natLe 8 (portState s (blk - 0x80))) o
    else 0

/-- A word of a status window; of an absent unit only BLK_ID reads (R490). -/
def winWord (s : State) (blk off : Nat) : Nat :=
  if !isBlock blk then 0
  else if absentBlk s blk then (if off = 0x3C then blk else 0)
  else if off < 0x100 then wordOf (headerBytes s blk) off
  else ownWord s blk off

/-- A word of a trace aperture (R571). -/
def traceWord (s : State) (h : Half) (b : Nat) : Nat :=
  let t := tr s h
  let a := t.aper * 0x800000 + b
  if a < t.ringMib * 2 ^ 20 then Memory.num s.mem.phys (halfLocal h + 0x100000000 + a) 4 else 0

/-- An aligned word of BAR0 (R275), the high word of RT_NOW as an 8-byte read has it. -/
def barWord (s : State) (port : Half) (off : Nat) : Nat :=
  if off < 0x80000 then pageWord (page s (mbKey port (off / 0x1000))) (off % 0x1000)
  else if off < 0x81000 then msixDword s port ((off - 0x80000) / 4)
  else if off < 0x81020 then
    bitsWord ((List.range 32).map (fun i => (i, FMap.get false s.mbx.msixPend (256 * port.num + 8 * (off - 0x81000) + i))))
  else if 0x90000 ≤ off ∧ off < 0x90030 then wordOf (summary s port) (off - 0x90000)
  else if 0x100000 ≤ off ∧ off < 0x101000 then wordOf (idBlock s port) (off - 0x100000)
  else if 0x200000 ≤ off ∧ off < 0x1000000 then winWord s ((off - 0x200000) / 0x1000) (off % 0x1000)
  else if off = 0x1000004 then now s / 2 ^ 32 % 2 ^ 32
  else if 0x1000000 ≤ off ∧ off < 0x2000000 then timeWord s (off - 0x1000000)
  else if 0x2000000 ≤ off ∧ off < 0x2300000 then
    let o := off - 0x2000000
    if isBlock (o / 0x4000) then wordOf (natLe 8 (ctrRead s (o / 0x4000) (o % 0x4000 / 8))) (off % 8) else 0
  else if off = 0x2FF0000 then s.trA.aper
  else if off = 0x2FF0008 then s.trB.aper
  else if 0x3000000 ≤ off ∧ off < 0x3800000 then traceWord s .a (off - 0x3000000)
  else if 0x3800000 ≤ off ∧ off < 0x4000000 then traceWord s .b (off - 0x3800000)
  else 0

/-- A read of BAR0 (R276): of any size and alignment in a mailbox page, aligned accesses of 4 or 8 bytes outside the pages;
any other returns 0. A 4-byte read of the high word of RT_NOW returns what the port's last read of the low word latched
(R71). -/
def barRead (s : State) (port : Half) (off size : Nat) : Nat :=
  if off < 0x80000 then leNat (pageBytes (page s (mbKey port (off / 0x1000))) (off % 0x1000) size)
  else if (size ≠ 4 ∧ size ≠ 8) ∨ off % size ≠ 0 then 0
  else if size = 8 then barWord s port off + 2 ^ 32 * barWord s port (off + 4)
  else if off = 0x1000004 then (match port with | .a => s.time.latchA | .b => s.time.latchB)
  else barWord s port off

end Sys2Proof.Machine
end

