-- ==== Sys2Proof/Tests/Slice0.lean ====
section
/-!
SUPPORT. Witnesses for the hypotheses of the statements, clause by clause, ill-formed commands that WellFormed refuses,
and a few tests of one step.
-/
namespace Sys2Proof.Tests

open Machine Claims

set_option Elab.async false

/-- A module that serves commands: 52 V, rails up, half A holds the crown, its complex is live, the start has ended. -/
def up : State :=
  { power := { v52 := true, rails := true, mgmtCap := 2400, lapsed := false }
    crown := { claim := 1, portA := true, monA := { live := true, halted := false }, monB := { live := true, halted := false },
               stages := (List.range 6).map (fun i => (i, { floor := 1 })) }
    start := { phase := 6, ready := true }
    led := { running := true }
    pins := { rackClk := true }
    time := { clk := 5000000, sup := 5000000, cntA := 5000000, cntB := 5000000 } }

/-- Context 1, open, in interface version 1.1. -/
def one (c : Ctx) (s : State) : State := setCtx 1 (some { c with ver := 0x0101 }) s

/-- A command in mailbox 0 of the crown's port. -/
def cmd (op cx : Nat) (pl : List Byte) (s : State) : State :=
  setPage 0 { own := 1, arrival := 1, bytes := Memory.store (Memory.store []
    0x40 (natLe 20 (op + 0x0101 * 2 ^ 16 + pl.length * 2 ^ 48 + cx * 2 ^ 128))) 0x80 pl } s


-- ---------------------------------------------------------------- witnesses: mailbox commands

/-- A command of context 1. -/
def cx1 (op : Nat) (pl : List Byte) (c : Ctx := {}) (s : State := up) : State := cmd op 1 pl (one c s)

/-- A running command in the place of mailbox 0. -/
def inPlace (r : RunCmd) (s : State) : State := setRun 0 (some r) s

theorem wit_EmptyQueueTicks : up.pending = [] ∧ up.power.v52 = true ∧ up.time.adjust = none ∧
    State.reset.pending = [] ∧ State.reset.power.v52 = false := by decide +kernel

theorem wit_AnswerWritesTheControlLine :
    (let s := inPlace { opcode := 0x104 } up
     running s 0 = some { opcode := 0x104 } ∧ heldBack s 0x104 = false ∧ portTakes s (Half.ofNum (0 / 128)) s.crown.claim = true) ∧
    (let s := inPlace { opcode := 0x104 } { up with crown := { up.crown with claim := 2 } }
     running s 0 = some { opcode := 0x104 } ∧ heldBack s 0x104 = false ∧ portTakes s (Half.ofNum (0 / 128)) s.crown.claim = false) ∧
    (let s := setRun 256 (some { opcode := 0x104, arrival := 1 }) up
     running s 256 = some { opcode := 0x104, arrival := 1 }) := by decide +kernel

theorem wit_CommandsThatReport :
    (let s := cmd 0x003 0 (natLe 2 0) up; accepted s 0 0x003 = true ∧ arg s 0 0 2 = 0) ∧
    (let s := cmd 0x003 0 (natLe 2 1) up; accepted s 0 0x003 = true ∧ arg s 0 0 2 = 1) ∧
    (let s := cmd 0x004 0 (natLe 2 0) up; accepted s 0 0x004 = true ∧ arg s 0 0 1 = 0) ∧
    accepted (cmd 0x401 0 [] up) 0 0x401 = true ∧ accepted (cmd 0x502 0 [] up) 0 0x502 = true ∧
    accepted (cmd 0x605 0 [] up) 0 0x605 = true ∧ accepted (cmd 0x703 0 [] up) 0 0x703 = true ∧
    accepted (cmd 0x905 0 [] up) 0 0x905 = true ∧
    (let s := cmd 0x804 0 (natLe 2 0x20 ++ natLe 2 32 ++ natLe 2 8 ++ natLe 2 0) up
     accepted s 0 0x804 = true ∧ arg s 0 0 2 = 0x20 ∧ arg s 0 2 2 = 32 ∧ arg s 0 4 2 = 8 ∧ isBlock 0x20 = true ∧
     absentBlk s 0x20 = false ∧ bitOf (arg s 0 6 2) 0 = false) ∧
    (let s := cmd 0x804 0 (natLe 2 0x20 ++ natLe 2 529 ++ natLe 2 495 ++ natLe 2 1) up
     accepted s 0 0x804 = true ∧ arg s 0 2 2 = 529 ∧ arg s 0 4 2 = 495 ∧ bitOf (arg s 0 6 2) 0 = true) := by decide +kernel

theorem wit_SessionsOpenAndClose :
    (let s := cmd 0x001 0 (natLe 2 0x0100 ++ natLe 2 0x0101 ++ natLe 4 0 ++ natLe 8 0 ++ natLe 16 1) up
     accepted s 0 0x001 = true ∧ pickVer (arg s 0 0 2) (arg s 0 2 2) = some 0x0101 ∧
     (bitsOf (arg s 0 16 16) 128).contains (key s 0 % 128) = true ∧
     (bitsOf (arg s 0 16 16) 128).all (fun m => FMap.get 0 s.mbx.bind m == 0) = true ∧ liveCtxs s < 64) ∧
    (let s := cx1 0x002 []
     accepted s 0 0x002 = true ∧ (ctx? s (cx s 0)).isSome = true ∧ (theCtx s (cx s 0)).closing = false ∧
     ctxParts (modCtx (cx s 0) (fun c => { c with closing := true }) s) (cx s 0) = []) := by decide +kernel

/-- An allocation of one page, freed and mapped. -/
def held : Ctx :=
  { maps := [{ va := 0x200000, pa := 0, len := 0x200000 }],
    allocs := [{ va := 0x200000, size := 0x200000, tier := 0, big := false, owned := [(0, 0x200000)] }] }

theorem wit_MemoryIsMapped_free :
    (let s := cx1 0x102 (natLe 8 0x200000) held
     accepted s 0 0x102 = true ∧
     (theCtx s (cx s 0)).allocs.any (fun a => a.va = addrAt (load s 0) 0 && a.recipe = 0) = true) := by decide +kernel

theorem wit_MemoryIsMapped_map :
    (let s := cx1 0x103 (natLe 8 0x200000 ++ natLe 8 0x200000 ++ natLe 16 0) held
     accepted s 0 0x103 = true ∧ arg s 0 16 1 = 0 ∧
     mapFault (theCtx s (cx s 0)) (addrAt (load s 0) 0) (arg s 0 8 8) false = none ∧
     covered (addrAt (load s 0) 0) (arg s 0 8 8) (fun _ => true) (theCtx s (cx s 0)).maps = true) ∧
    (let s := cx1 0x103 (natLe 8 0x200000 ++ natLe 8 0x200000 ++ natLe 16 1) held
     accepted s 0 0x103 = true ∧ arg s 0 16 1 = 1 ∧
     mapFault (theCtx s (cx s 0)) (addrAt (load s 0) 0) (arg s 0 8 8) true = none) ∧
    (let s := cx1 0x103 (natLe 8 0x400000 ++ natLe 8 0x200000 ++ natLe 8 2 ++ natLe 8 0) held
     accepted s 0 0x103 = true ∧ arg s 0 16 1 = 2 ∧ addrAt (load s 0) 0 % 0x200000 = 0 ∧ 0 < arg s 0 8 8 ∧
     arg s 0 8 8 % 0x200000 = 0 ∧ addrAt (load s 0) 24 % 0x200000 = 0 ∧
     vaFree (theCtx s (cx s 0)) (addrAt (load s 0) 0) (arg s 0 8 8) = true ∧
     addrAt (load s 0) 24 + arg s 0 8 8 ≤ s.mem.windowGib * 2 ^ 30) ∧
    (ctx? (one held up) 1).isSome = true := by decide +kernel

/-- One line of context memory to another. -/
def copyPl : List Byte := natLe 8 0x200000 ++ natLe 8 0x200100 ++ natLe 8 64 ++ natLe 8 0

/-- A mover descriptor from 0x200000 to 0x200100, one line. -/
def moveBits : Nat := 0x200000 * 2 ^ 448 + 0x200100 * 2 ^ 384 + 64 * 2 ^ 320

/-- A page that may be written. -/
def wide : Ctx := { maps := [{ va := 0x200000, pa := 0, len := 0x200000, write := true }] }

theorem draw_some : ∀ (l : List (Nat × Nat)) (n : Nat), n ≤ (l.map (fun x => x.2 - x.1)).sum → (drawFrames l n).isSome
  | [], n, h => by simp at h; subst h; rfl
  | x :: r, n, h => by
    have hr := draw_some r (n - min n (x.2 - x.1)) (by simp at h; omega)
    unfold drawFrames
    split
    · rfl
    · simpa using hr

/-- The free pages of one range of `q` pages, those from page `p` on first, hold a page. -/
theorem pages_hold (g p q : Nat) (hg : 0 < g) (hq : 0 < q) :
    g ≤ ((wholePages g (([(0, q * g)].filterMap (fun x => if p * g < x.2 then some (max x.1 (p * g), x.2) else none)) ++
      ([(0, q * g)].filterMap (fun x => if x.1 < p * g then some (x.1, min x.2 (p * g)) else none)))).map
      (fun x => x.2 - x.1)).sum := by
  have hc (k : Nat) : cdiv (k * g) g * g = k * g := by
    unfold cdiv
    rw [Nat.add_sub_assoc (by omega), Nat.mul_comm k g, Nat.mul_add_div hg, Nat.div_eq_of_lt (by omega)]
    simp [Nat.mul_comm]
  have hd (k : Nat) : k * g / g * g = k * g := Nat.div_mul_cancel (Nat.dvd_mul_left g k)
  have h0 : cdiv 0 g * g = 0 := by simpa using hc 0
  have h1 : g ≤ q * g := Nat.le_mul_of_pos_left g hq
  rcases Nat.eq_zero_or_pos p with rfl | hp
  · simp [wholePages, hd, h0, show 0 < q * g by omega, h1]
  · have h2 : g ≤ p * g := Nat.le_mul_of_pos_left g hp
    by_cases hs : p * g < q * g
    · simp [wholePages, hs, hc, hd, h0, show 0 < p * g by omega, Nat.min_eq_right (Nat.le_of_lt hs)]
      omega
    · simp [wholePages, hs, hd, h0, show 0 < p * g by omega, Nat.min_eq_left (Nat.le_of_not_lt hs), show 0 < q * g by omega, h1]

/-- Free frames suffice for a page of a module that holds nothing, wherever the search begins. -/
theorem frames_some (s : State) (h : allocRange s false = (0, 0x46000 * 0x200000))
    (ho : ownedFrames s ++ defectFrames s = []) : (findFrames s false false 0x200000).isSome := by
  apply draw_some
  rw [freeRanges, h, ho]
  exact pages_hold 0x200000 _ 0x46000 (by decide) (by decide)

/-- A free range suffices for an allocation of a context that holds nothing, wherever the search begins. -/
theorem va_some (s : State) (c : Ctx) (g n : Nat) (h : vaUnused c 0 n = true) : (findVa s c g n).isSome := by
  unfold findVa
  rw [List.find?_isSome]
  exact ⟨0, by simp, h⟩

/-- One page of HBM3E, for ALLOC. -/
def allocS : State := cx1 0x101 (natLe 24 0x200000)

theorem wit_MemoryIsMapped_alloc :
    (accepted allocS 0 0x101 = true ∧ arg allocS 0 0 8 = 0x200000 ∧ arg allocS 0 8 1 = 0 ∧ arg allocS 0 9 1 = 0 ∧
      bitOf (arg allocS 0 10 2) 1 = false ∧ cdiv 0x200000 (pageSize false) * pageSize false = 0x200000) ∧
    ∃ t runs va, pickTier allocS 0 false 0x200000 = some (t, runs) ∧
      findVa allocS (theCtx allocS (cx allocS 0)) (pageSize false) 0x200000 = some va := by
  refine ⟨by decide +kernel, ?_⟩
  obtain ⟨l, hl⟩ := Option.isSome_iff_exists.1 (frames_some allocS (by decide +kernel) (by decide +kernel))
  obtain ⟨va, hv⟩ := Option.isSome_iff_exists.1
    (va_some allocS (theCtx allocS (cx allocS 0)) (pageSize false) 0x200000 (by decide +kernel))
  exact ⟨0, l, va, by simp [pickTier, hl], hv⟩

/-- A COPY in its place, and a TIER_MOVE of one descriptor, not started and running. -/
def copying : State := inPlace { opcode := 0x104, ctx := 1, pl := copyPl } (one wide up)
def moving (m : MoveSt) : State := inPlace { opcode := 0x105, ctx := 1, pl := natLe 64 moveBits, moves := [m] } (one wide up)

theorem wit_BytesAreMoved :
    (let s := cx1 0x104 copyPl wide
     accepted s 0 0x104 = true ∧ 0 < arg s 0 16 8 ∧ arg s 0 16 8 ≤ 2 ^ 32 ∧ arg s 0 24 1 ≤ 1 ∧ arg s 0 25 1 ≤ 1) ∧
    (let s := copying
     let r : RunCmd := { opcode := 0x104, ctx := 1, pl := copyPl }
     let a : Side := { host := numAt r.pl 24 1 = 1, va := addrAt r.pl 0 }
     let b : Side := { host := numAt r.pl 25 1 = 1, va := addrAt r.pl 8 }
     let ag : Agent := .host (crownHalf s)
     runKeyOf s 0 0x104 = some (0, r) ∧ numAt r.pl 16 8 = 64 ∧
     sideSnoops s ag r.ctx false a 64 ++ sideSnoops s ag r.ctx true b 64 = [] ∧ sideHeld s ag r.ctx false a 64 = false ∧
     sideHeld s ag r.ctx true b 64 = false ∧ (moveAll ag r.ctx {} a b 64 s).2.2 = none) ∧
    (let s := cx1 0x105 (natLe 64 moveBits) wide
     accepted s 0 0x105 = true ∧ (head s 0).len = 64 ∧ moverFault s (cx s 0) (moverDesc (load s 0) 0) = none) ∧
    (let s := moving {}
     runKeyOf s 0 0x105 = some (0, { opcode := 0x105, ctx := 1, pl := natLe 64 moveBits, moves := [{}] }) ∧
     moverBusy s .a 0 = false ∧ s.crown.takeover = false ∧ bitOf (moverDesc (natLe 64 moveBits) 0) 128 = false) ∧
    (let s := moving { st := 1 }
     let d := moverDesc (natLe 64 moveBits) 0
     let a : Side := { host := false, va := fld d 495 448 }
     let b : Side := { host := false, va := fld d 431 384 }
     let n := fld d 351 320
     runKeyOf s 0 0x105 = some (0, { opcode := 0x105, ctx := 1, pl := natLe 64 moveBits, moves := [{ st := 1 }] }) ∧
     sideSnoops s (.mover .a) 1 false a n ++ sideSnoops s (.mover .a) 1 true b n = [] ∧
     sideHeld s (.mover .a) 1 false a n = false ∧ sideHeld s (.mover .a) 1 true b n = false ∧
     (moveAll (.mover .a) 1 {} a b n s).2.2 = none) := by decide +kernel

/-- A bundle of the right magic and version, and nothing more: 128 bytes of header and zeros. -/
def bundle : List Byte := natLe 160 (0x50435254 + 2 ^ 48)

/-- A recipe without streams, and an idle partition of cluster 0. -/
def rcp : Recipe :=
  { clusters := 1, feCnt := 0, feTrig := 0, args := 0, win := [0, 0, 0, 0, 0, 0, 0, 0], streams := [], segs := [],
    syms := [(true, 64)], streamVa := 0 }
def part0 : Machine.Part := { ctx := 1, clusters := [0], feCnt := 0, feTrig := 0 }
def withRcp : Ctx := { recipes := [(1, some rcp)], nextRecipe := 2 }

/-- Cluster 0 with all its tiles, powered and tested. -/
def clu (p : Option Nat) (s : State) : State :=
  modCluster 0 (fun x => { x with phys := List.range 64, powered := true, tested := true, part := p }) s

/-- Partition 0 of context 1, on cluster 0. -/
def owned (p : Machine.Part) (s : State) : State := setPart 0 (some p) (clu (some 0) s)

theorem wit_RecipesAndPartitions :
    (let s := cx1 0x203 (natLe 24 (0x200000 * 2 ^ 64 + 160 * 2 ^ 128))
     accepted s 0 0x203 = true ∧ arg s 0 0 1 ≤ 1) ∧
    (let r : RunCmd := { opcode := 0x203, ctx := 1, pl := natLe 24 (160 * 2 ^ 128) }
     let s := inPlace r (one {} { up with mem := { up.mem with host := Memory.store [] 0 bundle } })
     runKeyOf s 0 0x203 = some (0, r) ∧ serving s = true ∧ decide (numAt r.pl 0 1 = 1) = false ∧ (ctx? s r.ctx).isSome = true ∧
     (readBundle s r.ctx {} false (addrAt r.pl 8) 128).toOption = some (bundle.take 128) ∧
     bundleVersion (numAt (bundle.take 128) 0 128) = true ∧ (readBundle s r.ctx {} false (addrAt r.pl 8) 160).toOption = some bundle) ∧
    (let s := cx1 0x204 (natLe 4 1) withRcp
     accepted s 0 0x204 = true ∧ (recipe? s (cx s 0) (arg s 0 0 4)).isSome = true ∧ recipeBusy s (cx s 0) 1 = false) ∧
    (let s := cx1 0x201 (natLe 44 1) {} (clu none up)
     let l := (List.range (arg s 0 3 1)).map (fun i => numAt (load s 0) (8 + i) 1)
     accepted s 0 0x201 = true ∧ partFault (load s 0) = none ∧ (theCtx s (cx s 0)).closing = false ∧
     choose s (arg s 0 0 1) (arg s 0 1 1) 64 l = some [0] ∧ FMap.freeKey none s.work.parts 0 36 = some 0 ∧
     reserved s (·.feCnt) + arg s 0 4 2 ≤ 512 ∧ reserved s (·.feTrig) + arg s 0 6 2 ≤ 8192) ∧
    (let s := cx1 0x202 (natLe 2 0) {} (owned part0 up)
     accepted s 0 0x202 = true ∧ ownPart s (cx s 0) (arg s 0 0 1) = some part0 ∧ bitOf (arg s 0 1 1) 0 = false ∧
     part0.fence = none ∧ part0.queue = []) := by
  decide +kernel

/-- A launch of recipe 1 in partition 0, and a context that has it. -/
def lnch (l : Launch) : Ctx := { withRcp with launches := [(l.id, some l)], lastLaunch := l.id }
def l1 : Launch := { id := 1, hsn := 5, part := 0, recipe := 1 }
def queued (l : Launch) : State := owned { part0 with queue := [1] } (one (lnch l) up)

theorem wit_LaunchesRun :
    (let s := cx1 0x205 (natLe 160 (2 ^ 32 + 7 * 2 ^ 64)) withRcp (owned part0 up)
     accepted s 0 0x205 = true ∧ (ctx? s (cx s 0)).isSome = true ∧ ownPart s (cx s 0) (arg s 0 0 1) = some part0 ∧
     part0.recent.find? (fun x => x.1 = arg s 0 8 8) = none ∧
     launchFault s (cx s 0) 0 part0 (load s 0) ((List.range 16).map (fun k => addrAt (load s 0) (32 + 8 * k))) = none ∧
     bitOf (arg s 0 1 1) 0 = false) ∧
    (let s := queued l1
     part? s 0 = some { part0 with queue := [1] } ∧ headLaunch s 0 = some l1 ∧ recipe? s 1 1 = some rcp ∧ l1.st = 0 ∧
     serving s = true ∧ part0.fence = none) ∧
    (let s := queued { l1 with st := 1, tick := 5000010 }
     headLaunch s 0 = some { l1 with st := 1, tick := 5000010 } ∧
     ((partHalves part0).filter (fun h => !begun l1 h)).map (fun h => ticksTo s (cnt s h) 5000010) = [10]) ∧
    (let l : Launch := { l1 with st := 2, endRt := 5000000 }
     headLaunch (queued l) 0 = some l ∧ l.endRt ≠ 0 ∧ serving (queued l) = true) ∧
    (let l : Launch := { l1 with st := 2, wdAt := 6000000 }
     headLaunch (queued l) 0 = some l ∧ l.endRt = 0 ∧ serving (queued l) = true) := by decide +kernel

theorem wit_LaunchesEnd :
    (launch? (queued { l1 with st := 2 }) 1 1 = some { l1 with st := 2 }) ∧
    (let s := cx1 0x206 (natLe 8 (1 + 60000 * 2 ^ 32)) (lnch { l1 with st := 3 }) (owned part0 up)
     accepted s 0 0x206 = true ∧ launch? s (cx s 0) (arg s 0 0 4) = some { l1 with st := 3 } ∧ arg s 0 4 4 ≤ 60000) ∧
    (let s := cx1 0x206 (natLe 8 1) (lnch l1) (owned { part0 with queue := [1] } up)
     accepted s 0 0x206 = true ∧ launch? s (cx s 0) (arg s 0 0 4) = some l1 ∧ arg s 0 4 4 ≤ 60000) ∧
    (let r : RunCmd := { opcode := 0x206, ctx := 1, arg := 1, deadline := 6000000 }
     let s := inPlace r (queued l1)
     runKeyOf s 0 0x206 = some (0, r) ∧ launch? (waitUntil r.deadline s) 1 1 = some l1) ∧
    (let s := cx1 0x207 (natLe 8 (2 ^ 32)) (lnch l1) (owned { part0 with queue := [1] } up)
     accepted s 0 0x207 = true ∧ arg s 0 0 1 = 0 ∧ launch? s (cx s 0) (arg s 0 4 4) = some l1 ∧
     part? s 0 = some { part0 with queue := [1] } ∧ headLaunch s 0 = some l1) ∧
    (let l : Launch := { l1 with st := 2 }
     let s := cx1 0x207 (natLe 8 (2 ^ 32)) (lnch l) (owned { part0 with queue := [1] } up)
     accepted s 0 0x207 = true ∧ launch? s (cx s 0) (arg s 0 4 4) = some l ∧ headLaunch s 0 = some l ∧ l.endRt = 0) := by
  decide +kernel

theorem wit_ResetsZero :
    (let s := cx1 0x901 (natLe 1 0) {} (owned part0 up)
     accepted s 0 0x901 = true ∧ ownPart s (cx s 0) (arg s 0 0 1) = some part0) ∧
    (let s := cx1 0x902 (natLe 1 0) {} (owned part0 up)
     accepted s 0 0x902 = true ∧ unitFault s (key s 0 % 128) (cx s 0) 0 = none ∧ unitBusy s 0 = none) ∧
    (let s := cmd 0x902 0 (natLe 1 35) up
     accepted s 0 0x902 = true ∧ unitFault s (key s 0 % 128) (cx s 0) 35 = none ∧ unitBusy s 35 = none) ∧
    (let s := cx1 0x903 (natLe 2 (63 * 256)) {} (owned part0 up)
     accepted s 0 0x903 = true ∧ unitFault s (key s 0 % 128) (cx s 0) 0 = none ∧ arg s 0 1 1 = 63 ∧ absentPos s 0 63 = false ∧
     unitBusy s 0 = none) ∧
    (let s := cmd 0x904 0 (natLe 8 5100000) up
     accepted s 0 0x904 = true ∧ now s + 100000 ≤ arg s 0 0 8) := by decide +kernel

/-- A group table of one member: rank 0, this module. -/
def groupBytes : List Byte := natLe 72 (1 + 2 ^ 64)

/-- Bytes at the foot of device memory, which context 1 maps at 0x200000. -/
def inMem (b : List Byte) (s : State) : State := { s with mem := { s.mem with phys := Memory.store [] 0 b } }
def inHost (b : List Byte) (s : State) : State := { s with mem := { s.mem with host := Memory.store [] 0 b } }

/-- A header of a routing image with one port set; the rest of the image is zeros. -/
def imgHead : List Byte := natLe 8 (0x45545552 + 2 ^ 32 + 2 ^ 48)

theorem leNat_zeros (n : Nat) : leNat (List.replicate n 0) = 0 := by
  induction n with
  | zero => rfl
  | succ n ih =>
    show 0 + 256 * leNat (List.replicate n 0) = 0
    rw [ih]

theorem numAt_zeros (h : List Byte) (k off n : Nat) (ho : h.length ≤ off) :
    numAt (h ++ List.replicate k 0) off n = 0 := by
  simp only [numAt, sliceB]
  have hd : List.drop off (h ++ List.replicate k 0) = List.replicate (k - (off - h.length)) 0 := by
    simp [List.drop_append, ho]
  rw [hd, List.take_replicate, List.replicate_append_replicate, leNat_zeros]

theorem fold_zeros (f : Nat → Nat) (l : List Nat) (h : ∀ i ∈ l, f i = 0) :
    l.foldl (fun m i => FMap.set 0 m i (f i)) [] = [] := by
  induction l with
  | nil => rfl
  | cons x r ih => simpa [FMap.set, FMap.del, h x (by simp)] using ih (fun i hi => h i (by simp [hi]))

theorem fold_skip {β : Type} (c : Nat → Nat) (g : β → Nat → β) (l : List Nat) (b : β) (h : ∀ i, c i = 0) :
    l.foldl (fun m i => if c i = 0 then m else g m i) b = b := by
  induction l with
  | nil => rfl
  | cons x r ih => simpa [h x] using ih

theorem bytes_zeros (m : Memory) : ∀ (n a : Nat), (∀ x ∈ m, x.1 < a) → Memory.bytes m a n = List.replicate n 0
  | 0, _, _ => rfl
  | n + 1, a, h => by
    have hr : ∀ m : Memory, (∀ x ∈ m, x.1 < a) → Memory.read m a = 0 := by
      intro m
      induction m with
      | nil => intro _; rfl
      | cons x r ih =>
        intro h
        have := h x (by simp)
        rw [Memory.read, FMap.get, if_neg (by omega)]
        exact ih (fun y hy => h y (by simp [hy]))
    rw [Memory.bytes, hr m h, bytes_zeros m n (a + 1) (fun x hx => by have := h x hx; omega), List.replicate_succ]

theorem bytes_split (m : Memory) : ∀ (k n a : Nat), Memory.bytes m a (k + n) = Memory.bytes m a k ++ Memory.bytes m (a + k) n
  | 0, n, a => by simp [Memory.bytes]
  | k + 1, n, a => by
    rw [show k + 1 + n = (k + n) + 1 by omega, Memory.bytes, Memory.bytes, bytes_split m k n (a + 1), List.cons_append,
      show a + 1 + k = a + (k + 1) by omega]

/-- The image of one empty port set, with no entry and no ring. -/
def img : List Byte := imgHead ++ List.replicate 21048 0

theorem img_ok : routeOk img = true := by
  have hz (off n : Nat) (h : 8 ≤ off) : numAt img off n = 0 := numAt_zeros imgHead 21048 off n h
  have hp : parseRoute img = { raw := img } := by
    simp only [parseRoute]
    rw [fold_zeros _ _ (fun i _ => hz _ _ (by omega)), fold_zeros _ _ (fun i _ => hz _ _ (by omega))]
    rw [fold_skip (fun i => numAt img (0x4840 + 80 * i + 64) 1) _ _ _ (fun i => hz _ _ (by omega))]
  have hl : img.length = 21056 := by rw [img, List.length_append, List.length_replicate]; rfl
  simp only [routeOk, hp, hl]
  decide +kernel

theorem wit_GroupsAndLinkCommands :
    (let s := cx1 0x301 (natLe 16 (2 ^ 32 + 0x200000 * 2 ^ 64)) held (inMem groupBytes (owned part0 up))
     let g := groupOf 0 0 groupBytes
     accepted s 0 0x301 = true ∧ addrAt (load s 0) 8 = 0x200000 ∧ arg s 0 4 2 = 1 ∧ arg s 0 6 2 = 0 ∧
     snoopLines s (.host (crownHalf s)) (cx s 0) false 0x200000 72 = [] ∧
     bridgeHolds s (.host (crownHalf s)) (cx s 0) false 0x200000 72 = false ∧ group? s (arg s 0 0 2) = none ∧ ownPart s (cx s 0) (arg s 0 2 1) = some part0 ∧
     (readBundle s (cx s 0) {} true 0x200000 72).toOption = some groupBytes ∧ mixedGroup g = false ∧ s.brRetrain = false ∧
     groupOk g groupBytes 1 = true ∧ ownMemberOk s (cx s 0) g = true ∧ part0.fence = none ∧ s.eng.groups = []) ∧
    (let s := cx1 0x302 (natLe 2 3) {} (owned part0 { up with eng := { groups := [(3, some (groupOf 0 0 groupBytes))] } })
     accepted s 0 0x302 = true ∧ group? s (arg s 0 0 2) = some (groupOf 0 0 groupBytes) ∧
     (ownPart s (cx s 0) 0).isSome = true ∧ s.eng.colls = []) ∧
    (let s := cmd 0x304 0 (natLe 16 (47 + 2 ^ 64 * 5001000)) up
     accepted s 0 0x304 = true ∧ arg s 0 1 1 = 0 ∧ linkFault s (load s 0) = none ∧ freeFrom s 5 27 = some 5) ∧
    (let s := cmd 0x304 0 (natLe 16 (63 + 2 ^ 8)) (modPort 63 (fun x => { x with role := 2 }) up)
     accepted s 0 0x304 = true ∧ linkFault s (load s 0) = none ∧ arg s 0 8 8 = 0 ∧ arg s 0 1 1 = 1 ∧
     (port s (arg s 0 0 1)).role ≠ 0) ∧
    (let s := cmd 0x304 0 (natLe 16 (2 * 2 ^ 8)) up
     accepted s 0 0x304 = true ∧ linkFault s (load s 0) = none ∧ arg s 0 8 8 = 0 ∧ arg s 0 1 1 = 2) ∧
    (let s := cmd 0x305 0 (natLe 12 (1 + 60000 * 2 ^ 64)) (modPort 0 (fun x => { x with st := 4 }) up)
     accepted s 0 0x305 = true ∧ arg s 0 8 4 = 60000) ∧
    (let r : RunCmd := { opcode := 0x305, arg := 1, deadline := 6000000 }
     let s := inPlace r (modPort 0 (fun x => { x with st := 6, test := some 6000000 }) up)
     runKeyOf s 0 0x305 = some (0, r) ∧ r.deadline ≠ 0 ∧
     ([0] : List Nat).filterMap (fun p => (port ([0].foldl testEnds (waitUntil r.deadline s)) p).test) = []) ∧
    (let r : RunCmd := { opcode := 0x305, arg := 3, deadline := 6000000 }
     let s := inPlace r (modPort 1 (fun x => { x with st := 6, test := some 7000000 }) up)
     runKeyOf s 0 0x305 = some (0, r) ∧
     ([0, 1] : List Nat).filterMap (fun p => (port ([0, 1].foldl testEnds (waitUntil r.deadline s)) p).test) = [7000000]) := by
  decide +kernel

/-- The image in host memory, and ROUTE_LOAD of it for the next tick it may apply at. -/
def routeS (t : Nat) : State := cmd 0x303 0 (natLe 32 (21056 * 2 ^ 128 + t * 2 ^ 192)) (inHost imgHead up)

theorem wit_GroupsAndLinkCommands_route :
    (let s := routeS 5001000
     accepted s 0 0x303 = true ∧ arg s 0 0 1 = 0 ∧ arg s 0 16 4 = 21056 ∧ arg s 0 24 8 = now s + 1000 ∧
     addrAt (load s 0) 8 = 0 ∧ isStopped s 0 = false) ∧
    readBundle (routeS 5001000) (cx (routeS 5001000) 0) {} false 0 21056 = .ok img ∧ routeOk img = true := by
  refine ⟨by decide +kernel, ?_, img_ok⟩
  show Except.ok (Memory.bytes (Memory.store [] 0 imgHead) 0 (8 + 21048)) = Except.ok img
  rw [bytes_split, bytes_zeros _ 21048 (0 + 8) (by decide +kernel)]
  congr 2

theorem wit_ScheduleEntriesAreAddedAndCancelled :
    (let s := cx1 0x402 (natLe 32 (5001000 + 7 * 2 ^ 64 + 255 * 2 ^ 128))
     let w := leNat (load s 0)
     accepted s 0 0x402 = true ∧ now s + 1000 ≤ fld w 63 0 ∧ fld w 71 64 = 7 ∧ fld w 255 128 = 255 ∧
     freeFrom s 32 224 = some 32) ∧
    (let s := cx1 0x403 (natLe 4 33) {} (setSched 33 { rt := 5001000, action := 7, st := 1, owner := 1, ctx := 1, arg := 3 } up)
     accepted s 0 0x403 = true ∧ byHandle s (arg s 0 0 4) = some 33 ∧ cx s 0 ≠ 0 ∧ (sched s 33).owner = 1 ∧
     (sched s 33).action = 7 ∧ (sched s 33).ctx = cx s 0 ∧ (sched s 33).st = 1 ∧ (sched s 33).rt ≠ s.time.sup) := by
  decide +kernel

/-- The record of PROGRESS_MS 10, the least it may be. -/
def rec10 : List (Nat × List Byte) := [(0x0302, natLe 4 10)]

theorem wit_SettingsTakeEffect :
    (let s := cmd 0x601 0 (natLe 1 5) up
     accepted s 0 0x601 = true ∧ arg s 0 0 1 ≤ 5 ∧ stopOf s 5 = none) ∧
    (let s := cmd 0x602 0 (natLe 16 (3 + 2 ^ 16 + 0x0302 * 2 ^ 64 + 4 * 2 ^ 80 + 10 * 2 ^ 96)) (setStop 3 (some { holder := 65536 }) up)
     accepted s 0 0x602 = true ∧ 8 ≤ (load s 0).length ∧ arg s 0 0 1 = 3 ∧
     (recordsOf s 3 2 (load s 0)).toOption = some rec10 ∧ stopOf s 3 = some { holder := 65536 } ∧
     holderOf (key s 0) (head s 0) = 65536) ∧
    (let s := cmd 0x603 0 (natLe 1 3) (setStop 3 (some { holder := 65536, staged := rec10 }) up)
     accepted s 0 0x603 = true ∧ arg s 0 0 1 = 3 ∧ stopOf s 3 = some { holder := 65536, staged := rec10 } ∧
     holderOf (key s 0) (head s 0) = 65536 ∧ FMap.get [] rec10 0x0003 = [] ∧ (recordSettings .clean rec10 s).1 = true) ∧
    (let s := cmd 0x604 0 (natLe 16 (1 + 0x0803 * 2 ^ 64 + 2 ^ 80 + 2 * 2 ^ 96)) up
     accepted s 0 0x604 = true ∧ (recordsOf s 6 0 (load s 0)).toOption = some [(0x0803, [2])] ∧
     (recordSettings .clean [(0x0803, [2])] s).1 = true) ∧
    (let s := cmd 0x506 0 (natLe 16 (2 + 2 ^ 16 + 5100000 * 2 ^ 64)) up
     accepted s 0 0x506 = true ∧ arg s 0 0 2 = 2 ∧ arg s 0 2 1 ≤ 1 ∧ arg s 0 8 8 % 100000 = 0 ∧ isStopped s 4 = false ∧
     (recordSettings .clean [(0x0401, natLe 2 2), (0x0402, natLe 1 1)] s).1 = true) ∧
    (let s := cmd 0x801 0 (natLe 24 (2 + 1024 * 2 ^ 32)) up
     accepted s 0 0x801 = true ∧ arg s 0 0 1 = 2 ∧ arg s 0 4 4 ≤ 1024 ∧ isStopped s 5 = false ∧
     (recordSettings .clean [(0x0501, natLe 4 1024)] s).1 = true) := by decide +kernel

/-- A module whose tile slot differs from its control slot, and one with slot B staged. -/
def slots (d : SlotDir) (s : State) : State := { s with start := { s.start with dir := d } }

theorem wit_FirmwareIsStagedAndScheduled :
    (let s := cmd 0x701 0 (natLe 24 (512 * 2 ^ 128)) (inHost (natLe 8 (0x4B504B41 + 2 ^ 32 + 2 ^ 48)) up)
     accepted s 0 0x701 = true ∧ arg s 0 0 1 = 0 ∧
     addrAt (load s 0) 8 = 0 ∧ min (arg s 0 16 8) 0x3000001 = 512 ∧
     (readBundle s (cx s 0) {} false 0 512).toOption.any (fun b => pkgKind b != 3) = true) ∧
    (let r : RunCmd := { opcode := 0x701 }
     let s := inPlace r up
     running s (key s 0) = some r ∧ serving s = true ∧ stageOpen s 5 = true) ∧
    (let s := cmd 0x702 0 (natLe 16 (1 + 2 * 2 ^ 8 + (5000000 + 10000000) * 2 ^ 64)) (slots { staged := 2, verB := 7 } up)
     let d := s.start.dir
     accepted s 0 0x702 = true ∧ slotAccepted d (arg s 0 0 1) = true ∧ arg s 0 1 1 = 2 ∧
     partsChanged d 1 2 ≠ (false, false) ∧ now s + 10000000 ≤ arg s 0 8 8 ∧ s.fw.pending = none) := by decide +kernel

/-- The lapse value is due, with no change scheduled. -/
def leased : State := modPower (fun p => { p with leaseAt := some 6000000 }) up

theorem wit_CapsAreSetAndLeased :
    (let s := cmd 0x501 0 (natLe 16 2000) up
     accepted s 0 0x501 = true ∧ isStopped s 1 = false ∧ arg s 0 8 8 = 0) ∧
    (let s := cmd 0x501 0 (natLe 16 (2000 + 5100000 * 2 ^ 64)) up
     accepted s 0 0x501 = true ∧ arg s 0 8 8 ≠ 0 ∧ arg s 0 8 8 % 100000 = 0 ∧ now s + 1000 ≤ arg s 0 8 8) ∧
    (let s := { up with time := { up.time with clk := 10000000 } }
     mgmtUp s = true ∧ leaseOk 0 = true ∧ leaseOk 1000 = true ∧ leaseOk 60000 = true ∧ 5100000 % 100000 = 0 ∧
     s.time.sup + 1000 ≤ 5100000) ∧
    (leased.power.leaseAt = some 6000000 ∧ (sched leased 2).st ≠ 1 ∧ leased.power.lapsed = false) := by decide +kernel

theorem wit_RequestsAndReceipts :
    (let s := cx1 0x503 (natLe 16 (1 + 9 * 2 ^ 64))
     arg s 0 0 2 = 1 ∧ (head s 0).len = 16 ∧ accepted s 0 0x503 = true) ∧
    (let s := cx1 0x504 (natLe 24 2)
     arg s 0 0 2 = 2 ∧ (head s 0).len = 24 ∧ accepted s 0 0x504 = true) ∧
    (let s := cx1 0x505 (natLe 18 (30 * 2 ^ 128))
     accepted s 0 0x505 = true ∧ arg s 0 0 1 = 0 ∧ arg s 0 16 2 = 30 ∧
     (ledgerRead 0 0 30 (some (1, 0)) s).1 = stOk ∧ (ctx? s (cx s 0)).map (fun c => (cx s 0, c.openSeq)) = some (1, 0)) ∧
    (let s := cmd 0x505 0 (natLe 18 (2 + 1 * 2 ^ 128)) { up with led := { up.led with sheets := [{ seq := 1, first := 0, count := 1, block := [0] }] } }
     accepted s 0 0x505 = true ∧ arg s 0 0 1 = 2 ∧ (ledgerRead 2 0 1 none s).1 = stOk) := by decide +kernel

/-- Partition 0 whose latest launch is launch 1, with recipe 1 and its one symbol of 64 bytes. -/
def tapped : Machine.Part := { part0 with recent := [(5, 1)] }
/-- A tap of symbol 0, taken, of 64 bytes. -/
def tap0 : Tap := { handle := 4, ctx := 1, part := 0, sym := 0, step := 0, used := 64, taken := true }

theorem wit_ObservationCommands :
    (let s := cmd 0x801 0 (natLe 24 (5001000 * 2 ^ 64)) up
     accepted s 0 0x801 = true ∧ arg s 0 0 1 = 0 ∧ s.trA.ringMib ≠ 0 ∧ now s + 1000 ≤ arg s 0 8 8 ∧ arg s 0 16 8 = 0 ∧
     isStopped s 5 = false ∧ freeFrom s 5 27 = some 5) ∧
    (let s := cmd 0x801 0 (natLe 24 1) up
     accepted s 0 0x801 = true ∧ arg s 0 0 1 = 1 ∧ isStopped s 5 = false) ∧
    (let s := cx1 0x802 (natLe 24 0) (lnch l1) (owned tapped up)
     accepted s 0 0x802 = true ∧ partOf s (cx s 0) 0 = some tapped ∧ latestRecipe s tapped = some rcp ∧
     rcp.syms[(0 : Nat)]? = some (true, 64) ∧ arg s 0 4 4 = 0 ∧ arg s 0 16 8 = 0 ∧ tapped.fence = none ∧ s.taps = [] ∧
     tapSlot s tapped = some 0 ∧ freeFrom s 5 27 = some 5) ∧
    (let s := cx1 0x803 (natLe 24 (4 + 64 * 2 ^ 128)) {} { up with taps := [(0, some tap0)] }
     accepted s 0 0x803 = true ∧ s.taps.find? (fun x => match x.2 with
        | some t => t.handle = arg s 0 0 4 && t.ctx = cx s 0 | none => false) = some (0, some tap0) ∧
     tap0.gone = false ∧ tap0.taken = true ∧ 0 < arg s 0 16 8 ∧ physBad s (tapBase 0) (min (arg s 0 16 8) tap0.used) = false) ∧
    (let s := cmd 0x805 0 (natLe 16 (0x20 + 2 * 2 ^ 126)) up
     accepted s 0 0x805 = true ∧ checkerOf 0x20 0 = some true ∧ fld (arg s 0 8 8) 63 62 = 2 ∧ absentBlk s 0x20 = false ∧
     (win s 0x20).armed = false) := by decide +kernel

theorem wit_MailboxHardware :
    (let s := setPage 0 { own := 0, bytes := Memory.store [] 0x40 (natLe 20 (0x003 + 2 * 2 ^ 48)) } up
     let p := page s 0
     s.power.rails = true ∧ (1 : Nat) % 4 = 1 ∧ p.own ≠ 1 ∧ hwAnswer s .a = none ∧
     injMode s 0 0 (fun t => t % 128 = 0) = none ∧ (hdr p).len ≤ 3968 ∧ (opInfo (hdr p).opcode).isSome = true) ∧
    (let s := setPage 255 { own := 2 } up
     mbKey .b 127 = 255 ∧ (page s 255).own = 2 ∧ (4 : Nat) % 4 = 0) ∧
    (let s := setPage 0 { own := 0 } up
     (page s 0).own ≠ 1 ∧ 0xFC0 + 64 ≤ 0x1000) ∧
    (let s := setWatch 0 (some 6000000) (setPage 0 { own := 1 } up)
     FMap.get none s.mbx.watch 0 = some 6000000 ∧ (page s 0).own = 1 ∧ s.crown.activating = none ∧
     s.crown.takeover = false ∧ s.fab.withdrawn = false) := by decide +kernel

-- ---------------------------------------------------------------- witnesses: power, start, time

/-- Changes of parts of the state. -/
def pw (f : Power → Power) (s : State := up) : State := modPower f s
def st (f : Start → Start) (s : State := up) : State := modStart f s
def tm (f : Time → Time) (s : State := up) : State := modTime f s
def cr (f : Crown → Crown) (s : State := up) : State := modCrown f s

theorem wit_PowerComesAndGoes :
    (State.reset.power.v52 = false ∧ State.reset.pins.aux3v3 = true ∧
     ({ State.reset with pins := { aux3v3 := false } } : State).pins.aux3v3 = false) ∧
    (up.power.v52 = true ∧ up.pins.aux3v3 = true) ∧
    (let s := st (fun x => { x with phase := 1, arrived := true })
     s.power.v52 = true ∧ s.start.arrived = true) ∧
    (let s := st (fun x => { x with phase := 2 }) (pw (fun p => { p with rails := false }))
     s.start.phase = 2 ∧ s.power.v52 = true ∧ s.start.inReset = false ∧ s.power.off = false ∧ s.power.rails = false ∧
     s.crown.tripped = false) := by decide +kernel

/-- A module in PHASE 4 or 5 with every component loaded. -/
def loading (n : Nat) : State := st (fun x => { x with phase := n, ready := false, comps := [2, 3, 4, 5, 6] })

theorem wit_TheStartRuns_crown :
    (let s := st (fun x => { x with phase := 3 })
     s.start.phase = 3 ∧ s.start.firstTry = none) ∧
    (let s := st (fun x => { x with phase := 3, firstTry := some .a }) (cr (fun c => { c with monA := {} }))
     s.start.firstTry = some .a ∧ s.start.phase = 3 ∧ (mon s s.crown.holder).live = false ∧ s.start.second = false ∧
     s.crown.holder = .a) ∧
    (let s := st (fun x => { x with phase := 3, firstTry := some .a, second := true }) (cr (fun c => { c with monA := {} }))
     s.start.firstTry = some .a ∧ s.start.phase = 3 ∧ (mon s s.crown.holder).live = false ∧ s.start.second = true) ∧
    ((loading 4).start.phase = 4 ∧ (mon (loading 4) (loading 4).crown.holder).live = true) := by decide +kernel

theorem wit_TheStartRuns_parts :
    ((loading 4).power.rails = true ∧ (loading 4).start.phase = 4 ∧ (cluster (loading 4) 0).powered = false) ∧
    (let s := (waveClusters 7).foldl (fun s c => modCluster c (fun x => { x with powered := true }) s) (loading 5)
     s.start.phase = 5 ∧ (cluster s (2 * (8 - 1))).powered = true ∧ (cluster s 14).tested = false ∧ (cluster s 16).powered = false) ∧
    ((loading 5).start.comps.contains 4 = true ∧ (mcOf (loading 5) 15).trained = false ∧
     (mcOf (loading 5) 15).trainFail = false ∧ (loading 5).start.phase ≠ 8 ∧ (loading 5).start.comps.contains 5 = true ∧
     (loading 5).ident.variant ≠ .l ∧ (mcOf (loading 5) 16).trained = false ∧ (mcOf (loading 5) 16).trainFail = false) ∧
    (let s := (List.range 24).foldl (fun s i => modMc i (fun m => { m with trained := true }) s)
      (st (fun x => { x with waves := 511, standbyImg := true, digestDone := true }) (loading 5))
     s.start.phase = 5 ∧ s.start.ready = false ∧ readyNow s = true) ∧
    (let s := st (fun x => { x with dirty := true })
     s.start.dirty = true ∧ s.start.full = false ∧ (flashTry s.flash.defects 0x300000 0x80000 .clean s).1 = true) := by decide +kernel

theorem wit_TheStartRuns_mid :
    (up.power.v52 = true ∧ (63 : Nat) ≠ up.ident.mid % 64) ∧
    (let s := tm (fun t => { t with clk := 10000000 })
     mgmtUp s = true ∧ (63 : Nat) ≤ 63 ∧ s.ident.midValid = false) ∧
    (let s := tm (fun t => { t with clk := 10000000 }) { up with ident := { up.ident with midValid := true } }
     mgmtUp s = true ∧ s.ident.midValid = true ∧ 63 ≠ s.ident.mid / 64) := by decide +kernel

/-- Rack time locked at the given count, and a set armed at `clk` 5,000,000. -/
def locked (n : Nat) : State := tm (fun t => { t with tq := .locked, sup := n, cntA := n, cntB := n })
def armedS (n : Nat) : State := tm (fun t => { t with clk := n, armed := some { v := 700000, step := false, doneAt := 5000000 } })

theorem wit_RackTimeIsSetAndWatched :
    (let s := tm (fun t => { t with clk := 10000000 })
     mgmtUp s = true ∧ (100000 : Nat) % 100000 = 0 ∧ (2 ^ 64 - 51616 : Nat) % 100000 = 0 ∧ (1 : Nat) % 100000 ≠ 0 ∧
     s.pins.rackClk = true) ∧
    (let s := armedS 5010000
     s.power.v52 = true ∧ s.pins.rackClk = true ∧ s.time.tq ≠ .locked ∧
     s.time.armed = some { v := 700000, step := false, doneAt := 5000000 } ∧ 5000000 + 10000 ≤ s.time.clk ∧
     (armedS 105000000).time.clk ≤ 5000000 + 100000000) ∧
    up.power.rails = true ∧
    ((locked 5000000).power.v52 = true ∧ (locked 5000000).time.tq = .locked) ∧
    (let s := locked 5000001
     let k := cdiv (s.time.sup - 1) 100000
     s.time.tq = .locked ∧ s.time.lastEdge ≠ some k ∧ s.time.lastMiss ≠ some k) ∧
    (let s := locked 5000000
     s.pins.rackClk = true ∧ s.time.armed = none ∧ s.time.sup % 100000 = 0) ∧
    (1 < (locked 5000002).time.sup % 100000 ∧ (locked 5000002).time.sup % 100000 ≤ 50000) ∧
    (let a (v : Nat) : SetArm := { v := v, step := false, doneAt := 5000000 }
     let s (v : Nat) : State := tm (fun t => { t with tq := .locked, clk := 5010000, armed := some (a v) })
     (a 0).doneAt + 10000 ≤ (s 0).time.clk ∧ (s 0).time.clk ≤ (a 0).doneAt + 100000000 ∧ (a 0).v < (s 0).time.sup ∧
     (s 6000000).time.sup < (a 6000000).v ∧ (armedS 5000000).time.clk < (a 0).doneAt + 10000) := by decide +kernel

theorem wit_FramesStart :
    (let s := tm (fun t => { t with disA := true })
     s.power.v52 = true ∧ s.power.rails = true ∧ s.time.adjust = none ∧ s.time.disA = true) := by decide +kernel

/-- One pending entry, and one dispatched entry of an action. -/
def pend : State := setSched 5 { rt := 5000000, action := 3, st := 1 } up
def sent (a arg : Nat) (s : State := up) : State :=
  { s with sched := { s.sched with out := [{ idx := 5, action := a, arg := arg, rt := 5000000 }] } }
/-- The state that a dispatched entry leaves behind when its block takes it. -/
def takenBy (a arg : Nat) (s : State := up) : Prop :=
  takeDispatch a (sent a arg s) = some ({ idx := 5, action := a, arg := arg, rt := 5000000 },
    { sent a arg s with sched := { (sent a arg s).sched with out := [] } })

theorem wit_EntriesAreDispatchedAndAct_dispatch :
    FMap.ok {} pend.sched.tab = true ∧ pend.time.adjust = none ∧ pend.power.v52 = true ∧ (sched pend 5).st = 1 ∧
    (sched pend 5).action ≠ 2 ∧ (sched pend 5).late = false ∧ pend.time.sup ≤ (sched pend 5).rt ∧
    pend.sched.tab.map (·.1) = [5] ∧ pend.sched.usN < 16 := by decide +kernel

theorem wit_EntriesAreDispatchedAndAct_act :
    ((sent 1 (2 * 2 ^ 16)).sched.out = [{ idx := 5, action := 1, arg := 2 * 2 ^ 16, rt := 5000000 }] ∧
     fld (2 * 2 ^ 16) 18 16 = 2 ∧ up.power.lowering = none) ∧
    (takenBy 3 0 ∧ up.trA.capture = false ∧ up.trA.ringMib ≠ 0 ∧ up.trB.capture = false ∧ up.trB.ringMib ≠ 0) ∧
    takenBy 4 0 ∧ takenBy 7 255 ∧
    (let s := owned part0 { up with taps := [(0, some { tap0 with taken := false })] }
     takenBy 5 (2 ^ 63) s ∧ tapAt s (fld (2 ^ 63) 75 72) = some { tap0 with taken := false } ∧
     part? s (fld (2 ^ 63) 71 64) = some part0 ∧ fld (2 ^ 63) 31 0 = 0 ∧ tap0.part = fld (2 ^ 63) 71 64 ∧
     tap0.sym = fld (2 ^ 63) 31 0 ∧ tap0.gone = false) :=
  ⟨by decide +kernel, ⟨by rfl, by decide +kernel⟩, by rfl, by rfl, by rfl, by decide +kernel⟩

/-- A comparator of the module's own withdrawal or of one of its ports. -/
def ownC (k : Nat) : Comparator := { tick := 6000000, kind := k, port := 63, own := true }
/-- A packet waits at port 0. -/
def waiting (s : State := up) : State := modPort 0 (fun x => { x with st := 4, queue := [(64, {})] }) s
def drains (s : State := up) : State := modFab (fun f => { f with drainEnd := some 6000000 }) (waiting s)

theorem wit_WithdrawalsAndTables :
    (ownComp (modFab (fun f => { f with comps := [ownC 0] }) up) = some (ownC 0) ∧ (ownC 0).kind = 0 ∧
     up.fab.shadow = none) ∧
    (ownComp (modFab (fun f => { f with comps := [ownC 1] }) up) = some (ownC 1) ∧ (ownC 1).kind ≠ 0) ∧
    (drains.fab.drainEnd = some 6000000 ∧ drains.start.resetAt = none ∧ (port drains 0).queue ≠ []) ∧
    (let s := drains (st (fun x => { x with resetAt := some 6000000 }))
     s.fab.drainEnd = some 6000000 ∧ s.start.resetAt.isSome = true) := by decide +kernel

theorem wit_InputAndBrake :
    (up.power.v52 = true ∧ up.power.shutdown = none ∧ up.power.off = false ∧ up.power.uvBrake = false) ∧
    (let s := pw (fun p => { p with lowRun := 9 })
     s.power.lowRun = 9 ∧ s.power.shutdown = none ∧ s.power.off = false) ∧
    (let s := pw (fun p => { p with uvBrake := true, goodAt := some 4900000 })
     s.power.uvBrake = true ∧ s.power.goodAt = some 4900000) ∧
    (pw (fun p => { p with shutdown := some 4000000 })).power.shutdown = some 4000000 ∧
    (let s := pw (fun p => { p with off := true, rangeAt := some 4000000 })
     s.power.rangeAt = some 4000000 ∧ s.power.off = true ∧ s.power.trip = false ∧ s.power.alertOff = false ∧
     s.crown.tripped = false) ∧
    (up.pins.thermAlertN = true ∧ up.power.countdown = none ∧ up.power.stoppedAt = none) ∧
    ({ up with pins := { up.pins with thermAlertN := false } } : State).pins.thermAlertN = false ∧
    (let s := pw (fun p => { p with countdown := some 504000000, highAt := some 4000000 })
     s.power.countdown = some 504000000 ∧ s.power.highAt = some 4000000 ∧ 4000000 + 1000000 < 504000000 ∧
     s.time.clk ≤ 4000000 + 1000000) ∧
    (let s := pw (fun p => { p with countdown := some 5000000 })
     s.power.countdown = some 5000000 ∧ s.power.highAt = none ∧ s.time.clk ≤ 5000000 ∧ s.power.shutdown = none ∧
     s.power.off = false) := by decide +kernel

theorem wit_HeatAndPower :
    (up.power.v52 = true ∧ up.power.trip = false ∧ up.power.shutdown = none ∧ up.power.off = false) ∧
    (let s := pw (fun p => { p with rails := false, tj := 95 })
     s.power.rails = false ∧ 95 ≤ s.power.tj) ∧
    (let s := pw (fun p => { p with rails := false, tj := 92, tm := 92 })
     s.power.rails = false ∧ s.power.tj ≤ 92 ∧ s.power.tm ≤ 92) ∧
    (let s := setSched 3 { rt := 5100000, action := 1, st := 1, arg := 700 + 2 * 2 ^ 16 } up
     (sched s 3).st = 1 ∧ (sched s 3).action = 1 ∧ (sched s 2).st ≠ 1 ∧
     effective (modPower (fun p => { p with hostCap := fld (sched s 3).arg 15 0 }) s) < effective s) ∧
    (let s := pw (fun p => { p with ints := 2, sum := 1500 })
     s.power.v52 = true ∧ s.power.winMs ≠ 0 ∧ s.power.ints ≠ 0) := by decide +kernel

theorem wit_RegistersAreWritten :
    takesWrite up .a 0xBF = true ∧ takesWrite up .a (mcBlk 23) = true ∧ (0x80000000#32).getLsbD 31 = true ∧
    (1#32).getLsbD 0 = true := by decide +kernel

theorem wit_ControllersAndArbiter :
    (up.power.rails = true ∧ absentBlk up (mcBlk 0) = false ∧ backed up 0 = true ∧ atMc up 0 0 = true ∧
     up.brRetrain = false ∧ up.mem.bad.contains (0 / 64) = false ∧
     injMode up (mcBlk 0) 0 (fun t => t = 0 / 64) = none ∧ injMode up (mcBlk 0) 1 (fun t => t = 0 / 64) = none ∧
     backed up 0x9000000000 = false) ∧
    (mcOf up 15).refresh2 = false ∧
    (let m := mcOf up 15
     m.writes = [] ∧ 0 / 4096 = m.window) ∧
    (let s := modMc 15 (fun m => { m with window := 1, clock := 4095, pathFree := 4096 }) up
     let m := mcOf s 15
     m.credit.length = 8 ∧ m.weight.length = 8 ∧ m.grant.length = 8 ∧ m.waitMax.length = 8 ∧ m.writes = [] ∧
     m.window = 4095 / 4096 + 1 ∧ m.clock ≤ 4095 ∧ m.pathFree ≤ 4095 + 1 ∧ m.ports = List.replicate 8 []) ∧
    (let a : Arrival := { port := 7, who := 40, line := 15, lines := 1, clock := 4094 }
     a.port < 8 ∧ 0 < a.lines ∧ a.line % 16 + a.lines ≤ 16 ∧ a.clock < 4095) := by decide +kernel

/-- The window open on a port, and a line of it whose snoop is out. -/
def opened : State := { up with cxlA := { up := true, width := 16, gts := 64, committed := true } }
def snooping (k : Nat) : State := { up with mem := { up.mem with snoops := [k], filter := [k] } }

theorem wit_WindowAndCxlPorts_unarmed : ∀ b, (win opened b).armed = false := fun _ => rfl

theorem wit_WindowAndCxlPorts :
    ((cxl opened .a).up = true ∧ (cxl opened .a).enabled = true ∧ (cxl opened .a).committed = true ∧
     2 ^ 36 - 1 < opened.mem.windowGib * 2 ^ 30 ∧ opened.brRetrain = false ∧ opened.mem.filter.length < 1048576 ∧
     opened.mem.bad = [] ∧ (cxl opened .b).committed = false) ∧
    (let pa := winBase (snooping 0)
     winBase (snooping 0) ≤ pa ∧ (snooping 0).mem.snoops.contains (lineOfPa (snooping 0) pa) = true ∧ ∃ mc : Fin 24, atMc (snooping 0) mc pa = true) ∧
    (snooping 3).mem.snoops.contains (0xC0 / 64) = true := by decide +kernel

-- ---------------------------------------------------------------- witnesses: tiles

/-- Descriptor bits from (low bit, value) pairs. -/
def bits (l : List (Nat × Nat)) : Nat := (l.map (fun x => x.2 * 2 ^ x.1)).sum
def desc (l : List (Nat × Nat)) : Desc := { idx := 0, bits := bits l }
def gone (l : List (Nat × Nat)) : Desc := { desc l with go := true }

/-- Tile 0 running in partition 0 of context 1. -/
def run0 (f : Tile → Tile) : State :=
  modTile 0 (fun x => f { x with phase := 1, streamVa := 0x200000 }) (owned { part0 with feTrig := 1 } (one { withRcp with maps := wide.maps } up))

theorem wit_TilesTakeDescriptors :
    (let s := run0 id
     let x := tile s 0
     clCtx s 0 = some (0, 1) ∧ tileRuns s 0 = true ∧ x.endSeen = false ∧ x.pre = [] ∧
     injMode s (clBlk 0) 2 (fun g => fld g 41 36 = 0) = none ∧ snoopLines s (.tile 0 0) 1 false (x.streamVa + 64 * x.next) 64 = [] ∧
     bridgeHolds s (.tile 0 0) 1 false (x.streamVa + 64 * x.next) 64 = false ∧
     (lineAt s (.tile 0 0) 1 {} false (x.streamVa + 64 * x.next)).toOption.isSome = true) ∧
    (let d := desc [(0, 8), (16, 1)]
     let s := run0 (fun x => { x with pre := [d], qd := List.replicate 7 (desc []) })
     let x := tile s 0
     tileRuns s 0 = true ∧ x.endSeen = false ∧ x.hold = none ∧ x.barrier = none ∧ x.pre = [d] ∧ d.bad = none ∧
     queueOf (opcodeOf d.bits) = some .dma ∧ (queue x .dma).length < 8) ∧
    (let d := desc [(55, 1), (56, 1), (48, 63), (96, 2)]
     let s := run0 (fun x => { x with qm := [d], cnt := [(63, 2)] })
     let x := tile s 0
     tileRuns s 0 = true ∧ queue x .matrix = [d] ∧ d.go = false ∧ d.done = false ∧ bitOf d.bits 55 = true ∧ bitOf d.bits 56 = true ∧
     fld d.bits 127 96 ≤ FMap.get 0 x.cnt (fld d.bits 53 48)) ∧
    (let s := run0 (fun x => { x with qm := [{ desc [] with done := true }] })
     tileRuns s 0 = true ∧ queue (tile s 0) .matrix = [{ desc [] with done := true }]) ∧
    (let s := run0 (fun x => { x with endSeen := true })
     let x := tile s 0
     tileRuns s 0 = true ∧ x.endSeen = true ∧ drained x = true ∧ x.hold = none ∧ sigFault s 0 0 = none) := by decide +kernel

def dMma := desc [(0, 1), (164, 3), (168, 3), (172, 2), (186, 1), (256, 1)]
def dLam := desc [(0, 2), (164, 0x111), (186, 1), (256, 1)]
def dVec := desc [(0, 3), (136, 2), (140, 2), (152, 1), (224, 1), (240, 1)]
def dNlf := desc [(0, 4), (136, 2), (140, 2), (152, 1), (288, 1), (304, 1)]
def dRed := desc [(0, 5), (136, 2), (140, 2), (152, 1), (400, 1), (416, 1)]
def dTrig := desc [(0, 0x18)]

theorem wit_UnitsExecuteAndMove_execute :
    (win up (clBlk 0)).armed = false ∧
    (let s := run0 (fun x => { x with qm := [dMma] }); heads s 0 .matrix 0x01 dMma ∧ mmaFault s 0 dMma.bits = none) ∧
    (let s := run0 (fun x => { x with qm := [dLam] }); heads s 0 .matrix 0x02 dLam ∧ lamFault s 0 dLam.bits = none) ∧
    (let s := run0 (fun x => { x with qv := [dVec] }); heads s 0 .vector 0x03 dVec ∧ vecFault s 0 dVec.bits = none) ∧
    (let s := run0 (fun x => { x with qn := [dNlf] }); heads s 0 .nonlinear 0x04 dNlf ∧ nlfFault s 0 dNlf.bits = none) ∧
    (let s := run0 (fun x => { x with qv := [dRed] }); heads s 0 .vector 0x05 dRed ∧ redFault s 0 dRed.bits = none) ∧
    (let s := run0 (fun x => { x with qf := [dTrig] })
     heads s 0 .fabric 0x18 dTrig ∧ clCtx s 0 = some (0, 1) ∧ fld dTrig.bits 143 142 < 2 ∧ sigFault s 0 dTrig.bits = none ∧
     fld dTrig.bits 140 128 < trigCount s 0 ∧ trigArmed s 0 (fld dTrig.bits 140 128) = false) := by
  unfold heads; decide +kernel

def dZero := desc [(0, 8), (128, 1), (312, 1), (328, 64)]
def dLoad := desc [(0, 8), (312, 1), (328, 64), (464, 0x200000)]
def dStore := desc [(0, 9), (312, 1), (328, 64), (464, 0x200000)]
def dXfer := desc [(0, 0xA), (360, 1), (376, 64), (448, 0x1000000)]

theorem wit_UnitsExecuteAndMove_move :
    (let s := run0 (fun x => { x with qd := [dZero] })
     heads s 0 .dma 0x08 dZero ∧ bitOf dZero.bits 128 = true ∧ dmaFault s 0 dZero.bits = none) ∧
    (let s := run0 (fun x => { x with qd := [dLoad] })
     let l := dmaPieces (baseReg (tile s 0) (fld dLoad.bits 463 461)) dLoad.bits
     heads s 0 .dma 0x08 dLoad ∧ bitOf dLoad.bits 128 = false ∧ dmaFault s 0 dLoad.bits = none ∧ dmaSnoops s 0 8 = [] ∧
     dmaHeld s 0 8 = false ∧ (loadPieces 0 {} l s).2.2 = none) ∧
    (let s := run0 (fun x => { x with qd := [dStore] })
     let l := dmaPieces (baseReg (tile s 0) (fld dStore.bits 463 461)) dStore.bits
     heads s 0 .dma 0x09 dStore ∧ dmaFault s 0 dStore.bits = none ∧ dmaSnoops s 0 9 = [] ∧
     dmaHeld s 0 9 = false ∧ (storePieces 0 {} l s).2.2 = none) ∧
    (let s := run0 (fun x => { x with qd := [dXfer] })
     let d := dXfer.bits
     heads s 0 .dma 0x0A dXfer ∧ fld d 399 376 ≠ 0 ∧ fld d 375 360 ≠ 0 ∧ fld d 129 128 = 0 ∧
     badLocal inEither (xferSrc d ++ xferDst d) = none ∧ sigFault s 0 d = none ∧ overlap (xferSrc d) (xferDst d) = false) := by
  unfold heads; decide +kernel

/-- With no window written, no window is armed. -/
theorem wit_UnitsExecuteAndMove_unarmed : ∀ b, (win (run0 id) b).armed = false := fun _ => rfl

theorem wit_ResultsAreStoredAndReadBack :
    redMode dRed.bits ≤ 1 ∧ fld dNlf.bits 319 304 = 1 ∧ fld dNlf.bits 415 384 < 0x1000000 ∧ vecRows dVec.bits = 1 ∧
    isMx (vecOut dVec.bits) = false ∧ fld dVec.bits 447 416 < 0x1000000 := by decide +kernel

/-- Tile 0 whose dispatch the descriptor holds. -/
def held0 (d : Desc) : State := run0 (fun x => { x with hold := some d })

theorem wit_TheSequencerExecutes :
    (let d := gone [(0, 0x10)]
     sigFault (held0 d) 0 d.bits = none ∧ holds (held0 d) 0 0x10 d ∧ cwaitReady (tile (held0 d) 0) d.bits = true) ∧
    (let d := gone [(0, 0x11), (128, 1)]
     let s := held0 d
     sigFault s 0 d.bits = none ∧ holds s 0 0x11 d ∧
     (∀ g ∈ targets d.bits, fld g 10 8 < 6 ∧ (bitOf g 7 = true → fld g 10 8 = 1) ∧ ctargetOk s 0 g = true) ∧
     drained (tile s 0) = true) ∧
    (let d := gone [(0, 0x12), (448, 4999999)]
     let s := held0 d
     sigFault s 0 d.bits = none ∧ holds s 0 0x12 d ∧ d.done = false ∧ rtTarget (tile s 0) d.bits < cnt s (clHalf 0) ∧
     (tile s 0).pre = []) ∧
    (let d := gone [(0, 0x12), (448, 5000000)]
     let s := held0 d
     sigFault s 0 d.bits = none ∧ holds s 0 0x12 d ∧ cnt s (clHalf 0) ≤ rtTarget (tile s 0) d.bits) ∧
    (let d := { gone [(0, 0x12), (448, 5000000)] with done := true }
     sigFault (held0 d) 0 d.bits = none ∧ holds (held0 d) 0 0x12 d) := by
  unfold holds; decide +kernel

theorem wit_TheSequencerExecutes_events :
    (let d := gone [(0, 0x20), (448, 9)]
     let s := held0 d
     sigFault s 0 d.bits = none ∧ holds s 0 0x20 d ∧ fld d.bits 415 400 = 0 ∧ queuedEvents s (clHalf 0) < 8192) ∧
    (let d := gone [(0, 0x21), (448, 9), (368, 3)]
     let s := held0 d
     sigFault s 0 d.bits = none ∧ holds s 0 0x21 d ∧ fld d.bits 129 128 = 0 ∧ queuedEvents s (clHalf 0) < 8192) ∧
    (let d := gone [(0, 0x28), (424, 64)]
     let s := { modTile 0 (fun x => { x with tapArm := [(0, some 0)] }) (held0 d) with taps := [(0, some { tap0 with taken := false })] }
     sigFault s 0 d.bits = none ∧ (win s (clBlk 0)).armed = false ∧ s.brRetrain = false ∧ holds s 0 0x28 d ∧ fld d.bits 447 424 ≠ 0 ∧
     badLocal inEither [(fld d.bits 479 448, fld d.bits 447 424)] = none ∧
     tapHit s 0 (fld d.bits 511 480) = some (0, { tap0 with taken := false }) ∧ drained (tile s 0) = true) := by
  unfold holds; decide +kernel

theorem wit_SignalsAndTileFaults :
    (let g : Signal := { src := 0, part := 0, tgt := 0, cnt := 63, val := 0xFFFFFFFF }
     let s := { run0 id with comp := { (run0 id).comp with signals := [g] } }
     s.comp.signals = [g] ∧ g.eng = none ∧ (cluster s (g.tgt / 64)).part = some g.part ∧
     absentPos s (g.tgt / 64) (g.tgt % 64) = false ∧ FMap.get 0 (tile s g.tgt).cnt g.cnt + g.val ≤ 0xFFFFFFFF ∧
     ({ g with set := true } : Signal).val ≤ 0xFFFFFFFF) ∧
    (absentPos (run0 id) 0 63 = false ∧ (cluster (run0 id) 0).testing.any (fun y => y.1 = 63) = false) ∧
    (let s := modCluster 0 (fun x => { x with testing := [(63, false)] }) (run0 id)
     (cluster s 0).testing = [(63, false)] ∧ serving s = true) := by decide +kernel

-- ---------------------------------------------------------------- witnesses: fabric

/-- Port `p` in a state, changed further. -/
def pt (p n : Nat) (f : Port → Port := id) (s : State := up) : State := modPort p (fun x => f { x with st := n }) s

theorem wit_LinksTrainAndCarry :
    ((port (pt 63 1) 63).st = 1 ∧ (port (pt 63 1) 63).withdrawn = false ∧ (port (pt 63 1) 63).retrain = false ∧
     (port (pt 63 1) 63).tries = 0 ∧ (port (pt 63 2) 63).st = 2 ∧ (port (pt 63 5) 63).st = 5) ∧
    (let s := pt 63 3 (fun x => { x with role := 2 }) { up with ident := { up.ident with midValid := true } }
     let cap : CapWord := { protoMask := 3, mid := 4095 }
     (port s 63).st = 3 ∧ s.ident.midValid = true ∧ cap.isSwitch = false ∧ cap.mid < 4096 ∧ cap.protoMask % 4 = 3 ∧
     peerOk s 63 false cap.mid = true ∧ (port s 63).withdrawn = false) ∧
    ((port (pt 63 4) 63).st = 4 ∧ (port (pt 63 4) 63).queue = []) ∧
    ([3, 4, 5, 8].contains (port (pt 63 3) 63).st = true) ∧
    (let f : CtrlFlit := { sent := [65535], ret := [1] }
     [4, 5, 8].contains (port (pt 63 8) 63).st = true ∧ f.crcOk = true ∧ (port (pt 63 8) 63).queue = [] ∧
     f.testReq = false ∧ f.retrainReq = false) := by decide +kernel

def cmpr (k : Nat) : Comparator := { tick := 6000000, kind := k, port := 63, peer := 1 }
def comps (k : Nat) : State := modFab (fun f => { f with comps := [cmpr k] }) up
/-- An abort of group 5, which partition 0 has. -/
def g5 : Group :=
  { part := 0, rank := 0, members := [{ mid := 0, half := .a, bl1 := false, scratch := 0 }], ringId := 0xFF, tree := false,
    battBytes := 0, battWin := 1, scratchBytes := 0 }
def grouped (s : State := run0 id) : State := { s with eng := { s.eng with groups := [(5, some g5)] } }

theorem wit_BeaconsTablesAndAborts :
    (let s := pt 63 4 (fun x => { x with role := 2 })
     let b : Beacon := { srcMid := 4095, proto := 1, tq := 0 }
     [4, 5, 8].contains (port s 63).st = true ∧ peerOk s 63 b.isSwitch (b.srcMid % 4096) = true ∧ b.proto = 1 ∧ b.tq = 0 ∧
     rtDisagrees s 63 b = true) ∧
    (let s := pt 63 4
     let k (n : Nat) : Pkt := { opcode := 0x0B, destMask := 5000001, opArg := n }
     [4, 5, 8].contains (port s 63).st = true ∧ cnt s (portHalf 63) < (k 0).destMask ∧ (k 0).opArg % 4 = 0 ∧
     (k 1).opArg % 4 = 1 ∧ (k 2).opArg % 4 = 2) ∧
    (∀ k < 4, (comps k).fab.comps = [cmpr k] ∧ (cmpr k).own = false ∧ (cmpr k).kind = k) ∧
    (let s := tm (fun t => { t with tq := .locked })
     s.fab.joined = false ∧ s.time.tq = .locked ∧ s.power.rails = true ∧ s.ident.variant ≠ .s ∧
     ∀ q < 64, (port s q).role = 0) ∧
    (let s := modFab (fun f => { f with shadow := some (6000000, {}) }) up
     s.fab.shadow = some (6000000, {}) ∧
     (recordSettings .clean [(0x0001, [])] (modFab (fun f => { f with shadow := none }) (waitCount 6000000 s))).1 = true) ∧
    (let s := pt 63 4 id grouped
     let k : Pkt := { opcode := 0xA, groupId := 5, opArg := 3, srcMid := 9, hops := 63 }
     (port s 63).st = 4 ∧ k.opcode = 0x0A ∧ k.hops < 64 ∧ s.fab.abortSeen = [] ∧ s.time.tq ≠ .locked ∧
     (part? s 0).isSome = true ∧ (List.range 36).filter (fun j => match part? s j with
          | some y => (partGroups s j).any (fun g => (abortGroups k).contains g) && !later48 y.lastTick (k.targetVa % 2 ^ 48) &&
              y.fence.isNone
          | none => false) = [0]) := by decide +kernel

/-- A packet for this module, of group 5, at 0x200000, and a receiving flow. -/
def pk (op : Nat) (b : List Byte := []) : Pkt := { opcode := op, srcMid := 9, groupId := 5, targetVa := 0x200000, payload := b }
def flow (k : Pkt) : RxFlow := { srcMid := 9, srcHalf := .a, destHalf := .a, vc := 0, held := [(0, k)] }

theorem wit_PacketsArriveAndApply_arrive :
    (up.ident.mid = 0 ∧ up.power.rails = true ∧ up.ident.variant ≠ .s ∧
     ∀ x ∈ arrivals 0 (pk 1) {}, (pk x.1).mcast = false ∧ (pk x.1).destMid = up.ident.mid ∧
       ({ pk x.1 with destMid := 1 } : Pkt).destMid ≠ up.ident.mid ∧ (pk x.1).crcOk = true ∧
       (rxFlow up (pk x.1)).next = (pk x.1).seq ∧ (rxFlow up (pk x.1)).held = [] ∧
       (rxFlow up { pk x.1 with seq := 0xFFFFFFFF }).next = (0xFFFFFFFF + 1) % 2 ^ 32) ∧
    (let s := modFab (fun f => { f with rx := [flow (pk 1 [1, 2])] }) grouped
     (rxFlow s (pk 1)).held.find? (fun y => y.2.seq = (rxFlow s (pk 1)).next) = some (0, pk 1 [1, 2]) ∧
     pktHeld s (pk 1 [1, 2]) = false ∧ pktSnoops s (pk 1 [1, 2]) = []) ∧
    ((targetOf up (pk 1)).toOption = none ∧ (targetOf grouped (pk 1)).toOption.isSome = true) := by decide +kernel

/-- An operation with response bytes still to come, into 0x200000. -/
def op7 : Op := { half := .a, part := 0, idx := 0, entry := bits [(0, 2), (208, 0x200000), (160, 0x200000)], tag := 7, left := 8 }

theorem wit_PacketsArriveAndApply_apply :
    (targetOf grouped (pk 1)).toOption = some (0, { part0 with feTrig := 1 }) ∧
    (let u := count (feBlk .a) 36 8 grouped
     let v := collTouched (pk 1) u
     chunkPut v (pk 1) = none ∧ badLine v (.engine 0 .a) 1 {} 0x200000 2 = none ∧
     (readVa u (.engine 0 .a) 1 {} 0x200000 64).2 = none ∧ (readVa v (.engine 0 .a) 1 {} 0x200000 8).2 = none ∧
     badLine (readNote (.engine 0 .a) 1 {} 0x200000 8 v) (.engine 0 .a) 1 {} 0x200000 8 = none ∧
     fld ({ pk 2 with opArg := 64 } : Pkt).opArg 12 0 = 64 ∧ (pk 4).opArg % 4 = 0 ∧ bitOf (pk 4).opArg 2 = false) ∧
    (let s := { grouped with eng := { grouped.eng with ops := [op7] } }
     let k : Pkt := { pk 3 (natLe 8 5) with tag := 7 }
     let u := count (feBlk .a) 36 8 s
     opOf u .a 7 = some op7 ∧ reach u k = some (1, 0x200000, 8) ∧
     op7.part = 0 ∧ (writeVa (.engine 0 .a) 1 {} 0x200000 (sliceB k.payload 0 8) u).2.2 = none) := by decide +kernel

/-- What a hop does: 0 drop, 1 hand in, 2 send. -/
def hopKind : Hop → Nat
  | .drop _ _ => 0
  | .here => 1
  | .send _ => 2

theorem wit_PacketsAreRoutedAndKept_route :
    (let s := pt 12 4 (fun x => { x with role := 1, proto := 2 }) (pt 0 4)
     let s := modFab (fun f => { f with tab := { f.tab with entries := [(1, 2 ^ 30 + 255 * 2 ^ 16 + 255 * 2 ^ 8)] } }) s
     [4, 5].contains (port s 0).st = true ∧ [0xA, 0xB, 0xD].contains (pk 1).opcode = false ∧ (pk 1).mcast = false ∧
     (port s 0).hit = [] ∧ bufFlits (port s 0) 0 + flits (pk 1) ≤ nth s.fab.vcAlloc 0 ∧
     (port (modPort 0 (fun x => { x with hit := [(pk 1, 2)] }) s) 0).hit.find? (fun y => y.1 = pk 1) = some (pk 1, 2) ∧
     hopKind (hop s 0 { pk 1 with hops := 63 }) = 1 ∧ hopKind (hop s 0 { pk 1 with destMid := 1, hops := 1 }) = 2 ∧
     hopKind (hop s 0 { pk 1 with destMid := 2, hops := 1 }) = 0 ∧ s.fab.withdrawn = false ∧ (pk 1).hops < 63 ∧
     (pk 1).destMid = s.ident.mid ∧ 64 ≤ ({ pk 1 with hops := 64 } : Pkt).hops) := by decide +kernel

/-- A kept packet of VC0 for MID 9, and one of VC7. -/
def kept (vc : Nat) (f : Fab → Fab := id) : State :=
  modFab (fun x => f { x with resend := [{ pkt := { opcode := 1, vc := vc, destMid := 9, tag := 7 }, port := 0, sentAt := 4999999 }] }) up
def aPkt (op arg : Nat) : Pkt := { opcode := op, srcMid := 9, opArg := arg }

theorem wit_PacketsAreRoutedAndKept_keep :
    (let f : RxFlow := { flow (pk 1) with held := [], ackAt := some 4999999 }
     (modFab (fun x => { x with rx := [f] }) up).fab.rx = [f] ∧ f.ackAt = some 4999999) ∧
    (let f : RxFlow := { flow (pk 1) with held := [], gapAt := some 4999999 }
     (modFab (fun x => { x with rx := [f] }) up).fab.rx = [f] ∧ f.gapAt = some 4999999 ∧ f.nackAt = none ∧ f.held = []) ∧
    (let s := kept 0
     let r : Resend := { pkt := { opcode := 1, vc := 0, destMid := 9, tag := 7 }, port := 0, sentAt := 4999999 }
     s.fab.resend = [r] ∧ s.fab.txWait = [] ∧ (aPkt 8 0).destMid = s.ident.mid ∧ (aPkt 8 0).crcOk = true ∧
     r.pkt.mcast = false ∧ (aPkt 8 0).destMask ≠ 1 ∧ ackedFlow (aPkt 8 0) r = true ∧ ackedFlow (aPkt 9 0) r = true ∧
     r.pkt.seq = (aPkt 8 0).seq ∧ (aPkt 8 0).seq < 2 ^ 32 ∧ r.resends = 0 ∧ bitOf (aPkt 8 0).opArg 3 = false ∧ bitOf (aPkt 8 0).opArg 16 = false ∧
     r.pkt.tag < 32768 ∧ [3, 5].contains r.pkt.opcode = false ∧ r.busy = false) ∧
    (let s := kept 7
     let r : Resend := { pkt := { opcode := 1, vc := 7, destMid := 9, tag := 7 }, port := 0, sentAt := 4999999 }
     s.fab.resend = [r] ∧ r.pkt.vc = 7 ∧ r.pkt.destMid = (aPkt 8 0).srcMid ∧ r.pkt.srcHalf = (aPkt 8 0).destHalf ∧
     r.pkt.destHalf = (aPkt 8 0).srcHalf ∧ r.pkt.seq = (aPkt 8 0).seq) := by decide +kernel

/-- A barrier of group 5, pending and in slot 31, done. -/
def brr : Coll := { half := .a, part := 0, group := 5, seq := 0, send := some (0, bits [(0, 6), (81, 6)]), recv := some (1, 0), startTick := 5000005 }
def coll (c : Coll) : State := { grouped with eng := { grouped.eng with colls := [c] } }

theorem wit_EnginesRun :
    (let s := owned { part0 with feCnt := 1 } up
     part? s 0 = some { part0 with feCnt := 1 } ∧ 0 < 1 ∧ armed s .a (fun q e => q = 0 && fld e 16 8 = 0) = [] ∧
     0xFFFFFFFF < engCnt s .a 0 0 + [0xFFFFFFFF, 1].sum) ∧
    (let o : Op := { op7 with left := 0 }
     let s := { up with eng := { up.eng with ops := [o] } }
     (opsOf s .a)[(0 : Nat)]? = some o ∧ opDone o = true) ∧
    (let o : Op := { op7 with freed := true }
     let s := { up with eng := { up.eng with ops := [o] } }
     (opsOf s .a)[(0 : Nat)]? = some o ∧ o.freed = true ∧ s.eng.ent = []) ∧
    (leastColl (eligibles (coll brr) .a) = some brr ∧ freeSlots (coll brr) .a = 0 :: (List.range 31).map (· + 1) ∧
     collHeld (waitHalf .a brr.startTick (coll brr)) brr = false ∧ collSnoops (waitHalf .a brr.startTick (coll brr)) brr = []) ∧
    (let c : Coll := { brr with slot := some 31, sigS := true, sigR := true, used := 1, got := 1 }
     let s := coll c
     s.eng.colls.find? (fun c => c.half = .a && c.slot = some 31) = some c ∧
     (parOf s c).any (fun p => pathDone p c) = true ∧ (part? s c.part).any (fun x => x.stallMs ≠ 0) = true) := by
  decide +kernel

-- ---------------------------------------------------------------- witnesses: crown, ledger, firmware, trace, management

theorem wit_FencesCachesAndBridge :
    (let s := owned { part0 with fence := some { at_ := 5000000, endSt := 5 } } up
     part? s 0 = some { part0 with fence := some { at_ := 5000000, endSt := 5 } } ∧ serving s = true ∧ part0.queue = []) ∧
    (up.power.v52 = true ∧ up.crown.tripped = false ∧ up.power.off = false ∧ up.start.phase ≠ 7 ∧ up.start.inReset = false ∧
     up.power.rails = true ∧ (pw (fun p => { p with rails := false })).power.rails = false) ∧
    (∀ h : Half, (win up (8 + h.num)).armed = false) ∧ (win up 6).armed = false ∧
    ({ up with brRetrain := true } : State).brRetrain = true := by
  refine ⟨by decide +kernel, by decide +kernel, fun h => by cases h <;> rfl, by decide +kernel, by decide +kernel⟩

theorem wit_HeartbeatsAndLiveness :
    (up.power.rails = true ∧ (mon up .a).live = true ∧ (mon up .a).halted = false ∧ Half.b ≠ up.crown.holder) ∧
    (let hb : Heartbeat := { hbSeq := 65535 }
     hb.crcOk = true ∧ (mon up Half.b).own = 0 ∧ Half.a = up.crown.holder) ∧
    (mon up .a).sil2 = false ∧ (mon up .a).cpFailed = false ∧
    (let s := cr (fun c => { c with monA := { c.monA with lastWrite := 4800000 } })
     (mon s .a).live = true ∧ (mon s .a).halted = false ∧ s.crown.activating = none ∧ s.power.v52 = true ∧
     (mon s .a).lastWrite + 200000 ≥ s.time.clk ∧ s.crown.takeover = false) := by decide +kernel

theorem wit_VotesDecide :
    (up.power.v52 = true ∧ up.crown.safe = false ∧ up.crown.takeover = false ∧ up.crown.supFail = false) ∧
    (let s := cr (fun c => { c with monA := { live := false, halted := false, failedAt := some 4900000 } })
     (mon s s.crown.holder).failedAt = some 4900000 ∧ s.crown.req = none) ∧
    (let s := cr (fun c => { c with votedAt := some 4000000, monB := { c.monB with sil1 := true, sil2 := true, standby := 0 } })
     s.crown.votedAt = some 4000000 ∧ deaf s s.crown.holder.other = true ∧ (mon s s.crown.holder.other).standby = 0 ∧
     s.crown.req = none) ∧
    (let s := cr (fun c => { c with req := some .b })
     s.crown.req = some .b ∧ (s.crown.latch.getD (latchNow s)).a = ballot s.crown.holder ∧
     (s.crown.latch.getD (latchNow s)).b = ballot s.crown.holder) ∧
    (let s := cr (fun c => { c with req := some .a, supStandby := 0, monA := {}, monB := { c.monB with sil1 := true, sil2 := true, standby := 0 } })
     s.crown.latch.getD (latchNow s) =
       { a := ballot s.crown.holder.other, b := ballot s.crown.holder.other, c := ballot s.crown.holder.other,
         at_ := 5000000, rt := 5000000 }) ∧
    (let s := cr (fun c => { c with req := some .a, tallyAt := 5000000, last := { c.last with outcome := 3 } })
     s.crown.req = some .a ∧ s.crown.last.outcome = 3 ∧ s.crown.reqAt ≤ s.crown.tallyAt) := by decide +kernel

theorem wit_StagesGateWrites :
    ((FMap.get {} up.crown.stages 1 : Stage).lapsed = false ∧ (FMap.get {} up.crown.stages 1 : Stage).floor = 1 ∧
     (2 : Nat) ≠ (FMap.get {} up.crown.stages 5 : Stage).floor ∧ (2 ^ 32 - 1 : Nat) < 2 ^ 32) := by decide +kernel

def taking (b : Bool) : State := cr (fun c => { c with takeover := true, restored := b, takeAt := 4000000 })

theorem wit_TakeoversAndCheckpoints :
    (∀ b, (taking b).crown.takeover = true ∧ (taking b).crown.safe = false ∧ (taking b).crown.restored = b ∧
      (taking b).time.clk ≤ (taking b).crown.takeAt + 20000000 ∧
      (stageOf (taking b) (1 + (taking b).crown.holder.other.num)).floor ≤ (taking b).crown.claim) ∧
    ((mon up up.crown.holder).live = true ∧ (mon up up.crown.holder).halted = false ∧ up.crown.takeover = false ∧
     up.crown.supFail = false ∧ up.crown.ckptSlot ≤ 1 ∧ up.power.rails = true ∧ up.power.v52 = true) ∧
    (cr (fun c => { c with ckptSeq := 3 })).crown.ckptSeq ≠ 0 ∧
    (let s := cr (fun c => { c with monB := { c.monB with standby := 0 } })
     (mon s s.crown.holder.other).standby = 0) ∧
    (let s := cr (fun c => { c with monB := { c.monB with beatsFrom := some 4000000 } })
     (mon s s.crown.holder.other).beatsFrom = some 4000000 ∧ serving s = true ∧ s.crown.resync = false ∧
     (mon s s.crown.holder.other).standby = 2 ∧ s.crown.resyncAt = none ∧ deaf s s.crown.holder = false) := by
  refine ⟨fun b => by cases b <;> decide +kernel, ?_⟩
  decide +kernel

def ld (f : Ledger → Ledger) : State := { up with led := f up.led }
/-- A sheet of 255 receipts. -/
def sh : Sheet := { seq := 3, first := 0, count := 255 }

theorem wit_LedgerFramesAndSheets :
    (up.led.running = true ∧ up.led.spanFrom ≤ 0 ∧ up.led.tileEv = [] ∧ up.led.shut = none ∧
     (reportOf up .a up.led.nextFrame).isNone = true ∧ up.led.lateA = false ∧ up.led.lateB = false ∧
     up.led.nextFrame < up.led.spanFrom + 100 ∧ up.power.off = false ∧ up.power.shutdown = none) ∧
    (let s := ld (fun l => { l with reports := [⟨.a, 0, []⟩, ⟨.b, 0, []⟩] })
     (reportOf s .a s.led.nextFrame).isSome = true ∧ (reportOf s .b s.led.nextFrame).isSome = true) ∧
    (let s := ld (fun l => { l with nextFrame := 100 })
     s.led.spanFrom + 100 ≤ s.led.nextFrame) ∧
    (ld (fun l => { l with sheet := some sh })).led.sheet = some sh ∧
    (ld (fun l => { l with sheets := [sh] })).led.sheets = [sh] ∧ sh.block = [] := by decide +kernel

/-- A dispatched activation of a slot in its parts (0 control, 1 tile). -/
def actS (d : SlotDir) (standby what : Nat) : State := sent 2 (1 + 256 * what + 2 ^ 32 * 7) (slots d (cr (fun c => { c with standby := standby })))

theorem wit_FirmwareIsActivated :
    (let s := actS { staged := 2, verB := 7 } 0 1
     let d := { s.start.dir with pendRt := 0 }
     takenBy 2 (1 + 256 * 1 + 2 ^ 32 * 7) (slots { staged := 2, verB := 7 } (cr (fun c => { c with standby := 0 }))) ∧
     slotVer d 1 = fld (1 + 256 * 1 + 2 ^ 32 * 7) 63 32 ∧ partsChanged d 1 1 = (false, true)) ∧
    (let s := actS { staged := 2, verB := 7 } 0 0
     let d := { s.start.dir with pendRt := 0 }
     takenBy 2 (1 + 2 ^ 32 * 7) (slots { staged := 2, verB := 7 } (cr (fun c => { c with standby := 0 }))) ∧
     slotVer d 1 = fld (1 + 2 ^ 32 * 7) 63 32 ∧ partsChanged d 1 0 = (true, false) ∧ s.crown.standby = 0) ∧
    (actS { staged := 2, verB := 7 } 2 0).crown.standby ≠ 0 ∧
    (let s := cr (fun c => { c with activating := some 4900000 })
     s.crown.activating = some 4900000 ∧ s.time.clk ≤ 4900000 + 30000000 ∧ (mon s s.crown.holder).live = true ∧
     s.fw.actFail = false) :=
  ⟨⟨by rfl, by decide +kernel⟩, ⟨by rfl, by decide +kernel⟩, by decide +kernel⟩

def capturing (f : Trace → Trace) : State := { up with trA := f { up.trA with capture := true } }

theorem wit_TraceIsWritten :
    (let s := capturing (fun t => { t with bcnt := [110, 0, 0, 0], ringMib := 0 })
     (tr s .a).capture = true ∧ (mon s .a).halted = false ∧ nth (tr s .a).bcnt 0 < 111 ∧ (tr s .a).bcnt.length = 4 ∧
     (tr s .a).bmap.length = 4 ∧ nth (tr s .a).bcnt 3 = 0 ∧ (tr s .a).lost = [false, false, false, false] ∧
     (tr s .a).fifo.length < 4091 ∧ (tr s .a).ringMib = 0 ∧ nth (tr s .a).sinceSync 3 < 255 ∧ (tr s .a).sinceSync.length = 4) ∧
    (let s := capturing (fun t => { t with lost := [true, false, false, false], dropped := 2 ^ 32, ringMib := 0 })
     (tr s .a).lost = [true, false, false, false] ∧ (tr s .a).fifo = [] ∧ (tr s .a).ringMib = 0) := by decide +kernel

/-- A module whose management port answers. -/
def ms (f : Mgmt → Mgmt) : State := { tm (fun t => { t with clk := 10000000 }) with mgmt := f {} }

theorem wit_ManagementAnswers :
    (mgmtUp (ms id) = true ∧ (254 : BitVec 8) ≠ 0 ∧ (254 : BitVec 8) ≠ 255 ∧ (ledgerRead 1 0 30 none (ms id)).1 = stOk) ∧
    (let e : PlEvent := { ev := 1, rt := 0, detail := 0 }
     let s := ms (fun m => { m with receiver := some 9, events := [e] })
     s.mgmt.receiver = some 9 ∧ s.mgmt.events = [e] ∧ e.tried = false ∧ ({ e with tried := true } : PlEvent).tried = true) := by
  decide +kernel

theorem wit_SecurityRequests :
    (∀ n ≤ 3, mgmtUp (ms (fun m => { m with spdm := n })) = true ∧ (ms (fun m => { m with spdm := n })).mgmt.spdm = n) ∧
    (let s := ms (fun m => { m with spdm := 3 })
     (measureBytes s 0).isSome = true ∧ s.start.phase ≠ 7 ∧ serving s = true ∧ stageOpen s 5 = true) ∧
    (let s := slots { staged := 2, verB := 7 } (ms id)
     s.start.phase = 6 ∧ serving s = true ∧ s.start.dir.staged ≠ 0 ∧
     (match activate (s.start.dir.staged - 1) 2 0 s with
      | .ans a d _ _ => decide (a = stOk ∧ d = 0) | .stay _ _ => false) = true) := by decide +kernel

theorem wit_NumbersFollowTheRules :
    (fp32.decode 0x3F800000 = .fin false 0x800000 (-23) ∧ scaleExp 0xFE = some 127 ∧ (5 : Nat) ≠ 9 ∧
     (2 ^ 31 : Int) ≤ 2 ^ 31 ∧ (-2 ^ 31 - 1 : Int) < -2 ^ 31 ∧ (127 : Int) < 128 ∧ (-129 : Int) < -128) := by decide +kernel

theorem wit_FloatCodesRoundTrip : fp64.decode 1 = .fin false 1 (-1074) ∧ e2m1.decode 15 = .fin true 3 1 := by decide +kernel

/-- A property of the next state that a command answers. -/
def after (c : Instr) (s : State) (p : State → Bool) : Bool :=
  match exec c s with
  | .next t => p t
  | _ => false

/-- Both halves ask for the other half, whose cores are live. -/
def voting : State :=
  cr (fun c => { c with req := some .a, supStandby := 0, monA := {},
                        monB := { c.monB with sil1 := true, sil2 := true, standby := 0 } })

theorem wit_InvariantsOverSteps :
    after .joinNoticeSend (locked 5000000) (fun _ => true) = true ∧ ofInput .joinNoticeSend = false ∧
    ofMailbox (.openCmd 0 0) = true ∧ ofMailbox .joinNoticeSend = false ∧
    after .rackSyncEdge (armedS 5010000) (fun t => t.time.tq = .locked) = true ∧ (armedS 5010000).time.tq ≠ .locked ∧
    after (.voteTally (false, false, false) [true, true, true]) voting (fun t => t.crown.claim ≠ voting.crown.claim) = true := by
  decide +kernel

theorem wit_StepKeepsMemOk :
    (Memory.wf up.mem.phys = true ∧ Memory.wf up.mem.host = true ∧ Memory.wf up.comp.ts = true) ∧
    ∃ t, step up = .next t :=
  ⟨by decide +kernel, _, rfl⟩

-- ---------------------------------------------------------------- ill-formed commands

theorem test_wf_refuses_fields :
    (Instr.ownershipWrite .a 0 2 1 .clean).wf = false ∧ (Instr.ownershipWrite .a 0 4 (2 ^ 32) .clean).wf = false ∧
    (Instr.mailboxPageWrite .a 0 0xFFF [0, 0]).wf = false ∧ (Instr.componentLoad 7 .clean).wf = false ∧
    (Instr.railSequence []).wf = false ∧ (Instr.crownStartGrant []).wf = false ∧
    (Instr.proofWaveTestDone 0 [(2, 0)] [] .clean).wf = false ∧ (Instr.proofWaveTestDone 0 [(1, 68)] [] .clean).wf = false ∧
    (Instr.copyDone 0 { ue := [2 ^ 48] }).wf = false ∧ (Instr.linkBertEnd 0 [(2 ^ 64, 0)]).wf = false ∧
    (Instr.statusW1cWrite .a 0x10000 0).wf = false ∧ (Instr.memRead 0 (2 ^ 48) false false .clean).wf = false ∧
    (Instr.memWrite 0 63 [some 0, some 0] .clean .clean).wf = false ∧ (Instr.arbDecision 0 0 [{ port := 8 }] false).wf = false ∧
    (Instr.windowHostAccess .a 1 none {}).wf = false ∧ (Instr.windowHostAccess .a 0 (some []) {}).wf = false ∧
    (Instr.floorMessage 0 (2 ^ 32) true).wf = false ∧ (Instr.voteTally (false, false, false) []).wf = false ∧
    (Instr.engineCounterAdd .a 0 512 [] []).wf = false ∧ (Instr.frameReconcile 0 0).wf = false ∧
    (Instr.traceCrumb .a [1]).wf = false ∧ (Instr.setRackNumber 0x10000).wf = false ∧
    (Instr.renewPowerLease (2 ^ 32)).wf = false ∧ (Instr.setRackTime (2 ^ 64) false).wf = false := by decide +kernel

theorem test_wf_refuses_records :
    (Instr.putArrive 0 { destMid := 4096 }).wf = false ∧ (Instr.putArrive 0 { payload := List.replicate 4097 0 }).wf = false ∧
    (Instr.beaconArrive 0 { proto := 4 }).wf = false ∧ (Instr.negotiateDone 0 { port := 64 }).wf = false ∧
    (Instr.linkControlFlit 0 {}).wf = false ∧ (Instr.heartbeatArrive .a false false { standby := 3 }).wf = false ∧
    (Instr.activityReport .a 0 [{ ctx := 2 ^ 32 }]).wf = false ∧ (Instr.traceRecord .a 0 (.indirect 1)).wf = false ∧
    (Instr.codewordArrive 0 (some 16) []).wf = false := by decide +kernel

-- ---------------------------------------------------------------- one step each, expected results from the manual

/-- R137, R139: the greatest values of the 8-bit, 6-bit and 4-bit formats, and a block scale of 1. -/
theorem test_greatest_values :
    e4m3.decode 0x7E = .fin false 14 5 ∧ e4m3.decode 0x7F = .nan ∧ e5m2.decode 0x7B = .fin false 7 13 ∧
    e2m1.decode 7 = .fin false 3 1 ∧ scaleExp 127 = some 0 := by decide +kernel

/-- R381: engine counters saturate at 2^32 − 1. -/
theorem test_engine_counter_saturates :
    after (.engineCounterAdd .a 0 0 [] [0xFFFFFFFF, 1]) (owned { part0 with feCnt := 1 } up)
      (fun t => engCnt t .a 0 0 = 0xFFFFFFFF) = true := by decide +kernel

/-- R416, R417: a grant to the other half adds one to the claim number and no port serves until the takeover ends. -/
theorem test_vote_moves_the_crown :
    after (.voteTally (false, false, false) [true, true, true]) voting (fun t =>
      t.crown.claim = 2 && t.crown.holder = .b && !t.crown.portA && !t.crown.portB && t.crown.takeover) = true := by
  decide +kernel

/-- R53: an armed set loads all three counters at an edge and locks rack time. -/
theorem test_set_loads_at_an_edge :
    after .rackSyncEdge (armedS 5010000) (fun t => t.time.sup = 700000 && t.time.cntA = 700000 && t.time.cntB = 700000 &&
      t.time.epoch = 1 && t.time.setResult = 1) = true := by decide +kernel

/-- R288: an ownership write takes the next arrival number. -/
theorem test_ownership_write_numbers_the_arrival :
    after (.ownershipWrite .a 3 4 1 .clean) (setPage 3 { bytes := Memory.store [] 0x40 (natLe 20 (3 + 2 * 2 ^ 48)) } up)
      (fun t => (page t 3).own = 1 && (page t 3).arrival = 1 && t.mbx.nextA = 2) = true := by decide +kernel

/-- R421: a stage that has heard no floor message lapses and rejects the holder's write. -/
theorem test_lapsed_stage_rejects :
    after (.stageLapse 1) up (fun t => after (.stageWrite .a 1 1 true) t (fun u =>
      (FMap.get {} u.crown.stages 1 : Stage).rejects = 1 && u.cxlA = t.cxlA)) = true := by decide +kernel

/-- R117: a LOAD from context memory brings the line and counts its bytes. -/
theorem test_load_brings_a_line :
    after (.load 0 0 {}) (inMem (natLe 64 (0xA5 + 2 ^ 504)) (run0 (fun x => { x with qd := [dLoad] })))
      (fun t => localBytes t 0 0 64 = natLe 64 (0xA5 + 2 ^ 504)) = true := by decide +kernel

/-- R105, R107: a product of the BF16 values 2 and 3, written as FP32. -/
theorem test_mma_multiplies :
    after (.mma 0 0 {}) (storeLocal 0 0 (natLe 2 0x4000) (storeLocal 0 64 (natLe 2 0x4040)
      (run0 (fun x => { x with qm := [desc [(0, 1), (164, 3), (168, 3), (172, 2), (185, 1), (186, 1), (256, 1), (352, 64),
        (480, 128)]] })))) (fun t => localBytes t 0 128 4 = natLe 4 0x40C00000) = true := by decide +kernel

/-- The published check value of CRC-32C, over the digits 1 to 9 in ASCII. -/
theorem test_crc_check_value :
    crc32c [0x31#8, 0x32#8, 0x33#8, 0x34#8, 0x35#8, 0x36#8, 0x37#8, 0x38#8, 0x39#8] = 0xE3069283#32 := by decide +kernel

/-- R337: OPCODE, VC and SRC_MID of a PUT on VC5. -/
theorem test_header_flit :
    fld (headerWord false { opcode := 1, vc := 5, srcMid := 7 }) 7 0 = 1 ∧
    fld (headerWord false { opcode := 1, vc := 5, srcMid := 7 }) 10 8 = 5 ∧
    fld (headerWord false { opcode := 1, vc := 5, srcMid := 7 }) 39 28 = 7 := by decide +kernel

end Sys2Proof.Tests
end

namespace Sys2Proof
open Machine Claims

/-! # The frames of the commands

For every command, the zones that `Claims.touched` names are the only ones its next state differs in (`exec_runs`).
A frame `Only ps s t` is put together as the state is: `.after`, `.either`, `.fold` and their like follow an update of
an update, an `if` or a `foldl`, and add up the zones of their parts; `Only.sub` then compares the sum with the zones
named, by evaluation. -/

/-! ## Frames of updates, cases and folds -/

theorem Zone.sub_left (ps qs : List Zone) : Zone.sub ps (ps ++ qs) = true := by
  simp only [Zone.sub, List.all_eq_true, decide_eq_true_eq]
  exact fun _ h => List.mem_append_left _ h

theorem Zone.sub_right (ps qs : List Zone) : Zone.sub qs (ps ++ qs) = true := by
  simp only [Zone.sub, List.all_eq_true, decide_eq_true_eq]
  exact fun _ h => List.mem_append_right _ h

theorem Only.none (s : State) : Only [] s s := .refl _ _

theorem Only.left {ps qs : List Zone} {s t : State} (h : Only ps s t) : Only (ps ++ qs) s t :=
  h.sub (Zone.sub_left ps qs)

theorem Only.right {ps qs : List Zone} {s t : State} (h : Only qs s t) : Only (ps ++ qs) s t :=
  h.sub (Zone.sub_right ps qs)

theorem Only.after {ps qs : List Zone} {s t u : State} (k : Only qs t u) (h : Only ps s t)  : Only (ps ++ qs) s u :=
  k.step h.left (Zone.sub_right ps qs)

theorem Only.either {ps qs : List Zone} {s a b : State} {c : Prop} [Decidable c] (h : Only ps s a)
    (k : Only qs s b) : Only (ps ++ qs) s (if c then a else b) :=
  .ite (fun _ => h.left) fun _ => k.right

theorem Only.when {ps : List Zone} {s a : State} {c : Prop} [Decidable c] (h : Only ps s a) :
    Only ps s (if c then a else s) := .ite (fun _ => h) fun _ => .refl _ _

theorem Only.unless {ps : List Zone} {s a : State} {c : Prop} [Decidable c] (h : Only ps s a) :
    Only ps s (if c then s else a) := .ite (fun _ => .refl _ _) fun _ => h

theorem Only.fold {α : Type} {ps qs : List Zone} {s t : State} {f : State → α → State} {l : List α}
    (k : ∀ s x, Only qs s (f s x)) (h : Only ps s t) : Only (ps ++ qs) s (l.foldl f t) :=
  .foldl h.left fun s x => (k s x).right

theorem Only.guard {ps : List Zone} {s : State} {p : Bool} {f : State → State} (h : Only ps s (f s)) :
    Only ps s (Machine.onlyIf p f s) := .onlyIf (.refl _ _) h

theorem Only.branch {ps : List Zone} {s a b : State} {c : Prop} [Decidable c] (h : Only ps s a)
    (k : Only ps s b) : Only ps s (if c then a else b) :=
  .ite (fun _ => h) fun _ => k

/-! ## Frames of the replies of a firmware body -/

theorem Only.ok {ps : List Zone} {s t : State} {r} (h : Only ps s t) : Only ps s (repState (okRep r t)) := h

theorem Only.ans {ps : List Zone} {s t : State} {a b r} (h : Only ps s t) :
    Only ps s (repState (.ans a b r t)) := h

theorem Only.stay {ps : List Zone} {s t : State} {r} (h : Only ps s t) : Only ps s (repState (.stay r t)) := h

theorem Only.bad {ps : List Zone} {s t : State} {o} (h : Only ps s t) : Only ps s (repState (badArg o t)) := h

theorem Only.refused {ps : List Zone} {s t : State} {a b} (h : Only ps s t) :
    Only ps s (repState (refuse a b t)) := h

theorem Only.choice {ps qs : List Zone} {s : State} {a b : Rep} {c : Prop} [Decidable c]
    (h : Only ps s (repState a)) (k : Only qs s (repState b)) : Only (ps ++ qs) s (repState (if c then a else b)) := by
  split
  · exact h.left
  · exact k.right

theorem Only.repBranch {ps : List Zone} {s : State} {a b : Rep} {c : Prop} [Decidable c]
    (h : Only ps s (repState a)) (k : Only ps s (repState b)) : Only ps s (repState (if c then a else b)) := by
  split
  · exact h
  · exact k

theorem Only.unlessBad {ps : List Zone} {s : State} {r : Rep} {o : Nat} {c : Prop} [Decidable c]
    (h : Only ps s (repState r)) : Only ps s (repState (if c then badArg o s else r)) := by
  split
  · exact .refl _ _
  · exact h

theorem Only.unlessRefused {ps : List Zone} {s : State} {r : Rep} {a b : Nat} {c : Prop} [Decidable c]
    (h : Only ps s (repState r)) : Only ps s (repState (if c then refuse a b s else r)) := by
  split
  · exact .refl _ _
  · exact h

theorem Only.ofStay {ps : List Zone} {s t : State} {r : Rep} {c} (h : r = .stay c t)
    (k : Only ps s (repState r)) : Only ps s t := by subst h; exact k

theorem Only.ofAns {ps : List Zone} {s t : State} {r : Rep} {a b l} (h : r = .ans a b l t)
    (k : Only ps s (repState r)) : Only ps s t := by subst h; exact k

/-! ## Frames of the shared shapes of a command -/

theorem Only.op {ps : List Zone} {op : Nat} {body : Nat → Hdr → List Byte → RunCmd → State → Rep}
    {mb : Fin 128} {s : State} (h : ∀ k h pl rc, Only ps s (repState (body k h pl rc s))) :
    Only (ps ++ [.mbx, .win, .ctr, .crown]) s (runOp op body mb s) :=
  runOp_only (fun k h' pl rc => (h k h' pl rc).left) (Zone.sub_right _ _)

theorem Only.cmd {ps : List Zone} {op : Nat} {sel : List Byte → Bool}
    {body : Nat → Hdr → List Byte → RunCmd → State → Rep} {mb : Fin 128} {s : State}
    (h : ∀ k h pl rc, Only ps s (repState (body k h pl rc s))) :
    Only (ps ++ [.mbx, .win, .ctr, .crown]) s (runCmd op sel body mb s) :=
  runCmd_only (fun k h' pl rc => (h k h' pl rc).left) (Zone.sub_right _ _)

theorem Only.answered {ps : List Zone} {k op : Nat} {r : Rep} {s : State} (h : Only ps s (repState r)) :
    Only (ps ++ [.mbx, .crown]) s (answer k op r) := answer_only h.left (Zone.sub_right _ _)

theorem Only.mgmt {ps : List Zone} {f : State → State} {s : State} (h : Only ps s (f s)) : Only ps s (onMgmt f s) :=
  onMgmt_only (.refl _ _) h

theorem Only.spdm {ps : List Zone} {n : Nat} {f : State → State} {s : State} (h : Only ps s (f s)) :
    Only (ps ++ [.mgmt]) s (afterSpdm n f s) := afterSpdm_only h.left (Zone.sub_right _ _)

theorem Only.brake {ps : List Zone} {f : State → State} {s : State} (h : Only ps s (f s)) :
    Only (ps ++ [.mbx, .win, .ctr, .power, .mgmt]) s (brakeChange f s) :=
  brakeChange_only h.left (Zone.sub_right _ _)

theorem Only.seq {ps : List Zone} {op t ts reads check ready body} {s : State}
    (h : ∀ d u, Only ps u (body d u)) : Only (ps ++ tileZones) s (runSeq op t ts reads check ready body s) :=
  runSeq_only (fun d u => (h d u).left) (Zone.sub_right _ _)

theorem Only.unit {ps : List Zone} {q op t ts check reads body} {s : State}
    (h : ∀ d u, Only ps u (body d u).2) : Only (ps ++ tileZones) s (runUnit q op t ts check reads body s) :=
  runUnit_only (fun d u => (h d u).left) (Zone.sub_right _ _)

/-! ## Frames of record updates -/

theorem putPins_only (v : Pins) (s : State) : Only [.pins] s { s with pins := v } := by
  intro p hp; cases p <;> simp_all [Zone.same]

theorem putIdent_only (v : Ident) (s : State) : Only [.ident] s { s with ident := v } := by
  intro p hp; cases p <;> simp_all [Zone.same]

theorem putSched_only (v : Sched) (s : State) : Only [.sched] s { s with sched := v } := by
  intro p hp; cases p <;> simp_all [Zone.same]

theorem putMbx_only (v : Mbx) (s : State) : Only [.mbx] s { s with mbx := v } := by
  intro p hp; cases p <;> simp_all [Zone.same]

theorem putPower_only (v : Power) (s : State) : Only [.power] s { s with power := v } := by
  intro p hp; cases p <;> simp_all [Zone.same]

theorem putFlash_only (v : Flash) (s : State) : Only [.flash] s { s with flash := v } := by
  intro p hp; cases p <;> simp_all [Zone.same]

theorem putStart_only (v : Start) (s : State) : Only [.start] s { s with start := v } := by
  intro p hp; cases p <;> simp_all [Zone.same]

theorem putFw_only (v : Fw) (s : State) : Only [.fw] s { s with fw := v } := by
  intro p hp; cases p <;> simp_all [Zone.same]

theorem putBridge_only (v : Bool) (s : State) : Only [.bridge] s { s with brRetrain := v } := by
  intro p hp; cases p <;> simp_all [Zone.same]

theorem putTapNext_only (v : Nat) (s : State) : Only [.taps] s { s with tapNext := v } := by
  intro p hp; cases p <;> simp_all [Zone.same]

theorem putPhys_only (v : Memory) (s : State) : Only [.phys] s { s with mem := { s.mem with phys := v } } := by
  intro p hp; cases p <;> simp_all [Zone.same]

theorem putHost_only (v : Memory) (s : State) :
    Only [.hostMem] s { s with mem := { s.mem with host := v } } := by
  intro p hp; cases p <;> simp_all [Zone.same]

theorem putTier_only (v : Bool) (w : Nat) (s : State) :
    Only [.memMode] s { s with mem := { s.mem with tierOff := v, windowGib := w } } := by
  intro p hp; cases p <;> simp_all [Zone.same]

theorem putSnoop_only (v w x : List Nat) (s : State) :
    Only [.snoop] s { s with mem := { s.mem with filter := v, snoops := w, snoopBad := x } } := by
  intro p hp; cases p <;> simp_all [Zone.same]

theorem putSignals_only (v : List Signal) (s : State) :
    Only [.signals] s { s with comp := { s.comp with signals := v } } := by
  intro p hp; cases p <;> simp_all [Zone.same]

theorem putPinsStart_only (v : Pins) (w : Start) (s : State) :
    Only [.pins, .start] s { s with pins := v, start := w } :=
  (putStart_only w _).after (putPins_only v s)

theorem putPowerStart_only (v : Power) (w : Start) (s : State) :
    Only [.power, .start] s { s with power := v, start := w } :=
  (putStart_only w _).after (putPower_only v s)

theorem putFlashStart_only (v : Flash) (w : Start) (s : State) :
    Only [.flash, .start] s { s with flash := v, start := w } :=
  (putStart_only w _).after (putFlash_only v s)

theorem putFwStart_only (v : Fw) (w : Start) (s : State) :
    Only [.fw, .start] s { s with fw := v, start := w } :=
  (putStart_only w _).after (putFw_only v s)

theorem takeDispatch_only {a : Nat} {s t : State} {d : Dispatch} (h : takeDispatch a s = some (d, t)) :
    Only [.sched] s t := by
  unfold takeDispatch at h
  split at h
  · cases h
  · split at h
    · cases h; exact putSched_only _ _
    · cases h

/-! ## The commands, one by one -/

/-- The command answers a next state and changes no zone but those that `Claims.touched` names for it. -/
abbrev Framed (c : Instr) (s : State) : Prop := Runs (touched c) s (exec c s)

theorem Runs.within {ps qs : List Zone} {s t : State} (h : Only qs s t) (hs : Zone.sub qs ps = true) :
    Runs ps s (.next t) := .next (h.sub hs)

/-! ### Power-on and start (R532-R541) -/

theorem execPowerOn52v_only (slotId flashRead) (s : State) : Framed (.powerOn52v slotId flashRead) s :=
  .within (.unless (.after (.either (supervisorStart_only _ _) (modStart_only _ _))
    (.after (putIdent_only _ _) (.after (modPower_only _ _) (powerLost_only _))))) rfl

theorem execInputLoss52v_only (s : State) : Framed .inputLoss52v s := .within (powerLost_only _) rfl

theorem execAux3v3Loss_only (s : State) : Framed .aux3v3Loss s :=
  .within (.after (.when (event_only _ _ _ _ _)) (putPins_only _ _)) rfl

theorem execRailSequence_only (outcomes) (s : State) : Framed (.railSequence outcomes) s := by
  refine .next (.unless ?_)
  dsimp only
  split
  · exact .sub (.after (startFailed_only _ _ _) (advance_only _ _)) rfl
  · exact .sub (.after (trainAll_only _) (.after (modPower_only _ _)
      (.after (modStart_only _ _) (advance_only _ _)))) rfl

theorem execCrownStartGrant_only (verified) (s : State) : Framed (.crownStartGrant verified) s :=
  .within (.unless (.after (startGrant_only _ _ _) (modStart_only _ _))) rfl

theorem execCrownStartLiveTimeout_only (verified) (s : State) : Framed (.crownStartLiveTimeout verified) s := by
  refine .next ?_
  split
  · exact .refl _ _
  · exact .sub (.unless (.after (.either (startFailed_only _ _ _)
      (.after (modCrown_only _ _) (.after (startGrant_only _ _ _) (modStart_only _ _))))
      (.after (modMon_only _ _ _) (waitUntil_only _ _)))) rfl

theorem execComponentLoad_only (comp outcome) (s : State) : Framed (.componentLoad comp outcome) s :=
  .within (.unless (.either (startFailed_only _ _ _) (.after (.when (modStart_only _ _)) (modStart_only _ _)))) rfl

theorem execProofWavePower_only (k) (s : State) : Framed (.proofWavePower k) s :=
  .within (.unless (.fold (fun _ _ => modCluster_only _ _ _) (.unless (advance_only _ _)))) rfl

theorem execProofWaveTestDone_only (k badTiles badClusters flash) (s : State) :
    Framed (.proofWaveTestDone k badTiles badClusters flash) s :=
  .within (.unless (.after (modStart_only _ _) (.fold (fun _ _ => mapCluster_only _ _)
    (.fold (fun _ _ => addDefect_only _ _ _ _ _) (.fold (fun _ _ => addDefect_only _ _ _ _ _) (.none _)))))) rfl

theorem execMemTrainDone_only (dev outcome) (s : State) : Framed (.memTrainDone dev outcome) s :=
  .within (.unless (.either (modMc_only _ _ _) (.after (.either (startFailed_only _ _ _) (putTier_only _ _ _))
    (modMc_only _ _ _)))) rfl

theorem execSettingsDigestCompute_only (s : State) : Framed .settingsDigestCompute s :=
  .within (.when (modStart_only _ _)) rfl

theorem execReady_only (s : State) : Framed .ready s :=
  .within (.unless (.after (plEvent_only _ _ _) (.after (vector0_only _) (modStart_only _ _)))) rfl

theorem execDefectRewriteTimer_only (flash) (s : State) : Framed (.defectRewriteTimer flash) s :=
  .within (.unless (.after (putFlashStart_only _ _ _) (flashTry_only _ _ _ _ _))) rfl

theorem execSlotIdSample_only (slotId) (s : State) : Framed (.slotIdSample slotId) s :=
  .within (.unless (.after (.unless (.after (.unless (plEvent_only _ _ _)) (putIdent_only _ _)))
    (putIdent_only _ _))) rfl

/-! ### Rack time and schedule (R42-R72) -/

theorem execRackSyncEdge_only (s : State) : Framed .rackSyncEdge s := by
  refine .next (.unless (.branch (.sub (slip_only _ _) rfl) ?_))
  dsimp only
  split
  · exact .sub (.when (.after (.unless (discipline_only _ _)) (modTime_only _ _))) rfl
  · exact .sub (.after (.unless (.either (cancelSet_only _ _)
      (.either (cancelSet_only _ _) (.either (cancelSet_only _ _) (loadTime_only _ _)))))
      (.when (.after (.unless (discipline_only _ _)) (modTime_only _ _)))) rfl

theorem execRackClkLoss_only (s : State) : Framed .rackClkLoss s :=
  .within (.after (.unless (.after (.when (cancelSet_only _ _))
    (.after (.when (.after (rtFlag_only _ _) (modTime_only _ _))) (advance_only _ _)))) (putPins_only _ _)) rfl

theorem execSyncMissing_only (s : State) : Framed .syncMissing s :=
  .within (.unless (.unless (.after (slip_only _ _) (.after (modTime_only _ _) (waitCount_only _ _))))) rfl

theorem execRackSetTimeout_only (s : State) : Framed .rackSetTimeout s := by
  refine .next ?_
  split
  · exact .refl _ _
  · exact .sub (.after (cancelSet_only _ _) (waitUntil_only _ _)) rfl

theorem execFrameStart_only (driftA driftB) (s : State) : Framed (.frameStart driftA driftB) s :=
  .within (.unless (.after (.unless (.after (beaconFrame_only _)
    (.after (putStart_only _ _) (.after (compareHalf_only _ _ _) (compareHalf_only _ _ _)))))
    (.after (thermalUpdate_only _) (waitCount_only _ _)))) rfl

theorem execSchedDispatch_only (s : State) : Framed .schedDispatch s := by
  refine .next ?_
  split
  · exact .refl _ _
  · exact .sub (.after (putSched_only _ _) (.fold (fun _ _ => dispatchOne_only _ _ _)
      (.after (.when (advance_only _ _)) (waitCount_only _ _)))) rfl

theorem execPowerTarget_only (s : State) : Framed .powerTarget s :=
  .within (.unless (.after (modPower_only _ _) (.after (capUpdate_only _)
    (.fold (fun _ _ => applyTarget_only _ _) (putSched_only _ _))))) rfl

theorem execFwActivateExecute_only (s : State) : Framed .fwActivateExecute s := by
  refine .next ?_
  split
  · exact .refl _ _
  · exact .sub (.after (.either (actDone_only _ _) (.after
      (.either (actDone_only _ _) (.either (actDone_only _ _) (activateControl_only _ _)))
      (.when (activateTiles_only _ _)))) (.after (putFwStart_only _ _ _) (takeDispatch_only ‹_›))) rfl

theorem execTraceOpen_only (s : State) : Framed .traceOpen s := by
  refine .next ?_
  split
  · exact .sub (.after (startCapture_only _ _) (.after (startCapture_only _ _) (takeDispatch_only ‹_›))) rfl
  · exact .refl _ _

theorem execTraceClose_only (s : State) : Framed .traceClose s := by
  refine .next ?_
  split
  · exact .sub (.after (stopTrace_only _) (takeDispatch_only ‹_›)) rfl
  · exact .refl _ _

theorem execTapEnable_only (s : State) : Framed .tapEnable s := by
  refine .next ?_
  split
  · exact .refl _ _
  · dsimp only
    split
    · exact .sub (.after (.unless (.fold (fun _ _ => .fold (fun _ _ => .unless (modTile_only _ _ _)) (.none _))
        (.none _))) (takeDispatch_only ‹_›)) rfl
    · exact .sub (takeDispatch_only ‹_›) rfl

theorem execTransitWithdrawTick_only (flash) (s : State) : Framed (.transitWithdrawTick flash) s := by
  refine .next ?_
  split
  · exact .refl _ _
  · exact .sub (.after (.either (.after (holdCredits_only _) (modFab_only _ _)) (disablePort_only _ _))
      (.after (endWithdrawEntry_only _ _) (.after (modFab_only _ _)
      (.after (swapDue_only _ _ _) (waitCount_only _ _))))) rfl

theorem execHostEvent_only (s : State) : Framed .hostEvent s := by
  refine .next ?_
  split
  · exact .refl _ _
  · exact .sub (.after (msix_only _ _ _) (takeDispatch_only ‹_›)) rfl

theorem execWithdrawDrainEnd_only (s : State) : Framed .withdrawDrainEnd s := by
  refine .next ?_
  split
  · exact .refl _ _
  · exact .sub (.after (.when (moduleReset_only _)) (.fold
      (fun _ _ => .unless (.after (setQueue_only _ _ _) (.after (count_only _ _ _ _)
      (.fold (fun _ _ => freeIn_only _ _ _) (.none _))))) (.after (modFab_only _ _) (waitUntil_only _ _)))) rfl

/-! ### The mailbox hardware (R274-R302) -/

theorem execOwnershipWrite_only (port mb size data parity) (s : State) :
    Framed (.ownershipWrite port mb size data parity) s :=
  .within (.unless (.either (event_only _ _ _ _ _) (.either (submit_only _ _ _ _) (.when (setPage_only _ _ _)))))
    rfl

theorem execMailboxPageWrite_only (port mb off bytes) (s : State) :
    Framed (.mailboxPageWrite port mb off bytes) s :=
  .within (.unless (.either (event_only _ _ _ _ _) (setPage_only _ _ _))) rfl

theorem execMailboxWatchdog_only (port mb) (s : State) : Framed (.mailboxWatchdog port mb) s := by
  refine .next ?_
  split
  · exact .refl _ _
  · exact .sub (.unless (.after (watchdogAnswer_only _ _) (.after (event_only _ _ _ _ _) (waitUntil_only _ _)))) rfl

/-! ### The command set (R303-R316); each names the mailbox of the crown's port -/

theorem execOpenCmd_only (mb drawn) (s : State) : Framed (.openCmd mb drawn) s := by
  refine .next (runOp_only (fun _ _ _ _ => ?_) rfl)
  split
  · exact .refl _ _
  · exact .sub (.unlessBad (.unlessRefused (.ok (openCtx_only _ _ _ _ _)))) rfl

theorem execCloseCmd_only (mb) (s : State) : Framed (.closeCmd mb) s :=
  .within (.op (fun _ _ _ _ => .choice (.stay (.none _))
    (.choice (.ok (.after (finishClose_only _ _) (modCtx_only _ _ _)))
    (.stay (.fold (fun _ _ => resetToDestroy_only _ _ _) (modCtx_only _ _ _)))))) rfl

theorem execQueryCaps_only (mb) (s : State) : Framed (.queryCaps mb) s := by
  refine .next (runOp_only (fun _ _ _ _ => ?_) rfl)
  split <;> exact .refl _ _

theorem execQueryStatus_only (mb) (s : State) : Framed (.queryStatus mb) s := by
  refine .next (runOp_only (fun _ _ _ _ => ?_) rfl)
  split
  · exact .refl _ _
  · split
    · exact .sub (.choice (.ok (.none _)) (.bad (.none _))) rfl
    · exact .refl _ _
  · split <;> exact .refl _ _
  · exact .refl _ _

theorem execAlloc_only (mb) (s : State) : Framed (.alloc mb) s := by
  refine .next (runOp_only (fun _ _ _ _ => .unlessBad (.unlessBad (.unlessBad (.unlessBad ?_)))) rfl)
  refine .unlessBad ?_
  split
  · exact .sub (.ok (place_only _ _ _ _ _ _ _ _ _)) rfl
  · exact .refl _ _

theorem execFree_only (mb) (s : State) : Framed (.free mb) s := by
  refine .next (runOp_only (fun _ _ _ _ => ?_) rfl)
  dsimp only
  split
  · exact .sub (.ok (.after (failUsers_only _ _ _ _) (freeAlloc_only _ _ _))) rfl
  · exact .refl _ _

theorem execMapProtect_only (mb) (s : State) : Framed (.mapProtect mb) s := by
  refine .next (runCmd_only (fun _ _ _ _ => .unlessBad ?_) rfl)
  split
  · exact .refl _ _
  · exact .sub (.unlessBad (.ok (setMaps_only _ _ _ _ _))) rfl

theorem execMapUnmap_only (mb) (s : State) : Framed (.mapUnmap mb) s := by
  refine .next (runCmd_only (fun _ _ _ _ => ?_) rfl)
  dsimp only
  split
  · exact .refl _ _
  · exact .sub (.ok (.after (failUsers_only _ _ _ _) (setMaps_only _ _ _ _ _))) rfl

theorem execMapWindow_only (mb) (s : State) : Framed (.mapWindow mb) s :=
  .within (.cmd (fun _ _ _ _ => .unlessBad (.unlessBad
    (.unlessBad (.unlessBad (.unlessBad (.ok (setMaps_only _ _ _ _ _)))))))) rfl

theorem execCopy_only (mb) (s : State) : Framed (.copy mb) s :=
  .within (.op (fun _ _ _ _ => .unlessBad (.unlessBad (.unlessBad (.stay (.none _)))))) rfl

theorem execCopyDone_only (mb env) (s : State) : Framed (.copyDone mb env) s := by
  refine .next ?_
  split
  · exact .refl _ _
  · exact .sub (.either (issueSnoops_only _ _) (.unless
      (.after (respond_only _ _ _ _ _) (moveAll_only _ _ _ _ _ _ _)))) rfl

theorem execTierMove_only (mb) (s : State) : Framed (.tierMove mb) s := by
  refine .next (runOp_only (fun _ _ _ _ => .unlessBad ?_) rfl)
  split <;> exact .refl _ _

theorem execTierMoveDescStart_only (mb n half mover) (s : State) :
    Framed (.tierMoveDescStart mb n half mover) s := by
  refine .next ?_
  split
  · exact .refl _ _
  · dsimp only
    split
    · exact .sub (.unless (.after (setRun_only _ _ _) (waitCount_only _ _))) rfl
    · exact .refl _ _

theorem execTierMoveDescDone_only (mb n env) (s : State) : Framed (.tierMoveDescDone mb n env) s := by
  refine .next ?_
  split
  · exact .refl _ _
  · split
    · exact .refl _ _
    · refine .branch (.sub (tierMoveEnd_only _ _ _) rfl) (.branch (.sub (issueSnoops_only _ _) rfl) ?_)
      refine .unless (.step (tierMoveEnd_only _ _ _) (.step (setRun_only _ _ _) (.branch ?_ ?_) rfl) rfl)
      · refine .step (count_only _ _ _ _) (.step (count_only _ _ _ _) ?_ rfl) rfl
        split
        · exact .sub (.after (moverSignal_only _ _ _ _) (moveAll_only _ _ _ _ _ _ _)) rfl
        · exact .sub (.after (event_only _ _ _ _ _) (moveAll_only _ _ _ _ _ _ _)) rfl
      · refine .step (count_only _ _ _ _) ?_ rfl
        split
        · exact .sub (.after (moverSignal_only _ _ _ _) (moveAll_only _ _ _ _ _ _ _)) rfl
        · exact .sub (.after (event_only _ _ _ _ _) (moveAll_only _ _ _ _ _ _ _)) rfl

theorem execPartCreate_only (mb) (s : State) : Framed (.partCreate mb) s := by
  refine .next (runOp_only (fun _ _ _ _ => ?_) rfl)
  split
  · exact .refl _ _
  · refine .unlessRefused ?_
    split
    · exact .sub (.unlessRefused (.ok (createPart_only _ _ _ _ _ _))) rfl
    · exact .refl _ _

theorem execPartDestroy_only (mb) (s : State) : Framed (.partDestroy mb) s := by
  refine .next (runOp_only (fun _ _ _ _ => ?_) rfl)
  dsimp only
  split
  · exact .refl _ _
  · exact .sub (.choice (.stay (resetToDestroy_only _ _ _))
      (.unlessRefused (.unlessRefused (.ok (destroyPart_only _ _))))) rfl

theorem execRecipeLoad_only (mb) (s : State) : Framed (.recipeLoad mb) s :=
  .within (.op (fun _ _ _ _ => .unlessBad (.stay (.none _)))) rfl

theorem execRecipeUnload_only (mb) (s : State) : Framed (.recipeUnload mb) s :=
  .within (.op (fun _ _ _ _ => .unlessBad (.unlessRefused
    (.ok (.after (modCtx_only _ _ _) (.fold (fun _ _ => freeAlloc_only _ _ _) (.none _))))))) rfl

theorem execLaunch_only (mb) (s : State) : Framed (.launch mb) s := by
  refine .next (runOp_only (fun _ _ _ _ => ?_) rfl)
  dsimp only
  split
  · exact .refl _ _
  · split
    · exact .refl _ _
    · split
      · exact .refl _ _
      · exact .sub (.ok (.after (setPart_only _ _ _) (.after (modCtx_only _ _ _) (.when (takeFree_only _))))) rfl

theorem execLaunchPrepare_only (part) (s : State) : Framed (.launchPrepare part) s := by
  refine .next ?_
  split
  · split
    · exact .refl _ _
    · exact .sub (.unless (.after (modLaunch_only _ _ _ _)
        (.fold (fun _ _ => loadTile_only _ _ _ _ _) (.fold (fun _ _ => modCluster_only _ _ _) (.none _))))) rfl
  · exact .refl _ _

theorem execLaunchStart_only (part) (s : State) : Framed (.launchStart part) s := by
  refine .next ?_
  split
  · split
    · exact .refl _ _
    · dsimp only
      split
      · exact .refl _ _
      · exact .sub (.unless (.after (startHalves_only _ _ _ _ _) (advance_only _ _))) rfl
  · exact .refl _ _

theorem execLaunchDone_only (part) (s : State) : Framed (.launchDone part) s := by
  refine .next ?_
  split
  · exact .sub (.unless (endLaunch_only _ _ _ _)) rfl
  · exact .refl _ _

theorem execWaitCmd_only (mb) (s : State) : Framed (.waitCmd mb) s := by
  refine .next (runOp_only (fun _ _ _ _ => ?_) rfl)
  dsimp only
  split
  · exact .refl _ _
  · exact .sub (.unlessBad (.choice (.ok (.none _)) (.stay (.none _)))) rfl

theorem execWaitTimeout_only (mb) (s : State) : Framed (.waitTimeout mb) s := by
  refine .next ?_
  split
  · exact .refl _ _
  · dsimp only
    split
    · exact .sub (.after (respond_only _ _ _ _ _) (waitUntil_only _ _)) rfl
    · exact .sub (.after (respond_only _ _ _ _ _) (waitUntil_only _ _)) rfl

theorem execAbortCmd_only (mb) (s : State) : Framed (.abortCmd mb) s := by
  refine .next (runOp_only (fun _ _ _ _ => ?_) rfl)
  split
  · exact .sub (abortOne_only _ _ _ _) rfl
  · exact .sub (abortAll_only _ _ _ _) rfl
  · exact .refl _ _

theorem execGroupCreate_only (mb) (s : State) : Framed (.groupCreate mb) s := by
  refine .next (afterSnoops_only (runOp_only (fun _ _ _ _ => .unlessBad ?_) rfl) rfl)
  split
  · exact .refl _ _
  · refine .unlessBad ?_
    split
    · exact .sub (.refused (bundleNote_only _ _ _ _ _ _)) rfl
    · exact .sub (.choice (.bad (bundleNote_only _ _ _ _ _ _))
        (.choice (.bad (bundleNote_only _ _ _ _ _ _)) (.choice (.bad (bundleNote_only _ _ _ _ _ _))
        (.choice (.bad (bundleNote_only _ _ _ _ _ _)) (.choice (.refused (bundleNote_only _ _ _ _ _ _))
        (.choice (.refused (bundleNote_only _ _ _ _ _ _))
        (.ok (.after (modEng_only _ _) (bundleNote_only _ _ _ _ _ _))))))))) rfl

theorem execGroupDestroy_only (mb) (s : State) : Framed (.groupDestroy mb) s := by
  refine .next (runOp_only (fun _ _ _ _ => ?_) rfl)
  dsimp only
  split
  · exact .refl _ _
  · exact .sub (.unlessBad (.unlessRefused (.ok (modEng_only _ _)))) rfl

theorem execRouteLoad_only (mb env) (s : State) : Framed (.routeLoad mb env) s := by
  refine .next (afterSnoops_only (runOp_only (fun _ _ _ _ => .unlessBad (.unlessBad ?_)) rfl) rfl)
  refine .unlessBad (.repBranch (.sub (.bad (bundleNote_only _ _ _ _ _ _)) rfl) ?_)
  refine .repBranch (.sub (.bad (bundleNote_only _ _ _ _ _ _)) rfl) ?_
  refine .repBranch (.sub (.refused (bundleNote_only _ _ _ _ _ _)) rfl) ?_
  split
  · exact .sub (.refused (bundleNote_only _ _ _ _ _ _)) rfl
  · exact .sub (.ok (.after (modFab_only _ _) (bundleNote_only _ _ _ _ _ _))) rfl

theorem execRouteTableSwap_only (flash) (s : State) : Framed (.routeTableSwap flash) s := by
  refine .next ?_
  split
  · exact .refl _ _
  · exact .sub (.after (swapTable_only _ _) (waitCount_only _ _)) rfl

theorem execLinkCtlDisable_only (mb) (s : State) : Framed (.linkCtlDisable mb) s := by
  refine .next (runCmd_only (fun _ _ _ _ => ?_) rfl)
  split
  · exact .refl _ _
  · dsimp only
    split
    · exact .refl _ _
    · exact .sub (.ok (.after (.when (sendOn_only _ _ _)) (schedPut_only _ _ _ _ _ _ _ _))) rfl

theorem execLinkCtlEnable_only (mb) (s : State) : Framed (.linkCtlEnable mb) s :=
  .within (.cmd (fun _ _ _ _ => linkTrain_only _ _ _)) rfl

theorem execLinkCtlRetrain_only (mb) (s : State) : Framed (.linkCtlRetrain mb) s :=
  .within (.cmd (fun _ _ _ _ => linkTrain_only _ _ _)) rfl

theorem execLinkBert_only (mb peerTests) (s : State) : Framed (.linkBert mb peerTests) s :=
  .within (.op (fun _ _ _ _ => .unlessBad (.stay (.fold
    (fun _ _ => .after (setPortSt_only _ _ _) (modPort_only _ _ _)) (.none _))))) rfl

theorem execLinkBertEnd_only (mb counts) (s : State) : Framed (.linkBertEnd mb counts) s := by
  refine .next ?_
  split
  · exact .refl _ _
  · refine .branch (.sub (bertSettle_only _) rfl) ?_
    dsimp only
    split
    · exact .sub (.after (bertSettle_only _) (.after (setRun_only _ _ _)
        (.fold (fun _ _ => testEnds_only _ _) (waitUntil_only _ _)))) rfl
    · exact .sub (.after (setRun_only _ _ _) (.fold (fun _ _ => testEnds_only _ _) (waitUntil_only _ _))) rfl

theorem execTimeQuery_only (mb) (s : State) : Framed (.timeQuery mb) s :=
  .within (.op (fun _ _ _ _ => .ok (.none _))) rfl

theorem execSchedAdd_only (mb) (s : State) : Framed (.schedAdd mb) s := by
  refine .next (runOp_only (fun _ _ _ _ => .unlessBad (.unlessBad (.unlessBad ?_))) rfl)
  split
  · exact .refl _ _
  · exact .sub (.ok (schedPut_only _ _ _ _ _ _ _ _)) rfl

theorem execSchedCancel_only (mb) (s : State) : Framed (.schedCancel mb) s := by
  refine .next (runOp_only (fun _ _ _ _ => ?_) rfl)
  split
  · exact .refl _ _
  · exact .sub (.unlessBad (.choice (.ok (.after (putFwStart_only _ _ _) (schedEnd_only _ _ _)))
      (.ok (schedEnd_only _ _ _)))) rfl

theorem execPowerSet_only (mb) (s : State) : Framed (.powerSet mb) s :=
  .within (.op (fun _ _ _ _ => .unlessBad (.unlessRefused
    (.ans (.after (.either (.after (capUpdate_only _) (modPower_only _ _)) (schedPut_only _ _ _ _ _ _ _ _))
    (.after (dropLowering_only _ _) (schedEnd_only _ _ _))))))) rfl

theorem execPowerQuery_only (mb) (s : State) : Framed (.powerQuery mb) s :=
  .within (.op (fun _ _ _ _ => .ok (.none _))) rfl

theorem execReqOpen_only (mb) (s : State) : Framed (.reqOpen mb) s :=
  .within (.op (fun _ _ _ _ => reqBody_only _ _ _ _)) rfl

theorem execReqClose_only (mb) (s : State) : Framed (.reqClose mb) s :=
  .within (.op (fun _ _ _ _ => reqBody_only _ _ _ _)) rfl

theorem execLedgerRead_only (mb) (s : State) : Framed (.ledgerRead mb) s :=
  .within (.op (fun _ _ _ _ => .unlessBad (.ans (ledgerRead_only _ _ _ _ _)))) rfl

theorem execMethodSet_only (mb flash) (s : State) : Framed (.methodSet mb flash) s := by
  refine .next (runOp_only (fun _ _ _ _ => .unlessBad (.unlessBad (.unlessBad ?_))) rfl)
  refine .unlessRefused ?_
  split
  · exact .sub (.refused (.ofSnd ‹_ = (_, _)› (recordSettings_only _ _ _))) rfl
  · exact .sub (.ok (.after (modLed_only _ _) (.ofSnd ‹_ = (_, _)› (recordSettings_only _ _ _)))) rfl

theorem execConfigStop_only (mb) (s : State) : Framed (.configStop mb) s := by
  refine .next (runOp_only (fun _ _ _ _ => .unlessBad ?_) rfl)
  split
  · exact .sub (.choice (.ok (.none _)) (.refused (.none _))) rfl
  · exact .sub (.ok (setStop_only _ _ _)) rfl

theorem execConfigWrite_only (mb) (s : State) : Framed (.configWrite mb) s := by
  refine .next (runOp_only (fun _ _ _ _ => .unlessBad (.unlessBad ?_)) rfl)
  split
  · exact .refl _ _
  · split
    · exact .refl _ _
    · exact .sub (.unlessRefused (.ok (setStop_only _ _ _))) rfl

theorem execConfigStart_only (mb flash) (s : State) : Framed (.configStart mb flash) s := by
  refine .next (runOp_only (fun _ _ _ _ => .unlessBad ?_) rfl)
  split
  · exact .refl _ _
  · refine .unlessRefused (.repBranch (.sub (.ok (setStop_only _ _ _)) rfl) (.unlessBad ?_))
    split
    · exact .sub (.refused (.ofSnd ‹_ = (_, _)› (recordSettings_only _ _ _))) rfl
    · exact .sub (.ok (.after (setStop_only _ _ _) (.fold (fun _ _ => applyKey_only _ _)
        (.ofSnd ‹_ = (_, _)› (recordSettings_only _ _ _))))) rfl

theorem execSettingsWrite_only (mb flash) (s : State) : Framed (.settingsWrite mb flash) s := by
  refine .next (runOp_only (fun _ _ _ _ => ?_) rfl)
  split
  · exact .refl _ _
  · exact .refl _ _
  · split
    · exact .sub (.refused (.ofSnd ‹_ = (_, _)› (recordSettings_only _ _ _))) rfl
    · exact .sub (.ok (.ofSnd ‹_ = (_, _)› (recordSettings_only _ _ _))) rfl

theorem execDigestQuery_only (mb) (s : State) : Framed (.digestQuery mb) s :=
  .within (.op (fun _ _ _ _ => .ok (.none _))) rfl

theorem execFwStage_only (mb flash) (s : State) : Framed (.fwStage mb flash) s := by
  refine .next (afterSnoops_only (runOp_only (fun _ _ _ _ => .unlessBad (.unlessBad ?_)) rfl) rfl)
  dsimp only
  split
  · exact .sub (.refused (bundleNote_only _ _ _ _ _ _)) rfl
  · split
    · exact .sub (.refused (bundleNote_only _ _ _ _ _ _)) rfl
    · exact .sub (.choice (.after (stageFactory_only _ _ _) (bundleNote_only _ _ _ _ _ _))
        (.stay (.after (putFw_only _ _) (bundleNote_only _ _ _ _ _ _)))) rfl

theorem execFwActivate_only (mb) (s : State) : Framed (.fwActivate mb) s :=
  .within (.op (fun _ _ _ _ => activate_only _ _ _ _)) rfl

theorem execFwQuery_only (mb) (s : State) : Framed (.fwQuery mb) s :=
  .within (.op (fun _ _ _ _ => .ok (.none _))) rfl

theorem execTraceCtlWindow_only (mb) (s : State) : Framed (.traceCtlWindow mb) s := by
  refine .next (runCmd_only (fun _ _ _ _ => .unlessBad (.unlessBad (.unlessBad (.unlessBad ?_)))) rfl)
  refine .unlessBad (.unlessRefused ?_)
  split
  · exact .refl _ _
  · refine .repBranch (.sub (.ok (schedPut_only _ _ _ _ _ _ _ _)) rfl) ?_
    split
    · exact .refl _ _
    · exact .sub (.ok (.after (setArg_only _ _ _) (.after (setArg_only _ _ _)
        (.after (schedPut_only _ _ _ _ _ _ _ _) (schedPut_only _ _ _ _ _ _ _ _))))) rfl

theorem execTraceCtlCloseAll_only (mb) (s : State) : Framed (.traceCtlCloseAll mb) s :=
  .within (.cmd (fun _ _ _ _ => .unlessRefused (.ok (.after (stopTrace_only _) (schedEndAll_only _ _ _))))) rfl

theorem execTraceCtlRingSize_only (mb flash) (s : State) : Framed (.traceCtlRingSize mb flash) s := by
  refine .next (runCmd_only (fun _ _ _ _ => .unlessBad (.unlessRefused ?_)) rfl)
  split
  · exact .sub (.refused (.ofSnd ‹_ = (_, _)› (recordSettings_only _ _ _))) rfl
  · exact .sub (.ok (.after (ringSize_only _ _) (.ofSnd ‹_ = (_, _)› (recordSettings_only _ _ _)))) rfl

theorem execTapArm_only (mb) (s : State) : Framed (.tapArm mb) s := by
  refine .next (runOp_only (fun _ _ _ _ => ?_) rfl)
  dsimp only
  split
  · exact .refl _ _
  · split
    · exact .refl _ _
    · split
      · exact .refl _ _
      · refine .unlessBad (.unlessBad (.unlessRefused (.unlessRefused ?_)))
        split
        · exact .sub (.ok (.after (putTapNext_only _ _) (.after (setTap_only _ _ _)
            (schedPut_only _ _ _ _ _ _ _ _)))) rfl
        · exact .refl _ _

theorem execTapRead_only (mb) (s : State) : Framed (.tapRead mb) s := by
  refine .next (runOp_only (fun _ _ _ _ => ?_) rfl)
  dsimp only
  split
  · exact .sub (.choice (.refused (setTap_only _ _ _)) (.choice (.ok (.none _))
      (.choice (.ok (setTap_only _ _ _)) (.choice (.refused (physNote_only _ _ _ _))
      (.ok (.after (putHost_only _ _) (physNote_only _ _ _ _))))))) rfl
  · exact .refl _ _

theorem execCounterRead_only (mb) (s : State) : Framed (.counterRead mb) s :=
  .within (.op (fun _ _ _ _ => .unlessBad (.unlessBad (.unlessBad
    (.ok (.when (.fold (fun _ _ => ctrClear_only _ _ _) (.none _)))))))) rfl

theorem execInject_only (mb) (s : State) : Framed (.inject mb) s := by
  refine .next (runOp_only (fun _ _ _ _ => .unlessBad ?_) rfl)
  split
  · exact .refl _ _
  · exact .sub (.unlessBad (.unlessRefused (.ok (setWin_only _ _ _)))) rfl

theorem execResetPart_only (mb) (s : State) : Framed (.resetPart mb) s := by
  refine .next (runOp_only (fun _ _ _ _ => ?_) rfl)
  dsimp only
  split
  · exact .refl _ _
  · exact .sub (.stay (fencePart_only _ _ _ _ _ _)) rfl

theorem execResetCluster_only (mb) (s : State) : Framed (.resetCluster mb) s := by
  refine .next (runOp_only (fun _ _ _ _ => ?_) rfl)
  dsimp only
  split
  · exact .refl _ _
  · split
    · exact .refl _ _
    · exact .sub (.ok (.after (closeWins_only _ _) (zeroCluster_only _ _))) rfl

theorem execResetTile_only (mb) (s : State) : Framed (.resetTile mb) s := by
  refine .next (runOp_only (fun _ _ _ _ => ?_) rfl)
  dsimp only
  split
  · exact .refl _ _
  · refine .unlessBad ?_
    split
    · exact .refl _ _
    · exact .sub (.ok (zeroTile_only _ _)) rfl

theorem execResetModule_only (mb) (s : State) : Framed (.resetModule mb) s :=
  .within (.op (fun _ _ _ _ => .unlessBad (.ok (scheduleReset_only _ _ _)))) rfl

theorem execCrownQuery_only (mb) (s : State) : Framed (.crownQuery mb) s :=
  .within (.op (fun _ _ _ _ => .ok (.none _))) rfl

/-! ### Register accesses (R9, R276, R492, R496) -/

theorem execStatusW1cWrite_only (port blk data) (s : State) : Framed (.statusW1cWrite port blk data) s :=
  .within (.guard (clearSts_only _ _ _ _)) rfl

theorem execFirstSrcClear_only (port blk data) (s : State) : Framed (.firstSrcClear port blk data) s :=
  .within (.guard (clearFirst_only _ _ _)) rfl

theorem execOvfClear_only (port blk data) (s : State) : Framed (.ovfClear port blk data) s :=
  .within (.guard (clearOvf_only _ _ _)) rfl

theorem execErrlogClr_only (port mc data) (s : State) : Framed (.errlogClr port mc data) s :=
  .within (.guard (clearLog_only _ _ _)) rfl

theorem execArbWeightWrite_only (stack n weight clock) (s : State) :
    Framed (.arbWeightWrite stack n weight clock) s :=
  .within (.guard (modMc_only _ _ _)) rfl

theorem execRtNowLowRead_only (port) (s : State) : Framed (.rtNowLowRead port) s := by
  refine .next (.unless ?_)
  split
  · exact .sub (modTime_only _ _) rfl
  · exact .sub (modTime_only _ _) rfl

theorem execRegisterWrite_only (port off size data) (s : State) : Framed (.registerWrite port off size data) s :=
  .within (.unless (.after (.when (barWrite_only _ _ _ _)) (barWrite_only _ _ _ _))) rfl

/-! ### Streams and tile operations (R87-R136); `c` the cluster, `n` the exposed position -/

theorem execDescFetch_only (c n env) (s : State) : Framed (.descFetch c n env) s := by
  refine .next ?_
  dsimp only
  split
  · exact .refl _ _
  · refine .unless ?_
    refine .branch (.sub (.after (modCluster_only _ _ _) (.after (tileFault_only _ _ _ _ _) (disarm_only _ _)))
      rfl) ?_
    refine .branch (.sub (issueSnoops_only _ _) rfl) (.unless (.step (dispatch_only _ _) ?_ rfl))
    refine .step (modTile_only _ _ _) ?_ rfl
    split
    · exact .sub (lineNote_only _ _ _ _ _ _ _) rfl
    · exact .sub (.after (count_only _ _ _ _) (.after (count_only _ _ _ _) (lineNote_only _ _ _ _ _ _ _))) rfl

theorem execHeaderWaitSatisfied_only (c n q) (s : State) : Framed (.headerWaitSatisfied c n q) s := by
  refine .next ?_
  dsimp only
  split
  · exact .refl _ _
  · exact .sub (.unless (modTile_only _ _ _)) rfl

theorem execDescriptorComplete_only (c n q) (s : State) : Framed (.descriptorComplete c n q) s := by
  refine .next ?_
  dsimp only
  split
  · exact .refl _ _
  · exact .sub (.unless (.after (finish_only _ _ _) (modTile_only _ _ _))) rfl

theorem execMma_only (c n ts) (s : State) : Framed (.mma c n ts) s :=
  .within (.unit (fun _ _ => mmaRun_only _ _ _)) rfl

theorem execMmaLam_only (c n ts) (s : State) : Framed (.mmaLam c n ts) s :=
  .within (.unit (fun _ _ => lamRun_only _ _ _)) rfl

theorem execVec_only (c n ts) (s : State) : Framed (.vec c n ts) s :=
  .within (.unit (fun _ _ => vecRun_only _ _ _)) rfl

theorem execNlf_only (c n ts) (s : State) : Framed (.nlf c n ts) s :=
  .within (.unit (fun _ _ => nlfRun_only _ _ _)) rfl

theorem execRed_only (c n ts) (s : State) : Framed (.red c n ts) s :=
  .within (.unit (fun _ _ => .either (redAccum_only _ _ _) (redReduce_only _ _ _))) rfl

theorem execLoad_only (c n env) (s : State) : Framed (.load c n env) s := by
  refine .next (.branch (.sub (issueSnoops_only _ _) rfl) (.unless (runUnit_only (fun d u => ?_) rfl)))
  split
  · exact .sub (.fold (fun _ _ => storeLocal_only _ _ _ _) (.none _)) rfl
  · exact .sub (.after (countMoved_only _ _ _ _) (loadPieces_only _ _ _ _)) rfl

theorem execStore_only (c n env ts) (s : State) : Framed (.store c n env ts) s :=
  .within (.either (issueSnoops_only _ _) (.unless (.unit
    (fun _ _ => .after (countMoved_only _ _ _ _) (storePieces_only _ _ _ _))))) rfl

theorem execXfer_only (c n ts) (s : State) : Framed (.xfer c n ts) s :=
  .within (.unit (fun _ _ => .after (count_only _ _ _ _)
    (.fold (fun _ _ => storeLocal_only _ _ _ _) (.when (takeFree_only _))))) rfl

theorem execCwait_only (c n) (s : State) : Framed (.cwait c n) s :=
  .within (.seq (fun _ _ => modTile_only _ _ _)) rfl

theorem execCsignal_only (c n) (s : State) : Framed (.csignal c n) s :=
  .within (.seq (fun _ _ => .fold (fun _ _ => csend_only _ _ _) (.none _))) rfl

theorem execWaitRt_only (c n) (s : State) : Framed (.waitRt c n) s := by
  refine .next ?_
  dsimp only
  split
  · exact .sub (.after (.when (modTile_only _ _ _)) (.seq
      (fun _ _ => .after (rtDone_only _ _) (countSat_only _ _ _ _)))) rfl
  · exact .sub (.seq (fun _ _ => .after (rtDone_only _ _) (countSat_only _ _ _ _))) rfl

theorem execWaitRtComplete_only (c n) (s : State) : Framed (.waitRtComplete c n) s := by
  refine .next ?_
  dsimp only
  split
  · exact .refl _ _
  · exact .sub (.unless (.after (finish_only _ _ _) (.after (modTile_only _ _ _)
      (.after (rtDone_only _ _) (waitHalf_only _ _ _))))) rfl

theorem execFabricTrig_only (c n) (s : State) : Framed (.fabricTrig c n) s := by
  refine .next (runUnit_only (fun d u => ?_) rfl)
  dsimp only
  split
  · exact .sub (writeEntry_only _ _ _ _ _ _) rfl
  · exact .refl _ _

theorem execMarkReq_only (c n ts) (s : State) : Framed (.markReq c n ts) s :=
  .within (.seq (fun _ _ => .fold (fun _ _ => markEvent_only _ _ _ _ _) (.none _))) rfl

theorem execMarkWork_only (c n ts) (s : State) : Framed (.markWork c n ts) s := by
  refine .next (runSeq_only (fun d u => ?_) rfl)
  split
  · exact .sub (markEvent_only _ _ _ _ _) rfl
  · exact .sub (.fold (fun _ _ => markEvent_only _ _ _ _ _) (.none _)) rfl
  · exact .sub (markEvent_only _ _ _ _ _) rfl

theorem execTapPoint_only (c n ts env) (s : State) : Framed (.tapPoint c n ts env) s := by
  refine .next (runSeq_only (fun d u => .step (modTile_only _ _ _) ?_ rfl) rfl)
  split
  · exact .sub (tapCopy_only _ _ _ _ _ _) rfl
  · exact .refl _ _

theorem execTileSignalArrive_only (n) (s : State) : Framed (.tileSignalArrive n) s := by
  refine .next ?_
  split
  · exact .refl _ _
  · refine .unless ?_
    dsimp only
    split
    · exact .sub (.after (counterCycle_only _ _ _ _ _ _) (putSignals_only _ _)) rfl
    · exact .sub (.after (tileCount_only _ _) (putSignals_only _ _)) rfl

theorem execTileHwFault_only (c n storeWord) (s : State) : Framed (.tileHwFault c n storeWord) s :=
  .within (.unless (.either (storeFault_only _ _ _ _ _)
    (.after (modCluster_only _ _ _) (tileFault_only _ _ _ _ _)))) rfl

theorem execTileStartTestDone_only (c n passed flash) (s : State) :
    Framed (.tileStartTestDone c n passed flash) s := by
  refine .next ?_
  dsimp only
  split
  · exact .refl _ _
  · refine .unless ?_
    refine .branch (.sub (.after (eventG_only _ _ _ _ _ _ _) (.after (modCluster_only _ _ _) (zeroTile_only _ _)))
      rfl) ?_
    split
    · exact .sub (.after (failLaunch_only _ _ _ _ _ _ _)
        (.after (event_only _ _ _ _ _) (.after (modCluster_only _ _ _)
        (.after (addDefect_only _ _ _ _ _) (.after (modCluster_only _ _ _) (zeroTile_only _ _)))))) rfl
    · exact .sub (.after (event_only _ _ _ _ _) (.after (modCluster_only _ _ _)
        (.after (addDefect_only _ _ _ _ _) (.after (modCluster_only _ _ _) (zeroTile_only _ _))))) rfl

/-! ### Memory controllers (R216-R235); controller 0-15 HBM3E, 16-23 LPDDR5X -/

theorem execMemRead_only (mc pa ode ce ue who) (s : State) : Framed (.memRead mc pa ode ce ue who) s :=
  .within (.unless (.either (event_only _ _ _ _ _) (.unless (memNote_only _ _ _ _ _ _ _ _ _)))) rfl

theorem execMemWrite_only (mc pa bytes parity rmwRead who ode ce) (s : State) :
    Framed (.memWrite mc pa bytes parity rmwRead who ode ce) s :=
  .within (.unless (.either (event_only _ _ _ _ _) (.unless
    (.after (.unless (.after (tableWrite_only _ _ _) (.after (putPhys_only _ _) (.when (clearBad_only _ _)))))
    (memNote_only _ _ _ _ _ _ _ _ _))))) rfl

theorem execArbDecision_only (stack clock arrivals own) (s : State) :
    Framed (.arbDecision stack clock arrivals own) s :=
  .within (.unless (modMc_only _ _ _)) rfl

theorem execArbWindowRefill_only (stack clock) (s : State) : Framed (.arbWindowRefill stack clock) s :=
  .within (.guard (modMc_only _ _ _)) rfl

theorem execScrubRead_only (mc pa ce ue ode) (s : State) : Framed (.scrubRead mc pa ce ue ode) s :=
  .within (.unless (.after (readOutcome_only _ _ _ _ _ _ _ _ _) (.after (modMc_only _ _ _) (count_only _ _ _ _))))
    rfl

theorem execStackTempReport_only (stack temp) (s : State) : Framed (.stackTempReport stack temp) s :=
  .within (.unless (.after (modMc_only _ _ _) (.when (event_only _ _ _ _ _)))) rfl

theorem execWinSnoopTimeout_only (mc pa) (s : State) : Framed (.winSnoopTimeout mc pa) s :=
  .within (.unless (.after (event_only _ _ _ _ _) (putSnoop_only _ _ _ _))) rfl

theorem execWindowHostAccess_only (port off write env) (s : State) :
    Framed (.windowHostAccess port off write env) s := by
  refine .next (.unless (.unless ?_))
  split
  · exact .sub (.after (.unless (.after (clearBad_only _ _) (storePhys_only _ _ _)))
      (memNote_only _ _ _ _ _ _ _ _ _)) rfl
  · exact .sub (.either (issueSnoops_only _ _) (.after (.unless (putSnoop_only _ _ _ _))
      (memNote_only _ _ _ _ _ _ _ _ _))) rfl

/-! ### Links and packets (R322-R378) -/

theorem execPhyTrainDone_only (p) (s : State) : Framed (.phyTrainDone p) s :=
  .within (.guard (setPortSt_only _ _ _)) rfl

theorem execFecLockDone_only (p) (s : State) : Framed (.fecLockDone p) s :=
  .within (.guard (setPortSt_only _ _ _)) rfl

theorem execNegotiateDone_only (p cap) (s : State) : Framed (.negotiateDone p cap) s :=
  .within (.unless (.after (.either (.after (bertSettle_only _)
    (.after (setPortSt_only _ _ _) (modPort_only _ _ _)))
    (.either (.after (setPortSt_only _ _ _) (modPort_only _ _ _))
    (.after (bertSettle_only _) (.after (.either (becomeActive_only _ _) (isolate_only _ _))
    (modPort_only _ _ _))))) (modPort_only _ _ _))) rfl

theorem execTrainStateTimeout_only (p) (s : State) : Framed (.trainStateTimeout p) s :=
  .within (.unless (.after (bertSettle_only _) (.after (attemptFailed_only _ _ _)
    (.after (.when (takeFree_only _)) (waitUntil_only _ _))))) rfl

theorem execFecLockLoss_only (p) (s : State) : Framed (.fecLockLoss p) s :=
  .within (linkLost_only _ _) rfl

theorem execUncorrCodewordBurst_only (p) (s : State) : Framed (.uncorrCodewordBurst p) s :=
  .within (.guard (retrain_only _ _)) rfl

theorem execLinkControlFlit_only (p f) (s : State) : Framed (.linkControlFlit p f) s :=
  .within (.unless (.after (.either (.after (setPortSt_only _ _ _) (modPort_only _ _ _))
    (.when (linkLost_only _ _))) (.after (drainPort_only _ _)
    (.after (modPort_only _ _ _) (.unless (count_only _ _ _ _)))))) rfl

theorem execPacketRoute_only (p pkt) (s : State) : Framed (.packetRoute p pkt) s := by
  refine .next ?_
  split
  · exact .sub (.unless (sendOwn_only _ _)) rfl
  · refine .unless ?_
    split
    · exact .sub (dropHit_only _ _ _ _) rfl
    · exact .sub (.unless (.after (.when (freeBuf_only _ _ _))
        (.after (route_only _ _ _) (.after (.unless (count_only _ _ _ _))
        (.after (rxCount_only _ _ _ _) (.after (count_only _ _ _ _) (count_only _ _ _ _))))))) rfl

theorem execPutArrive_only (p pkt) (s : State) : Framed (.putArrive p pkt) s :=
  .within (arrive_only _ _ _ _ _) rfl

theorem execGetReqArrive_only (p pkt env) (s : State) : Framed (.getReqArrive p pkt env) s :=
  .within (arrive_only _ _ _ _ _) rfl

theorem execGetRespArrive_only (p pkt) (s : State) : Framed (.getRespArrive p pkt) s :=
  .within (arrive_only _ _ _ _ _) rfl

theorem execAtomicArrive_only (p pkt env) (s : State) : Framed (.atomicArrive p pkt env) s :=
  .within (arrive_only _ _ _ _ _) rfl

theorem execAtomicRespArrive_only (p pkt) (s : State) : Framed (.atomicRespArrive p pkt) s :=
  .within (arrive_only _ _ _ _ _) rfl

theorem execReduceArrive_only (p pkt) (s : State) : Framed (.reduceArrive p pkt) s :=
  .within (arrive_only _ _ _ _ _) rfl

theorem execRndvReadyArrive_only (p pkt) (s : State) : Framed (.rndvReadyArrive p pkt) s :=
  .within (arrive_only _ _ _ _ _) rfl

theorem execCounterAddArrive_only (p pkt) (s : State) : Framed (.counterAddArrive p pkt) s :=
  .within (arrive_only _ _ _ _ _) rfl

theorem execAckArrive_only (p pkt) (s : State) : Framed (.ackArrive p pkt) s :=
  .within (.unless (.either (.after (portEvent_only _ _ _) (count_only _ _ _ _))
    (.after (pumpTx_only _) (.fold (fun _ _ => ackOne_only _ _ _) (.none _))))) rfl

theorem execNackArrive_only (p pkt) (s : State) : Framed (.nackArrive p pkt) s := by
  refine .next (.unless (.branch (.sub (.after (portEvent_only _ _ _) (count_only _ _ _ _)) rfl) ?_))
  split
  · exact .sub (resendAt_only _ _ _) rfl
  · exact .refl _ _

theorem execAckTimer_only (flow) (s : State) : Framed (.ackTimer flow) s := by
  refine .next ?_
  split
  · exact .refl _ _
  · split
    · exact .refl _ _
    · exact .sub (.after (sendLoose_only _ _) (.after (modFab_only _ _) (waitUntil_only _ _))) rfl

theorem execSeqGapNack_only (flow) (s : State) : Framed (.seqGapNack flow) s := by
  refine .next ?_
  split
  · exact .refl _ _
  · split
    · exact .refl _ _
    · refine .step (sendLoose_only _ _) ?_ rfl
      split
      · exact .sub (.after (count_only _ _ _ _) (.after (modFab_only _ _) (waitUntil_only _ _))) rfl
      · exact .sub (.after (modFab_only _ _) (waitUntil_only _ _)) rfl

theorem execResendTimeout_only (n) (s : State) : Framed (.resendTimeout n) s := by
  refine .next ?_
  split
  · exact .sub (.after (resendAll_only _ _) (waitUntil_only _ _)) rfl
  · exact .refl _ _

theorem execBl1BusyAck_only (p pkt) (s : State) : Framed (.bl1BusyAck p pkt) s :=
  .within (modFab_only _ _) rfl

theorem execBeaconArrive_only (p b) (s : State) : Framed (.beaconArrive p b) s :=
  .within (.unless (.after (beaconDigest_only _ _ _) (.after (.when (.after (count_only _ _ _ _) (rtFlag_only _ _)))
    (.after (.unless (.after (portEvent_only _ _ _) (.after (count_only _ _ _ _)
    (.after (setPortSt_only _ _ _) (modPort_only _ _ _))))) (.after (rxOne_only _ _) (modPort_only _ _ _)))))) rfl

theorem execNoticeWithdrawModule_only (p pkt) (s : State) : Framed (.noticeWithdrawModule p pkt) s :=
  .within (armNotice_only _ _ _ _) rfl

theorem execNoticeWithdrawPort_only (p pkt) (s : State) : Framed (.noticeWithdrawPort p pkt) s :=
  .within (armNotice_only _ _ _ _) rfl

theorem execNoticeJoin_only (p pkt) (s : State) : Framed (.noticeJoin p pkt) s :=
  .within (armNotice_only _ _ _ _) rfl

theorem execTransitComparatorTick_only (n flash) (s : State) : Framed (.transitComparatorTick n flash) s := by
  refine .next ?_
  split
  · exact .refl _ _
  · refine .unless ?_
    dsimp only
    split
    · exact .sub (.fold (fun _ _ => withdrawPort_only _ _)
        (.after (swapDue_only _ _ _) (.after (modFab_only _ _) (waitCount_only _ _)))) rfl
    · exact .sub (.after (disablePort_only _ _) (.after (swapDue_only _ _ _)
        (.after (modFab_only _ _) (waitCount_only _ _)))) rfl
    · exact .sub (.fold (fun _ _ => joinPort_only _ _) (.after (swapDue_only _ _ _)
        (.after (modFab_only _ _) (waitCount_only _ _)))) rfl
    · exact .sub (.after (trainByCtl_only _ _ _) (.after (swapDue_only _ _ _)
        (.after (modFab_only _ _) (waitCount_only _ _)))) rfl

theorem execJoinNoticeSend_only (s : State) : Framed .joinNoticeSend s :=
  .within (.unless (.after (noticeAll_only _ _ _ _) (modFab_only _ _))) rfl

theorem execAbortPacketArrive_only (p pkt) (s : State) : Framed (.abortPacketArrive p pkt) s :=
  .within (.unless (.after (.unless (.after (.either (event_only _ _ _ _ _)
    (.fold (fun _ _ => .after (event_only _ _ _ _ _) (fencePart_only _ _ _ _ _ _))
    (.fold (fun _ _ => sendOn_only _ _ _) (count_only _ _ _ _)))) (modFab_only _ _))) (rxOne_only _ _))) rfl

/-! ### Fabric engines (R379-R415) -/

theorem execEngineCounterAdd_only (half part cnt sets adds) (s : State) :
    Framed (.engineCounterAdd half part cnt sets adds) s :=
  .within (counterCycle_only _ _ _ _ _ _) rfl

theorem execOpContextFree_only (half n) (s : State) : Framed (.opContextFree half n) s := by
  refine .next ?_
  split
  · exact .refl _ _
  · exact .sub (.unless (.after (fireAll_only _ _ _) (modEng_only _ _))) rfl

theorem execEngineOpComplete_only (half n) (s : State) : Framed (.engineOpComplete half n) s := by
  refine .next ?_
  split
  · exact .refl _ _
  · exact .sub (.unless (.after (doneSignal_only _ _ _ _) (.after (modOp_only _ _ _ _) (count_only _ _ _ _)))) rfl

theorem execCollectiveSlotAlloc_only (half) (s : State) : Framed (.collectiveSlotAlloc half) s := by
  refine .next ?_
  split
  · exact .refl _ _
  · dsimp only
    split
    · exact .sub (.fold (fun _ _ => .unless (.after (event_only _ _ _ _ _) (modColl_only _ _ _ _ _)))
        (waitHalf_only _ _ _)) rfl
    · exact .sub (.after (.unless (.either (issueSnoops_only _ _) (startColl_only _ _ _))) (waitHalf_only _ _ _))
        rfl

theorem execCollectiveComplete_only (half slot) (s : State) : Framed (.collectiveComplete half slot) s := by
  refine .next ?_
  split
  · exact .refl _ _
  · split
    · exact .refl _ _
    · refine .unless (.step (modGroup_only _ _ _) (.step (count_only _ _ _ _) ?_ rfl) rfl)
      refine .step (modEng_only _ _) (.branch ?_ ?_) rfl
      · refine .unless ?_
        split
        · exact .sub (doneSignal_only _ _ _ _) rfl
        · exact .refl _ _
      · split
        · refine .step (doneSignal_only _ _ _ _) (.unless ?_) rfl
          split
          · exact .sub (doneSignal_only _ _ _ _) rfl
          · exact .refl _ _
        · refine .unless ?_
          split
          · exact .sub (doneSignal_only _ _ _ _) rfl
          · exact .refl _ _

theorem execCollectiveStall_only (half slot) (s : State) : Framed (.collectiveStall half slot) s := by
  refine .next ?_
  split
  · exact .refl _ _
  · exact .sub (.unless (.after (collFail_only _ _ _ _ _ _) (waitUntil_only _ _))) rfl

/-! ### Watchdogs and resets (R516-R527) -/

theorem execProgressWatchdog_only (part) (s : State) : Framed (.progressWatchdog part) s := by
  refine .next ?_
  split
  · exact .refl _ _
  · exact .sub (.unless (.after (failLaunch_only _ _ _ _ _ _ _) (waitUntil_only _ _))) rfl

theorem execFenceRelease_only (part) (s : State) : Framed (.fenceRelease part) s := by
  refine .next ?_
  split
  · exact .refl _ _
  · split
    · exact .refl _ _
    · exact .sub (.when (.after (releaseFence_only _ _) (waitUntil_only _ _))) rfl

theorem execModResetN_only (s : State) : Framed .modResetN s :=
  .within (.after (.unless (.unless (.either (.when (moduleReset_only _))
    (.unless (.either (moduleReset_only _) (scheduleReset_only _ _ _)))))) (putPins_only _ _)) rfl

theorem execBridgeMainbandError_only (half retryOk) (s : State) : Framed (.bridgeMainbandError half retryOk) s :=
  .within (.after (.unless (.either (eventG_only _ _ _ _ _ _ _) (putBridge_only _ _))) (.when (disarm_only _ _)))
    rfl

theorem execBridgeRetrainDone_only (half ok) (s : State) : Framed (.bridgeRetrainDone half ok) s :=
  .within (.unless (.after (.either (eventG_only _ _ _ _ _ _ _)
    (.after (enterSafe_only _ _) (eventG_only _ _ _ _ _ _ _))) (.after (bridgeOpens_only _) (putBridge_only _ _))))
    rfl

/-! ### The crown (R416-R441) -/

theorem execHeartbeatSend_only (half) (s : State) : Framed (.heartbeatSend half) s :=
  .within (.unless (.either (modMon_only _ _ _) (modMon_only _ _ _))) rfl

theorem execHeartbeatArrive_only (src path2 atSup hb) (s : State) :
    Framed (.heartbeatArrive src path2 atSup hb) s :=
  .within (.unless (.either (.either (modCrown_only _ _) (modCrown_only _ _))
    (.after (.either (demote_only _ _) (refreshStandby_only _))
    (.after (modMon_only _ _ _) (.after (.either (modCrown_only _ _) (modCrown_only _ _)) (modMon_only _ _ _))))))
    rfl

theorem execPathSilent_only (rcv path2) (s : State) : Framed (.pathSilent rcv path2) s := by
  refine .next (.unless (.branch ?_ ?_))
  · refine .step (modMon_only _ _ _) ?_ rfl
    split
    · exact .sub (waitUntil_only _ _) rfl
    · exact .refl _ _
  · refine .branch ?_ ?_
    · refine .step (modCrown_only _ _) (.step (modMon_only _ _ _) ?_ rfl) rfl
      split
      · exact .sub (waitUntil_only _ _) rfl
      · exact .refl _ _
    · refine .step (standbyAsks_only _) (.step (modMon_only _ _ _) ?_ rfl) rfl
      split
      · exact .sub (waitUntil_only _ _) rfl
      · exact .refl _ _

theorem execLivenessWrite_only (half) (s : State) : Framed (.livenessWrite half) s :=
  .within (.unless (.after (.when (resumeService_only _)) (.after (.when (modCrown_only _ _)) (modMon_only _ _ _))))
    rfl

theorem execLivenessExpire_only (half) (s : State) : Framed (.livenessExpire half) s :=
  .within (.unless (.after (complexFails_only _ _) (.after (event_only _ _ _ _ _) (waitUntil_only _ _)))) rfl

theorem execHolderFailedVoteRequest_only (s : State) : Framed .holderFailedVoteRequest s := by
  refine .next ?_
  dsimp only
  split
  · exact .refl _ _
  · exact .sub (.after (askVote_only _ _) (waitUntil_only _ _)) rfl

theorem execVoteTally_only (silent verified) (s : State) : Framed (.voteTally silent verified) s :=
  .within (runVote_only _ _ _) rfl

theorem execVoteRepeat_only (silent verified) (s : State) : Framed (.voteRepeat silent verified) s :=
  .within (.when (.after (runVote_only _ _ _) (waitUntil_only _ _))) rfl

theorem execFloorMessage_only (stage claim trusted) (s : State) : Framed (.floorMessage stage claim trusted) s :=
  .within (.unless (modStage_only _ _ _)) rfl

theorem execFloorBroadcast_only (s : State) : Framed .floorBroadcast s :=
  .within (raiseFloors_only _) rfl

theorem execStageLapse_only (stage) (s : State) : Framed (.stageLapse stage) s :=
  .within (.after (modStage_only _ _ _) (waitUntil_only _ _)) rfl

theorem execStageWrite_only (half stage claim enable) (s : State) :
    Framed (.stageWrite half stage claim enable) s :=
  .within (writeStage_only _ _ _ _ _) rfl

theorem execTakeoverRestore_only (answers) (s : State) : Framed (.takeoverRestore answers) s :=
  .within (.unless (.after (modCrown_only _ _) (.after (putFw_only _ _)
    (.after (.unless (.after (writeStage_only _ _ _ _ _) (putMbx_only _ _)))
    (.after (answerTakeover_only _ _) (.after (modMon_only _ _ _) (floorsArrive_only _))))))) rfl

theorem execTakeoverComplete_only (s : State) : Framed .takeoverComplete s :=
  .within (.unless (.after (resumeService_only _) (.after (flushHeld_only _)
    (.after (resumeWatch_only _ _) (.after (plEvent_only _ _ _)
    (.after (event_only _ _ _ _ _) (.after (vector0_only _) (.after (modMon_only _ _ _) (modCrown_only _ _)))))))))
    rfl

theorem execTakeoverTimeout_only (s : State) : Framed .takeoverTimeout s :=
  .within (.when (.after (enterSafe_only _ _) (waitUntil_only _ _))) rfl

theorem execInconclusiveTimeout_only (s : State) : Framed .inconclusiveTimeout s :=
  .within (.when (.after (enterSafe_only _ _) (waitUntil_only _ _))) rfl

theorem execCheckpointSnapshot_only (s : State) : Framed .checkpointSnapshot s :=
  .within (.unless (.after (modCrown_only _ _) (.unless (waitUntil_only _ _)))) rfl

theorem execStandbyCommitCheck_only (ok) (s : State) : Framed (.standbyCommitCheck ok) s :=
  .within (.unless (.after (refreshStandby_only _) (modMon_only _ _ _))) rfl

theorem execResyncStart_only (s : State) : Framed .resyncStart s := by
  refine .next ?_
  dsimp only
  split
  · exact .refl _ _
  · exact .sub (.unless (.after (modCrown_only _ _) (.after (modMon_only _ _ _) (waitUntil_only _ _)))) rfl

theorem execSupervisorFailure_only (s : State) : Framed .supervisorFailure s :=
  .within (.unless (.after (putPower_only _ _) (.after
    (.when (.after (noticeAll_only _ _ _ _) (.after (modFab_only _ _) (fenceAll_only _ _ _))))
    (.after (modLed_only _ _) (modCrown_only _ _))))) rfl

theorem execShutdownRailsOff_only (s : State) : Framed .shutdownRailsOff s := by
  refine .next ?_
  split
  · exact .refl _ _
  · exact .sub (.after (capUpdate_only _) (.after (putPowerStart_only _ _ _)
      (.after (modCrown_only _ _) (.after (schedClear_only _) (.after (railsLost_only _) (waitUntil_only _ _))))))
      rfl

/-! ### Power and thermal (R442-R464) -/

theorem execInputVoltageSample_only (mv) (s : State) : Framed (.inputVoltageSample mv) s :=
  .within (.unless (.either (powerLost_only _) (.after
    (.unless (.either (.after (orderlyShutdown_only _) (event_only _ _ _ _ _))
    (.when (.after (orderlyShutdown_only _) (event_only _ _ _ _ _)))))
    (.after (.when (.after (event_only _ _ _ _ _) (.brake (modPower_only _ _)))) (modPower_only _ _))))) rfl

theorem execUvBrakeRelease_only (s : State) : Framed .uvBrakeRelease s := by
  refine .next ?_
  split
  · exact .sub (.after (.brake (modPower_only _ _)) (waitUntil_only _ _)) rfl
  · exact .refl _ _

theorem execVoltageRestart_only (s : State) : Framed .voltageRestart s := by
  refine .next ?_
  split
  · exact .sub (.when (.after (moduleReset_only _) (waitUntil_only _ _))) rfl
  · exact .refl _ _

theorem execPwrBrakeNChange_only (high) (s : State) : Framed (.pwrBrakeNChange high) s :=
  .within (.either (.brake (putPins_only _ _)) (putPins_only _ _)) rfl

theorem execThermAlertNChange_only (high) (s : State) : Framed (.thermAlertNChange high) s :=
  .within (.either (putPins_only _ _) (.either (.unless (.after (.brake (putPins_only _ _)) (modPower_only _ _)))
    (.unless (.after (event_only _ _ _ _ _) (.brake (.after (modPower_only _ _) (putPins_only _ _))))))) rfl

theorem execThermAlertClear_only (s : State) : Framed .thermAlertClear s := by
  refine .next ?_
  split
  · exact .sub (.unless (.after (.brake (modPower_only _ _)) (waitUntil_only _ _))) rfl
  · exact .refl _ _

theorem execThermCountdownExpire_only (s : State) : Framed .thermCountdownExpire s := by
  refine .next ?_
  split
  · exact .refl _ _
  · exact .sub (.unless (.after (modPower_only _ _) (.after (orderlyShutdown_only _)
      (.after (modPower_only _ _) (waitUntil_only _ _))))) rfl

theorem execThermalSensorRead_only (tj tm) (s : State) : Framed (.thermalSensorRead tj tm) s :=
  .within (.unless (.after (.when (.after (orderlyShutdown_only _)
    (.after (plEvent_only _ _ _) (.after (capUpdate_only _)
    (.after (brakeStart_only _ _) (.after (event_only _ _ _ _ _) (modPower_only _ _))))))) (modPower_only _ _))) rfl

theorem execLeaseExpire_only (s : State) : Framed .leaseExpire s := by
  refine .next ?_
  split
  · exact .refl _ _
  · exact .sub (.unless (.after (.unless (.after (capUpdate_only _)
      (.after (plEvent_only _ _ _) (.after (event_only _ _ _ _ _) (modPower_only _ _)))))
      (.after (modPower_only _ _) (waitUntil_only _ _)))) rfl

theorem execReportWindowEnd_only (s : State) : Framed .reportWindowEnd s :=
  .within (.unless (.after (endWindow_only _) (waitCount_only _ _))) rfl

/-! ### The ledger (R465-R487) -/

theorem execActivityReport_only (half frame rows) (s : State) : Framed (.activityReport half frame rows) s :=
  .within (.unless (.after (modLed_only _ _) (.fold (fun _ _ => event_only _ _ _ _ _) (.none _)))) rfl

theorem execReportLate_only (half) (s : State) : Framed (.reportLate half) s :=
  .within (.unless (.after (markLate_only _ _) (waitCount_only _ _))) rfl

theorem execLedgerGapExpire_only (s : State) : Framed .ledgerGapExpire s :=
  .within (.guard (gapNow_only _)) rfl

theorem execFrameReconcile_only (energy vcore) (s : State) : Framed (.frameReconcile energy vcore) s := by
  refine .next (.unless ?_)
  dsimp only
  split
  · exact .sub (.after (modLed_only _ _) (.after (nextSpan_only _ _)
      (.after (closeSheet_only _ _) (.after (accountsDue_only _ _ _)
      (.after (applyEvents_only _ _) (.after (reconcileTo_only _ _ _ _)
      (.after (modLed_only _ _) (.after (seeFree_only _) (.after (methodUpdate_only _ _) (gapNow_only _))))))))))
      rfl
  · exact .sub (.after (.either (.after (nextSpan_only _ _)
      (.after (boundaryDue_only _ _) (reconcileTo_only _ _ _ _)))
      (.after (modLed_only _ _) (.after (.when (markLate_only _ _))
      (.after (.when (markLate_only _ _)) (waitCount_only _ _)))))
      (.after (waitCount_only _ _) (.after (modLed_only _ _)
      (.after (seeFree_only _) (.after (methodUpdate_only _ _) (gapNow_only _)))))) rfl

theorem execSheetCloseTimeout_only (s : State) : Framed .sheetCloseTimeout s := by
  refine .next ?_
  split
  · exact .refl _ _
  · exact .sub (.after (closeSheet_only _ _) (waitCount_only _ _)) rfl

theorem execSheetSigned_only (s : State) : Framed .sheetSigned s := by
  refine .next ?_
  split
  · exact .refl _ _
  · exact .sub (modLed_only _ _) rfl

/-! ### Firmware activation and trace (R558-R571) -/

theorem execControlActivationResume_only (s : State) : Framed .controlActivationResume s := by
  refine .next ?_
  split
  · exact .refl _ _
  · exact .sub (.unless (.after (actDone_only _ _) (.after (resumeService_only _)
      (.after (resumeWatch_only _ _) (.after (vector0_only _)
      (.after (modCrown_only _ _) (.after (modMon_only _ _ _)
      (.after (modMon_only _ _ _) (.after (.when (modCrown_only _ _))
      (.after (putFwStart_only _ _ _) (writeDir_only _ _ _))))))))))) rfl

theorem execActivationTimeout_only (s : State) : Framed .activationTimeout s := by
  refine .next ?_
  split
  · exact .refl _ _
  · exact .sub (.unless (.after (actDone_only _ _) (.after (putFw_only _ _)
      (.after (.when (.after (complexFails_only _ _) (event_only _ _ _ _ _))) (waitUntil_only _ _))))) rfl

theorem execTraceRecord_only (half core ev) (s : State) : Framed (.traceRecord half core ev) s := by
  refine .next (.unless ?_)
  split
  · exact .sub (.after (.when (.after (dueSync_only _ _ _) (flushBranch_only _ _ _))) (modTr_only _ _ _)) rfl
  · exact .sub (.after (.when (putSync_only _ _ _ _)) (.after (tracePut_only _ _ _ _ _) (flushBranch_only _ _ _)))
      rfl
  · exact .sub (.after (putSyncFree_only _ _ _) (.after (tracePut_only _ _ _ _ _) (flushBranch_only _ _ _))) rfl
  · exact .sub (.after (putSync_only _ _ _ _) (flushBranch_only _ _ _)) rfl

theorem execTraceCrumb_only (half pcs) (s : State) : Framed (.traceCrumb half pcs) s :=
  .within (.when (.after (crumb_only _ _ _) (traceFlow_only _ _))) rfl

/-! ### CXL ports (R589-R592) -/

theorem execPerstN_only (port) (s : State) : Framed (.perstN port) s :=
  .within (.when (portStops_only _ _ _)) rfl

theorem execHdmCommit_only (port on) (s : State) : Framed (.hdmCommit port on) s :=
  .within (.unless (modCxl_only _ _ _)) rfl

theorem execCxlLinkDown_only (port) (s : State) : Framed (.cxlLinkDown port) s :=
  .within (.when (portStops_only _ _ _)) rfl

theorem execCxlLinkRetrain_only (port width gts) (s : State) : Framed (.cxlLinkRetrain port width gts) s :=
  .within (.unless (.after (.either (.when (portStops_only _ _ _))
    (.after (.when (event_only _ _ _ _ _)) (modCxl_only _ _ _))) (.when (event_only _ _ _ _ _)))) rfl

/-! ### The management port (R593-R603) -/

theorem execEntdaa_only (addr) (s : State) : Framed (.entdaa addr) s :=
  .within (.mgmt (modMgmt_only _ _)) rfl

theorem execSetEndpointId_only (eid) (s : State) : Framed (.setEndpointId eid) s :=
  .within (.mgmt (.either (reply_only _ _ _) (.after (reply_only _ _ _) (modMgmt_only _ _)))) rfl

theorem execGetEndpointId_only (s : State) : Framed .getEndpointId s :=
  .within (.mgmt (reply_only _ _ _)) rfl

theorem execGetMctpVersionSupport_only (s : State) : Framed .getMctpVersionSupport s :=
  .within (.mgmt (.after (reply_only _ _ _) (takeFree_only _))) rfl

theorem execGetMessageTypeSupport_only (s : State) : Framed .getMessageTypeSupport s :=
  .within (.mgmt (reply_only _ _ _)) rfl

theorem execSetRackNumber_only (rack) (s : State) : Framed (.setRackNumber rack) s :=
  .within (.mgmt (.either (reply_only _ _ _) (.either (.after (reply_only _ _ _)
    (.after (startNegotiation_only _) (putIdent_only _ _)))
    (.either (reply_only _ _ _) (.after (reply_only _ _ _) (.after (plEvent_only _ _ _) (putIdent_only _ _)))))))
    rfl

theorem execSetRackTime_only (v step) (s : State) : Framed (.setRackTime v step) s :=
  .within (.mgmt (.either (.after (reply_only _ _ _) (modTime_only _ _))
    (.either (.after (reply_only _ _ _) (modTime_only _ _)) (.after (reply_only _ _ _) (modTime_only _ _))))) rfl

theorem execGetRackTime_only (s : State) : Framed .getRackTime s :=
  .within (.mgmt (reply_only _ _ _)) rfl

theorem execSetPowerCap_only (capW leaseMs applyRt) (s : State) : Framed (.setPowerCap capW leaseMs applyRt) s :=
  .within (.mgmt (.either (reply_only _ _ _) (.either (reply_only _ _ _)
    (.either (reply_only _ _ _) (.after (reply_only _ _ _)
    (.after (.either (.after (capUpdate_only _) (mgmtEffect_only _ _ _))
    (.after (schedPut_only _ _ _ _ _ _ _ _) (modPower_only _ _)))
    (.after (dropLowering_only _ _) (schedEnd_only _ _ _)))))))) rfl

theorem execRenewPowerLease_only (leaseMs) (s : State) : Framed (.renewPowerLease leaseMs) s :=
  .within (.mgmt (.either (reply_only _ _ _) (.after (reply_only _ _ _) (modPower_only _ _)))) rfl

theorem execGetPower_only (s : State) : Framed .getPower s := .within (.mgmt (reply_only _ _ _)) rfl

theorem execGetStatus_only (s : State) : Framed .getStatus s :=
  .within (.mgmt (reply_only _ _ _)) rfl

theorem execGetLinks_only (s : State) : Framed .getLinks s := .within (.mgmt (reply_only _ _ _)) rfl

theorem execLocate_only (on) (s : State) : Framed (.locate on) s :=
  .within (.mgmt (.after (reply_only _ _ _) (putPins_only _ _))) rfl

theorem execPldmLedgerRead_only (kind fromSeq max) (s : State) : Framed (.pldmLedgerRead kind fromSeq max) s := by
  refine .next (onMgmt_only (.refl _ _) (.branch (.sub (reply_only _ _ _) rfl) ?_))
  have h := ledgerRead_only kind fromSeq max none s
  generalize ledgerRead kind fromSeq max none s = x at h ⊢
  exact .branch (.step (reply_only _ _ _) (.sub h rfl) rfl)
    (.branch (.sub (reply_only _ _ _) rfl) (.sub (reply_only _ _ _) rfl))

theorem execLocateNChange_only (high) (s : State) : Framed (.locateNChange high) s :=
  .within (putPins_only _ _) rfl

theorem execPlatformEventRetry_only (accepted) (s : State) : Framed (.platformEventRetry accepted) s := by
  refine .next (onMgmt_only (.refl _ _) ?_)
  split
  · exact .sub (.either (modMgmt_only _ _) (.after (.either (.after (countSat_only _ _ _ _) (modMgmt_only _ _))
      (modMgmt_only _ _)) (advance_only _ _))) rfl
  · exact .refl _ _

theorem execRequestUpdate_only (component pkg area slot dir) (s : State) :
    Framed (.requestUpdate component pkg area slot dir) s :=
  .within (.mgmt (.either (.after (reply_only _ _ _) (stageRecovery_only _ _ _ _ _))
    (.either (reply_only _ _ _) (.after (reply_only _ _ _) (stagePldm_only _ _ _ _ _ _))))) rfl

theorem execActivateFirmware_only (s : State) : Framed .activateFirmware s := by
  refine .next (onMgmt_only (.refl _ _) ?_)
  refine .branch (.sub (.either (.after (reply_only _ _ _) (.after (runStarter_only _) (modMgmt_only _ _)))
    (reply_only _ _ _)) rfl) ?_
  refine .branch (.sub (reply_only _ _ _) rfl) (.branch (.sub (reply_only _ _ _) rfl) ?_)
  split
  · exact .sub (.after (.either (.after (reply_only _ _ _) (modMgmt_only _ _)) (reply_only _ _ _))
      (.ofAns ‹_› (activate_only _ _ _ _))) rfl
  · exact .sub (.ofStay ‹_› (activate_only _ _ _ _)) rfl

theorem execGetVersion_only (s : State) : Framed .getVersion s :=
  .within (.mgmt (.after (reply_only _ _ _) (modMgmt_only _ _))) rfl

theorem execGetCapabilities_only (s : State) : Framed .getCapabilities s :=
  .within (.spdm (.after (reply_only _ _ _) (modMgmt_only _ _))) rfl

theorem execNegotiateAlgorithms_only (s : State) : Framed .negotiateAlgorithms s :=
  .within (.spdm (.after (reply_only _ _ _) (modMgmt_only _ _))) rfl

theorem execGetDigests_only (s : State) : Framed .getDigests s :=
  .within (.spdm (reply_only _ _ _)) rfl

theorem execGetCertificate_only (slot off len) (s : State) : Framed (.getCertificate slot off len) s :=
  .within (.spdm (.either (reply_only _ _ _) (reply_only _ _ _))) rfl

theorem execChallenge_only (slot nonce) (s : State) : Framed (.challenge slot nonce) s :=
  .within (.spdm (.either (reply_only _ _ _) (reply_only _ _ _))) rfl

theorem execGetMeasurements_only (index signed nonce) (s : State) :
    Framed (.getMeasurements index signed nonce) s := by
  refine .next (afterSpdm_only ?_ rfl)
  split
  · exact .sub (reply_only _ _ _) rfl
  · exact .sub (reply_only _ _ _) rfl

/-! ### Rows that the table adds last -/

theorem execRackClkReturn_only (s : State) : Framed .rackClkReturn s :=
  .within (putPins_only _ _) rfl

theorem execAux3v3Return_only (s : State) : Framed .aux3v3Return s :=
  .within (.after (.when (supervisorStart_only _ _)) (putPins_only _ _)) rfl

theorem execModResetNRelease_only (s : State) : Framed .modResetNRelease s :=
  .within (putPinsStart_only _ _ _) rfl

theorem execBeginLowering_only (s : State) : Framed .beginLowering s := by
  refine .next ?_
  dsimp only
  split
  · exact .sub (.after (modPower_only _ _) (waitCount_only _ _)) rfl
  · exact .refl _ _

theorem execPowerIntervalEnd_only (avgW) (s : State) : Framed (.powerIntervalEnd avgW) s :=
  .within (.unless (.after (.when (event_only _ _ _ _ _))
    (.after (.when (event_only _ _ _ _ _)) (.after (modPower_only _ _)
    (.after (takeFree_only _) (waitCount_only _ _)))))) rfl

theorem execVoteRequestRetry_only (s : State) : Framed .voteRequestRetry s := by
  refine .next ?_
  split
  · exact .refl _ _
  · exact .sub (.when (.after (standbyAsks_only _) (waitUntil_only _ _))) rfl

theorem execStandbyReadyLapse_only (s : State) : Framed .standbyReadyLapse s := by
  refine .next (.unless ?_)
  dsimp only
  split
  · exact .sub (refreshStandby_only _) rfl
  · exact .sub (.after (refreshStandby_only _) (waitUntil_only _ _)) rfl

theorem execCodewordArrive_only (p corrected pkts) (s : State) : Framed (.codewordArrive p corrected pkts) s := by
  refine .next (.unless ?_)
  split
  · exact .sub (count_only _ _ _ _) rfl
  · exact .sub (.after (portEvent_only _ _ _) (.after (count_only _ _ _ _) (modPort_only _ _ _))) rfl

theorem execBackInvalidateResponse_only (off dirty) (s : State) : Framed (.backInvalidateResponse off dirty) s := by
  refine .next (.unless (.step (wakeEngines_only _) (.step (putSnoop_only _ _ _ _) ?_ rfl) rfl))
  split
  · exact .sub (putOwn_only _ _ _ _) rfl
  · exact .refl _ _

theorem execRecipeLoadDone_only (mb env) (s : State) : Framed (.recipeLoadDone mb env) s := by
  refine .next ?_
  split
  · exact .refl _ _
  · refine .unless (.branch (.sub (issueSnoops_only _ _) rfl) (.unless ?_))
    refine .branch (.sub (setRun_only _ _ _) rfl) (.branch (.sub (.answered (.bad (.none _))) rfl) ?_)
    split
    · exact .sub (.answered (.refused (.when (readNote_only _ _ _ _ _ _)))) rfl
    · refine .branch (.sub (.answered (.refused (.when (readNote_only _ _ _ _ _ _)))) rfl) ?_
      split
      · exact .sub (.answered (.refused (.when (readNote_only _ _ _ _ _ _)))) rfl
      · exact .sub (.answered (.after (loadBundle_only _ _ _ _ _) (.when (readNote_only _ _ _ _ _ _)))) rfl

theorem execFwStageDone_only (mb area slot dir) (s : State) : Framed (.fwStageDone mb area slot dir) s := by
  refine .next ?_
  split
  · exact .refl _ _
  · exact .sub (.unless (.answered (.after (stageSlot_only _ _ _ _ _) (putFw_only _ _)))) rfl

theorem execControlCoreCacheError_only (half single ue) (s : State) :
    Framed (.controlCoreCacheError half single ue) s := by
  refine .next (.branch (.sub (.when (disarm_only _ _)) rfl) ?_)
  refine .branch (.sub (.after (eventG_only _ _ _ _ _ _ _) (.when (disarm_only _ _))) rfl) ?_
  split
  · exact .sub (.when (disarm_only _ _)) rfl
  · exact .sub (.after (eventG_only _ _ _ _ _ _ _) (.when (disarm_only _ _))) rfl
  · exact .sub (.after (.either (complexFails_only _ _) (.after (modMon_only _ _ _) (modCrown_only _ _)))
      (.after (modMon_only _ _ _) (.after (eventG_only _ _ _ _ _ _ _) (.when (disarm_only _ _))))) rfl

theorem execSetEventReceiver_only (eid) (s : State) : Framed (.setEventReceiver eid) s :=
  .within (.mgmt (.after (reply_only _ _ _) (modMgmt_only _ _))) rfl

/-! ### All commands -/

/-- Every command answers a next state and changes the zones that `Claims.touched` names for it and no other. -/
theorem exec_runs (c : Instr) (s : State) : Runs (touched c) s (exec c s) := by
  cases c with
  | powerOn52v slotId flashRead => exact execPowerOn52v_only slotId flashRead s
  | inputLoss52v => exact execInputLoss52v_only s
  | aux3v3Loss => exact execAux3v3Loss_only s
  | railSequence outcomes => exact execRailSequence_only outcomes s
  | crownStartGrant verified => exact execCrownStartGrant_only verified s
  | crownStartLiveTimeout verified => exact execCrownStartLiveTimeout_only verified s
  | componentLoad comp outcome => exact execComponentLoad_only comp outcome s
  | proofWavePower k => exact execProofWavePower_only k s
  | proofWaveTestDone k badTiles badClusters flash => exact execProofWaveTestDone_only k badTiles badClusters flash s
  | memTrainDone dev outcome => exact execMemTrainDone_only dev outcome s
  | settingsDigestCompute => exact execSettingsDigestCompute_only s
  | ready => exact execReady_only s
  | defectRewriteTimer flash => exact execDefectRewriteTimer_only flash s
  | slotIdSample slotId => exact execSlotIdSample_only slotId s
  | rackSyncEdge => exact execRackSyncEdge_only s
  | rackClkLoss => exact execRackClkLoss_only s
  | syncMissing => exact execSyncMissing_only s
  | rackSetTimeout => exact execRackSetTimeout_only s
  | frameStart driftA driftB => exact execFrameStart_only driftA driftB s
  | schedDispatch => exact execSchedDispatch_only s
  | powerTarget => exact execPowerTarget_only s
  | fwActivateExecute => exact execFwActivateExecute_only s
  | traceOpen => exact execTraceOpen_only s
  | traceClose => exact execTraceClose_only s
  | tapEnable => exact execTapEnable_only s
  | transitWithdrawTick flash => exact execTransitWithdrawTick_only flash s
  | hostEvent => exact execHostEvent_only s
  | withdrawDrainEnd => exact execWithdrawDrainEnd_only s
  | ownershipWrite port mb size data parity => exact execOwnershipWrite_only port mb size data parity s
  | mailboxPageWrite port mb off bytes => exact execMailboxPageWrite_only port mb off bytes s
  | mailboxWatchdog port mb => exact execMailboxWatchdog_only port mb s
  | openCmd mb drawn => exact execOpenCmd_only mb drawn s
  | closeCmd mb => exact execCloseCmd_only mb s
  | queryCaps mb => exact execQueryCaps_only mb s
  | queryStatus mb => exact execQueryStatus_only mb s
  | alloc mb => exact execAlloc_only mb s
  | free mb => exact execFree_only mb s
  | mapProtect mb => exact execMapProtect_only mb s
  | mapUnmap mb => exact execMapUnmap_only mb s
  | mapWindow mb => exact execMapWindow_only mb s
  | copy mb => exact execCopy_only mb s
  | copyDone mb env => exact execCopyDone_only mb env s
  | tierMove mb => exact execTierMove_only mb s
  | tierMoveDescStart mb n half mover => exact execTierMoveDescStart_only mb n half mover s
  | tierMoveDescDone mb n env => exact execTierMoveDescDone_only mb n env s
  | partCreate mb => exact execPartCreate_only mb s
  | partDestroy mb => exact execPartDestroy_only mb s
  | recipeLoad mb => exact execRecipeLoad_only mb s
  | recipeUnload mb => exact execRecipeUnload_only mb s
  | launch mb => exact execLaunch_only mb s
  | launchPrepare part => exact execLaunchPrepare_only part s
  | launchStart part => exact execLaunchStart_only part s
  | launchDone part => exact execLaunchDone_only part s
  | waitCmd mb => exact execWaitCmd_only mb s
  | waitTimeout mb => exact execWaitTimeout_only mb s
  | abortCmd mb => exact execAbortCmd_only mb s
  | groupCreate mb => exact execGroupCreate_only mb s
  | groupDestroy mb => exact execGroupDestroy_only mb s
  | routeLoad mb env => exact execRouteLoad_only mb env s
  | routeTableSwap flash => exact execRouteTableSwap_only flash s
  | linkCtlDisable mb => exact execLinkCtlDisable_only mb s
  | linkCtlEnable mb => exact execLinkCtlEnable_only mb s
  | linkCtlRetrain mb => exact execLinkCtlRetrain_only mb s
  | linkBert mb peerTests => exact execLinkBert_only mb peerTests s
  | linkBertEnd mb counts => exact execLinkBertEnd_only mb counts s
  | timeQuery mb => exact execTimeQuery_only mb s
  | schedAdd mb => exact execSchedAdd_only mb s
  | schedCancel mb => exact execSchedCancel_only mb s
  | powerSet mb => exact execPowerSet_only mb s
  | powerQuery mb => exact execPowerQuery_only mb s
  | reqOpen mb => exact execReqOpen_only mb s
  | reqClose mb => exact execReqClose_only mb s
  | ledgerRead mb => exact execLedgerRead_only mb s
  | methodSet mb flash => exact execMethodSet_only mb flash s
  | configStop mb => exact execConfigStop_only mb s
  | configWrite mb => exact execConfigWrite_only mb s
  | configStart mb flash => exact execConfigStart_only mb flash s
  | settingsWrite mb flash => exact execSettingsWrite_only mb flash s
  | digestQuery mb => exact execDigestQuery_only mb s
  | fwStage mb flash => exact execFwStage_only mb flash s
  | fwActivate mb => exact execFwActivate_only mb s
  | fwQuery mb => exact execFwQuery_only mb s
  | traceCtlWindow mb => exact execTraceCtlWindow_only mb s
  | traceCtlCloseAll mb => exact execTraceCtlCloseAll_only mb s
  | traceCtlRingSize mb flash => exact execTraceCtlRingSize_only mb flash s
  | tapArm mb => exact execTapArm_only mb s
  | tapRead mb => exact execTapRead_only mb s
  | counterRead mb => exact execCounterRead_only mb s
  | inject mb => exact execInject_only mb s
  | resetPart mb => exact execResetPart_only mb s
  | resetCluster mb => exact execResetCluster_only mb s
  | resetTile mb => exact execResetTile_only mb s
  | resetModule mb => exact execResetModule_only mb s
  | crownQuery mb => exact execCrownQuery_only mb s
  | statusW1cWrite port blk data => exact execStatusW1cWrite_only port blk data s
  | firstSrcClear port blk data => exact execFirstSrcClear_only port blk data s
  | ovfClear port blk data => exact execOvfClear_only port blk data s
  | errlogClr port mc data => exact execErrlogClr_only port mc data s
  | arbWeightWrite stack n weight clock => exact execArbWeightWrite_only stack n weight clock s
  | rtNowLowRead port => exact execRtNowLowRead_only port s
  | registerWrite port off size data => exact execRegisterWrite_only port off size data s
  | descFetch c n env => exact execDescFetch_only c n env s
  | headerWaitSatisfied c n q => exact execHeaderWaitSatisfied_only c n q s
  | descriptorComplete c n q => exact execDescriptorComplete_only c n q s
  | mma c n ts => exact execMma_only c n ts s
  | mmaLam c n ts => exact execMmaLam_only c n ts s
  | vec c n ts => exact execVec_only c n ts s
  | nlf c n ts => exact execNlf_only c n ts s
  | red c n ts => exact execRed_only c n ts s
  | load c n env => exact execLoad_only c n env s
  | store c n env ts => exact execStore_only c n env ts s
  | xfer c n ts => exact execXfer_only c n ts s
  | cwait c n => exact execCwait_only c n s
  | csignal c n => exact execCsignal_only c n s
  | waitRt c n => exact execWaitRt_only c n s
  | waitRtComplete c n => exact execWaitRtComplete_only c n s
  | fabricTrig c n => exact execFabricTrig_only c n s
  | markReq c n ts => exact execMarkReq_only c n ts s
  | markWork c n ts => exact execMarkWork_only c n ts s
  | tapPoint c n ts env => exact execTapPoint_only c n ts env s
  | tileSignalArrive n => exact execTileSignalArrive_only n s
  | tileHwFault c n storeWord => exact execTileHwFault_only c n storeWord s
  | tileStartTestDone c n passed flash => exact execTileStartTestDone_only c n passed flash s
  | memRead mc pa ode ce ue who => exact execMemRead_only mc pa ode ce ue who s
  | memWrite mc pa bytes parity rmwRead who ode ce => exact execMemWrite_only mc pa bytes parity rmwRead who ode ce s
  | arbDecision stack clock arrivals own => exact execArbDecision_only stack clock arrivals own s
  | arbWindowRefill stack clock => exact execArbWindowRefill_only stack clock s
  | scrubRead mc pa ce ue ode => exact execScrubRead_only mc pa ce ue ode s
  | stackTempReport stack temp => exact execStackTempReport_only stack temp s
  | winSnoopTimeout mc pa => exact execWinSnoopTimeout_only mc pa s
  | windowHostAccess port off write env => exact execWindowHostAccess_only port off write env s
  | phyTrainDone p => exact execPhyTrainDone_only p s
  | fecLockDone p => exact execFecLockDone_only p s
  | negotiateDone p cap => exact execNegotiateDone_only p cap s
  | trainStateTimeout p => exact execTrainStateTimeout_only p s
  | fecLockLoss p => exact execFecLockLoss_only p s
  | uncorrCodewordBurst p => exact execUncorrCodewordBurst_only p s
  | linkControlFlit p f => exact execLinkControlFlit_only p f s
  | packetRoute p pkt => exact execPacketRoute_only p pkt s
  | putArrive p pkt => exact execPutArrive_only p pkt s
  | getReqArrive p pkt env => exact execGetReqArrive_only p pkt env s
  | getRespArrive p pkt => exact execGetRespArrive_only p pkt s
  | atomicArrive p pkt env => exact execAtomicArrive_only p pkt env s
  | atomicRespArrive p pkt => exact execAtomicRespArrive_only p pkt s
  | reduceArrive p pkt => exact execReduceArrive_only p pkt s
  | rndvReadyArrive p pkt => exact execRndvReadyArrive_only p pkt s
  | counterAddArrive p pkt => exact execCounterAddArrive_only p pkt s
  | ackArrive p pkt => exact execAckArrive_only p pkt s
  | nackArrive p pkt => exact execNackArrive_only p pkt s
  | ackTimer flow => exact execAckTimer_only flow s
  | seqGapNack flow => exact execSeqGapNack_only flow s
  | resendTimeout n => exact execResendTimeout_only n s
  | bl1BusyAck p pkt => exact execBl1BusyAck_only p pkt s
  | beaconArrive p b => exact execBeaconArrive_only p b s
  | noticeWithdrawModule p pkt => exact execNoticeWithdrawModule_only p pkt s
  | noticeWithdrawPort p pkt => exact execNoticeWithdrawPort_only p pkt s
  | noticeJoin p pkt => exact execNoticeJoin_only p pkt s
  | transitComparatorTick n flash => exact execTransitComparatorTick_only n flash s
  | joinNoticeSend => exact execJoinNoticeSend_only s
  | abortPacketArrive p pkt => exact execAbortPacketArrive_only p pkt s
  | engineCounterAdd half part cnt sets adds => exact execEngineCounterAdd_only half part cnt sets adds s
  | opContextFree half n => exact execOpContextFree_only half n s
  | engineOpComplete half n => exact execEngineOpComplete_only half n s
  | collectiveSlotAlloc half => exact execCollectiveSlotAlloc_only half s
  | collectiveComplete half slot => exact execCollectiveComplete_only half slot s
  | collectiveStall half slot => exact execCollectiveStall_only half slot s
  | progressWatchdog part => exact execProgressWatchdog_only part s
  | fenceRelease part => exact execFenceRelease_only part s
  | modResetN => exact execModResetN_only s
  | bridgeMainbandError half retryOk => exact execBridgeMainbandError_only half retryOk s
  | bridgeRetrainDone half ok => exact execBridgeRetrainDone_only half ok s
  | heartbeatSend half => exact execHeartbeatSend_only half s
  | heartbeatArrive src path2 atSup hb => exact execHeartbeatArrive_only src path2 atSup hb s
  | pathSilent rcv path2 => exact execPathSilent_only rcv path2 s
  | livenessWrite half => exact execLivenessWrite_only half s
  | livenessExpire half => exact execLivenessExpire_only half s
  | holderFailedVoteRequest => exact execHolderFailedVoteRequest_only s
  | voteTally silent verified => exact execVoteTally_only silent verified s
  | voteRepeat silent verified => exact execVoteRepeat_only silent verified s
  | floorMessage stage claim trusted => exact execFloorMessage_only stage claim trusted s
  | floorBroadcast => exact execFloorBroadcast_only s
  | stageLapse stage => exact execStageLapse_only stage s
  | stageWrite half stage claim enable => exact execStageWrite_only half stage claim enable s
  | takeoverRestore answers => exact execTakeoverRestore_only answers s
  | takeoverComplete => exact execTakeoverComplete_only s
  | takeoverTimeout => exact execTakeoverTimeout_only s
  | inconclusiveTimeout => exact execInconclusiveTimeout_only s
  | checkpointSnapshot => exact execCheckpointSnapshot_only s
  | standbyCommitCheck ok => exact execStandbyCommitCheck_only ok s
  | resyncStart => exact execResyncStart_only s
  | supervisorFailure => exact execSupervisorFailure_only s
  | shutdownRailsOff => exact execShutdownRailsOff_only s
  | inputVoltageSample mv => exact execInputVoltageSample_only mv s
  | uvBrakeRelease => exact execUvBrakeRelease_only s
  | voltageRestart => exact execVoltageRestart_only s
  | pwrBrakeNChange high => exact execPwrBrakeNChange_only high s
  | thermAlertNChange high => exact execThermAlertNChange_only high s
  | thermAlertClear => exact execThermAlertClear_only s
  | thermCountdownExpire => exact execThermCountdownExpire_only s
  | thermalSensorRead tj tm => exact execThermalSensorRead_only tj tm s
  | leaseExpire => exact execLeaseExpire_only s
  | reportWindowEnd => exact execReportWindowEnd_only s
  | activityReport half frame rows => exact execActivityReport_only half frame rows s
  | reportLate half => exact execReportLate_only half s
  | ledgerGapExpire => exact execLedgerGapExpire_only s
  | frameReconcile energy vcore => exact execFrameReconcile_only energy vcore s
  | sheetCloseTimeout => exact execSheetCloseTimeout_only s
  | sheetSigned => exact execSheetSigned_only s
  | controlActivationResume => exact execControlActivationResume_only s
  | activationTimeout => exact execActivationTimeout_only s
  | traceRecord half core ev => exact execTraceRecord_only half core ev s
  | traceCrumb half pcs => exact execTraceCrumb_only half pcs s
  | perstN port => exact execPerstN_only port s
  | hdmCommit port on => exact execHdmCommit_only port on s
  | cxlLinkDown port => exact execCxlLinkDown_only port s
  | cxlLinkRetrain port width gts => exact execCxlLinkRetrain_only port width gts s
  | entdaa addr => exact execEntdaa_only addr s
  | setEndpointId eid => exact execSetEndpointId_only eid s
  | getEndpointId => exact execGetEndpointId_only s
  | getMctpVersionSupport => exact execGetMctpVersionSupport_only s
  | getMessageTypeSupport => exact execGetMessageTypeSupport_only s
  | setRackNumber rack => exact execSetRackNumber_only rack s
  | setRackTime v step => exact execSetRackTime_only v step s
  | getRackTime => exact execGetRackTime_only s
  | setPowerCap capW leaseMs applyRt => exact execSetPowerCap_only capW leaseMs applyRt s
  | renewPowerLease leaseMs => exact execRenewPowerLease_only leaseMs s
  | getPower => exact execGetPower_only s
  | getStatus => exact execGetStatus_only s
  | getLinks => exact execGetLinks_only s
  | locate on => exact execLocate_only on s
  | pldmLedgerRead kind fromSeq max => exact execPldmLedgerRead_only kind fromSeq max s
  | locateNChange high => exact execLocateNChange_only high s
  | platformEventRetry accepted => exact execPlatformEventRetry_only accepted s
  | requestUpdate component pkg area slot dir => exact execRequestUpdate_only component pkg area slot dir s
  | activateFirmware => exact execActivateFirmware_only s
  | getVersion => exact execGetVersion_only s
  | getCapabilities => exact execGetCapabilities_only s
  | negotiateAlgorithms => exact execNegotiateAlgorithms_only s
  | getDigests => exact execGetDigests_only s
  | getCertificate slot off len => exact execGetCertificate_only slot off len s
  | challenge slot nonce => exact execChallenge_only slot nonce s
  | getMeasurements index signed nonce => exact execGetMeasurements_only index signed nonce s
  | rackClkReturn => exact execRackClkReturn_only s
  | aux3v3Return => exact execAux3v3Return_only s
  | modResetNRelease => exact execModResetNRelease_only s
  | beginLowering => exact execBeginLowering_only s
  | powerIntervalEnd avgW => exact execPowerIntervalEnd_only avgW s
  | voteRequestRetry => exact execVoteRequestRetry_only s
  | standbyReadyLapse => exact execStandbyReadyLapse_only s
  | codewordArrive p corrected pkts => exact execCodewordArrive_only p corrected pkts s
  | backInvalidateResponse off dirty => exact execBackInvalidateResponse_only off dirty s
  | recipeLoadDone mb env => exact execRecipeLoadDone_only mb env s
  | fwStageDone mb area slot dir => exact execFwStageDone_only mb area slot dir s
  | controlCoreCacheError half single ue => exact execControlCoreCacheError_only half single ue s
  | setEventReceiver eid => exact execSetEventReceiver_only eid s

end Sys2Proof

namespace Sys2Proof
open Machine Claims

/-! # What the fuses hold

Every command completes (O3). The frames leave the queue out; they leave the identity out too, but for eight
commands (a start, the loss of power, the resets, the slot and the rack number), which keep the fuses one by one. -/

/-- What the fuses hold (R3, R4). -/
def fuses (s : State) : Variant × Nat := (s.ident.variant, s.ident.serial)

/-- A frame without the identity keeps the fuses. -/
theorem Only.fuses_eq {ps : List Zone} {s t : State} (h : Only ps s t) (hi : Zone.ident ∉ ps) :
    fuses t = fuses s := by
  have hid : t.ident = s.ident := h .ident hi
  simp only [fuses, hid]

theorem fuses_foldl {α : Type} {f : State → α → State} (k : ∀ s x, fuses (f s x) = fuses s) (l : List α)
    (s : State) : fuses (l.foldl f s) = fuses s := by
  induction l generalizing s with
  | nil => rfl
  | cons x r ih => rw [List.foldl_cons, ih, k]

theorem fuses_powerLost (s : State) : fuses (powerLost s) = fuses s := rfl

theorem fuses_moduleReset (s : State) : fuses (moduleReset s) = fuses s := by
  unfold moduleReset
  dsimp only
  rw [(capUpdate_only _).fuses_eq (by decide)]
  change fuses (railsLost _) = _
  rw [(railsLost_only _).fuses_eq (by decide)]
  change fuses (schedClear _) = _
  rw [(schedClear_only _).fuses_eq (by decide)]
  exact fuses_foldl (fun s c => ((hostEvent_only _ _ _ _ _).after (hostEvent_only _ _ _ _ _)).fuses_eq (by decide)) _ _

/-- Whatever next state `o` answers, the fuses hold in it what they hold in `s`. -/
def KeepsFuses (s : State) (o : Ans) : Prop := ∀ t, o = .next t → fuses t = fuses s

theorem KeepsFuses.next {s t : State} (h : fuses t = fuses s) : KeepsFuses s (.next t) := by
  intro u hu
  cases hu
  exact h

theorem Runs.keepsFuses {ps : List Zone} {s : State} {o : Ans} (h : Runs ps s o) (hi : ps.contains .ident = false) :
    KeepsFuses s o := by
  obtain ⟨t, rfl, ht⟩ := h
  exact .next (ht.fuses_eq (by simpa using hi))

theorem fuses_ite {s a b : State} {c : Prop} [Decidable c] (h : fuses a = fuses s) (k : fuses b = fuses s) :
    fuses (if c then a else b) = fuses s := by
  split
  · exact h
  · exact k

theorem execPowerOn52v_fuses (slotId flashRead) (s : State) :
    KeepsFuses s (exec (.powerOn52v slotId flashRead) s) :=
  .next (fuses_ite rfl (fuses_ite ((supervisorStart_only _ _).fuses_eq (by decide)) rfl))

theorem execInputLoss52v_fuses (s : State) : KeepsFuses s (exec .inputLoss52v s) := .next (fuses_powerLost s)

theorem execInputVoltageSample_fuses (mv) (s : State) : KeepsFuses s (exec (.inputVoltageSample mv) s) := by
  refine .next (fuses_ite rfl (fuses_ite (fuses_powerLost s) ?_))
  exact Only.fuses_eq (.after (.unless (.either (.after (orderlyShutdown_only _) (event_only _ _ _ _ _))
    (.when (.after (orderlyShutdown_only _) (event_only _ _ _ _ _)))))
    (.after (.when (.after (event_only _ _ _ _ _) (.brake (modPower_only _ _)))) (modPower_only _ _))) (by decide)

theorem execSlotIdSample_fuses (slotId) (s : State) : KeepsFuses s (exec (.slotIdSample slotId) s) :=
  .next (fuses_ite rfl (fuses_ite rfl (fuses_ite rfl ((plEvent_only _ _ _).fuses_eq (by decide)))))

theorem execSetRackNumber_fuses (rack) (s : State) : KeepsFuses s (exec (.setRackNumber rack) s) := by
  have reply_keeps (cc : Nat) (l : List Byte) (u : State) : fuses (reply cc l u) = fuses u :=
    (reply_only cc l u).fuses_eq (by decide)
  refine .next (fuses_ite ?_ rfl)
  refine fuses_ite (reply_keeps _ _ _) (fuses_ite ?_ (fuses_ite (reply_keeps _ _ _) ?_))
  · exact (reply_keeps _ _ _).trans ((startNegotiation_only _).fuses_eq (by decide))
  · exact (reply_keeps _ _ _).trans ((plEvent_only _ _ _).fuses_eq (by decide))

theorem execVoltageRestart_fuses (s : State) : KeepsFuses s (exec .voltageRestart s) := by
  refine .next ?_
  split
  · exact fuses_ite ((fuses_moduleReset _).trans ((waitUntil_only _ _).fuses_eq (by decide))) rfl
  · rfl

theorem execModResetN_fuses (s : State) : KeepsFuses s (exec .modResetN s) := by
  refine .next (fuses_ite rfl (fuses_ite rfl (fuses_ite ?_ (fuses_ite rfl (fuses_ite ?_ ?_)))))
  · exact fuses_ite (fuses_moduleReset _) rfl
  · exact fuses_moduleReset _
  · exact (scheduleReset_only _ _ _).fuses_eq (by decide)

theorem execWithdrawDrainEnd_fuses (s : State) : KeepsFuses s (exec .withdrawDrainEnd s) := by
  refine .next ?_
  split
  · rfl
  · exact (fuses_ite (fuses_moduleReset _) rfl).trans (Only.fuses_eq (.fold (fun _ _ => .unless
      (.after (setQueue_only _ _ _) (.after (count_only _ _ _ _) (.fold (fun _ _ => freeIn_only _ _ _) (.none _)))))
      (.after (modFab_only _ _) (waitUntil_only _ _))) (by decide))

/-- No command changes what the fuses hold. -/
theorem exec_keepsFuses (c : Instr) (s : State) : KeepsFuses s (exec c s) := by
  cases c with
  | powerOn52v slotId flashRead => exact execPowerOn52v_fuses slotId flashRead s
  | inputLoss52v => exact execInputLoss52v_fuses s
  | inputVoltageSample mv => exact execInputVoltageSample_fuses mv s
  | slotIdSample slotId => exact execSlotIdSample_fuses slotId s
  | setRackNumber rack => exact execSetRackNumber_fuses rack s
  | voltageRestart => exact execVoltageRestart_fuses s
  | modResetN => exact execModResetN_fuses s
  | withdrawDrainEnd => exact execWithdrawDrainEnd_fuses s
  | _ => exact (exec_runs _ s).keepsFuses rfl

theorem pending_untouched (c : Instr) : (touched c).contains .pending = false := by
  cases c <;> rfl

/-- Settles O3: the frame of each command leaves the queue out, and no command changes the fuses. -/
theorem everyCommandCompletes : Obligations.EveryCommandCompletes := by
  intro c s
  obtain ⟨t, ht, hframe⟩ := exec_runs c s
  have hqueue : t.pending = s.pending := hframe .pending (by simpa using pending_untouched c)
  have hfuses : fuses t = fuses s := exec_keepsFuses c s t ht
  obtain ⟨hvariant, hserial⟩ := Prod.mk.inj hfuses
  exact ⟨t, ht, hqueue, hvariant, hserial⟩

end Sys2Proof

namespace Sys2Proof
open Machine Claims

/-! # Register writes and clears (O38) -/

section Registers

variable {s : State} {port : Half} {blk : Nat}

/-- A frame without the status windows keeps every window. -/
theorem Only.win_eq {ps : List Zone} {s t : State} (h : Only ps s t) (hw : Zone.win ∉ ps) (b : Nat) :
    win t b = win s b := by
  have hwin : t.obs.win = s.obs.win := h .win hw
  simp only [win, hwin]

theorem takesWrite_iff : takesWrite s port blk = true ↔
    s.power.rails = true ∧ crownPort s port = true ∧ isBlock blk = true ∧ absentBlk s blk = false := by
  simp [takesWrite, and_assoc]

theorem lt_of_isBlock (h : isBlock blk = true) : blk < 0xC0 := by
  simp [isBlock] at h
  omega

theorem bitOf_toNat (d : BitVec 32) (i : Nat) : bitOf d.toNat i = d.getLsbD i := rfl

theorem onlyIf_true {p : Bool} (f : State → State) (s : State) (h : p = true) : onlyIf p f s = f s := by
  simp [onlyIf, h]

/-! ## The clears of a status window -/

/-- A message leaves every window as it is. -/
theorem win_resend (port : Half) (blk b : Nat) (s : State) : win (resend port blk s) b = win s b := by
  unfold resend
  dsimp only
  split
  · exact (msix_only _ _ _).win_eq (by decide) b
  · rfl

theorem win_clearSts (port : Half) (blk b : Nat) (d : BitVec 32) (s : State) :
    win (clearSts port blk d.toNat s) b =
      if blk = b then { win s blk with sts := (win s blk).sts &&& ~~~d } else win s b := by
  simp only [clearSts, win_resend, win_setWin, BitVec.ofNat_toNat, BitVec.setWidth_eq]

/-- FIRST_SRC and what it captured, cleared. -/
def firstCleared (w : Win) : Win :=
  { w with valid := false, injected := false, code := 0, bit := 0, rt := 0, info := 0 }

theorem win_clearFirst (blk b : Nat) {d : Nat} (s : State) (hd : bitOf d 31 = true) :
    win (clearFirst blk d s) b = if blk = b then firstCleared (win s blk) else win s b := by
  rw [← win_setWin]
  unfold clearFirst
  simp only [hd, Bool.not_true, Bool.false_eq_true, if_false]
  split
  · rfl
  · split <;> rfl

/-! ## The MSI-X table -/

/-- A vector raised leaves the table as it is. -/
theorem msixDword_raiseVec (h h' : Half) (v i : Nat) (s : State) :
    msixDword (raiseVec h v s) h' i = msixDword s h' i := by
  unfold raiseVec
  split <;> rfl

theorem msixDword_msixWrite (h : Half) (i v : Nat) (s : State) : msixDword (msixWrite h i v s) h i = v := by
  unfold msixWrite
  dsimp only
  split
  · rw [msixDword_raiseVec]
    exact FMap.get_set_self ..
  · exact FMap.get_set_self ..

/-! ## Aligned writes of four bytes -/

/-- A write of four bytes at an aligned offset is the write of its word. -/
theorem exec_registerWrite_word {off : Nat} (port : Half) (d : BitVec 32) (hr : s.power.rails = true)
    (ho : off % 4 = 0) : exec (.registerWrite port off 4 d.toNat) s = .next (barWrite port off d.toNat s) := by
  have hd : d.toNat % 4294967296 = d.toNat := Nat.mod_eq_of_lt d.isLt
  change execRegisterWrite port off 4 d.toNat s = _
  simp [execRegisterWrite, hr, ho, hd]

theorem barWrite_msix (port : Half) {i : Nat} (v : Nat) (s : State) (hi : i < 0x400) :
    barWrite port (0x80000 + 4 * i) v s = msixWrite port i v s := by
  have hdiv : (0x80000 + 4 * i - 0x80000) / 4 = i := by omega
  unfold barWrite
  rw [if_pos (by omega), hdiv]

theorem barWrite_latchEn (d : BitVec 32) (h : takesWrite s port blk = true) :
    barWrite port (0x200000 + 0x1000 * blk + 0xC) d.toNat s = setWin blk { win s blk with latchEn := d } s := by
  have hblk : blk < 0xC0 := lt_of_isBlock (takesWrite_iff.1 h).2.2.1
  have hdiv : (0x200000 + 0x1000 * blk + 0xC - 0x200000) / 0x1000 = blk := by omega
  have hmod : (0x200000 + 0x1000 * blk + 0xC) % 0x1000 = 0xC := by omega
  unfold barWrite
  rw [if_neg (by omega), if_pos (by omega)]
  dsimp only
  rw [hdiv, hmod, onlyIf_true _ _ h]
  simp [winWrite]

/-! ## The commands -/

variable (d : BitVec 32)

theorem exec_statusW1cWrite (h : takesWrite s port blk = true) :
    exec (.statusW1cWrite port blk d) s = .next (clearSts port blk d.toNat s) := by
  change execStatusW1cWrite port blk d s = _
  rw [execStatusW1cWrite, onlyIf_true _ _ h]

theorem exec_firstSrcClear (h : takesWrite s port blk = true) :
    exec (.firstSrcClear port blk d) s = .next (clearFirst blk d.toNat s) := by
  change execFirstSrcClear port blk d s = _
  rw [execFirstSrcClear, onlyIf_true _ _ h]

theorem exec_ovfClear (h : takesWrite s port blk = true) :
    exec (.ovfClear port blk d) s = .next (clearOvf blk d.toNat s) := by
  change execOvfClear port blk d s = _
  rw [execOvfClear, onlyIf_true _ _ h]

theorem exec_errlogClr (m : Fin 24) (h : takesWrite s port (mcBlk m) = true) :
    exec (.errlogClr port m d) s = .next (clearLog m d.toNat s) := by
  change execErrlogClr port m d s = _
  rw [execErrlogClr, onlyIf_true _ _ h]

theorem statusW1cWrite_clears (h : takesWrite s port blk = true) :
    ∃ t, exec (.statusW1cWrite port blk d) s = .next t ∧ Only [.win, .mbx] s t ∧
      (win t blk).sts = (win s blk).sts &&& ~~~d ∧ ∀ b, b ≠ blk → win t b = win s b := by
  refine ⟨_, exec_statusW1cWrite d h, (clearSts_only _ _ _ _).sub rfl, ?_, fun b hb => ?_⟩
  · rw [win_clearSts, if_pos rfl]
  · rw [win_clearSts, if_neg hb.symm]

theorem firstSrcClear_clears (h : takesWrite s port blk = true) (hd : d.getLsbD 31 = true) :
    ∃ t, exec (.firstSrcClear port blk d) s = .next t ∧ Only [.win, .eng] s t ∧
      win t blk = firstCleared (win s blk) ∧ ∀ b, b ≠ blk → win t b = win s b := by
  refine ⟨_, exec_firstSrcClear d h, (clearFirst_only _ _ _).sub rfl, ?_, fun b hb => ?_⟩
  · rw [win_clearFirst blk blk s hd, if_pos rfl]
  · rw [win_clearFirst blk b s hd, if_neg hb.symm]

theorem ovfClear_clears (h : takesWrite s port blk = true) (hd : d.getLsbD 31 = true) :
    exec (.ovfClear port blk d) s = .next (setWin blk { win s blk with ovf := false, later := 0 } s) := by
  rw [exec_ovfClear d h, clearOvf, bitOf_toNat, if_pos hd]

theorem errlogClr_clears (m : Fin 24) (h : takesWrite s port (mcBlk m) = true) (hd : d.getLsbD 0 = true) :
    ∃ t, exec (.errlogClr port m d) s = .next t ∧ Only [.mcs] s t ∧ (mcOf t m).log = [] := by
  refine ⟨_, exec_errlogClr d m h, (clearLog_only _ _ _).sub rfl, ?_⟩
  rw [clearLog, bitOf_toNat, if_pos hd, mcOf, modMc_mcs, FMap.get_mod_self]

theorem registerWrite_latchEn (h : takesWrite s port blk = true) :
    ∃ t, exec (.registerWrite port (0x200000 + 0x1000 * blk + 0xC) 4 d.toNat) s = .next t ∧ Only [.win] s t ∧
      win t blk = { win s blk with latchEn := d } := by
  have hr : s.power.rails = true := (takesWrite_iff.1 h).1
  refine ⟨_, (exec_registerWrite_word port d hr (by omega)).trans (congrArg _ (barWrite_latchEn d h)),
    setWin_only _ _ _, ?_⟩
  rw [win_setWin, if_pos rfl]

theorem registerWrite_msix {i : Nat} (hr : s.power.rails = true) (hi : i < 0x400) :
    ∃ t, exec (.registerWrite port (0x80000 + 4 * i) 4 d.toNat) s = .next t ∧ Only [.mbx] s t ∧
      msixDword t port i = d.toNat :=
  ⟨_, (exec_registerWrite_word port d hr (by omega)).trans (congrArg _ (barWrite_msix port d.toNat s hi)),
    msixWrite_only _ _ _ _, msixDword_msixWrite _ _ _ _⟩

end Registers

/-- Settles O38: each write through the crown's port comes to its clear or its word, and each leaves the other zones
and windows as they were. -/
theorem registersAreWritten : Obligations.RegistersAreWritten := by
  intro s port blk d h
  refine ⟨statusW1cWrite_clears d h, firstSrcClear_clears d h, ovfClear_clears d h, ?_, registerWrite_latchEn d h,
    fun i hi => registerWrite_msix d (takesWrite_iff.1 h).1 hi⟩
  rintro m rfl hd
  exact errlogClr_clears d m h hd

end Sys2Proof

namespace Sys2Proof
open Machine Claims

/-! # Routing, acknowledgement and resend of packets (O49) -/

section Packets

/-! ## A header at an input port (R342, R343) -/

/-- A unicast header that the port's receive buffer has taken, counted as it arrives and, unless it ends here, as
transit. -/
def tookIn (p : Fin 64) (k : Pkt) (s : State) : State :=
  let u := rxCount p k.vc (flits k) (count (0x80 + p) 3 (64 * flits k) (count (0x80 + p) 1 1 s))
  if k.destMid = s.ident.mid then u else count (0xA + (portHalf p).num) 32 (flits k) u

theorem tookIn_ident (p : Fin 64) (k : Pkt) (s : State) : (tookIn p k s).ident = s.ident := by
  unfold tookIn
  dsimp only
  split <;> rfl

theorem tookIn_withdrawn (p : Fin 64) (k : Pkt) (s : State) : (tookIn p k s).fab.withdrawn = s.fab.withdrawn := by
  unfold tookIn
  dsimp only
  split <;> rfl

theorem tookIn_drainEnd (p : Fin 64) (k : Pkt) (s : State) : (tookIn p k s).fab.drainEnd = s.fab.drainEnd := by
  unfold tookIn
  dsimp only
  split <;> rfl

/-- The header as it goes on from this module. -/
def hopped (k : Pkt) : Pkt := { k with hops := k.hops + 1 }

variable {s : State} {p : Fin 64} {k : Pkt}

theorem route_unicast (inp : Nat) (s : State) (hm : k.mcast = false) :
    route inp k s = doHop inp (hop s inp (hopped k)) (hopped k) s :=
  if_neg (by simp [hm])

theorem exec_packetRoute_own (k : Pkt) (hr : s.power.rails = true) (hv : s.ident.variant ≠ .s) :
    exec (.packetRoute none k) s = .next (sendOwn k s) := by
  change Host.Outcome.next (if s.ident.variant = .s ∨ !s.power.rails then s else sendOwn k s) = _
  rw [if_neg (by simp [hr, hv])]

section Input

variable (hst : [4, 5].contains (port s p).st = true) (hctl : [0xA, 0xB, 0xD].contains k.opcode = false)
include hst hctl

theorem exec_packetRoute_hit {y : Pkt × Nat} (hy : (port s p).hit.find? (fun y => y.1 = k) = some y) :
    exec (.packetRoute (some p) k) s = .next (dropHit p k y.2 s) := by
  change execPacketRoute (some p) k s = _
  simp only [execPacketRoute, hst, hctl, hy, Bool.not_true, Bool.false_eq_true, or_self, if_false]

/-- A unicast header that fits the buffer goes where the hop sends it. -/
theorem exec_packetRoute_hop (hy : (port s p).hit.find? (fun y => y.1 = k) = none)
    (hb : bufFlits (port s p) k.vc + flits k ≤ nth s.fab.vcAlloc k.vc) (hm : k.mcast = false) :
    exec (.packetRoute (some p) k) s =
      .next (doHop p (hop (tookIn p k s) p (hopped k)) (hopped k) (tookIn p k s)).1 := by
  change execPacketRoute (some p) k s = _
  simp only [execPacketRoute, hst, hctl, hy, hm, route_unicast _ _ hm, Bool.not_true, Bool.not_false,
    Bool.false_eq_true, or_self, and_true, if_false, if_neg (Nat.not_lt.2 hb)]
  rfl

end Input

/-! ## What a hop decides -/

theorem hop_hopLimit {inp : Nat} (h : 64 ≤ k.hops) : hop s inp k = .drop hopLimit := if_pos h

/-- A packet for this module, in order and not of VC7, is handed in unless the module has withdrawn and drained. -/
theorem hop_here {inp : Nat} (hin : inp < 64) (hh : k.hops < 64) (ho : 0 < k.opcode) (ho' : k.opcode ≤ 13)
    (hv : k.vc ≠ 7) (hw : s.fab.withdrawn = false ∨ s.fab.drainEnd.isSome) (hd : k.destMid = s.ident.mid) :
    hop s inp k = .here := by
  have hwd : ¬ (s.fab.withdrawn = true ∧ s.fab.drainEnd.isNone = true) := by
    rintro ⟨hwith, hnone⟩
    rcases hw with hw | hw
    · simp [hw] at hwith
    · simp [Option.isNone_iff_eq_none.1 hnone] at hw
  have hrule : bl1Rule k = true := by simp [bl1Rule, hv]
  unfold hop
  rw [if_neg (by omega), if_neg (by omega), if_neg (by simp [hrule]), if_neg hwd, if_neg (by omega), if_pos hd]

/-! ## Flows that receive (R356) -/

theorem waitUntil_fab (d : Nat) (s : State) : (waitUntil d s).fab = s.fab := waitUntil_only d s .fab (by decide)

theorem modFab_congr {f g : Fab → Fab} (h : f s.fab = g s.fab) : modFab f s = modFab g s := by
  simp only [modFab, h]

theorem modFlow_single {f : RxFlow} (g : RxFlow → RxFlow) (h : s.fab.rx = [f]) :
    modFab (fun x => { x with rx := modNth x.rx 0 g }) s = modFab (fun x => { x with rx := [g f] }) s :=
  modFab_congr (by rw [h]; rfl)

theorem exec_ackTimer_single {f : RxFlow} {a : Nat} (hf : s.fab.rx = [f]) (ha : f.ackAt = some a) :
    let u := modFab (fun x => { x with rx := [{ f with unacked := 0, ackAt := none }] }) (waitUntil (a + 100) s)
    exec (.ackTimer 0) s = .next (sendLoose (ackPkt u 8 f ((f.next + 2 ^ 32 - 1) % 2 ^ 32)) u) := by
  have hw : (waitUntil (a + 100) s).fab.rx = [f] := by rw [waitUntil_fab, hf]
  change execAckTimer 0 s = _
  simp only [execAckTimer, hf, List.getElem?_cons_zero, ha, modFlow_single _ hw]

theorem exec_seqGapNack_single {f : RxFlow} {a : Nat} (hf : s.fab.rx = [f]) (ha : f.gapAt = some a)
    (hh : f.held = []) :
    let v := waitUntil (max (a + 200) ((f.nackAt.map (· + 2000)).getD 0)) s
    let u := modFab (fun x => { x with rx := [{ f with nackAt := some v.time.clk }] }) v
    exec (.seqGapNack 0) s = .next (sendLoose (ackPkt u 9 f f.next) u) := by
  have hw : (waitUntil (max (a + 200) ((f.nackAt.map (· + 2000)).getD 0)) s).fab.rx = [f] := by
    rw [waitUntil_fab, hf]
  change execSeqGapNack 0 s = _
  simp only [execSeqGapNack, hf, List.getElem?_cons_zero, ha, hh, List.head?_nil, modFlow_single _ hw]

/-! ## Packets kept until acknowledged (R357, R358, R362) -/

theorem dropKept_single {r : Resend} (h : s.fab.resend = [r]) :
    modFab (fun f => { f with resend := f.resend.filter (· ≠ r) }) s = modFab (fun f => { f with resend := [] }) s :=
  modFab_congr (by simp [h])

theorem pumpTx_idle (h : s.fab.txWait = []) : pumpTx s = modFab (fun f => { f with txWait := [] }) s := by
  rw [pumpTx, h]
  rfl

/-- The only kept packet, acknowledged for the first time and not refused: its operation counts the acknowledgement. -/
theorem ackOne_single {r : Resend} (hr : s.fab.resend = [r]) (hm : r.pkt.mcast = false) (hn : r.resends = 0)
    (href : bitOf k.opArg 3 = false) (ht : r.pkt.tag < 32768) (ho : [3, 5].contains r.pkt.opcode = false) :
    ackOne k r s = modOp r.pkt.srcHalf r.pkt.tag (fun o => { o with acks := o.acks - 1 })
      (modFab (fun f => { f with resend := [] }) s) := by
  have hkept : othersKept r.pkt (modFab (fun f => { f with resend := [] }) s) = false := by simp [othersKept]
  simp only [ackOne, freeResend, href, hm, hn, ho, hkept, dropKept_single hr, Bool.false_and, Bool.false_eq_true,
    false_and, or_self, if_false, Nat.zero_ne_one, if_neg (Nat.not_le.2 ht)]

/-- The first NACK or timeout of the only kept packet sends it again. -/
theorem resendStep_first {r : Resend} (hr : s.fab.resend = [r]) (hb : r.busy = false) (hn : r.resends = 0) :
    resendStep r s = sendAgain { r with resends := 1 } (modFab (fun f => { f with resend := [] }) s) := by
  simp only [resendStep, hb, hn, dropKept_single hr, Bool.false_eq_true, if_false]

section Arrivals

variable {r : Resend} (hmid : k.destMid = s.ident.mid) (hcrc : k.crcOk = true) (hr : s.fab.resend = [r])
  (hm : r.pkt.mcast = false) (hf : ackedFlow k r = true) (hseq : r.pkt.seq = k.seq)
include hmid hcrc hr hm hf hseq

theorem exec_ackArrive_single (p : Fin 64) (hq : s.fab.txWait = []) (hn : r.resends = 0)
    (ho : k.opcode = 8) (href : bitOf k.opArg 3 = false) (hbusy : bitOf k.opArg 16 = false) (ht : r.pkt.tag < 32768)
    (hcode : [3, 5].contains r.pkt.opcode = false) :
    exec (.ackArrive p k) s = .next (modFab (fun f => { f with txWait := [] })
      (modOp r.pkt.srcHalf r.pkt.tag (fun o => { o with acks := o.acks - 1 })
        (modFab (fun f => { f with resend := [] }) s))) := by
  have hdist : (k.seq + 2 ^ 32 - r.pkt.seq % 2 ^ 32) % 2 ^ 32 < 2 ^ 31 := by omega
  have hhit : s.fab.resend.filter (fun r => ackedFlow k r &&
      decide ((k.seq + 2 ^ 32 - r.pkt.seq % 2 ^ 32) % 2 ^ 32 < 2 ^ 31)) = [r] := by
    rw [hr, List.filter_singleton, hf, decide_eq_true hdist]
    rfl
  change execAckArrive p k s = _
  rw [execAckArrive, if_neg (by simp [ho, hmid, hbusy]), if_neg (by simp [hcrc])]
  simp only [hhit, List.foldl_cons, List.foldl_nil, ackOne_single hr hm hn href ht hcode]
  rw [pumpTx_idle]
  exact hq

theorem exec_nackArrive_single (p : Fin 64) (hn : r.resends = 0) (ho : k.opcode = 9) (hb : r.busy = false) :
    exec (.nackArrive p k) s =
      .next (sendAgain { r with resends := 1 } (modFab (fun f => { f with resend := [] }) s)) := by
  have hfind : s.fab.resend.find? (fun r => ackedFlow k r && r.pkt.seq = k.seq) = some r := by
    simp [hr, hf, hseq]
  change execNackArrive p k s = _
  rw [execNackArrive, if_neg (by simp [ho, hmid]), if_neg (by simp [hcrc]), hfind]
  simp only [resendAt, hm, Bool.not_false, if_true, resendStep_first hr hb hn]

end Arrivals

theorem exec_resendTimeout_single {r : Resend} (hr : s.fab.resend = [r]) (hm : r.pkt.mcast = false)
    (hb : r.busy = false) (hn : r.resends = 0) :
    exec (.resendTimeout 0) s = .next (sendAgain { r with resends := 1 }
      (modFab (fun f => { f with resend := [] }) (waitUntil (r.sentAt + 2000) s))) := by
  have hw : (waitUntil (r.sentAt + 2000) s).fab.resend = [r] := by rw [waitUntil_fab, hr]
  change execResendTimeout 0 s = _
  simp only [execResendTimeout, hr, List.getElem?_cons_zero, resendAll, hm, Bool.not_false, if_true,
    resendStep_first hw hb hn]

theorem exec_bl1BusyAck_single {r : Resend} (p : Fin 64) (hr : s.fab.resend = [r]) (hv : r.pkt.vc = 7)
    (hd : r.pkt.destMid = k.srcMid) (hs : r.pkt.srcHalf = k.destHalf) (hh : r.pkt.destHalf = k.srcHalf)
    (hq : r.pkt.seq = k.seq) :
    exec (.bl1BusyAck p k) s =
      .next (modFab (fun f => { f with resend := [{ r with busy := true, sentAt := s.time.clk }] }) s) :=
  congrArg Host.Outcome.next (modFab_congr (by simp [hr, hv, hd, hs, hh, hq]))

end Packets

/-- Settles O49: a header is dropped, handed in or sent on as its hop decides, and the only kept packet or flow is
acknowledged, marked busy or sent again. -/
theorem packetsAreRoutedAndKept : Obligations.PacketsAreRoutedAndKept := by
  refine ⟨fun s k hr hv => exec_packetRoute_own k hr hv, fun s p k hst hctl => ⟨?_, ?_⟩, fun s => ?_⟩
  · exact fun y hy => exec_packetRoute_hit hst hctl hy
  · intro hy hb hm
    have hexec := exec_packetRoute_hop hst hctl hy hb hm
    refine ⟨fun hh => ?_, fun q hh => ?_, fun d o hh => ?_, fun hl => hop_hopLimit (Nat.succ_le_succ hl), ?_⟩
    · change hop (tookIn p k s) p (hopped k) = _ at hh
      rw [hexec, hh]
      rfl
    · change hop (tookIn p k s) p (hopped k) = _ at hh
      rw [hexec, hh, doHop, apply_ite Prod.fst]
      rfl
    · change hop (tookIn p k s) p (hopped k) = _ at hh
      rw [hexec, hh]
      rfl
    · intro hl ho ho' hv hw hd
      refine hop_here p.isLt (Nat.succ_lt_succ hl) ho ho' (by change k.vc ≠ 7; omega) ?_ ?_
      · exact (tookIn_withdrawn p k s).symm ▸ (tookIn_drainEnd p k s).symm ▸ hw
      · exact hd.trans (congrArg Ident.mid (tookIn_ident p k s)).symm
  · refine ⟨fun f a => exec_ackTimer_single, fun f a => exec_seqGapNack_single,
      fun p k r hmid hcrc hr hq hm _ hf hseq _ hn => ⟨fun ho href hbusy ht hcode => ?_, fun ho hb => ?_⟩,
      fun r => exec_resendTimeout_single, fun p k r => exec_bl1BusyAck_single p⟩
    · exact ⟨_, exec_ackArrive_single hmid hcrc hr hm hf hseq p hq hn ho href hbusy ht hcode, rfl, rfl,
        .sub (.after (modFab_only _ _) (.after (modOp_only _ _ _ _) (modFab_only _ _))) rfl⟩
    · exact exec_nackArrive_single hmid hcrc hr hm hf hseq p hn ho hb

end Sys2Proof

namespace Sys2Proof
open Machine Claims

/-! # Frames, reports and sheets of the ledger (O56) -/

section LedgerFrames

/-! ## Bits of a status window -/

theorem latchEvent_sts (w : Win) (bit code info rt : Nat) (inj : Bool) :
    (latchEvent w bit code info rt inj).sts = w.sts ||| BitVec.ofNat 32 (2 ^ bit) := by
  unfold latchEvent
  dsimp only
  split
  · rfl
  · split <;> rfl

/-- What an event leaves of every window's bits. -/
theorem sts_event (blk bit code info : Nat) (s : State) (b : Nat) :
    (win (event blk bit code info s) b).sts =
      if blk = b then (win s b).sts ||| BitVec.ofNat 32 (2 ^ bit) else (win s b).sts := by
  have hlatched : win (event blk bit code info s) b = win (setWin blk
      (latchEvent (win s blk) bit code info (blkCount s blk ((blkHalf blk).getD s.crown.holder)) false) s) b :=
    Only.win_eq (.after (.when (msix_only _ _ _)) (.unless (countSat_only _ _ _ _))) (by decide) b
  rw [hlatched, win_setWin]
  split
  · next h => rw [latchEvent_sts, h]
  · rfl

theorem event_sets {blk bit : Nat} (code info : Nat) (s : State) (h : bit < 32) :
    (win (event blk bit code info s) blk).sts.getLsbD bit = true := by
  rw [sts_event, if_pos rfl, BitVec.getLsbD_or, BitVec.getLsbD_ofNat]
  simp [h]

theorem event_keeps {b i : Nat} (blk bit code info : Nat) {s : State} (h : (win s b).sts.getLsbD i = true) :
    (win (event blk bit code info s) b).sts.getLsbD i = true := by
  rw [sts_event]
  split
  · rw [BitVec.getLsbD_or, h, Bool.true_or]
  · exact h

/-! ## What applying events and settling accounts leaves alone

Receipts, pools and requests change in many places; the book of frames, and what the windows already show, do not. -/

/-- What the ledger holds of the frames and their reports (R469, R470, R486). -/
structure FrameBook where
  input : Nat
  nextFrame : Nat
  spanE : Nat
  spanFrom : Nat
  reports : List Report
  shut : Option Nat

def frameBook (l : Ledger) : FrameBook := ⟨l.input, l.nextFrame, l.spanE, l.spanFrom, l.reports, l.shut⟩

theorem frameBook_fields {l : Ledger} {i n e f : Nat} {r : List Report} {sh : Option Nat}
    (h : frameBook l = ⟨i, n, e, f, r, sh⟩) : l.input = i ∧ l.nextFrame = n ∧ l.spanE = e ∧ l.spanFrom = f ∧
      l.reports = r ∧ l.shut = sh :=
  FrameBook.mk.inj h

/-- From `s` to `t` the book of frames stays and no bit of a status window clears. -/
structure BookKept (s t : State) : Prop where
  book : frameBook t.led = frameBook s.led
  sts : ∀ b i, (win s b).sts.getLsbD i = true → (win t b).sts.getLsbD i = true

namespace BookKept

variable {s t u : State}

theorem refl (s : State) : BookKept s s := ⟨rfl, fun _ _ h => h⟩

theorem after (k : BookKept t u) (h : BookKept s t) : BookKept s u :=
  ⟨k.book.trans h.book, fun b i hi => k.sts b i (h.sts b i hi)⟩

theorem branch {a b : State} {c : Prop} [Decidable c] (h : BookKept s a) (k : BookKept s b) :
    BookKept s (if c then a else b) := by
  split
  · exact h
  · exact k

theorem when {a : State} {c : Prop} [Decidable c] (h : BookKept s a) : BookKept s (if c then a else s) :=
  branch h (refl s)

theorem fold {α : Type} {f : State → α → State} (k : ∀ s x, BookKept s (f s x)) (l : List α) (s : State) :
    BookKept s (l.foldl f s) := by
  induction l generalizing s with
  | nil => exact refl s
  | cons x r ih => exact after (ih (f s x)) (k s x)

/-- A frame without the ledger and the windows keeps the book. -/
theorem ofOnly {ps : List Zone} (h : Only ps s t) (hl : Zone.led ∉ ps) (hw : Zone.win ∉ ps) : BookKept s t := by
  have hled : t.led = s.led := h .led hl
  exact ⟨congrArg frameBook hled, fun b i hi => by rw [h.win_eq hw b, hi]⟩

theorem input (h : BookKept s t) : t.led.input = s.led.input := congrArg FrameBook.input h.book
theorem nextFrame (h : BookKept s t) : t.led.nextFrame = s.led.nextFrame := congrArg FrameBook.nextFrame h.book
theorem spanE (h : BookKept s t) : t.led.spanE = s.led.spanE := congrArg FrameBook.spanE h.book
theorem spanFrom (h : BookKept s t) : t.led.spanFrom = s.led.spanFrom := congrArg FrameBook.spanFrom h.book
theorem reports (h : BookKept s t) : t.led.reports = s.led.reports := congrArg FrameBook.reports h.book
theorem shut (h : BookKept s t) : t.led.shut = s.led.shut := congrArg FrameBook.shut h.book

end BookKept

@[simp] theorem modLed_led (f : Ledger → Ledger) (s : State) : (modLed f s).led = f s.led := rfl

/-- An update of other fields of the ledger keeps the book. -/
theorem modLed_kept {f : Ledger → Ledger} {s : State}
    (h : ∀ l, frameBook (f l) = frameBook l := by intro l; dsimp only [frameBook]) : BookKept s (modLed f s) :=
  ⟨h s.led, fun _ _ hi => hi⟩

theorem waitCount_kept (t : Nat) (s : State) : BookKept s (waitCount t s) :=
  .ofOnly (waitCount_only t s) (by decide) (by decide)

theorem takeFree_kept (s : State) : BookKept s (takeFree s) := .ofOnly (takeFree_only s) (by decide) (by decide)

theorem event_led (blk bit code info : Nat) (s : State) : (event blk bit code info s).led = s.led :=
  event_only blk bit code info s .led (by decide)

theorem event_kept (blk bit code info : Nat) (s : State) : BookKept s (event blk bit code info s) :=
  ⟨congrArg frameBook (event_led blk bit code info s), fun _ _ hi => event_keeps blk bit code info hi⟩

theorem setPool_kept (c : Nat) (p : Option Pool) (s : State) : BookKept s (setPool c p s) := modLed_kept

theorem closeSheet_kept (shut : Bool) (s : State) : BookKept s (closeSheet shut s) := by
  unfold closeSheet
  split
  · exact .refl s
  · exact modLed_kept

theorem issue_kept (a : Account) (s : State) : BookKept s (issue a s) :=
  .after (.when (closeSheet_kept _ _)) (.after modLed_kept (.when (event_kept _ _ _ _ _)))

theorem settle_kept (c : Nat) (s : State) : BookKept s (settle c s) :=
  .branch (setPool_kept _ _ _) (.after (setPool_kept _ _ _) modLed_kept)

theorem closeReq_kept (e : LedEvent) (tag : Nat) (s : State) : BookKept s (closeReq e tag s) := by
  refine .branch (event_kept _ _ _ _ _) ?_
  dsimp only
  split
  · exact settle_kept _ _
  · exact .after modLed_kept (.after (issue_kept _ _) (settle_kept _ _))

theorem closeAccount_kept (tq c rt : Nat) (s : State) : BookKept s (closeAccount tq c rt s) :=
  .after (setPool_kept _ _ _) (issue_kept _ _)

theorem applyEvent_kept (e : LedEvent) (s : State) : BookKept s (applyEvent e s) := by
  unfold applyEvent
  split
  · exact .branch (event_kept _ _ _ _ _) (.after modLed_kept (settle_kept _ _))
  · exact closeReq_kept _ _ _
  · exact event_kept _ _ _ _ _
  · exact .branch modLed_kept (event_kept _ _ _ _ _)
  · exact modLed_kept
  · exact .fold (fun _ _ => closeReq_kept _ _ _) _ _
  · exact .after (setPool_kept _ _ _) (.after (closeAccount_kept _ _ _ _) (settle_kept _ _))

theorem applyEvents_kept (t : Nat) (s : State) : BookKept s (applyEvents t s) :=
  .after (.fold (fun _ _ => applyEvent_kept _ _) _ _) modLed_kept

theorem accountsDue_kept (shut : Bool) (rt : Nat) (s : State) : BookKept s (accountsDue shut rt s) :=
  .fold (fun _ _ => .when (closeAccount_kept _ _ _ _)) _ _

theorem boundaryDue_kept (t : Nat) (s : State) : BookKept s (boundaryDue t s) :=
  .when (.after modLed_kept (accountsDue_kept _ _ _))

theorem methodUpdate_kept (f : Nat) (s : State) : BookKept s (methodUpdate f s) := by
  unfold methodUpdate
  split
  · exact .when modLed_kept
  · exact .refl s

theorem seeFree_kept (s : State) : BookKept s (seeFree s) := .branch (.refl s) modLed_kept

theorem reconcile_kept (ra rb : List ActivityRow) (e v t : Nat) (held : Bool) (s : State) :
    BookKept s (reconcile ra rb e v t held s) := by
  unfold reconcile
  split
  exact .after (.fold (fun _ _ => .when (settle_kept _ _)) _ _) (.after (applyEvents_kept _ _)
    (.after modLed_kept (.after (setPool_kept _ _ _)
    (.after (.fold (fun _ _ => setPool_kept _ _ _) _ _) (.after (takeFree_kept _) (.when (event_kept _ _ _ _ _)))))))

theorem reconcileTo_kept (e v t : Nat) (s : State) : BookKept s (reconcileTo e v t s) := by
  unfold reconcileTo
  exact .after modLed_kept (.after (reconcile_kept _ _ _ _ _ _ _) modLed_kept)

theorem markLate_kept (h : Half) (s : State) : BookKept s (markLate h s) := by
  refine .after (.when (event_kept _ _ _ _ _)) ?_
  cases h <;> exact modLed_kept

/-! ## Reports (R28, R469) -/

variable {s : State}

theorem reportOf_congr {t : State} (h : t.led.reports = s.led.reports) (half : Half) (f : Nat) :
    reportOf t half f = reportOf s half f := by
  rw [reportOf, reportOf, h]

/-- A half's report in the place of any other of the same frame. -/
def putReport (r : Report) (l : Ledger) : Ledger :=
  { l with reports := l.reports.filter (fun x => !(x.half = r.half && x.frame = r.frame)) ++ [r] }

theorem reportOf_putReport (r : Report) (s : State) : reportOf (modLed (putReport r) s) r.half r.frame = some r := by
  have hothers : (s.led.reports.filter (fun x => !(x.half = r.half && x.frame = r.frame))).find?
      (fun x => x.half = r.half && x.frame = r.frame) = none :=
    List.find?_eq_none.2 fun x hx => by
      simpa only [Bool.not_eq_true', Bool.not_eq_true] using (List.mem_filter.1 hx).2
  change (s.led.reports.filter _ ++ [r]).find? _ = _
  rw [List.find?_append, hothers]
  simp

theorem exec_activityReport_noEvents {h : Half} {f : Nat} {rows : List ActivityRow} (hr : s.led.running = true)
    (hf : s.led.spanFrom ≤ f) (he : s.led.tileEv = []) :
    exec (.activityReport h f rows) s = .next (modLed (putReport ⟨h, f, rows⟩) s) := by
  change execActivityReport h f rows s = _
  simp [execActivityReport, hr, he, modLed, putReport, Nat.not_lt.2 hf]

theorem exec_reportLate_missing {h : Half} (hr : s.led.running = true)
    (hm : reportOf s h s.led.nextFrame = none) :
    exec (.reportLate h) s = .next (markLate h (waitCount ((s.led.nextFrame + 1) * 100000 + 20000) s)) := by
  change execReportLate h s = _
  rw [execReportLate, if_neg (by simp [hr, hm])]

/-- The report of a half is marked late. -/
def lateOf (s : State) (h : Half) : Bool := match h with | .a => s.led.lateA | .b => s.led.lateB

theorem lateOf_event (c : Prop) [Decidable c] (h : Half) (s : State) :
    lateOf (if c then event 4 4 0 0 s else s) h = lateOf s h := by
  split
  · simp only [lateOf, event_led]
  · rfl

theorem markLate_lateOf (h : Half) (s : State) : lateOf (markLate h s) h = true := by
  cases h with
  | a => exact lateOf_event _ _ _
  | b => exact lateOf_event _ _ _

/-- The first half that is late in a frame sets the bit of held frames. -/
theorem markLate_first (h : Half) (ha : s.led.lateA = false) (hb : s.led.lateB = false) :
    (win (markLate h s) 4).sts.getLsbD 4 = true := by
  unfold markLate
  dsimp only
  rw [if_pos (by simp [ha, hb])]
  exact event_sets _ _ _ (by decide)

theorem activityReport_keeps {h : Half} {f : Nat} {rows : List ActivityRow} (hr : s.led.running = true)
    (hf : s.led.spanFrom ≤ f) (he : s.led.tileEv = []) :
    ∃ t, exec (.activityReport h f rows) s = .next t ∧ Only [.led] s t ∧ reportOf t h f = some ⟨h, f, rows⟩ :=
  ⟨_, exec_activityReport_noEvents hr hf he, modLed_only _ _, reportOf_putReport ⟨h, f, rows⟩ s⟩

theorem reportLate_marks {h : Half} (hr : s.led.running = true) (hm : reportOf s h s.led.nextFrame = none)
    (ha : s.led.lateA = false) (hb : s.led.lateB = false) :
    ∃ t, exec (.reportLate h) s = .next t ∧ lateOf t h = true ∧ (win t 4).sts.getLsbD 4 = true ∧
      Only [.time, .led, .win, .ctr, .mbx] s t := by
  have hexec := exec_reportLate_missing hr hm
  have honly := waitCount_only ((s.led.nextFrame + 1) * 100000 + 20000) s
  generalize waitCount _ s = u at hexec honly
  have hled : u.led = s.led := honly .led (by decide)
  exact ⟨_, hexec, markLate_lateOf h u, markLate_first h (hled ▸ ha) (hled ▸ hb),
    .sub (.after (markLate_only _ _) honly) rfl⟩

/-! ## A span given to the house (R469) -/

/-- The house has the held energy and the held events are applied; the next span has not begun. -/
def gapApplied (s : State) : State :=
  let u := event 4 5 0 0 s
  boundaryDue (s.led.nextFrame * 100000) (applyEvents (s.led.nextFrame * 100000) (houseAdd u.led.spanE true u))

theorem gapApplied_kept_event (s : State) : BookKept (event 4 5 0 0 s) (gapApplied s) :=
  .after (boundaryDue_kept _ _) (.after (applyEvents_kept _ _) (setPool_kept _ _ _))

theorem gapApplied_kept (s : State) : BookKept s (gapApplied s) :=
  .after (gapApplied_kept_event s) (event_kept _ _ _ _ _)

theorem gapNow_short (h : s.led.nextFrame < s.led.spanFrom + 100) : gapNow s = s := if_pos h

/-- After 100 held frames a span begins at the next frame, with the reports from it on. -/
theorem gapNow_long (h : s.led.spanFrom + 100 ≤ s.led.nextFrame) : ∃ f : Ledger → Ledger,
    gapNow s = modLed f (gapApplied s) ∧ ∀ l, frameBook (f l) = ⟨l.input, l.nextFrame, 0, l.nextFrame,
      l.reports.filter (fun r => l.nextFrame ≤ r.frame), l.shut⟩ :=
  ⟨_, if_neg (Nat.not_lt.2 h), fun _ => rfl⟩

theorem frameBook_gapNow (h : s.led.spanFrom + 100 ≤ s.led.nextFrame) :
    frameBook (gapNow s).led = ⟨s.led.input, s.led.nextFrame, 0, s.led.nextFrame,
      s.led.reports.filter (fun r => s.led.nextFrame ≤ r.frame), s.led.shut⟩ := by
  obtain ⟨f, hgap, hf⟩ := gapNow_long h
  have hkept := gapApplied_kept s
  rw [hgap, modLed_led, hf, hkept.input, hkept.nextFrame, hkept.reports, hkept.shut]

/-- The span lost to the house shows in the ledger's window. -/
theorem gapNow_sets (h : s.led.spanFrom + 100 ≤ s.led.nextFrame) : (win (gapNow s) 4).sts.getLsbD 5 = true := by
  obtain ⟨f, hgap, -⟩ := gapNow_long h
  rw [hgap, (modLed_only f (gapApplied s)).win_eq (by decide)]
  exact (gapApplied_kept_event s).sts 4 5 (event_sets 0 0 s (by decide))

theorem reportOf_from {t : State} {f : Nat} (h : t.led.reports = s.led.reports.filter (fun r => f ≤ r.frame))
    (half : Half) : reportOf t half f = reportOf s half f := by
  rw [reportOf, reportOf, h, List.find?_filter]
  congr 1
  funext r
  by_cases hr : r.frame = f <;> simp [hr]

/-- A gap changes neither the count of frames nor the reports of the next one. -/
theorem gapNow_book (s : State) : (gapNow s).led.input = s.led.input ∧ (gapNow s).led.nextFrame = s.led.nextFrame ∧
    (gapNow s).led.shut = s.led.shut ∧
    ∀ h, reportOf (gapNow s) h s.led.nextFrame = reportOf s h s.led.nextFrame := by
  rcases Nat.lt_or_ge s.led.nextFrame (s.led.spanFrom + 100) with h | h
  · rw [gapNow_short h]
    exact ⟨rfl, rfl, rfl, fun _ => rfl⟩
  · obtain ⟨hinput, hnext, -, -, hreports, hshut⟩ := frameBook_fields (frameBook_gapNow h)
    exact ⟨hinput, hnext, hshut, reportOf_from hreports⟩

theorem ledgerGapExpire_begins (hr : s.led.running = true) (h : s.led.spanFrom + 100 ≤ s.led.nextFrame) :
    ∃ t, exec .ledgerGapExpire s = .next t ∧ t.led.spanE = 0 ∧ t.led.spanFrom = s.led.nextFrame ∧
      t.led.nextFrame = s.led.nextFrame ∧ (win t 4).sts.getLsbD 5 = true := by
  obtain ⟨-, hnext, hspan, hfrom, -, -⟩ := frameBook_fields (frameBook_gapNow h)
  exact ⟨gapNow s, congrArg Host.Outcome.next (onlyIf_true gapNow s hr), hspan, hfrom, hnext, gapNow_sets h⟩

/-! ## A frame reconciled or held (R469, R470) -/

/-- Measured energy joins the input. -/
def addInput (energy : Nat) (l : Ledger) : Ledger := { l with input := l.input + energy }

/-- The energy read for a frame, added to the input before the frame's end. -/
def energyRead (energy : Nat) (s : State) : State :=
  modLed (addInput energy) (seeFree (methodUpdate (gapNow s).led.spanFrom (gapNow s)))

/-- A frame that ends at count `t` with its span's energy `e` shared out. -/
def sharedFrame (e v t : Nat) (s : State) : State := nextSpan t (boundaryDue t (reconcileTo e v t s))

/-- The halves that have not reported frame `f` in time are marked. -/
def lateMarked (f : Nat) (s : State) : State :=
  let u := waitCount ((f + 1) * 100000 + 20000) s
  let u := if (reportOf s .a f).isNone then markLate .a u else u
  if (reportOf s .b f).isNone then markLate .b u else u

/-- The next frame joins a span of energy `e`. -/
def holdFrame (e : Nat) (l : Ledger) : Ledger :=
  { l with spanE := e, nextFrame := l.nextFrame + 1, lateA := false, lateB := false }

/-- A frame whose energy `e` waits for the reports. -/
def heldFrame (e f : Nat) (s : State) : State := modLed (holdFrame e) (lateMarked f s)

/-- Frame `f` at its end: shared out once both halves have reported it or will report no more, and held otherwise. -/
def closeFrame (e v f : Nat) (s : State) : State :=
  if s.power.off ∨ s.power.shutdown.isSome ∧ s.led.shut = none ∨
      (reportOf s .a f).isSome ∧ (reportOf s .b f).isSome then sharedFrame e v ((f + 1) * 100000) s
  else heldFrame e f s

theorem lateMarked_kept (f : Nat) (s : State) : BookKept s (lateMarked f s) :=
  .after (.when (markLate_kept _ _)) (.after (.when (markLate_kept _ _)) (waitCount_kept _ _))

theorem boundary_kept (e v t : Nat) (s : State) : BookKept s (boundaryDue t (reconcileTo e v t s)) :=
  .after (boundaryDue_kept _ _) (reconcileTo_kept _ _ _ _)

theorem frameBook_nextSpan (t : Nat) (s : State) : frameBook (nextSpan t s).led =
    ⟨s.led.input, s.led.nextFrame + 1, 0, s.led.nextFrame + 1,
      s.led.reports.filter (fun r => s.led.nextFrame < r.frame), s.led.shut⟩ := rfl

theorem frameBook_sharedFrame (e v t : Nat) (s : State) : frameBook (sharedFrame e v t s).led =
    ⟨s.led.input, s.led.nextFrame + 1, 0, s.led.nextFrame + 1,
      s.led.reports.filter (fun r => s.led.nextFrame < r.frame), s.led.shut⟩ := by
  have hkept := boundary_kept e v t s
  rw [sharedFrame, frameBook_nextSpan, hkept.input, hkept.nextFrame, hkept.reports, hkept.shut]

theorem frameBook_holdFrame (e : Nat) (l : Ledger) :
    frameBook (holdFrame e l) = ⟨l.input, l.nextFrame + 1, e, l.spanFrom, l.reports, l.shut⟩ := rfl

theorem frameBook_heldFrame (e f : Nat) (s : State) : frameBook (heldFrame e f s).led =
    ⟨s.led.input, s.led.nextFrame + 1, e, s.led.spanFrom, s.led.reports, s.led.shut⟩ := by
  have hkept := lateMarked_kept f s
  rw [heldFrame, modLed_led, frameBook_holdFrame, hkept.input, hkept.nextFrame, hkept.spanFrom, hkept.reports,
    hkept.shut]

/-- Either way the frame is over, with its energy in the input. -/
theorem closeFrame_counts (e v f : Nat) (s : State) : (closeFrame e v f s).led.input = s.led.input ∧
    (closeFrame e v f s).led.nextFrame = s.led.nextFrame + 1 := by
  unfold closeFrame
  split
  · obtain ⟨hinput, hnext, -⟩ := frameBook_fields (frameBook_sharedFrame e v ((f + 1) * 100000) s)
    exact ⟨hinput, hnext⟩
  · obtain ⟨hinput, hnext, -⟩ := frameBook_fields (frameBook_heldFrame e f s)
    exact ⟨hinput, hnext⟩

theorem closeFrame_reported {f : Nat} (e v : Nat) (ha : (reportOf s .a f).isSome = true)
    (hb : (reportOf s .b f).isSome = true) :
    (closeFrame e v f s).led.spanE = 0 ∧ (closeFrame e v f s).led.spanFrom = s.led.nextFrame + 1 := by
  rw [closeFrame, if_pos (.inr (.inr ⟨ha, hb⟩))]
  obtain ⟨-, -, hspan, hfrom, -⟩ := frameBook_fields (frameBook_sharedFrame e v ((f + 1) * 100000) s)
  exact ⟨hspan, hfrom⟩

theorem closeFrame_missing {f : Nat} (e v : Nat) (ha : reportOf s .a f = none) (ho : s.power.off = false)
    (hs : s.power.shutdown = none) :
    (closeFrame e v f s).led.spanE = e ∧ (closeFrame e v f s).led.spanFrom = s.led.spanFrom := by
  rw [closeFrame, if_neg (by simp [ha, ho, hs])]
  obtain ⟨-, -, hspan, hfrom, -⟩ := frameBook_fields (frameBook_heldFrame e f s)
  exact ⟨hspan, hfrom⟩

/-- The state at the end of the next frame, its energy read. -/
def frameEnd (energy : Nat) (s : State) : State :=
  waitCount (((gapNow s).led.nextFrame + 1) * 100000) (energyRead energy s)

theorem frameBook_addInput (energy : Nat) (l : Ledger) :
    frameBook (addInput energy l) =
      ⟨l.input + energy, l.nextFrame, l.spanE, l.spanFrom, l.reports, l.shut⟩ := rfl

theorem frameBook_energyRead (energy : Nat) (s : State) : frameBook (energyRead energy s).led =
    ⟨(gapNow s).led.input + energy, (gapNow s).led.nextFrame, (gapNow s).led.spanE, (gapNow s).led.spanFrom,
      (gapNow s).led.reports, (gapNow s).led.shut⟩ := by
  have hkept : BookKept (gapNow s) (seeFree (methodUpdate (gapNow s).led.spanFrom (gapNow s))) :=
    .after (seeFree_kept _) (methodUpdate_kept _ _)
  rw [energyRead, modLed_led, frameBook_addInput, hkept.input, hkept.nextFrame, hkept.spanE, hkept.spanFrom,
    hkept.reports, hkept.shut]

theorem frameBook_frameEnd (energy : Nat) (s : State) : frameBook (frameEnd energy s).led =
    ⟨(gapNow s).led.input + energy, (gapNow s).led.nextFrame, (gapNow s).led.spanE, (gapNow s).led.spanFrom,
      (gapNow s).led.reports, (gapNow s).led.shut⟩ :=
  (waitCount_kept _ _).book.trans (frameBook_energyRead energy s)

theorem frameEnd_power (energy : Nat) (s : State) : (frameEnd energy s).power = s.power :=
  Only.after (waitCount_only _ _) (.after (modLed_only _ _)
    (.after (seeFree_only _) (.after (methodUpdate_only _ _) (gapNow_only s)))) .power (by decide)

theorem reportOf_frameEnd (energy : Nat) (s : State) (h : Half) :
    reportOf (frameEnd energy s) h s.led.nextFrame = reportOf s h s.led.nextFrame := by
  obtain ⟨-, -, -, hreport⟩ := gapNow_book s
  obtain ⟨-, -, -, -, hreports, -⟩ := frameBook_fields (frameBook_frameEnd energy s)
  rw [reportOf_congr hreports, hreport]

/-- Without an orderly shutdown to reconcile, the next frame is closed with the energy of its span. -/
theorem exec_frameReconcile_open {energy v : Nat} (hr : s.led.running = true) (hs : s.led.shut = none) :
    exec (.frameReconcile energy v) s = .next
      (closeFrame ((gapNow s).led.spanE + energy) v s.led.nextFrame (frameEnd energy s)) := by
  obtain ⟨-, hnext, hshut, -⟩ := gapNow_book s
  obtain ⟨-, -, hspan, -, -, hread⟩ := frameBook_fields (frameBook_energyRead energy s)
  have hopen : (energyRead energy s).led.shut = none := hread.trans (hshut.trans hs)
  rw [← hnext, ← hspan]
  change execFrameReconcile energy v s = _
  rw [execFrameReconcile, if_neg (by simp [hr])]
  dsimp only
  split
  · next t ht =>
    change (energyRead energy s).led.shut.filter _ = some t at ht
    simp [hopen] at ht
  · rfl

/-- A frame reconciled: its energy joins the input, and it is shared out or held with its span (R470). -/
theorem frameReconcile_counts (energy v : Nat) (hr : s.led.running = true) (hs : s.led.shut = none) :
    ∃ t, exec (.frameReconcile energy v) s = .next t ∧ t.led.input = s.led.input + energy ∧
      t.led.nextFrame = s.led.nextFrame + 1 ∧
      ((reportOf s .a s.led.nextFrame).isSome → (reportOf s .b s.led.nextFrame).isSome →
        t.led.spanE = 0 ∧ t.led.spanFrom = s.led.nextFrame + 1) ∧
      ((reportOf s .a s.led.nextFrame).isNone → s.led.nextFrame < s.led.spanFrom + 100 → s.power.off = false →
        s.power.shutdown = none → t.led.spanE = s.led.spanE + energy ∧ t.led.spanFrom = s.led.spanFrom) := by
  obtain ⟨hinput, hnext, -, -⟩ := gapNow_book s
  obtain ⟨hinput', hnext', -, hfrom', -, -⟩ := frameBook_fields (frameBook_frameEnd energy s)
  rw [hinput] at hinput'
  rw [hnext] at hnext'
  obtain ⟨hin, hfr⟩ := closeFrame_counts ((gapNow s).led.spanE + energy) v s.led.nextFrame (frameEnd energy s)
  rw [hinput'] at hin
  rw [hnext'] at hfr
  refine ⟨_, exec_frameReconcile_open hr hs, hin, hfr, fun ha hb => ?_, fun ha hshort hoff hdown => ?_⟩
  · rw [← reportOf_frameEnd energy] at ha hb
    obtain ⟨hE, hfrom⟩ := closeFrame_reported ((gapNow s).led.spanE + energy) v ha hb
    exact ⟨hE, hfrom.trans (congrArg (· + 1) hnext')⟩
  · rw [gapNow_short hshort] at hfrom'
    rw [← reportOf_frameEnd energy, Option.isNone_iff_eq_none] at ha
    rw [← frameEnd_power energy] at hoff hdown
    obtain ⟨hE, hfrom⟩ := closeFrame_missing ((gapNow s).led.spanE + energy) v ha hoff hdown
    exact ⟨hE.trans (by rw [gapNow_short hshort]), hfrom.trans hfrom'⟩

/-! ## Sheets (R481) -/

theorem closeSheet_open {x : Sheet} (shut : Bool) (h : s.led.sheet = some x) :
    closeSheet shut s = modLed (fun l => { l with sheet := none, sheets :=
      { x with closeRt := s.time.sup, shut := shut, full := decide (x.count = 256) } :: l.sheets }) s := by
  simp only [closeSheet, h]

theorem sheetCloseTimeout_closes {x : Sheet} (h : s.led.sheet = some x) :
    ∃ t, exec .sheetCloseTimeout s = .next t ∧ Only [.time, .led] s t ∧ t.led.sheet = none ∧
      ∃ y, t.led.sheets = y :: s.led.sheets ∧ y.seq = x.seq ∧ y.shut = false ∧ y.closeRt = t.time.sup ∧
        y.full = decide (x.count = 256) := by
  have hled : (waitCount (x.openRt + 10000000) s).led = s.led := waitCount_only _ s .led (by decide)
  have hexec : exec .sheetCloseTimeout s = .next (closeSheet false (waitCount (x.openRt + 10000000) s)) := by
    change execSheetCloseTimeout s = _
    simp only [execSheetCloseTimeout, h]
  refine ⟨_, hexec, .sub (.after (closeSheet_only _ _) (waitCount_only _ _)) rfl, ?_⟩
  rw [closeSheet_open false (hled ▸ h), ← hled]
  exact ⟨rfl, _, rfl, rfl, rfl, rfl, rfl⟩

theorem sheetSigned_signs {x : Sheet} (h : s.led.sheets = [x]) (hb : x.block = []) :
    ∃ t, exec .sheetSigned s = .next t ∧ Only [.led] s t ∧ t.led.sheets = [{ x with block := sheetBlock s x }] ∧
      t.led.lastSheet = x.seq := by
  have holdest : (s.led.sheets.filter (fun x => x.block = [])).getLast? = some x := by simp [h, hb]
  have hexec : exec .sheetSigned s = .next (modLed (fun l => { l with
      lastSheet := x.seq,
      sheets := l.sheets.map (fun y => if y.seq = x.seq then { y with block := sheetBlock s y } else y) }) s) := by
    change execSheetSigned s = _
    simp only [execSheetSigned, holdest]
  refine ⟨_, hexec, modLed_only _ _, ?_, rfl⟩
  rw [modLed_led, h]
  simp

end LedgerFrames

/-- Settles O56: applying events and settling accounts keeps the book of frames, so that each frame ends shared out or
held as its reports have come; a gap begins the next span, and sheets close and are signed in their place. -/
theorem ledgerFramesAndSheets : Obligations.LedgerFramesAndSheets :=
  ⟨fun _ hr => ⟨fun _ _ _ hf he => activityReport_keeps hr hf he, fun e v => frameReconcile_counts e v hr,
      fun _ => reportLate_marks hr, ledgerGapExpire_begins hr⟩,
    fun _ => ⟨fun _ => sheetCloseTimeout_closes, fun _ => sheetSigned_signs⟩⟩

end Sys2Proof

namespace Sys2Proof
open Machine Claims

/-! # The course of rack time (O2, O8, O9) -/

section TimeRuns

/-! ## A frame without rack time -/

theorem Only.time_eq {ps : List Zone} {s t : State} (h : Only ps s t) (ht : ps.contains .time = false) :
    t.time = s.time := h .time (by simpa using ht)

/-! ## The ticks that pass (R42, R47, R48, R50) -/

/-- The 52 V input is off, or rack time goes on: the three counters by as many ticks, the model's clock by its own. -/
theorem advance_cases (n : Nat) (s : State) :
    advance n s = s ∨ ∃ m adj, advance n s = modTime (fun t => { t with
      clk := t.clk + n, sup := t.sup + m, cntA := t.cntA + m, cntB := t.cntB + m, adjust := adj }) s := by
  unfold advance
  split
  · exact .inl rfl
  · exact .inr ⟨_, _, rfl⟩

/-- Without a correction `n` ticks add `n` to every counter. -/
theorem advance_plain {s : State} (n : Nat) (hv : s.power.v52 = true) (ha : s.time.adjust = none) :
    advance n s = modTime (fun t => { t with
      clk := t.clk + n, sup := t.sup + n, cntA := t.cntA + n, cntB := t.cntB + n }) s := by
  simp [advance, hv, ha, modTime]

theorem advance_unpowered {s : State} (n : Nat) (hv : s.power.v52 = false) : advance n s = s := by
  simp [advance, hv]

theorem advance_clk {s : State} (n : Nat) (hv : s.power.v52 = true) : (advance n s).time.clk = s.time.clk + n := by
  simp [advance, hv]

/-! ## Rack time does not fall -/

/-- From `s` to `t` neither the model's clock nor the supervisor's count falls, and TQ does not become 0. -/
structure CountRuns (s t : State) : Prop where
  clk : s.time.clk ≤ t.time.clk
  sup : s.time.sup ≤ t.time.sup
  lock : t.time.tq = .locked → s.time.tq = .locked

/-- The same, and neither do the counts of the halves. -/
structure TimeRuns (s t : State) : Prop extends CountRuns s t where
  cntA : s.time.cntA ≤ t.time.cntA
  cntB : s.time.cntB ≤ t.time.cntB

variable {s t u a b : State} {ps : List Zone} {c : Prop} [Decidable c]

theorem TimeRuns.ofEq (h : t.time = s.time) : TimeRuns s t := by
  refine ⟨⟨?_, ?_, ?_⟩, ?_, ?_⟩
  all_goals rw [h]
  exact id

theorem TimeRuns.refl (s : State) : TimeRuns s s := .ofEq rfl

/-- One after the other, the later first. -/
theorem TimeRuns.after (k : TimeRuns t u) (h : TimeRuns s t) : TimeRuns s u :=
  ⟨⟨h.clk.trans k.clk, h.sup.trans k.sup, fun hu => h.lock (k.lock hu)⟩, h.cntA.trans k.cntA, h.cntB.trans k.cntB⟩

/-- What a frame without rack time adds. -/
theorem TimeRuns.rest (k : Only ps t u) (h : TimeRuns s t) (hp : ps.contains .time = false) : TimeRuns s u :=
  .after (.ofEq (k.time_eq hp)) h

theorem TimeRuns.branch (h : TimeRuns s a) (k : TimeRuns s b) : TimeRuns s (if c then a else b) := by
  split
  · exact h
  · exact k

theorem TimeRuns.when (h : TimeRuns s a) : TimeRuns s (if c then a else s) := .branch h (.refl s)

theorem TimeRuns.unless (h : TimeRuns s a) : TimeRuns s (if c then s else a) := .branch (.refl s) h

theorem advance_runs (n : Nat) (s : State) : TimeRuns s (advance n s) := by
  obtain h | ⟨m, adj, h⟩ := advance_cases n s
  · rw [h]
    exact .refl s
  · rw [h]
    exact ⟨⟨Nat.le_add_right _ _, Nat.le_add_right _ _, id⟩, Nat.le_add_right _ _, Nat.le_add_right _ _⟩

theorem waitUntil_runs (d : Nat) (s : State) : TimeRuns s (waitUntil d s) := advance_runs _ s

theorem waitCount_runs (t : Nat) (s : State) : TimeRuns s (waitCount t s) := advance_runs _ s

theorem waitHalf_runs (h : Half) (t : Nat) (s : State) : TimeRuns s (waitHalf h t s) := advance_runs _ s

/-- An update of rack time that leaves the counters alone and locks nothing. -/
theorem modTime_runs {f : Time → Time} {s : State} (hclk : (f s.time).clk = s.time.clk)
    (hsup : (f s.time).sup = s.time.sup) (hA : (f s.time).cntA = s.time.cntA) (hB : (f s.time).cntB = s.time.cntB)
    (hl : (f s.time).tq = .locked → s.time.tq = .locked) : TimeRuns s (modTime f s) :=
  ⟨⟨hclk.ge, hsup.ge, hl⟩, hA.ge, hB.ge⟩

theorem rtFlag_runs (bit : Nat) (s : State) : TimeRuns s (rtFlag bit s) := modTime_runs rfl rfl rfl rfl id

theorem cancelSet_runs (r : Nat) (s : State) : TimeRuns s (cancelSet r s) := modTime_runs rfl rfl rfl rfl id

theorem slip_runs (k : Nat) (s : State) : TimeRuns s (slip k s) := by
  refine .after (rtFlag_runs _ _) (modTime_runs rfl rfl rfl rfl fun h => ?_)
  split at h
  · cases h
  · exact h

theorem discipline_runs (up : Bool) (s : State) : TimeRuns s (discipline up s) :=
  .rest (takeFree_only _) (modTime_runs rfl rfl rfl rfl id) rfl

theorem onMgmt_runs {f : State → State} {s : State} (h : TimeRuns s (f s)) : TimeRuns s (onMgmt f s) := by
  unfold onMgmt
  split
  · exact h
  · exact .refl s

theorem traceDrain_runs (h : Half) (s : State) : TimeRuns s (traceDrain h s) := by
  have hflow : TimeRuns s (traceFlow h s) := .rest (traceFlow_only _ _) (.refl _) rfl
  exact .branch hflow (.rest (traceFlow_only _ _) (.after (waitHalf_runs _ _ _) hflow) rfl)

theorem stopCapture_runs (h : Half) (s : State) : TimeRuns s (stopCapture h s) := by
  unfold stopCapture
  refine .unless (.rest (modTr_only _ _ _) (.after (traceDrain_runs _ _) (.rest (putMark_only _ _ _) ?_ rfl)) rfl)
  exact .rest (.when (.after (crumb_only _ _ _) (takeFree_only _))) (traceDrain_runs _ _) rfl

theorem stopTrace_runs (s : State) : TimeRuns s (stopTrace s) := by
  have hstop : TimeRuns s (stopCapture .b (stopCapture .a s)) := .after (stopCapture_runs _ _) (stopCapture_runs _ _)
  unfold stopTrace
  dsimp only
  split
  · exact .rest (newRing_only _ _) hstop rfl
  · exact hstop

theorem barWrite_runs (port : Half) (off data : Nat) (s : State) : TimeRuns s (barWrite port off data s) := by
  have hack : TimeRuns s { s with time := { s.time with w1c := s.time.w1c &&& ~~~(BitVec.ofNat 32 (data &&& 0xF0)) } } :=
    modTime_runs (f := fun t => { t with w1c := t.w1c &&& ~~~(BitVec.ofNat 32 (data &&& 0xF0)) }) rfl rfl rfl rfl id
  unfold barWrite
  refine .branch (.rest (msixWrite_only _ _ _ _) (.refl _) rfl) (.branch ?_ (.unless (.branch hack ?_)))
  · exact .rest (.guard (winWrite_only _ _ _ _ _)) (.refl _) rfl
  · exact .rest (.either (modTr_only _ _ _) (.when (modTr_only _ _ _))) (.refl _) rfl

theorem TimeRuns.ofAns {s t : State} {r : Rep} {a b l} (h : r = .ans a b l t) (k : TimeRuns s (repState r)) :
    TimeRuns s t := by subst h; exact k

theorem TimeRuns.ofStay {s t : State} {r : Rep} {c} (h : r = .stay c t) (k : TimeRuns s (repState r)) :
    TimeRuns s t := by subst h; exact k

/-- A mailbox command keeps the course of rack time where its firmware body does. -/
theorem runCmd_runs {op : Nat} {sel : List Byte → Bool} {body : Nat → Hdr → List Byte → RunCmd → State → Rep}
    {mb : Fin 128} {s : State} (hb : ∀ k h pl rc, TimeRuns s (repState (body k h pl rc s))) :
    TimeRuns s (runCmd op sel body mb s) := by
  have hrespond (k st det : Nat) (l : List Byte) {u : State} (hu : TimeRuns s u) : TimeRuns s (respond k st det l u) :=
    .rest (respond_only _ _ _ _ _) hu rfl
  unfold runCmd
  split
  · exact .refl s
  · refine .when ?_
    split
    · exact hrespond _ _ _ _ (.refl s)
    · refine .branch (hrespond _ _ _ _ (.refl s)) ?_
      split
      · exact .rest (.after (demote_only _ _) (.after (event_only _ _ _ _ _) (rejectWrite_only _ _))) (.refl s) rfl
      · refine .unless ?_
        dsimp only
        split
        · next hbody =>
          have hend := TimeRuns.ofAns hbody (hb _ _ _ _)
          exact hrespond _ _ _ _ (.branch (.rest (only_journal (.refl [.crown] _) (by decide) _) hend rfl) hend)
        · next hbody => exact .rest (setRun_only _ _ _) (TimeRuns.ofStay hbody (hb _ _ _ _)) rfl

end TimeRuns

section Course

/-! ## The commands that let time pass -/

/-- Whatever next state `o` answers, rack time has not fallen in it. -/
def CourseKept (s : State) (o : Ans) : Prop := ∀ t, o = .next t → TimeRuns s t

theorem CourseKept.next {s t : State} (h : TimeRuns s t) : CourseKept s (.next t) := by
  intro u hu
  cases hu
  exact h

theorem Runs.courseKept {ps : List Zone} {s : State} {o : Ans} (h : Runs ps s o)
    (hp : ps.contains .time = false) : CourseKept s o := by
  obtain ⟨t, rfl, ht⟩ := h
  exact .next (.ofEq (ht.time_eq hp))

/-- What is left of the command once it has waited is a frame without rack time. -/
theorem CourseKept.waits {ps : List Zone} {s t u : State} (k : Only ps t u) (h : TimeRuns s t)
    (hp : ps.contains .time = false) : CourseKept s (.next u) := .next (.rest k h hp)

variable (s : State)

theorem execSyncMissing_course : CourseKept s (exec .syncMissing s) :=
  .next (.unless (.unless (.after (slip_runs _ _) (.after (modTime_runs rfl rfl rfl rfl id) (waitCount_runs _ _)))))

theorem execRackSetTimeout_course : CourseKept s (exec .rackSetTimeout s) := by
  refine .next ?_
  split
  · exact .refl s
  · exact .after (cancelSet_runs _ _) (waitUntil_runs _ _)

theorem execRtNowLowRead_course (port) : CourseKept s (exec (.rtNowLowRead port) s) := by
  refine .next (.unless ?_)
  split
  · exact modTime_runs rfl rfl rfl rfl id
  · exact modTime_runs rfl rfl rfl rfl id

theorem execSheetCloseTimeout_course : CourseKept s (exec .sheetCloseTimeout s) := by
  refine .next ?_
  split
  · exact .refl s
  · exact .rest (closeSheet_only _ _) (waitCount_runs _ _) rfl

theorem execTierMoveDescStart_course (mb n half mover) :
    CourseKept s (exec (.tierMoveDescStart mb n half mover) s) := by
  refine .next ?_
  split
  · exact .refl s
  · dsimp only
    split
    · exact .unless (.rest (setRun_only _ _ _) (waitCount_runs _ _) rfl)
    · exact .refl s

theorem execWaitTimeout_course (mb) : CourseKept s (exec (.waitTimeout mb) s) := by
  refine .next ?_
  split
  · exact .refl s
  · dsimp only
    split
    · exact .rest (respond_only _ _ _ _ _) (waitUntil_runs _ _) rfl
    · exact .rest (respond_only _ _ _ _ _) (waitUntil_runs _ _) rfl

theorem execRackClkLoss_course : CourseKept s (exec .rackClkLoss s) := by
  have hloss (u : State) : TimeRuns u (rtFlag 4 (modTime (fun t => { t with tq := .freeLost }) u)) :=
    .after (rtFlag_runs _ _) (modTime_runs rfl rfl rfl rfl (by simp))
  exact .next (.after (.unless (.after (.when (cancelSet_runs _ _)) (.after (.when (hloss _)) (advance_runs _ _))))
    (.ofEq rfl))

theorem execSetRackTime_course (v step) : CourseKept s (exec (.setRackTime v step) s) := by
  have hreply (cc : Nat) {u : State} (hu : TimeRuns s u) : TimeRuns s (reply cc [] u) := .rest (reply_only _ _ _) hu rfl
  exact .next (onMgmt_runs (.branch (hreply _ (modTime_runs rfl rfl rfl rfl id))
    (.branch (hreply _ (modTime_runs rfl rfl rfl rfl id)) (hreply _ (modTime_runs rfl rfl rfl rfl id)))))

theorem execStageLapse_course (stage) : CourseKept s (exec (.stageLapse stage) s) :=
  .waits (modStage_only _ _ _) (waitUntil_runs _ _) rfl

theorem execCheckpointSnapshot_course : CourseKept s (exec .checkpointSnapshot s) :=
  .next (.unless (.rest (modCrown_only _ _) (.unless (waitUntil_runs _ _)) rfl))

theorem execResyncStart_course : CourseKept s (exec .resyncStart s) := by
  refine .next ?_
  dsimp only
  split
  · exact .refl s
  · exact .unless (.rest (.after (modCrown_only _ _) (modMon_only _ _ _)) (waitUntil_runs _ _) rfl)

theorem execStandbyReadyLapse_course : CourseKept s (exec .standbyReadyLapse s) := by
  refine .next (.unless ?_)
  dsimp only
  split
  · exact .rest (refreshStandby_only _) (.refl s) rfl
  · exact .rest (refreshStandby_only _) (waitUntil_runs _ _) rfl

theorem execBeginLowering_course : CourseKept s (exec .beginLowering s) := by
  refine .next ?_
  dsimp only
  split
  · exact .rest (modPower_only _ _) (waitCount_runs _ _) rfl
  · exact .refl s

theorem execProofWavePower_course (k) : CourseKept s (exec (.proofWavePower k) s) :=
  .next (.unless (.rest (.fold (fun _ _ => modCluster_only _ _ _) (.none _)) (.unless (advance_runs _ _)) rfl))

theorem execPlatformEventRetry_course (accepted) : CourseKept s (exec (.platformEventRetry accepted) s) := by
  refine .next (onMgmt_runs ?_)
  split
  · exact .branch (.rest (modMgmt_only _ _) (.refl s) rfl)
      (.rest (.either (.after (countSat_only _ _ _ _) (modMgmt_only _ _)) (modMgmt_only _ _)) (advance_runs _ _) rfl)
  · exact .refl s

theorem execReportWindowEnd_course : CourseKept s (exec .reportWindowEnd s) :=
  .next (.unless (.rest (endWindow_only _) (waitCount_runs _ _) rfl))

theorem execMailboxWatchdog_course (port mb) : CourseKept s (exec (.mailboxWatchdog port mb) s) := by
  refine .next ?_
  split
  · exact .refl s
  · exact .unless (.rest (.after (watchdogAnswer_only _ _) (event_only _ _ _ _ _)) (waitUntil_runs _ _) rfl)

theorem execLinkBertEnd_course (mb counts) : CourseKept s (exec (.linkBertEnd mb counts) s) := by
  refine .next ?_
  split
  · exact .refl s
  · refine .branch (.rest (bertSettle_only _) (.refl s) rfl) ?_
    dsimp only
    split
    · exact .rest (.after (bertSettle_only _) (.after (setRun_only _ _ _)
        (.fold (fun _ _ => testEnds_only _ _) (.none _)))) (waitUntil_runs _ _) rfl
    · exact .rest (.after (setRun_only _ _ _) (.fold (fun _ _ => testEnds_only _ _) (.none _))) (waitUntil_runs _ _) rfl

theorem execAckTimer_course (flow) : CourseKept s (exec (.ackTimer flow) s) := by
  refine .next ?_
  split
  · exact .refl s
  · split
    · exact .refl s
    · exact .rest (.after (sendLoose_only _ _) (modFab_only _ _)) (waitUntil_runs _ _) rfl

theorem execSeqGapNack_course (flow) : CourseKept s (exec (.seqGapNack flow) s) := by
  refine .next ?_
  split
  · exact .refl s
  · split
    · exact .refl s
    · refine .rest (sendLoose_only _ _) ?_ rfl
      split
      · exact .rest (.after (count_only _ _ _ _) (modFab_only _ _)) (waitUntil_runs _ _) rfl
      · exact .rest (modFab_only _ _) (waitUntil_runs _ _) rfl

theorem execBeaconArrive_course (p b) : CourseKept s (exec (.beaconArrive p b) s) :=
  .next (.unless (.rest (beaconDigest_only _ _ _) (.after (.when (.rest (count_only _ _ _ _) (rtFlag_runs _ _) rfl))
    (.rest (.unless (.after (portEvent_only _ _ _) (.after (count_only _ _ _ _)
    (.after (setPortSt_only _ _ _) (modPort_only _ _ _))))) (.rest (rxOne_only _ _)
    (.rest (modPort_only _ _ _) (.refl s) rfl) rfl) rfl)) rfl))

theorem execReportLate_course (half) : CourseKept s (exec (.reportLate half) s) :=
  .next (.unless (.rest (markLate_only _ _) (waitCount_runs _ _) rfl))

theorem execSchedDispatch_course : CourseKept s (exec .schedDispatch s) := by
  refine .next ?_
  split
  · exact .refl s
  · exact .rest (.after (putSched_only _ _) (.fold (fun _ _ => dispatchOne_only _ _ _) (.none _)))
      (.after (.when (advance_runs _ _)) (waitCount_runs _ _)) rfl

theorem execTrainStateTimeout_course (p) : CourseKept s (exec (.trainStateTimeout p) s) :=
  .next (.unless (.rest (.after (bertSettle_only _) (.after (attemptFailed_only _ _ _) (.when (takeFree_only _))))
    (waitUntil_runs _ _) rfl))

theorem execFrameReconcile_course (energy vcore) : CourseKept s (exec (.frameReconcile energy vcore) s) := by
  refine .next (.unless ?_)
  dsimp only
  split
  · exact .rest (.after (modLed_only _ _) (.after (nextSpan_only _ _) (.after (closeSheet_only _ _)
      (.after (accountsDue_only _ _ _) (.after (applyEvents_only _ _) (.after (reconcileTo_only _ _ _ _)
      (.after (modLed_only _ _) (.after (seeFree_only _) (.after (methodUpdate_only _ _) (gapNow_only _))))))))))
      (.refl s) rfl
  · refine .branch
      (.rest (.after (nextSpan_only _ _) (.after (boundaryDue_only _ _) (reconcileTo_only _ _ _ _)))
        (.after (waitCount_runs _ _) ?_) rfl)
      (.rest (.after (modLed_only _ _) (.after (.when (markLate_only _ _)) (.when (markLate_only _ _))))
        (.after (waitCount_runs _ _) (.after (waitCount_runs _ _) ?_)) rfl)
    all_goals exact .rest (.after (modLed_only _ _) (.after (seeFree_only _) (.after (methodUpdate_only _ _)
      (gapNow_only _)))) (.refl s) rfl

theorem execLaunchStart_course (part) : CourseKept s (exec (.launchStart part) s) := by
  refine .next ?_
  split
  · split
    · exact .refl s
    · dsimp only
      split
      · exact .refl s
      · exact .unless (.rest (startHalves_only _ _ _ _ _) (advance_runs _ _) rfl)
  · exact .refl s

theorem execPowerIntervalEnd_course (avgW) : CourseKept s (exec (.powerIntervalEnd avgW) s) :=
  .next (.unless (.rest (.after (.when (event_only _ _ _ _ _)) (.after (.when (event_only _ _ _ _ _))
    (.after (modPower_only _ _) (takeFree_only _)))) (waitCount_runs _ _) rfl))

theorem execUvBrakeRelease_course : CourseKept s (exec .uvBrakeRelease s) := by
  refine .next ?_
  split
  · exact .rest (.brake (modPower_only _ _)) (waitUntil_runs _ _) rfl
  · exact .refl s

theorem execThermAlertClear_course : CourseKept s (exec .thermAlertClear s) := by
  refine .next ?_
  split
  · exact .unless (.rest (.brake (modPower_only _ _)) (waitUntil_runs _ _) rfl)
  · exact .refl s

theorem execLeaseExpire_course : CourseKept s (exec .leaseExpire s) := by
  refine .next ?_
  split
  · exact .refl s
  · exact .unless (.rest (.after (.unless (.after (capUpdate_only _) (.after (plEvent_only _ _ _)
      (.after (event_only _ _ _ _ _) (modPower_only _ _))))) (modPower_only _ _)) (waitUntil_runs _ _) rfl)

theorem execRegisterWrite_course (port off size data) : CourseKept s (exec (.registerWrite port off size data) s) :=
  .next (.unless (.after (.when (barWrite_runs _ _ _ _)) (barWrite_runs _ _ _ _)))

theorem execRouteTableSwap_course (flash) : CourseKept s (exec (.routeTableSwap flash) s) := by
  refine .next ?_
  split
  · exact .refl s
  · exact .rest (swapTable_only _ _) (waitCount_runs _ _) rfl

theorem execTransitComparatorTick_course (n flash) : CourseKept s (exec (.transitComparatorTick n flash) s) := by
  refine .next ?_
  split
  · exact .refl s
  · refine .unless ?_
    have hdue (c : Comparator) : TimeRuns s (swapDue c.tick flash (modFab (fun f => { f with comps := f.comps.erase c })
        (waitCount c.tick s))) := .rest (.after (swapDue_only _ _ _) (modFab_only _ _)) (waitCount_runs _ _) rfl
    dsimp only
    split
    · exact .rest (.fold (fun _ _ => withdrawPort_only _ _) (.none _)) (hdue _) rfl
    · exact .rest (disablePort_only _ _) (hdue _) rfl
    · exact .rest (.fold (fun _ _ => joinPort_only _ _) (.none _)) (hdue _) rfl
    · exact .rest (trainByCtl_only _ _ _) (hdue _) rfl

theorem execRailSequence_course (outcomes) : CourseKept s (exec (.railSequence outcomes) s) := by
  refine .next (.unless ?_)
  dsimp only
  split
  · exact .rest (startFailed_only _ _ _) (advance_runs _ _) rfl
  · exact .rest (.after (trainAll_only _) (.after (modPower_only _ _) (modStart_only _ _))) (advance_runs _ _) rfl

theorem execTransitWithdrawTick_course (flash) : CourseKept s (exec (.transitWithdrawTick flash) s) := by
  refine .next ?_
  split
  · exact .refl s
  · exact .rest (.after (.either (.after (holdCredits_only _) (modFab_only _ _)) (disablePort_only _ _))
      (.after (endWithdrawEntry_only _ _) (.after (modFab_only _ _) (swapDue_only _ _ _)))) (waitCount_runs _ _) rfl

theorem execCrownStartLiveTimeout_course (verified) : CourseKept s (exec (.crownStartLiveTimeout verified) s) := by
  refine .next ?_
  split
  · exact .refl s
  · exact .unless (.rest (.after (.either (startFailed_only _ _ _)
      (.after (modCrown_only _ _) (.after (startGrant_only _ _ _) (modStart_only _ _)))) (modMon_only _ _ _))
      (waitUntil_runs _ _) rfl)

theorem execVoteRepeat_course (silent verified) : CourseKept s (exec (.voteRepeat silent verified) s) :=
  .next (.when (.rest (runVote_only _ _ _) (waitUntil_runs _ _) rfl))

theorem execWaitRtComplete_course (c n) : CourseKept s (exec (.waitRtComplete c n) s) := by
  refine .next ?_
  dsimp only
  split
  · exact .refl s
  · exact .unless (.rest (.after (finish_only _ _ _) (.after (modTile_only _ _ _) (rtDone_only _ _)))
      (waitHalf_runs _ _ _) rfl)

theorem execResendTimeout_course (n) : CourseKept s (exec (.resendTimeout n) s) := by
  refine .next ?_
  split
  · exact .rest (resendAll_only _ _) (waitUntil_runs _ _) rfl
  · exact .refl s

theorem execCollectiveStall_course (half slot) : CourseKept s (exec (.collectiveStall half slot) s) := by
  refine .next ?_
  split
  · exact .refl s
  · exact .unless (.rest (collFail_only _ _ _ _ _ _) (waitUntil_runs _ _) rfl)

theorem execProgressWatchdog_course (part) : CourseKept s (exec (.progressWatchdog part) s) := by
  refine .next ?_
  split
  · exact .refl s
  · exact .unless (.rest (failLaunch_only _ _ _ _ _ _ _) (waitUntil_runs _ _) rfl)

theorem execTraceClose_course : CourseKept s (exec .traceClose s) := by
  refine .next ?_
  split
  · next htaken => exact .after (stopTrace_runs _) (.rest (takeDispatch_only htaken) (.refl s) rfl)
  · exact .refl s

theorem execTraceCtlCloseAll_course (mb) : CourseKept s (exec (.traceCtlCloseAll mb) s) := by
  refine .next (runCmd_runs fun _ _ _ _ => ?_)
  split
  · exact .refl s
  · exact .after (stopTrace_runs _) (.rest (schedEndAll_only _ _ _) (.refl s) rfl)

theorem execThermCountdownExpire_course : CourseKept s (exec .thermCountdownExpire s) := by
  refine .next ?_
  split
  · exact .refl s
  · exact .unless (.rest (.after (modPower_only _ _) (.after (orderlyShutdown_only _) (modPower_only _ _)))
      (waitUntil_runs _ _) rfl)

theorem execPathSilent_course (rcv path2) : CourseKept s (exec (.pathSilent rcv path2) s) := by
  have hwait (last : Option Nat) :
      TimeRuns s (match last with | some t => waitUntil (t + 400000) s | none => s) := by
    split
    · exact waitUntil_runs _ _
    · exact .refl s
  exact .next (.unless (.branch (.rest (modMon_only _ _ _) (hwait _) rfl)
    (.branch (.rest (.after (modCrown_only _ _) (modMon_only _ _ _)) (hwait _) rfl)
      (.rest (.after (standbyAsks_only _) (modMon_only _ _ _)) (hwait _) rfl))))

theorem execLivenessExpire_course (half) : CourseKept s (exec (.livenessExpire half) s) :=
  .next (.unless (.rest (.after (complexFails_only _ _) (event_only _ _ _ _ _)) (waitUntil_runs _ _) rfl))

theorem execHolderFailedVoteRequest_course : CourseKept s (exec .holderFailedVoteRequest s) := by
  refine .next ?_
  dsimp only
  split
  · exact .refl s
  · exact .rest (askVote_only _ _) (waitUntil_runs _ _) rfl

theorem execTakeoverTimeout_course : CourseKept s (exec .takeoverTimeout s) :=
  .next (.when (.rest (enterSafe_only _ _) (waitUntil_runs _ _) rfl))

theorem execInconclusiveTimeout_course : CourseKept s (exec .inconclusiveTimeout s) :=
  .next (.when (.rest (enterSafe_only _ _) (waitUntil_runs _ _) rfl))

theorem execVoteRequestRetry_course : CourseKept s (exec .voteRequestRetry s) := by
  refine .next ?_
  split
  · exact .refl s
  · exact .when (.rest (standbyAsks_only _) (waitUntil_runs _ _) rfl)

theorem execCollectiveSlotAlloc_course (half) : CourseKept s (exec (.collectiveSlotAlloc half) s) := by
  refine .next ?_
  split
  · exact .refl s
  · dsimp only
    split
    · exact .rest (.fold (fun _ _ => .unless (.after (event_only _ _ _ _ _) (modColl_only _ _ _ _ _))) (.none _))
        (waitHalf_runs _ _ _) rfl
    · exact .rest (.unless (.either (issueSnoops_only _ _) (startColl_only _ _ _))) (waitHalf_runs _ _ _) rfl

theorem execActivationTimeout_course : CourseKept s (exec .activationTimeout s) := by
  refine .next ?_
  split
  · exact .refl s
  · exact .unless (.rest (.after (actDone_only _ _) (.after (putFw_only _ _)
      (.when (.after (complexFails_only _ _) (event_only _ _ _ _ _))))) (waitUntil_runs _ _) rfl)

theorem execFenceRelease_course (part) : CourseKept s (exec (.fenceRelease part) s) := by
  refine .next ?_
  split
  · exact .refl s
  · split
    · exact .refl s
    · exact .when (.rest (releaseFence_only _ _) (waitUntil_runs _ _) rfl)

theorem execShutdownRailsOff_course : CourseKept s (exec .shutdownRailsOff s) := by
  refine .next ?_
  split
  · exact .refl s
  · exact .rest (.after (capUpdate_only _) (.after (putPowerStart_only _ _ _) (.after (modCrown_only _ _)
      (.after (schedClear_only _) (railsLost_only _))))) (waitUntil_runs _ _) rfl

theorem execWithdrawDrainEnd_course : CourseKept s (exec .withdrawDrainEnd s) := by
  refine .next ?_
  split
  · exact .refl s
  · exact .rest (.after (.when (moduleReset_only _)) (.fold
      (fun _ _ => .unless (.after (setQueue_only _ _ _) (.after (count_only _ _ _ _)
      (.fold (fun _ _ => freeIn_only _ _ _) (.none _))))) (modFab_only _ _))) (waitUntil_runs _ _) rfl

theorem execVoltageRestart_course : CourseKept s (exec .voltageRestart s) := by
  refine .next ?_
  split
  · exact .when (.rest (moduleReset_only _) (waitUntil_runs _ _) rfl)
  · exact .refl s

/-- No command but a loading edge, a frame start and the coming and going of the 52 V input lets a count fall. -/
theorem exec_courseKept (c : Instr) (hin : ofInput c = false) (hedge : c ≠ .rackSyncEdge)
    (hframe : ∀ x y, c ≠ .frameStart x y) : CourseKept s (exec c s) := by
  cases c with
  | powerOn52v slotId flashRead => cases hin
  | inputLoss52v => cases hin
  | inputVoltageSample mv => cases hin
  | rackSyncEdge => exact absurd rfl hedge
  | frameStart driftA driftB => exact absurd rfl (hframe driftA driftB)
  | syncMissing => exact execSyncMissing_course s
  | rackSetTimeout => exact execRackSetTimeout_course s
  | rtNowLowRead port => exact execRtNowLowRead_course s port
  | sheetCloseTimeout => exact execSheetCloseTimeout_course s
  | tierMoveDescStart mb n half mover => exact execTierMoveDescStart_course s mb n half mover
  | waitTimeout mb => exact execWaitTimeout_course s mb
  | rackClkLoss => exact execRackClkLoss_course s
  | setRackTime v step => exact execSetRackTime_course s v step
  | stageLapse stage => exact execStageLapse_course s stage
  | checkpointSnapshot => exact execCheckpointSnapshot_course s
  | resyncStart => exact execResyncStart_course s
  | standbyReadyLapse => exact execStandbyReadyLapse_course s
  | beginLowering => exact execBeginLowering_course s
  | proofWavePower k => exact execProofWavePower_course s k
  | platformEventRetry accepted => exact execPlatformEventRetry_course s accepted
  | reportWindowEnd => exact execReportWindowEnd_course s
  | mailboxWatchdog port mb => exact execMailboxWatchdog_course s port mb
  | linkBertEnd mb counts => exact execLinkBertEnd_course s mb counts
  | ackTimer flow => exact execAckTimer_course s flow
  | seqGapNack flow => exact execSeqGapNack_course s flow
  | beaconArrive p b => exact execBeaconArrive_course s p b
  | reportLate half => exact execReportLate_course s half
  | schedDispatch => exact execSchedDispatch_course s
  | trainStateTimeout p => exact execTrainStateTimeout_course s p
  | frameReconcile energy vcore => exact execFrameReconcile_course s energy vcore
  | launchStart part => exact execLaunchStart_course s part
  | powerIntervalEnd avgW => exact execPowerIntervalEnd_course s avgW
  | uvBrakeRelease => exact execUvBrakeRelease_course s
  | thermAlertClear => exact execThermAlertClear_course s
  | leaseExpire => exact execLeaseExpire_course s
  | registerWrite port off size data => exact execRegisterWrite_course s port off size data
  | routeTableSwap flash => exact execRouteTableSwap_course s flash
  | transitComparatorTick n flash => exact execTransitComparatorTick_course s n flash
  | railSequence outcomes => exact execRailSequence_course s outcomes
  | transitWithdrawTick flash => exact execTransitWithdrawTick_course s flash
  | crownStartLiveTimeout verified => exact execCrownStartLiveTimeout_course s verified
  | voteRepeat silent verified => exact execVoteRepeat_course s silent verified
  | waitRtComplete c n => exact execWaitRtComplete_course s c n
  | resendTimeout n => exact execResendTimeout_course s n
  | collectiveStall half slot => exact execCollectiveStall_course s half slot
  | progressWatchdog part => exact execProgressWatchdog_course s part
  | traceClose => exact execTraceClose_course s
  | traceCtlCloseAll mb => exact execTraceCtlCloseAll_course s mb
  | thermCountdownExpire => exact execThermCountdownExpire_course s
  | pathSilent rcv path2 => exact execPathSilent_course s rcv path2
  | livenessExpire half => exact execLivenessExpire_course s half
  | holderFailedVoteRequest => exact execHolderFailedVoteRequest_course s
  | takeoverTimeout => exact execTakeoverTimeout_course s
  | inconclusiveTimeout => exact execInconclusiveTimeout_course s
  | voteRequestRetry => exact execVoteRequestRetry_course s
  | collectiveSlotAlloc half => exact execCollectiveSlotAlloc_course s half
  | activationTimeout => exact execActivationTimeout_course s
  | fenceRelease part => exact execFenceRelease_course s part
  | shutdownRailsOff => exact execShutdownRailsOff_course s
  | withdrawDrainEnd => exact execWithdrawDrainEnd_course s
  | voltageRestart => exact execVoltageRestart_course s
  | _ => exact (exec_runs _ s).courseKept rfl

end Course

end Sys2Proof

namespace Sys2Proof
open Machine Claims

section LockAndLoad

variable {s : State}

/-! ## The 52 V input (R46, R48) -/

/-- Whatever next state `o` answers, TQ is 0 in it only where it was 0 before. -/
def LockKept (s : State) (o : Ans) : Prop := ∀ t, o = .next t → t.time.tq = .locked → s.time.tq = .locked

theorem LockKept.next {t : State} (h : t.time.tq = .locked → s.time.tq = .locked) : LockKept s (.next t) := by
  intro u hu
  cases hu
  exact h

theorem LockKept.ite {a b : State} {c : Prop} [Decidable c] (h : LockKept s (.next a)) (k : LockKept s (.next b)) :
    LockKept s (.next (if c then a else b)) := by
  split
  · exact h
  · exact k

theorem LockKept.stay (s : State) : LockKept s (.next s) := .next id

theorem LockKept.rest {ps : List Zone} {t u : State} (k : Only ps t u) (h : LockKept s (.next t))
    (hp : ps.contains .time = false) : LockKept s (.next u) :=
  .next fun hu => h t rfl (k.time_eq hp ▸ hu)

theorem CourseKept.lockKept {o : Ans} (h : CourseKept s o) : LockKept s o := fun t ht => (h t ht).lock

/-- Without the input, rack time is as it is at power-on. -/
theorem powerLost_lock (s : State) : LockKept s (.next (powerLost s)) := .next fun h => nomatch h

theorem execPowerOn52v_lock (slotId flashRead) (s : State) : LockKept s (exec (.powerOn52v slotId flashRead) s) :=
  .ite (.stay s) (.rest (.after (.either (supervisorStart_only _ _) (modStart_only _ _))
    (.after (putIdent_only _ _) (modPower_only _ _))) (powerLost_lock s) rfl)

theorem execInputVoltageSample_lock (mv) (s : State) : LockKept s (exec (.inputVoltageSample mv) s) :=
  .ite (.stay s) (.ite (powerLost_lock s) (.rest
    (.after (.unless (.either (.after (orderlyShutdown_only _) (event_only _ _ _ _ _))
      (.when (.after (orderlyShutdown_only _) (event_only _ _ _ _ _)))))
      (.after (.when (.after (event_only _ _ _ _ _) (.brake (modPower_only _ _)))) (modPower_only _ _))) (.stay s) rfl))

/-! ## The frame start (R43, R44) -/

/-- The count of a half as it is compared at a frame start (R44): the supervisor's where it disagreed before, and what
a fault adds. -/
def comparedCount (dis : Bool) (own sup : Nat) (drift : Int) : Nat := (((if dis then sup else own : Nat) : Int) + drift).toNat

/-- Rack time after the comparison of a half's counter (R44, R72). -/
def comparedTime (h : Half) (drift : Int) (t : Time) : Time :=
  match h with
  | .a => { t with cntA := comparedCount t.disA t.cntA t.sup drift,
                   disA := decide (comparedCount t.disA t.cntA t.sup drift ≠ t.sup),
                   w1c := if t.disA then t.w1c ||| BitVec.ofNat 32 (2 ^ 6) else t.w1c }
  | .b => { t with cntB := comparedCount t.disB t.cntB t.sup drift,
                   disB := decide (comparedCount t.disB t.cntB t.sup drift ≠ t.sup),
                   w1c := if t.disB then t.w1c ||| BitVec.ofNat 32 (2 ^ 6) else t.w1c }

theorem event_time (blk bit code info : Nat) (s : State) : (event blk bit code info s).time = s.time :=
  (event_only blk bit code info s).time_eq rfl

theorem compareHalf_time (h : Half) (drift : Int) (s : State) :
    (compareHalf h drift s).time = comparedTime h drift s.time := by
  cases h with
  | a => cases hd : s.time.disA <;>
      simp [compareHalf, comparedTime, comparedCount, driftHalf, rtFlag, cnt, hd, apply_ite State.time, event_time]
  | b => cases hd : s.time.disB <;>
      simp [compareHalf, comparedTime, comparedCount, driftHalf, rtFlag, cnt, hd, apply_ite State.time, event_time]

theorem CountRuns.after {t u : State} (k : CountRuns t u) (h : CountRuns s t) : CountRuns s u :=
  ⟨h.clk.trans k.clk, h.sup.trans k.sup, fun hu => h.lock (k.lock hu)⟩

theorem CountRuns.ofFrame {ps : List Zone} {t : State} (h : Only ps s t) (hp : ps.contains .time = false) :
    CountRuns s t := (TimeRuns.ofEq (h.time_eq hp)).toCountRuns

theorem compareHalf_counts (h : Half) (drift : Int) (s : State) : CountRuns s (compareHalf h drift s) := by
  have htime := compareHalf_time h drift s
  cases h with
  | a => exact ⟨by rw [htime]; rfl, by rw [htime]; rfl, by rw [htime]; exact id⟩
  | b => exact ⟨by rw [htime]; rfl, by rw [htime]; rfl, by rw [htime]; exact id⟩

/-- A frame start lets no count fall but that of a half whose counter a fault has moved. -/
theorem execFrameStart_counts (driftA driftB) {t : State} (ht : exec (.frameStart driftA driftB) s = .next t) :
    CountRuns s t := by
  cases ht
  split
  · exact (TimeRuns.refl s).toCountRuns
  · have hwait : CountRuns s (thermalUpdate (waitCount ((s.time.sup / 100000 + 1) * 100000) s)) :=
      .after (.ofFrame (thermalUpdate_only _) rfl) (waitCount_runs _ _).toCountRuns
    dsimp only
    split
    · exact hwait
    · exact .after (.ofFrame (.after (beaconFrame_only _) (putStart_only _ _)) rfl)
        (.after (compareHalf_counts _ _ _) (.after (compareHalf_counts _ _ _) hwait))

/-! ## The edge that loads a set (R53, R55, R56) -/

/-- Rack time as a set of `v` loads it (R53). -/
def loadedTime (v : Nat) (t : Time) : Time :=
  { t with sup := v, cntA := v, cntB := v, tq := .locked, epoch := (t.epoch + 1) % 65536, setLast := v, setResult := 1,
           armed := none, lastSlip := none, lastMiss := none, lastEdge := some (frameOf v), adjust := none }

/-- In free time, or with a count that moves, a set loads the whole of rack time. -/
theorem loadTime_time {v : Nat} (h : s.time.tq = .locked → v ≠ s.time.sup) :
    (loadTime v s).time = loadedTime v s.time := by
  have hpass : ¬ ((!decide (v ≠ s.time.sup) && !decide (s.time.tq ≠ .locked)) = true) := by
    simpa using fun hv hl => h hl hv
  have hbefore (c d : Prop) [Decidable c] [Decidable d] (u : State) :
      (ledgerSet v (if d then stepEntries (if c then endWindow u else u)
        else passEntries v (if c then endWindow u else u))).time = u.time :=
    Only.time_eq (.after (ledgerSet_only _ _) (.after (.either (stepEntries_only _) (passEntries_only _ _))
      (.when (endWindow_only _)))) rfl
  have hafter (c : Prop) [Decidable c] (old : Nat) (u : State) :
      (if c then passColls old v (passLaunches v u) else u).time = u.time :=
    Only.time_eq (.when (.after (passColls_only _ _ _) (passLaunches_only _ _))) rfl
  unfold loadTime
  dsimp only
  rw [if_neg hpass, hafter, modTime_time, hbefore]
  rfl

/-- At TQ 0 a set with the count itself changes the halves' counts and what reports the set (R56). -/
theorem loadTime_time_same {v : Nat} (hl : s.time.tq = .locked) (hv : v = s.time.sup) :
    (loadTime v s).time = { s.time with cntA := v, cntB := v, epoch := (s.time.epoch + 1) % 65536, setLast := v,
                                        setResult := 1, armed := none } := by
  have hpass : (!decide (v ≠ s.time.sup) && !decide (s.time.tq ≠ .locked)) = true := by simp [hl, hv]
  unfold loadTime
  dsimp only
  rw [if_pos hpass]
  rfl

/-- The frame whose start is nearest to the count: an edge belongs to it (R49). -/
def edgeFrame (t : Time) : Nat := if t.sup % 100000 ≤ 50000 then t.sup / 100000 else t.sup / 100000 + 1

/-- The ticks from the count to that frame start. -/
def edgeOff (t : Time) : Nat := if t.sup % 100000 ≤ 50000 then t.sup % 100000 else 100000 - t.sup % 100000

/-- The edge noted at TQ 0, with the correction that a tick of deviation asks for (R49, R50). -/
def notedEdge (s : State) : State :=
  if s.time.tq = .locked then
    let u := modTime (fun t => { t with lastEdge := some (edgeFrame s.time) }) s
    if edgeOff s.time = 0 then u else discipline (decide (50000 < s.time.sup % 100000)) u
  else s

/-- What becomes of an armed set at an edge, by the time `t` before it (R53, R54). -/
def setAtEdge (a : SetArm) (t : Time) (u : State) : State :=
  if t.clk < a.doneAt + 10000 then u
  else if a.doneAt + 100000000 < t.clk then cancelSet 7 u
  else if t.tq = .locked ∧ a.v < t.sup then cancelSet 4 u
  else if t.tq = .locked ∧ t.sup < a.v ∧ !a.step then cancelSet 5 u
  else loadTime a.v u

theorem exec_rackSyncEdge_unset (h : s.time.armed = none) :
    exec .rackSyncEdge s = .next (if !s.power.v52 ∨ !s.pins.rackClk then s
      else if s.time.tq = .locked ∧ 1 < edgeOff s.time then slip (edgeFrame s.time) s else notedEdge s) := by
  change execRackSyncEdge s = _
  simp only [execRackSyncEdge, h]
  rfl

theorem exec_rackSyncEdge_set {a : SetArm} (h : s.time.armed = some a) :
    exec .rackSyncEdge s = .next (if !s.power.v52 ∨ !s.pins.rackClk then s
      else if s.time.tq = .locked ∧ 1 < edgeOff s.time then slip (edgeFrame s.time) s
      else setAtEdge a s.time (notedEdge s)) := by
  change execRackSyncEdge s = _
  simp only [execRackSyncEdge, h]
  rfl

theorem notedEdge_runs (s : State) : TimeRuns s (notedEdge s) := by
  have hmark : TimeRuns s (modTime (fun t => { t with lastEdge := some (edgeFrame s.time) }) s) :=
    modTime_runs rfl rfl rfl rfl id
  exact .when (.branch hmark (.after (discipline_runs _ _) hmark))

theorem notedEdge_free (h : s.time.tq ≠ .locked) : notedEdge s = s := if_neg h

/-- Before its load an armed set lets no count fall; it is loaded at TQ 0 only where it is not below the count. -/
theorem setAtEdge_cases (a : SetArm) (t : Time) (u : State) :
    TimeRuns u (setAtEdge a t u) ∨ ((t.tq = .locked → t.sup ≤ a.v) ∧ setAtEdge a t u = loadTime a.v u) := by
  unfold setAtEdge
  split
  · exact .inl (.refl u)
  split
  · exact .inl (cancelSet_runs _ _)
  split
  · exact .inl (cancelSet_runs _ _)
  next hback =>
    split
    · exact .inl (cancelSet_runs _ _)
    · exact .inr ⟨fun hl => Nat.not_lt.1 fun hlt => hback ⟨hl, hlt⟩, rfl⟩

/-- What an edge does (R49, R50, R53-R55): no count falls; or the armed set is loaded, at TQ 0 not below the count. -/
theorem execRackSyncEdge_cases {t : State} (ht : exec .rackSyncEdge s = .next t) :
    TimeRuns s t ∨ ∃ a, s.time.armed = some a ∧ (s.time.tq = .locked → s.time.sup ≤ a.v) ∧
      t = loadTime a.v (notedEdge s) := by
  cases ha : s.time.armed with
  | none =>
    rw [exec_rackSyncEdge_unset ha] at ht
    cases ht
    exact .inl (.unless (.branch (slip_runs _ _) (notedEdge_runs s)))
  | some a =>
    rw [exec_rackSyncEdge_set ha] at ht
    cases ht
    obtain hruns | ⟨hv, hload⟩ := setAtEdge_cases a s.time (notedEdge s)
    · exact .inl (.unless (.branch (slip_runs _ _) (.after hruns (notedEdge_runs s))))
    · rw [hload]
      split
      · exact .inl (.refl s)
      split
      · exact .inl (slip_runs _ _)
      · exact .inr ⟨a, rfl, hv, rfl⟩

/-- At an edge the clock goes on, and at TQ 0 the supervisor's count does too. -/
theorem execRackSyncEdge_course {t : State} (ht : exec .rackSyncEdge s = .next t) :
    s.time.clk ≤ t.time.clk ∧ (s.time.tq = .locked → s.time.sup ≤ t.time.sup) := by
  obtain hruns | ⟨a, -, hv, rfl⟩ := execRackSyncEdge_cases ht
  · exact ⟨hruns.clk, fun _ => hruns.sup⟩
  · have hnoted := notedEdge_runs s
    by_cases hload : (notedEdge s).time.tq = .locked → a.v ≠ (notedEdge s).time.sup
    · rw [loadTime_time hload]
      exact ⟨hnoted.clk, hv⟩
    · push Not at hload
      rw [loadTime_time_same hload.1 hload.2]
      exact ⟨hnoted.clk, fun _ => hnoted.sup⟩

/-- An edge that ends free time has loaded the armed set. -/
theorem execRackSyncEdge_locks {t : State} (ht : exec .rackSyncEdge s = .next t) (hfree : s.time.tq ≠ .locked)
    (hl : t.time.tq = .locked) : ∃ a, s.time.armed = some a ∧ t.time = loadedTime a.v s.time := by
  obtain hruns | ⟨a, ha, -, rfl⟩ := execRackSyncEdge_cases ht
  · exact absurd (hruns.lock hl) hfree
  · rw [notedEdge_free hfree, loadTime_time fun h => absurd h hfree]
    exact ⟨a, ha, rfl⟩

/-- A command that is no edge keeps TQ 0 from coming about. -/
theorem exec_lockKept {c : Instr} (hedge : c ≠ .rackSyncEdge) : LockKept s (exec c s) := by
  cases hin : ofInput c with
  | true =>
    cases c with
    | powerOn52v slotId flashRead => exact execPowerOn52v_lock slotId flashRead s
    | inputLoss52v => exact powerLost_lock s
    | inputVoltageSample mv => exact execInputVoltageSample_lock mv s
    | _ => cases hin
  | false =>
    by_cases hframe : ∃ x y, c = .frameStart x y
    · obtain ⟨x, y, rfl⟩ := hframe
      exact fun t ht => (execFrameStart_counts x y ht).lock
    · push Not at hframe
      exact (exec_courseKept s c hin hedge hframe).lockKept

end LockAndLoad

/-- Settles O8: the commands that let time pass only add to the counts, a frame start adds to the supervisor's, and an
edge at TQ 0 loads no set below it. -/
theorem rackTimeNeverFalls : Obligations.RackTimeNeverFalls := by
  intro c s t ht hin
  by_cases hedge : c = .rackSyncEdge
  · subst hedge
    obtain ⟨hclk, hsup⟩ := execRackSyncEdge_course ht
    exact ⟨hclk, fun h => hsup (h.resolve_left (· rfl)), fun h => absurd rfl h⟩
  by_cases hframe : ∃ x y, c = .frameStart x y
  · obtain ⟨x, y, rfl⟩ := hframe
    have hcounts := execFrameStart_counts x y ht
    exact ⟨hcounts.clk, fun _ => hcounts.sup, fun _ h => absurd rfl (h x y)⟩
  · push Not at hframe
    have hruns := exec_courseKept s c hin hedge hframe t ht
    exact ⟨hruns.clk, fun _ => hruns.sup, fun _ _ => ⟨hruns.cntA, hruns.cntB⟩⟩

/-- Settles O9: only an edge ends free time, and the armed set is what it has loaded. -/
theorem lockedOnlyThroughASet : Obligations.LockedOnlyThroughASet := by
  intro c s t ht hfree hl
  have hedge : c = .rackSyncEdge := by
    by_contra hother
    exact hfree (exec_lockKept hother t ht hl)
  subst hedge
  obtain ⟨a, ha, htime⟩ := execRackSyncEdge_locks ht hfree hl
  rw [htime]
  exact ⟨rfl, a, ha, rfl, rfl, rfl, rfl, rfl⟩

/-- Settles O2: the tick of an empty queue is a frame of rack time, and without a correction it adds one to each
counter. -/
theorem emptyQueueTicks : Obligations.EmptyQueueTicks := by
  intro s hq
  have hstep : step s = .next (tick s) := by
    unfold step
    rw [hq]
  refine ⟨_, hstep, tick_only s, advance_unpowered 1, fun hv => ⟨advance_clk 1 hv, fun ha => ?_⟩⟩
  rw [tick, advance_plain 1 hv ha]
  exact ⟨rfl, rfl, rfl⟩

end Sys2Proof

namespace Sys2Proof
open Machine Claims

/-! # Schedule entries and resets (O21, O23) -/

section Entries

variable {s : State}

/-! ## Entries put in and ended (R61, R62, R70) -/

/-- A frame without the schedule keeps every entry. -/
theorem Only.sched_eq {ps : List Zone} {t : State} (h : Only ps s t) (hp : ps.contains .sched = false) (i : Nat) :
    sched t i = sched s i := by
  have hsched : t.sched = s.sched := h .sched (by simpa using hp)
  simp only [sched, hsched]

/-- The entry that `schedPut` writes. -/
def newEntry (i rt action owner arg : Nat) (lateOk : Bool) (cx : Nat) (s : State) : SchedEntry :=
  { rt := rt, action := action, lateOk := lateOk, late := decide (rt < s.time.sup), st := 1, owner := owner,
    gen := if (sched s i).st = 0 then (sched s i).gen else ((sched s i).gen + 1) % 2 ^ 24, arg := arg, ctx := cx }

/-- Of no action of a transit withdrawal, an entry is all that is put in. -/
theorem schedPut_other {action : Nat} (i rt owner arg : Nat) (lateOk : Bool) (cx : Nat) (s : State)
    (h : action ≠ 6) : schedPut i rt action owner arg lateOk cx s =
      setSched i (newEntry i rt action owner arg lateOk cx s) s := by
  simp only [schedPut, h, if_false]
  rfl

theorem sched_schedPut (i rt action owner arg : Nat) (lateOk : Bool) (cx : Nat) (s : State) (j : Nat) :
    sched (schedPut i rt action owner arg lateOk cx s) j =
      if i = j then newEntry i rt action owner arg lateOk cx s else sched s j := by
  rw [← sched_setSched]
  unfold schedPut
  dsimp only
  split
  · rfl
  · rfl

theorem schedEnd_pending {i : Nat} (st : Nat) (h : (sched s i).st = 1) :
    schedEnd i st s = setSched i { sched s i with st := st } s := if_pos h

/-! ## Resets (R61, R519, R520, R522, R526) -/

/-- A withdrawal leaves the entry pending at the earlier of its own tick and the given one (R61). -/
theorem sched_withdrawModule (i tick cause : Nat) (s : State) :
    (sched (withdrawModule i tick cause s) i).st = 1 ∧ (sched (withdrawModule i tick cause s) i).rt =
      if (sched s i).st = 1 then min (sched s i).rt tick else tick := by
  unfold withdrawModule
  dsimp only
  split
  · next h => simp [h.1, h.2]
  · next h =>
    rw [(noticeAll_only _ _ _ _).sched_eq rfl, sched_schedPut, if_pos rfl]
    refine ⟨rfl, ?_⟩
    change tick = _
    split
    · next hst => exact (Nat.min_eq_right (Nat.le_of_lt (Nat.not_le.1 fun hle => h ⟨hst, hle⟩))).symm
    · rfl

theorem resetPart_fences {mb : Fin 128} {p : Machine.Part} (h : accepted s mb 0x901 = true)
    (hp : ownPart s (cx s mb) (arg s mb 0 1) = some p) :
    exec (.resetPart mb) s = .next (stays s mb (placed s mb 0x901) (fencePart 1 5 0 false (arg s mb 0 1) s)) :=
  congrArg Host.Outcome.next (runOp_stay h (by simp only [← arg.eq_def, ← cx.eq_def, hp]))

theorem resetCluster_zeroes {mb : Fin 128} (h : accepted s mb 0x902 = true)
    (hf : unitFault s (key s mb % 128) (cx s mb) (arg s mb 0 1) = none) (hb : unitBusy s (arg s mb 0 1) = none) :
    exec (.resetCluster mb) s =
      .next (answered s mb 0x902 [] (closeWins (arg s mb 0 1) (zeroCluster (arg s mb 0 1) s))) :=
  congrArg Host.Outcome.next (runOp_ok h (by simp only [← arg.eq_def, ← cx.eq_def, hf, hb]))

theorem resetTile_zeroes {mb : Fin 128} (h : accepted s mb 0x903 = true)
    (hf : unitFault s (key s mb % 128) (cx s mb) (arg s mb 0 1) = none) (hn : arg s mb 1 1 < 64)
    (ha : absentPos s (arg s mb 0 1) (arg s mb 1 1) = false) (hb : unitBusy s (arg s mb 0 1) = none) :
    exec (.resetTile mb) s = .next (answered s mb 0x903 [] (zeroTile (64 * arg s mb 0 1 + arg s mb 1 1) s)) :=
  congrArg Host.Outcome.next (runOp_ok h (by
    simp only [← arg.eq_def, ← cx.eq_def, hf, hb, ha, Nat.not_le.2 hn, Bool.false_eq_true, or_self, if_false]))

theorem resetModule_schedules {mb : Fin 128} (h : accepted s mb 0x904 = true) (ht : now s + 100000 ≤ arg s mb 0 8) :
    exec (.resetModule mb) s = .next (answered s mb 0x904 [] (scheduleReset (arg s mb 0 8) 0 s)) :=
  congrArg Host.Outcome.next (runOp_ok h (by simp only [← arg.eq_def, Nat.not_lt.2 ht, if_false]))

theorem sched_scheduleReset (tick cause : Nat) (s : State) :
    (sched (scheduleReset tick cause s) 1).st = 1 ∧ (sched (scheduleReset tick cause s) 1).rt =
      if (sched s 1).st = 1 then min (sched s 1).rt tick else tick :=
  sched_withdrawModule 1 tick cause s

/-! ## Entries of the host (R62, R66, R70) -/

/-- The entry's fields as SCHED_ADD's payload gives them (R310). -/
theorem schedAdd_adds {mb : Fin 128} {i : Nat} (h : accepted s mb 0x402 = true)
    (ht : bitOf (leNat (load s mb)) 72 = true ∨ now s + 1000 ≤ fld (leNat (load s mb)) 63 0)
    (hact : fld (leNat (load s mb)) 71 64 = 7) (hlo : 0 < fld (leNat (load s mb)) 255 128)
    (hhi : fld (leNat (load s mb)) 255 128 ≤ 255) (hfree : freeFrom s 32 224 = some i) :
    let u := schedPut i (fld (leNat (load s mb)) 63 0) 7 1 (fld (leNat (load s mb)) 255 128)
      (bitOf (leNat (load s mb)) 72) (cx s mb) s
    exec (.schedAdd mb) s = .next (answered s mb 0x402 (natLe 4 (handleOf u i)) u) := by
  have hearly : ¬ ((!bitOf (leNat (load s mb)) 72) = true ∧ fld (leNat (load s mb)) 63 0 < now s + 1000) := by
    rintro ⟨hb, hlt⟩
    rcases ht with ht | ht
    · simp [ht] at hb
    · omega
  refine congrArg Host.Outcome.next (runOp_ok h ?_)
  dsimp only
  rw [if_neg hearly, if_neg (by simp [hact]), if_neg (by omega), hfree]
  rfl

theorem schedCancel_cancels {mb : Fin 128} {i : Nat} (h : accepted s mb 0x403 = true)
    (hi : byHandle s (arg s mb 0 4) = some i) (hc : cx s mb ≠ 0) (ho : (sched s i).owner = 1)
    (hact : (sched s i).action = 7) (hctx : (sched s i).ctx = cx s mb) (hst : (sched s i).st = 1)
    (hrt : (sched s i).rt ≠ s.time.sup) :
    exec (.schedCancel mb) s = .next (answered s mb 0x403 [] (setSched i { sched s i with st := 4 } s)) := by
  have hc' : (head s mb).ctx ≠ 0 := hc
  refine congrArg Host.Outcome.next (runOp_ok h ?_)
  simp only [← arg.eq_def, hi, if_neg hc', ho, hact, hctx, hst, hrt, schedEnd_pending 4 hst]
  simp [cx]

end Entries

/-- Settles O21: each reset comes to its fence, its zeroed store or the earlier tick of the module's reset entry. -/
theorem resetsZero : Obligations.ResetsZero := by
  intro s mb
  refine ⟨fun p => resetPart_fences, fun h hf hb => resetCluster_zeroes h hf hb,
    fun h hf hn ha hb => resetTile_zeroes h hf hn ha hb, fun h ht => ?_⟩
  obtain ⟨hst, hrt⟩ := sched_scheduleReset (arg s mb 0 8) 0 s
  exact ⟨_, resetModule_schedules h ht, hst, hrt, rfl, (scheduleReset_only _ _ _).sub rfl⟩

/-- Settles O23: the host's entry goes into the free place, and the one that its handle names is cancelled. -/
theorem scheduleEntriesAreAddedAndCancelled : Obligations.ScheduleEntriesAreAddedAndCancelled := by
  intro s mb
  refine ⟨fun i h ht hact hlo hhi hfree => ?_, fun i h hi hc ho hact hctx hst hrt => ?_⟩
  · refine ⟨_, schedAdd_adds h ht hact hlo hhi hfree, ?_⟩
    simp only [schedPut_other _ _ _ _ _ _ _ (show (7 : Nat) ≠ 6 by decide), sched_setSched, if_true]
    exact ⟨putSched_only _ _, rfl, rfl, rfl, rfl, rfl, rfl, fun j hj => if_neg hj.symm⟩
  · refine ⟨_, schedCancel_cancels h hi hc ho hact hctx hst hrt, putSched_only _ _, ?_, fun j hj => ?_⟩
    · rw [sched_setSched, if_pos rfl]
    · rw [sched_setSched, if_neg hj.symm]

end Sys2Proof

namespace Sys2Proof
open Machine Claims

/-! # Setting rack time and watching the rack signals (O32) -/

theorem Machine.FMap.get_default_or_mem {α : Type} (d : α) (m : FMap α) (k : Nat) :
    FMap.get d m k = d ∨ ∃ x ∈ m, x.1 = k ∧ FMap.get d m k = x.2 := by
  induction m with
  | nil => exact .inl rfl
  | cons x r ih =>
    obtain ⟨i, v⟩ := x
    simp only [FMap.get]
    split
    · next h => exact .inr ⟨(i, v), List.mem_cons_self, h, rfl⟩
    · exact ih.imp_right fun ⟨y, hy, hk, he⟩ => ⟨y, List.mem_cons_of_mem _ hy, hk, he⟩

section Sets

variable {s : State}

/-! ## Entries at a set that ends free time (R55) -/

theorem sched_notPending (h : ∀ x ∈ s.sched.tab, x.2.st ≠ 1) (i : Nat) : (sched s i).st ≠ 1 := by
  obtain hd | ⟨x, hx, -, he⟩ := FMap.get_default_or_mem {} s.sched.tab i
  · rw [sched, hd]
    decide
  · rw [sched, he]
    exact h x hx

theorem schedEndAll_all {st : Nat} (hst : st ≠ 1) (s : State) (i : Nat) :
    (sched (schedEndAll st (fun _ _ => true) s) i).st ≠ 1 := by
  refine sched_notPending (fun x hx => ?_) i
  obtain ⟨y, -, rfl⟩ := List.mem_map.1 hx
  dsimp only
  split
  · exact hst
  · next h => simpa using h

/-- After a set in free time no entry is pending. -/
theorem stepEntries_notPending (s : State) (i : Nat) : (sched (stepEntries s) i).st ≠ 1 := by
  unfold stepEntries
  split
  · next h => exact sched_notPending (by simpa [schedAny] using h) i
  · have hframe (u : State) : sched (modFab (fun f => { f with comps := f.comps.filter (fun c => !c.own) })
        (event 5 2 0 0 u)) i = sched u i :=
      Only.sched_eq (.after (modFab_only _ _) (event_only _ _ _ _ _)) rfl i
    exact (congrArg SchedEntry.st (hframe _)).trans_ne (schedEndAll_all (by decide) s i)

theorem loadTime_notPending (v : Nat) (h : s.time.tq ≠ .locked) (i : Nat) : (sched (loadTime v s) i).st ≠ 1 := by
  have hframe (c : Prop) [Decidable c] (f : Time → Time) (old : Nat) (u : State) :
      sched (if c then passColls old v (passLaunches v (modTime f (ledgerSet v u))) else modTime f (ledgerSet v u)) i =
        sched u i :=
    Only.sched_eq (.either (.after (passColls_only _ _ _) (.after (passLaunches_only _ _)
      (.after (modTime_only _ _) (ledgerSet_only _ _)))) (.after (modTime_only _ _) (ledgerSet_only _ _))) rfl i
  unfold loadTime
  simp only [h, not_false_eq_true, decide_true, Bool.not_true, Bool.and_false, Bool.false_eq_true, if_false, if_true, ne_eq]
  rw [hframe]
  exact stepEntries_notPending _ i

/-! ## The commands of the management port (R51-R53, R596) -/

theorem exec_setRackTime (v : Nat) (step : Bool) (h : mgmtUp s = true) :
    exec (.setRackTime v step) s = .next (
      if v % 100000 ≠ 0 then reply 0x80 [] (modTime (fun t => { t with setResult := 2 }) s)
      else if !s.pins.rackClk then reply 0x81 [] (modTime (fun t => { t with setResult := 3 }) s)
      else reply ccOk []
        (modTime (fun t => { t with armed := some { v := v % 2 ^ 64, step := step, doneAt := t.clk } }) s)) :=
  congrArg Host.Outcome.next (if_pos h)

theorem setRackTime_arms {v : Nat} (step : Bool) (h : mgmtUp s = true) (hv : v % 100000 = 0) (hw : v < 2 ^ 64)
    (hc : s.pins.rackClk = true) : ∃ t, exec (.setRackTime v step) s = .next t ∧
      t.time.armed = some { v := v, step := step, doneAt := s.time.clk } := by
  refine ⟨_, exec_setRackTime v step h, ?_⟩
  rw [if_neg (by simp [hv]), if_neg (by simp [hc])]
  change some _ = _
  rw [Nat.mod_eq_of_lt hw]

theorem setRackTime_refuses {v : Nat} (step : Bool) (h : mgmtUp s = true) (hv : v % 100000 ≠ 0) :
    ∃ t, exec (.setRackTime v step) s = .next t ∧ t.time = { s.time with setResult := 2 } := by
  refine ⟨_, exec_setRackTime v step h, ?_⟩
  rw [if_pos hv]
  rfl

theorem getRackTime_replies (h : mgmtUp s = true) :
    exec .getRackTime s = .next (reply 0 (natLe 8 s.time.sup ++ natLe 8 s.time.setLast ++ natLe 2 s.time.epoch ++
      natLe 1 s.time.tq.code ++ natLe 1 (b2n s.time.armed.isSome) ++ natLe 1 s.time.setResult) s) :=
  congrArg Host.Outcome.next (if_pos h)

theorem rtNowLowRead_latches (p : Half) (h : s.power.rails = true) :
    ∃ t, exec (.rtNowLowRead p) s = .next t ∧ Only [.time] s t ∧
      (match p with | .a => t.time.latchA | .b => t.time.latchB) = now s / 2 ^ 32 := by
  have hexec : exec (.rtNowLowRead p) s = .next (match p with
      | .a => modTime (fun t => { t with latchA := now s / 2 ^ 32 }) s
      | .b => modTime (fun t => { t with latchB := now s / 2 ^ 32 }) s) :=
    congrArg Host.Outcome.next (if_neg (by simp [h]))
  refine ⟨_, hexec, ?_⟩
  cases p with
  | a => exact ⟨modTime_only _ _, rfl⟩
  | b => exact ⟨modTime_only _ _, rfl⟩

/-! ## A set at an edge (R53, R54) -/

section Edge

variable (hv : s.power.v52 = true) (hc : s.pins.rackClk = true)
include hv hc

theorem exec_rackSyncEdge_free {a : SetArm} (hl : s.time.tq ≠ .locked) (ha : s.time.armed = some a) :
    exec .rackSyncEdge s = .next (setAtEdge a s.time s) := by
  rw [exec_rackSyncEdge_set ha, if_neg (by simp [hv, hc]), if_neg (fun h => hl h.1), notedEdge_free hl]

theorem rackSyncEdge_loads {a : SetArm} (hl : s.time.tq ≠ .locked) (ha : s.time.armed = some a)
    (hlo : a.doneAt + 10000 ≤ s.time.clk) (hhi : s.time.clk ≤ a.doneAt + 100000000) :
    exec .rackSyncEdge s = .next (loadTime a.v s) := by
  rw [exec_rackSyncEdge_free hv hc hl ha, setAtEdge, if_neg (Nat.not_lt.2 hlo), if_neg (Nat.not_lt.2 hhi),
    if_neg (fun h => hl h.1), if_neg (fun h => hl h.1)]

theorem rackSyncEdge_waits {a : SetArm} (hl : s.time.tq ≠ .locked) (ha : s.time.armed = some a)
    (hlo : s.time.clk < a.doneAt + 10000) : exec .rackSyncEdge s = .next s := by
  rw [exec_rackSyncEdge_free hv hc hl ha, setAtEdge, if_pos hlo]

end Edge

/-- The mark of an edge that falls on the frame start. -/
theorem notedEdge_onStart (hl : s.time.tq = .locked) (h0 : s.time.sup % 100000 = 0) :
    notedEdge s = modTime (fun t => { t with lastEdge := some (s.time.sup / 100000) }) s := by
  simp [notedEdge, edgeOff, edgeFrame, hl, h0]

theorem edgeOff_onStart (h0 : s.time.sup % 100000 = 0) : edgeOff s.time = 0 := by
  simp [edgeOff, h0]

section Locked

variable (hv : s.power.v52 = true) (hc : s.pins.rackClk = true) (hl : s.time.tq = .locked)
include hv hc hl

theorem rackSyncEdge_marks (ha : s.time.armed = none) (h0 : s.time.sup % 100000 = 0) :
    exec .rackSyncEdge s = .next (modTime (fun t => { t with lastEdge := some (s.time.sup / 100000) }) s) := by
  rw [exec_rackSyncEdge_unset ha, if_neg (by simp [hv, hc]), if_neg (by simp [edgeOff_onStart h0]),
    notedEdge_onStart hl h0]

theorem rackSyncEdge_slips (ha : s.time.armed = none) (h1 : 1 < s.time.sup % 100000)
    (h5 : s.time.sup % 100000 ≤ 50000) : exec .rackSyncEdge s = .next (slip (s.time.sup / 100000) s) := by
  rw [exec_rackSyncEdge_unset ha, if_neg (by simp [hv, hc]), edgeOff, edgeFrame, if_pos h5, if_pos h5, if_pos ⟨hl, h1⟩]

variable (h0 : s.time.sup % 100000 = 0) {a : SetArm} (ha : s.time.armed = some a)
  (hlo : a.doneAt + 10000 ≤ s.time.clk) (hhi : s.time.clk ≤ a.doneAt + 100000000)
include h0 ha hlo hhi

/-- An edge on the frame start takes a ripe set on, where it does not load it, with the edge marked. -/
theorem rackSyncEdge_locked : exec .rackSyncEdge s = .next (
    let u := modTime (fun t => { t with lastEdge := some (t.sup / 100000) }) s
    if a.v < s.time.sup then cancelSet 4 u
    else if s.time.sup < a.v ∧ !a.step then cancelSet 5 u else loadTime a.v u) := by
  rw [exec_rackSyncEdge_set ha, if_neg (by simp [hv, hc]), if_neg (by simp [edgeOff_onStart h0]), setAtEdge,
    if_neg (Nat.not_lt.2 hlo), if_neg (Nat.not_lt.2 hhi), notedEdge_onStart hl h0]
  simp only [hl, true_and]
  rfl

theorem rackSyncEdge_cancelsBack (hb : a.v < s.time.sup) :
    exec .rackSyncEdge s = .next (cancelSet 4 (modTime (fun t => { t with lastEdge := some (t.sup / 100000) }) s)) := by
  rw [rackSyncEdge_locked hv hc hl h0 ha hlo hhi]
  dsimp only
  rw [if_pos hb]

theorem rackSyncEdge_cancelsForward (hf : s.time.sup < a.v) (hs : a.step = false) :
    exec .rackSyncEdge s = .next (cancelSet 5 (modTime (fun t => { t with lastEdge := some (t.sup / 100000) }) s)) := by
  rw [rackSyncEdge_locked hv hc hl h0 ha hlo hhi]
  dsimp only
  rw [if_neg (Nat.lt_asymm hf), if_pos ⟨hf, by simp [hs]⟩]

end Locked

theorem rackSetTimeout_cancels {a : SetArm} (ha : s.time.armed = some a) :
    ∃ t, exec .rackSetTimeout s = .next t ∧ Only [.time] s t ∧ t.time.armed = none ∧ t.time.setResult = 7 := by
  have hexec : exec .rackSetTimeout s = .next (cancelSet 7 (waitUntil (a.doneAt + 100000000) s)) := by
    change execRackSetTimeout s = _
    simp only [execRackSetTimeout, ha]
  exact ⟨_, hexec, .sub (.after (cancelSet_only _ _) (waitUntil_only _ _)) rfl, rfl, rfl⟩

/-! ## The reference (R47, R49) -/

/-- What ticks leave of rack time but the counters and the pending correction. -/
theorem advance_keeps (n : Nat) (s : State) :
    ∃ clk sup a b adj, (advance n s).time = { s.time with clk := clk, sup := sup, cntA := a, cntB := b, adjust := adj } := by
  obtain h | ⟨m, adj, h⟩ := advance_cases n s
  · rw [h]
    exact ⟨_, _, _, _, _, rfl⟩
  · rw [h]
    exact ⟨_, _, _, _, _, rfl⟩

theorem getLsbD_rtFlag {bit : Nat} (s : State) (h : bit < 32) : (rtFlag bit s).time.w1c.getLsbD bit = true := by
  change (s.time.w1c ||| BitVec.ofNat 32 (2 ^ bit)).getLsbD bit = true
  rw [BitVec.getLsbD_or, BitVec.getLsbD_ofNat]
  simp [h]

/-- A set that was armed is cancelled; without one nothing changes. -/
theorem cancelIfArmed (r : Nat) (s : State) : (if s.time.armed.isSome then cancelSet r s else s) =
    modTime (fun t => { t with armed := none, setResult := if t.armed.isSome then r else t.setResult }) s := by
  cases h : s.time.armed with
  | none =>
    simp only [h, modTime, Option.isSome_none, Bool.false_eq_true, if_false]
    rw [← h]
  | some a => simp [cancelSet, modTime, h]

theorem exec_rackClkLoss (hv : s.power.v52 = true) :
    exec .rackClkLoss s = .next (
      let u := advance 100 { s with pins := { s.pins with rackClk := false } }
      let w := if u.time.tq = .locked then rtFlag 4 (modTime (fun t => { t with tq := .freeLost }) u) else u
      modTime (fun t => { t with armed := none, setResult := if t.armed.isSome then 6 else t.setResult }) w) := by
  rw [← cancelIfArmed]
  exact congrArg Host.Outcome.next (if_neg (by simp [hv]))

theorem rackClkLoss_frees (hv : s.power.v52 = true) (hl : s.time.tq = .locked) :
    ∃ t, exec .rackClkLoss s = .next t ∧ t.pins.rackClk = false ∧ t.time.tq = .freeLost ∧
      t.time.clk = s.time.clk + 100 ∧ t.time.w1c.getLsbD 4 ∧ t.time.armed = none ∧ Only [.pins, .time] s t := by
  let s0 := { s with pins := { s.pins with rackClk := false } }
  have hlocked : (advance 100 s0).time.tq = .locked := by
    obtain ⟨_, _, _, _, _, h⟩ := advance_keeps 100 s0
    rw [h]
    exact hl
  have hpins : (advance 100 s0).pins = s0.pins := advance_only _ _ .pins (by decide)
  refine ⟨_, exec_rackClkLoss hv, ?_⟩
  dsimp only
  rw [if_pos hlocked]
  exact ⟨congrArg Pins.rackClk hpins, rfl, advance_clk 100 hv, getLsbD_rtFlag _ (by decide), rfl,
    .sub (.after (modTime_only _ _) (.after (rtFlag_only _ _) (.after (modTime_only _ _)
      (.after (advance_only _ _) (putPins_only _ _))))) rfl⟩

theorem slip_time (k : Nat) (s : State) : (slip k s).time = { s.time with
    slips := s.time.slips + 1, lastSlip := some k, w1c := s.time.w1c ||| BitVec.ofNat 32 (2 ^ 5),
    tq := if 0 < k ∧ s.time.lastSlip = some (k - 1) then .freeLost else s.time.tq } := by
  simp [slip, rtFlag]

theorem syncMissing_slips (hl : s.time.tq = .locked)
    (he : s.time.lastEdge ≠ some (cdiv (s.time.sup - 1) 100000))
    (hm : s.time.lastMiss ≠ some (cdiv (s.time.sup - 1) 100000)) :
    let k := cdiv (s.time.sup - 1) 100000
    exec .syncMissing s =
      .next (slip k (modTime (fun t => { t with lastMiss := some k }) (waitCount (k * 100000 + 1) s))) := by
  change execSyncMissing s = _
  simp only [execSyncMissing, hl, he, hm, ne_eq, not_true_eq_false, or_self, if_false]

theorem syncMissing_watched (hl : s.time.tq = .locked)
    (he : s.time.lastEdge ≠ some (cdiv (s.time.sup - 1) 100000))
    (hm : s.time.lastMiss ≠ some (cdiv (s.time.sup - 1) 100000)) :
    let k := cdiv (s.time.sup - 1) 100000
    ∃ t, exec .syncMissing s = .next t ∧ Only [.time] s t ∧ t.time.slips = s.time.slips + 1 ∧
      t.time.lastSlip = some k ∧ t.time.lastMiss = some k ∧ t.time.w1c.getLsbD 5 ∧
      t.time.tq = (if 0 < k ∧ s.time.lastSlip = some (k - 1) then .freeLost else .locked) := by
  intro k
  refine ⟨_, syncMissing_slips hl he hm, .sub (.after (slip_only _ _) (.after (modTime_only _ _)
    (waitCount_only _ _))) rfl, ?_⟩
  obtain ⟨_, _, _, _, _, hw⟩ := advance_keeps (ticksTo s s.time.sup (k * 100000 + 1)) s
  have hwait : (waitCount (k * 100000 + 1) s).time = _ := hw
  refine ⟨?_, rfl, ?_, getLsbD_rtFlag _ (by decide), ?_⟩
  all_goals simp only [slip_time, modTime_time, hwait, hl, k]

end Sets

/-- Settles O32: each of the commands that set and watch rack time, by what its guard leaves of it. -/
theorem rackTimeIsSetAndWatched : Obligations.RackTimeIsSetAndWatched := by
  refine ⟨fun s => ⟨fun v step h hv hw hc => setRackTime_arms step h hv hw hc,
    fun v step h hv => setRackTime_refuses step h hv, fun a hv hc hl ha hlo hhi => ?_,
    fun a hv hc hl ha hlo => rackSyncEdge_waits hv hc hl ha hlo,
    fun a hv hc hl h0 ha hlo hhi => ⟨rackSyncEdge_cancelsBack hv hc hl h0 ha hlo hhi,
      rackSyncEdge_cancelsForward hv hc hl h0 ha hlo hhi⟩,
    fun a => rackSetTimeout_cancels, getRackTime_replies, rtNowLowRead_latches⟩,
    fun s => ⟨rackClkLoss_frees, rfl, syncMissing_watched, fun hv hc hl ha =>
      ⟨rackSyncEdge_marks hv hc hl ha, rackSyncEdge_slips hv hc hl ha⟩⟩⟩
  refine ⟨_, rackSyncEdge_loads hv hc hl ha hlo hhi, ?_⟩
  rw [loadTime_time fun h => absurd h hl]
  exact ⟨rfl, rfl, rfl, rfl, rfl, rfl, rfl, rfl, loadTime_notPending a.v hl⟩

end Sys2Proof

namespace Sys2Proof
open Machine Claims

/-! # The frame start (O33) -/

section FrameStart

variable {s t : State}

/-! ## What counts towards the fabric digest (R549) -/

theorem settingB_congr (hs : t.start.settings = s.start.settings) (hf : t.start.factory = s.start.factory)
    (hi : t.ident = s.ident) (k : Nat) : settingB t k = settingB s k := by
  simp only [settingB, keyDefault, hs, hf, hi]

theorem fabDigest_congr (hs : t.start.settings = s.start.settings) (hf : t.start.factory = s.start.factory)
    (hi : t.ident = s.ident) : fabDigest t = fabDigest s := by
  simp only [fabDigest, serial, settingB_congr hs hf hi]

/-! ## What a cap update leaves alone -/

theorem event_power (blk bit code info : Nat) (s : State) : (event blk bit code info s).power = s.power :=
  event_only blk bit code info s .power (by decide)

theorem capUpdate_power (s : State) : (capUpdate s).power =
    if effective s = s.power.lastEff ∧ source s = s.power.lastSrc then s.power
    else { s.power with lastEff := effective s, lastSrc := source s, above := 0, hist := [],
                        settleAt := s.time.clk +
                          (if s.power.lastEff < effective s then 0 else if source s = 4 then 2000 else 20000) } := by
  have hraise : (if capRaised s then event 3 5 0 0 s else s).power = s.power ∧
      (if capRaised s then event 3 5 0 0 s else s).time = s.time := by
    split
    · exact ⟨event_power _ _ _ _ _, event_time _ _ _ _ _⟩
    · exact ⟨rfl, rfl⟩
  obtain ⟨hpower, htime⟩ := hraise
  have htell (d : Nat) (u : State) : (plEvent 8 d (event 3 2 0 0 u)).power = u.power :=
    Only.after (plEvent_only _ _ _) (event_only _ _ _ _ _) .power (by decide)
  unfold capUpdate
  dsimp only
  rw [hpower, htime]
  split
  · exact hpower
  · rw [htell]

theorem thermalUpdate_rails (s : State) : (thermalUpdate s).power.rails = s.power.rails := by
  have hcap (u : State) : (capUpdate u).power.rails = u.power.rails := by
    rw [capUpdate_power]
    split
    · rfl
    · rfl
  unfold thermalUpdate
  dsimp only
  split
  · rw [hcap, event_power, modPower_power]
  split
  · rw [hcap, modPower_power]
  · rfl

/-! ## Bits that a frame start leaves standing -/

theorem disarm_kept (blk : Nat) (s : State) : BookKept s (disarm blk s) := by
  refine ⟨rfl, fun b i hi => ?_⟩
  rw [disarm, win_setWin]
  split
  · next h => subst h; exact hi
  · exact hi

theorem leave_kept (p inp : Nat) (k : Pkt) (s : State) : BookKept s (leave p inp k s) := by
  have hsent (u : State) : BookKept u (count (0x80 + p) 2 (64 * flits k) (count (0x80 + p) 0 1 (freeIn inp k u))) :=
    .ofOnly (.after (count_only _ _ _ _) (.after (count_only _ _ _ _) (freeIn_only _ _ _))) (by decide) (by decide)
  have hnote (inj : Bool) (again : List (Bool × Pkt)) (u : State) :
      BookKept u (noteSent p inj k { u with fab := { u.fab with again := again } }) :=
    .ofOnly (.after (noteSent_only _ _ _ _) (modFab_only (fun f => { f with again := again }) _)) (by decide) (by decide)
  have hout (c : Bool) (u : State) (l : List (Nat × Pkt)) :
      BookKept u (if c then u else { u with fab := { u.fab with out := l } }) := by
    split
    · exact .refl u
    · exact .ofOnly (modFab_only (fun f => { f with out := l }) _) (by decide) (by decide)
  unfold leave
  exact .after (hout _ _ _) (.after (hnote _ _ _) (.after (.when (disarm_kept _ _)) (.after (hsent _)
    (.ofOnly (modPort_only _ _ _) (by decide) (by decide)))))

theorem sendOn_kept (p : Nat) (k : Pkt) (s : State) : BookKept s (sendOn p k s) :=
  .branch (leave_kept p 64 k s)
    (.ofOnly (.after (noteSent_only _ _ _ _) (setQueue_only _ _ _)) (by decide) (by decide))

theorem beaconFrame_kept (s : State) : BookKept s (beaconFrame s) := by
  have hmod (p : Nat) (f : Port → Port) (u : State) : BookKept u (modPort p f u) :=
    .ofOnly (modPort_only _ _ _) (by decide) (by decide)
  have hgap (p : Nat) (u : State) : BookKept u (portEvent p 7 (count (0x80 + p) 38 1 u)) :=
    .after (event_kept _ _ _ _ _) (.ofOnly (count_only _ _ _ _) (by decide) (by decide))
  exact .fold (fun u p => .after (.when (hgap p _)) (.after (hmod p _ _) (sendOn_kept p _ u))) _ _

/-! ## The comparison of a half's counter (R44) -/

/-- The half's counter disagreed at the last comparison. -/
def disagreed (s : State) (h : Half) : Bool := match h with | .a => s.time.disA | .b => s.time.disB

/-- A counter that disagreed, loaded with the supervisor's. -/
def reloadHalf (h : Half) (s : State) : State :=
  event (0xA + h.num) 3 0 0 (rtFlag 6 (match h with
    | .a => modTime (fun t => { t with cntA := t.sup }) s
    | .b => modTime (fun t => { t with cntB := t.sup }) s))

theorem reloadHalf_counts (h : Half) (s : State) :
    cnt (reloadHalf h s) h = s.time.sup ∧ (reloadHalf h s).time.sup = s.time.sup := by
  cases h with
  | a => simp [reloadHalf, cnt, rtFlag, event_time]
  | b => simp [reloadHalf, cnt, rtFlag, event_time]

theorem driftHalf_counts (h : Half) (d : Int) (s : State) :
    cnt (driftHalf h d s) h = ((cnt s h : Int) + d).toNat ∧ (driftHalf h d s).time.sup = s.time.sup := by
  cases h with
  | a => exact ⟨rfl, rfl⟩
  | b => exact ⟨rfl, rfl⟩

/-- What the comparison makes of the half `h`'s flag, once its counter stands. -/
def noteCompared (h : Half) (dis : Bool) (s : State) : State :=
  let d := decide (cnt s h ≠ s.time.sup)
  let u := if dis && d then event (0xA + h.num) 4 0 0 s else s
  match h with
  | .a => modTime (fun t => { t with disA := d }) u
  | .b => modTime (fun t => { t with disB := d }) u

theorem compareHalf_steps (h : Half) (d : Int) (s : State) : compareHalf h d s =
    noteCompared h (disagreed s h) (driftHalf h d (if disagreed s h then reloadHalf h s else s)) := by
  cases h with
  | a => rfl
  | b => rfl

theorem modTime_kept (f : Time → Time) (s : State) : BookKept s (modTime f s) :=
  .ofOnly (modTime_only _ _) (by decide) (by decide)

theorem noteCompared_kept (h : Half) (dis : Bool) (s : State) : BookKept s (noteCompared h dis s) := by
  unfold noteCompared
  cases h with
  | a => exact .after (modTime_kept _ _) (.when (event_kept _ _ _ _ _))
  | b => exact .after (modTime_kept _ _) (.when (event_kept _ _ _ _ _))

theorem driftHalf_kept (h : Half) (d : Int) (s : State) : BookKept s (driftHalf h d s) :=
  .ofOnly (driftHalf_only _ _ _) (by decide) (by decide)

theorem reloadHalf_kept (h : Half) (s : State) : BookKept s (reloadHalf h s) := by
  refine .after (event_kept _ _ _ _ _) (.after (modTime_kept _ _) ?_)
  cases h with
  | a => exact modTime_kept _ _
  | b => exact modTime_kept _ _

theorem compareHalf_kept (h : Half) (d : Int) (s : State) : BookKept s (compareHalf h d s) := by
  rw [compareHalf_steps]
  exact .after (noteCompared_kept _ _ _) (.after (driftHalf_kept _ _ _) (.when (reloadHalf_kept _ _)))

/-- The event of a reload (R44). -/
theorem compareHalf_reloads {h : Half} (d : Int) (hd : disagreed s h = true) :
    (win (compareHalf h d s) (0xA + h.num)).sts.getLsbD 3 = true := by
  rw [compareHalf_steps, if_pos hd]
  exact (noteCompared_kept _ _ _).sts _ _ ((driftHalf_kept _ _ _).sts _ _ (event_sets _ _ _ (by decide)))

/-- The event of a counter that a fault moves once more after its reload (R44). -/
theorem compareHalf_persists {h : Half} {d : Int} (hd : disagreed s h = true)
    (hne : ((s.time.sup : Int) + d).toNat ≠ s.time.sup) :
    (win (compareHalf h d s) (0xA + h.num)).sts.getLsbD 4 = true := by
  obtain ⟨hcnt, hsup⟩ := reloadHalf_counts h s
  obtain ⟨hcnt', hsup'⟩ := driftHalf_counts h d (reloadHalf h s)
  rw [hcnt] at hcnt'
  rw [hsup] at hsup'
  have hset : (win (if (true && decide (cnt (driftHalf h d (reloadHalf h s)) h ≠ (driftHalf h d (reloadHalf h s)).time.sup))
      then event (0xA + h.num) 4 0 0 (driftHalf h d (reloadHalf h s)) else driftHalf h d (reloadHalf h s))
        (0xA + h.num)).sts.getLsbD 4 = true := by
    rw [hcnt', hsup', if_pos (by simpa using hne)]
    exact event_sets _ _ _ (by decide)
  rw [compareHalf_steps, if_pos hd, hd]
  cases h with
  | a => exact hset
  | b => exact hset

/-! ## The frame start as a whole -/

/-- Both halves compared, as a frame start that `f` reaches finds them. -/
def framesCompared (driftA driftB : Int) (f : Nat) (s : State) : State :=
  compareHalf .b driftB (compareHalf .a driftA (thermalUpdate (waitCount f s)))

theorem waitCount_plain (f : Nat) (hv : s.power.v52 = true) (ha : s.time.adjust = none) :
    waitCount f s = modTime (fun t => { t with
      clk := t.clk + (f - s.time.sup), sup := t.sup + (f - s.time.sup),
      cntA := t.cntA + (f - s.time.sup), cntB := t.cntB + (f - s.time.sup) }) s := by
  have hticks : ticksTo s s.time.sup f = f - s.time.sup := by simp [ticksTo, ha]
  rw [waitCount, hticks, advance_plain _ hv ha]

/-- What the beacons of a frame will say of the digest (R364, R549). -/
def digestNoted (u : State) : State :=
  modStart (fun x => { x with digValid := x.digestDone, beaconPrefix := prefixOf (fabDigest u) }) u

theorem exec_frameStart (driftA driftB : Int) (hv : s.power.v52 = true) (hr : s.power.rails = true) :
    exec (.frameStart driftA driftB) s =
      .next (beaconFrame (digestNoted (framesCompared driftA driftB ((s.time.sup / 100000 + 1) * 100000) s))) := by
  have hrails : (thermalUpdate (waitCount ((s.time.sup / 100000 + 1) * 100000) s)).power.rails = true := by
    rw [thermalUpdate_rails]
    exact (congrArg Power.rails (waitCount_only _ s .power (by decide))).trans hr
  change execFrameStart s driftA driftB = _
  simp only [execFrameStart]
  rw [if_neg (by simp [hv]), if_neg (by simp [hrails])]
  rfl

theorem beaconFrame_start (s : State) : (beaconFrame s).start = s.start := beaconFrame_only s .start (by decide)

theorem fabDigest_frameStart (u : State) : fabDigest (beaconFrame (digestNoted u)) = fabDigest u := by
  refine fabDigest_congr ?_ ?_ (beaconFrame_only _ .ident (by decide))
  · rw [beaconFrame_start]
    rfl
  · rw [beaconFrame_start]
    rfl

theorem frameStart_kept (u : State) : BookKept u (beaconFrame (digestNoted u)) :=
  .after (beaconFrame_kept _) (.ofOnly (modStart_only _ _) (by decide) (by decide))

/-- Rack time once the supervisor's count has reached `f`. -/
def reachedTime (f : Nat) (t : Time) : Time :=
  { t with clk := t.clk + (f - t.sup), sup := f, cntA := t.cntA + (f - t.sup), cntB := t.cntB + (f - t.sup) }

section Reached

variable {f : Nat} (hv : s.power.v52 = true) (ha : s.time.adjust = none) (hf : s.time.sup ≤ f)
include hv ha hf

theorem frameReached_time : (thermalUpdate (waitCount f s)).time = reachedTime f s.time := by
  rw [(thermalUpdate_only _).time_eq rfl, waitCount_plain f hv ha, modTime_time, Nat.add_sub_cancel' hf, reachedTime]

theorem framesCompared_time (driftA driftB : Int) : (framesCompared driftA driftB f s).time =
    comparedTime .b driftB (comparedTime .a driftA (reachedTime f s.time)) := by
  rw [framesCompared, compareHalf_time, compareHalf_time, frameReached_time hv ha hf]

/-- The events of half A's counter, where it disagreed before. -/
theorem framesCompared_eventsA {driftA : Int} (driftB : Int) (hd : s.time.disA = true) :
    (win (framesCompared driftA driftB f s) 0xA).sts.getLsbD 3 = true ∧
      (((f : Int) + driftA).toNat ≠ f → (win (framesCompared driftA driftB f s) 0xA).sts.getLsbD 4 = true) := by
  have htime := frameReached_time hv ha hf
  have hdis : disagreed (thermalUpdate (waitCount f s)) .a = true := (congrArg Time.disA htime).trans hd
  have hsup : (thermalUpdate (waitCount f s)).time.sup = f := congrArg Time.sup htime
  exact ⟨(compareHalf_kept _ _ _).sts _ _ (compareHalf_reloads driftA hdis),
    fun hne => (compareHalf_kept _ _ _).sts _ _ (compareHalf_persists hdis (hsup.symm ▸ hne))⟩

/-- The events of half B's. -/
theorem framesCompared_eventsB (driftA : Int) {driftB : Int} (hd : s.time.disB = true) :
    (win (framesCompared driftA driftB f s) 0xB).sts.getLsbD 3 = true ∧
      (((f : Int) + driftB).toNat ≠ f → (win (framesCompared driftA driftB f s) 0xB).sts.getLsbD 4 = true) := by
  have htime : (compareHalf .a driftA (thermalUpdate (waitCount f s))).time = _ :=
    (compareHalf_time _ _ _).trans (congrArg (comparedTime .a driftA) (frameReached_time hv ha hf))
  have hdis : disagreed (compareHalf .a driftA (thermalUpdate (waitCount f s))) .b = true :=
    (congrArg Time.disB htime).trans hd
  have hsup : (compareHalf .a driftA (thermalUpdate (waitCount f s))).time.sup = f := congrArg Time.sup htime
  exact ⟨compareHalf_reloads driftB hdis, fun hne => compareHalf_persists hdis (hsup.symm ▸ hne)⟩

end Reached

theorem framesCompared_only (driftA driftB : Int) (f : Nat) (s : State) :
    Only [.time, .mbx, .win, .ctr, .power, .mgmt] s (framesCompared driftA driftB f s) :=
  .sub (.after (compareHalf_only _ _ _) (.after (compareHalf_only _ _ _) (.after (thermalUpdate_only _)
    (waitCount_only _ _)))) rfl

theorem comparedTime_flag {driftA driftB : Int} {t : Time} (h : t.disA = true ∨ t.disB = true) :
    (comparedTime .b driftB (comparedTime .a driftA t)).w1c.getLsbD 6 = true := by
  have hbit (w : BitVec 32) : (w ||| BitVec.ofNat 32 (2 ^ 6)).getLsbD 6 = true := by simp
  cases hb : t.disB with
  | true =>
    simp only [comparedTime, hb, if_true]
    exact hbit _
  | false =>
    simp only [comparedTime, hb, h.resolve_right (by simp [hb]), if_true, Bool.false_eq_true, if_false]
    exact hbit _

end FrameStart

/-- Settles O33: the frame start reaches its count, compares each half in turn, and the beacons leave what the
comparison has set. -/
theorem framesStart : Obligations.FramesStart := by
  intro s driftA driftB hv hr ha f
  have hf : s.time.sup ≤ f := by omega
  have hpos : 0 < f := by omega
  have hmove {d : Int} (hd : d ≠ 0) : ((f : Int) + d).toNat ≠ f := by omega
  have hstart : (framesCompared driftA driftB f s).start = s.start :=
    framesCompared_only driftA driftB f s .start (by decide)
  have hbeacons := frameStart_kept (framesCompared driftA driftB f s)
  refine ⟨_, exec_frameStart driftA driftB hv hr, ?_⟩
  rw [(beaconFrame_only _).time_eq rfl, digestNoted, modStart_time, ← digestNoted, framesCompared_time hv ha hf,
    fabDigest_frameStart, beaconFrame_start]
  refine ⟨rfl, rfl, rfl, rfl, rfl, fun hd => ?_, fun hd => ?_, congrArg Start.digestDone hstart, rfl⟩
  · obtain ⟨hreload, hpersist⟩ := framesCompared_eventsA hv ha hf (driftA := driftA) driftB hd
    exact ⟨hbeacons.sts _ _ hreload, comparedTime_flag (.inl hd), fun h => hbeacons.sts _ _ (hpersist (hmove h))⟩
  · obtain ⟨hreload, hpersist⟩ := framesCompared_eventsB hv ha hf driftA (driftB := driftB) hd
    exact ⟨hbeacons.sts _ _ hreload, comparedTime_flag (.inr hd), fun h => hbeacons.sts _ _ (hpersist (hmove h))⟩

end Sys2Proof

namespace Sys2Proof
open Machine Claims

/-! # Entries dispatched and executed (O34) -/

/-! ## A canonical map with one entry of a kind -/

theorem Machine.FMap.get_of_mem {α : Type} [DecidableEq α] {d : α} {m : FMap α} (h : FMap.ok d m = true)
    {x : Nat × α} (hx : x ∈ m) : FMap.get d m x.1 = x.2 := by
  induction m with
  | nil => cases hx
  | cons y r ih =>
    rcases List.mem_cons.1 hx with rfl | hr
    · exact if_pos rfl
    · exact (if_neg (Nat.ne_of_lt (FMap.ok_lt h x hr))).trans (ih (FMap.ok_tail h) hr)

/-- A property that of all entries only the one at `k` has selects that one. -/
theorem Machine.FMap.filter_eq_singleton {α : Type} [DecidableEq α] {d : α} {m : FMap α} (h : FMap.ok d m = true)
    {p : Nat × α → Bool} {k : Nat} (hk : FMap.get d m k ≠ d) (hp : p (k, FMap.get d m k) = true)
    (ho : ∀ x ∈ m, x.1 ≠ k → p x = false) : m.filter p = [(k, FMap.get d m k)] := by
  induction m with
  | nil => exact absurd rfl hk
  | cons y r ih =>
    have hr := FMap.ok_tail h
    by_cases hy : y.1 = k
    · have hget : FMap.get d (y :: r) k = y.2 := if_pos hy
      have hrest : r.filter p = [] := List.filter_eq_nil_iff.2 fun x hx => by
        have hne : x.1 ≠ k := hy ▸ (Nat.ne_of_gt (FMap.ok_lt h x hx))
        simp [ho x (List.mem_cons_of_mem _ hx) hne]
      rw [hget] at hp ⊢
      subst hy
      rw [List.filter_cons_of_pos hp, hrest]
    · have hget : FMap.get d (y :: r) k = FMap.get d r k := if_neg hy
      rw [hget] at hk hp ⊢
      rw [List.filter_cons_of_neg (by simp [ho y List.mem_cons_self hy]),
        ih hr hk hp fun x hx => ho x (List.mem_cons_of_mem _ hx)]

section Dispatch

variable {s : State} {i : Nat}

/-! ## The only pending entry (R67-R69) -/

/-- In a canonical table the entry `i` is pending and no other. -/
structure OnlyPending (s : State) (i : Nat) : Prop where
  ok : FMap.ok {} s.sched.tab = true
  pending : (sched s i).st = 1
  others : ∀ j, j ≠ i → (sched s j).st ≠ 1

theorem OnlyPending.filter (h : OnlyPending s i) {p : Nat × SchedEntry → Bool}
    (hi : p (i, sched s i) = true) (hp : ∀ x, x.2.st ≠ 1 → p x = false) :
    s.sched.tab.filter p = [(i, sched s i)] := by
  refine FMap.filter_eq_singleton h.ok (fun hd => ?_) hi fun x hx hne => hp x ?_
  · have hst := h.pending
    rw [sched, hd] at hst
    cases hst
  · rw [← FMap.get_of_mem h.ok hx]
    exact h.others _ hne

/-- The counts as the entry's tick finds them. -/
def atTick (i : Nat) (s : State) : State := waitCount (sched s i).rt s

theorem sched_waitCount (f : Nat) (s : State) : (waitCount f s).sched = s.sched := waitCount_only f s .sched (by decide)

theorem nextRt_only (h : OnlyPending s i) (ha : (sched s i).action ≠ 2) : nextRt s = some (sched s i).rt := by
  rw [nextRt, h.filter (by simp [h.pending, ha]) (fun x hx => by simp [hx])]
  rfl

theorem dueEntries_only (h : OnlyPending s i) (ha : (sched s i).action ≠ 2) (hr : (sched s i).rt ≤ s.time.sup) :
    dueEntries s = [(i, sched s i)] := by
  rw [dueEntries, h.filter (by simp [h.pending, ha, hr]) (fun x hx => by simp [hx])]
  rfl

/-- Where no entry is pending, a change of pending entries changes nothing. -/
theorem map_notPending {tab : FMap SchedEntry} {f : Nat × SchedEntry → Nat × SchedEntry}
    (h : ∀ x ∈ tab, x.2.st ≠ 1) (hf : ∀ x, x.2.st ≠ 1 → f x = x) : tab.map f = tab := by
  conv_rhs => rw [← List.map_id tab]
  exact List.map_congr_left fun x hx => hf x (h x hx)

/-- The entry as it leaves the table at its tick. -/
def executed (s : State) (i : Nat) : SchedEntry :=
  { sched s i with st := 2, late := false, resultFree := decide (s.time.tq ≠ .locked) }

theorem dispatchOne_onTime {c : Nat} (hl : (sched s i).late = false) (hc : c ≤ (sched s i).rt) :
    dispatchOne c i s = { setSched i (executed s i) s with sched := { (setSched i (executed s i) s).sched with
      out := s.sched.out ++ (if (sched s i).action = 6 then [] else
        [{ idx := i, action := (sched s i).action, arg := (sched s i).arg, rt := (sched s i).rt }]) } } := by
  have hlate : ((sched s i).late || decide ((sched s i).rt < c)) = false := by simp [hl, hc]
  simp only [dispatchOne, hlate, Bool.false_eq_true, if_false]
  split
  · simp [executed, setSched]
  · rfl

/-- What a dispatch at its tick leaves of the entry `i` and the way to its block. -/
def dispatched (i : Nat) (s : State) : State :=
  { s with sched := { s.sched with
      tab := FMap.set {} s.sched.tab i (executed s i), usAt := s.time.clk / 100, usN := 16 - dispatchRoom s + 1,
      out := s.sched.out ++ (if (sched s i).action = 6 then [] else
        [{ idx := i, action := (sched s i).action, arg := (sched s i).arg, rt := (sched s i).rt }]) } }

theorem exec_schedDispatch_waits (h : OnlyPending s i) (ha : (sched s i).action ≠ 2)
    (hroom : dispatchRoom (atTick i s) ≠ 0) (hl : (sched s i).late = false) (hle : s.time.sup ≤ (sched s i).rt)
    (hreach : (sched s i).rt ≤ (atTick i s).time.sup) :
    exec .schedDispatch s = .next (dispatched i (atTick i s)) := by
  have hsched : (atTick i s).sched = s.sched := sched_waitCount _ _
  have hentry (j : Nat) : sched (atTick i s) j = sched s j := by simp only [sched, hsched]
  have honly : OnlyPending (atTick i s) i :=
    ⟨hsched ▸ h.ok, hentry i ▸ h.pending, fun j hj => hentry j ▸ h.others j hj⟩
  have hdue : (dueEntries (atTick i s)).take (dispatchRoom (atTick i s)) = [(i, sched (atTick i s) i)] := by
    rw [dueEntries_only honly (by rw [hentry]; exact ha) (by rw [hentry]; exact hreach)]
    exact List.take_of_length_le (Nat.one_le_iff_ne_zero.2 hroom)
  have hnone : ∀ x ∈ FMap.set {} (atTick i s).sched.tab i (executed (atTick i s) i), x.2.st ≠ 1 := fun x hx => by
    rw [← FMap.get_of_mem (FMap.ok_set i _ honly.ok) hx, FMap.get_set]
    split
    · exact (by decide : (2 : Nat) ≠ 1)
    · next hne => exact honly.others _ (Ne.symm hne)
  change execSchedDispatch s = _
  simp only [execSchedDispatch, nextRt_only h ha, ← atTick.eq_def, if_neg hroom, hdue, List.foldl_cons, List.foldl_nil,
    List.length_singleton, dispatchOne_onTime (hentry i ▸ hl) (hentry i ▸ hle)]
  simp only [setSched_sched, setSched_time]
  rw [map_notPending hnone]
  · rfl
  · exact fun x hx => if_neg fun hlate => hx hlate.1

theorem schedDispatch_dispatches (h : OnlyPending s i) (hadj : s.time.adjust = none) (hv : s.power.v52 = true)
    (ha : (sched s i).action ≠ 2) (hl : (sched s i).late = false) (hle : s.time.sup ≤ (sched s i).rt)
    (hroom : s.sched.usAt ≠ (s.time.clk + ((sched s i).rt - s.time.sup)) / 100 ∨ s.sched.usN < 16) :
    ∃ t, exec .schedDispatch s = .next t ∧ t.time.sup = (sched s i).rt ∧ (sched t i).st = 2 ∧
      (sched t i).resultFree = decide (s.time.tq ≠ .locked) ∧ (∀ j, j ≠ i → sched t j = sched s j) ∧
      t.sched.out = s.sched.out ++ (if (sched s i).action = 6 then [] else
        [{ idx := i, action := (sched s i).action, arg := (sched s i).arg, rt := (sched s i).rt }]) ∧
      Only [.time, .sched] s t := by
  have hsched : (atTick i s).sched = s.sched := sched_waitCount _ _
  have hentry (j : Nat) : sched (atTick i s) j = sched s j := by simp only [sched, hsched]
  have htick : (atTick i s).time = { s.time with
      clk := s.time.clk + ((sched s i).rt - s.time.sup), sup := (sched s i).rt,
      cntA := s.time.cntA + ((sched s i).rt - s.time.sup), cntB := s.time.cntB + ((sched s i).rt - s.time.sup) } := by
    rw [atTick, waitCount_plain _ hv hadj, modTime_time, Nat.add_sub_cancel' hle]
  have hfree : dispatchRoom (atTick i s) ≠ 0 := by
    rw [dispatchRoom, hsched, htick]
    split
    · next hus => have := hroom.resolve_left (fun hne => hne hus); omega
    · decide
  have hafter (j : Nat) : sched (dispatched i (atTick i s)) j = if i = j then executed (atTick i s) i else sched s j := by
    rw [← hentry j]
    exact FMap.get_set ..
  refine ⟨_, exec_schedDispatch_waits h ha hfree hl hle (by rw [htick]), congrArg Time.sup htick, ?_, ?_,
    fun j hj => ?_, ?_, .sub (.after (putSched_only _ _) (waitCount_only _ _)) rfl⟩
  · rw [hafter, if_pos rfl]
    rfl
  · rw [hafter, if_pos rfl, executed, htick]
  · rw [hafter, if_neg (Ne.symm hj)]
  · rw [dispatched, hsched, hentry]

end Dispatch

end Sys2Proof

namespace Sys2Proof
open Machine Claims

section Blocks

variable {s : State} {d : Dispatch}

/-! ## Power targets (R450) -/

/-- What the inputs of the cap and the brake read of the power block (R445, R446). -/
def capReadings (p : Power) : Nat × Bool × Nat × Nat × Nat × Bool × Option Nat × Bool × Option Nat :=
  (p.thermalW, p.lapsed, p.lapseW, p.mgmtCap, p.hostCap, p.uvBrake, p.countdown, p.trip, p.shutdown)

theorem effective_congr {t : State} (hpins : t.pins = s.pins) (hcrown : t.crown = s.crown)
    (hstart : t.start = s.start) (hident : t.ident = s.ident) (hp : capReadings t.power = capReadings s.power) :
    effective t = effective s := by
  have hset : setting t 0x0101 = setting s 0x0101 :=
    congrArg leNat (settingB_congr (congrArg Start.settings hstart) (congrArg Start.factory hstart) hident _)
  simp only [capReadings, Prod.mk.injEq] at hp
  obtain ⟨htherm, hlapsed, hlapse, hmgmt, hhost, huv, hcount, htrip, hshut⟩ := hp
  have hbrake : braked t = braked s := by simp only [braked, hpins, hcrown, huv, hcount, htrip, hshut]
  simp only [effective, capInputs, hbrake, hset, htherm, hlapsed, hlapse, hmgmt, hhost]

theorem capReadings_capUpdate (s : State) : capReadings (capUpdate s).power = capReadings s.power := by
  rw [capUpdate_power]
  split
  · rfl
  · rfl

/-- The effective cap is recorded as it is computed. -/
theorem capUpdate_lastEff (s : State) : (capUpdate s).power.lastEff = effective s := by
  rw [capUpdate_power]
  split
  · next h => exact h.1.symm
  · rfl

/-- The one dispatched target, for the host's cap, with no lowering in progress (R450). -/
theorem exec_powerTarget_host (ho : s.sched.out = [d]) (ha : d.action = 1) (hf : fld d.arg 18 16 = 2)
    (hl : s.power.lowering = none) :
    let u := modPower (fun p => { p with hostCap := fld d.arg 15 0 })
      { s with sched := { s.sched with out := [] } }
    exec .powerTarget s = .next (modPower (fun p => { p with lowering := none }) (capUpdate u)) := by
  have htargets : s.sched.out.filter (fun d => d.action = 1) = [d] := by simp [ho, ha]
  have hothers : s.sched.out.filter (fun d => d.action != 1) = [] := by simp [ho, ha]
  have happly (u : State) : applyTarget d.arg u = modPower (fun p => { p with hostCap := fld d.arg 15 0 }) u := by
    rw [applyTarget, if_neg (by simp [hf])]
  change execPowerTarget s = _
  simp only [execPowerTarget, htargets, hothers, if_neg (List.cons_ne_nil d []), List.foldl_cons, List.foldl_nil, happly,
    hl, Option.isSome_none, Bool.false_eq_true, if_false]

/-- A cap update at the end of a lowering: the caps stand, and what is recorded is the effective one. -/
theorem capUpdate_settles (u : State) :
    let t := modPower (fun p => { p with lowering := none }) (capUpdate u)
    t.sched = u.sched ∧ t.power.hostCap = u.power.hostCap ∧ t.power.mgmtCap = u.power.mgmtCap ∧
      t.power.lastEff = effective t := by
  have hread := capReadings_capUpdate u
  have hlast := capUpdate_lastEff u
  have hpins : (capUpdate u).pins = u.pins := capUpdate_only u .pins (by decide)
  have hcrown : (capUpdate u).crown = u.crown := capUpdate_only u .crown (by decide)
  have hstart : (capUpdate u).start = u.start := capUpdate_only u .start (by decide)
  have hident : (capUpdate u).ident = u.ident := capUpdate_only u .ident (by decide)
  have hsched : (capUpdate u).sched = u.sched := capUpdate_only u .sched (by decide)
  generalize capUpdate u = w at hread hlast hpins hcrown hstart hident hsched ⊢
  have heff : effective (modPower (fun p => { p with lowering := none }) w) = effective u :=
    effective_congr hpins hcrown hstart hident hread
  simp only [capReadings, Prod.mk.injEq] at hread
  obtain ⟨-, -, -, hmgmt, hhost, -⟩ := hread
  exact ⟨hsched, hhost, hmgmt, hlast.trans heff.symm⟩

theorem powerTarget_sets (ho : s.sched.out = [d]) (ha : d.action = 1) (hf : fld d.arg 18 16 = 2)
    (hl : s.power.lowering = none) :
    ∃ t, exec .powerTarget s = .next t ∧ t.sched.out = [] ∧ t.power.hostCap = fld d.arg 15 0 ∧
      t.power.mgmtCap = s.power.mgmtCap ∧ t.power.lastEff = effective t := by
  obtain ⟨hsched, hhost, hmgmt, heff⟩ := capUpdate_settles
    (modPower (fun p => { p with hostCap := fld d.arg 15 0 }) { s with sched := { s.sched with out := [] } })
  exact ⟨_, exec_powerTarget_host ho ha hf hl, congrArg Sched.out hsched, hhost, hmgmt, heff⟩

/-! ## Capture (R565) -/

/-- From `s` to `t` neither encoder's capture nor the size of its ring changes. -/
def EncodersKept (s t : State) : Prop := ∀ h, (tr t h).capture = (tr s h).capture ∧ (tr t h).ringMib = (tr s h).ringMib

theorem EncodersKept.refl (s : State) : EncodersKept s s := fun _ => ⟨rfl, rfl⟩

theorem EncodersKept.after {t u : State} (k : EncodersKept t u) (h : EncodersKept s t) : EncodersKept s u :=
  fun x => ⟨(k x).1.trans (h x).1, (k x).2.trans (h x).2⟩

theorem EncodersKept.ofOnly {ps : List Zone} {t : State} (h : Only ps s t) (ha : Zone.trA ∉ ps) (hb : Zone.trB ∉ ps) :
    EncodersKept s t := by
  have hA : t.trA = s.trA := h .trA ha
  have hB : t.trB = s.trB := h .trB hb
  intro x
  cases x with
  | a => exact ⟨congrArg Trace.capture hA, congrArg Trace.ringMib hA⟩
  | b => exact ⟨congrArg Trace.capture hB, congrArg Trace.ringMib hB⟩

theorem EncodersKept.fold {α : Type} {f : State → α → State} (k : ∀ s x, EncodersKept s (f s x)) (l : List α)
    (s : State) : EncodersKept s (l.foldl f s) := by
  induction l generalizing s with
  | nil => exact .refl s
  | cons x r ih => exact .after (ih (f s x)) (k s x)

theorem EncodersKept.branch {a b : State} {c : Prop} [Decidable c] (h : EncodersKept s a) (k : EncodersKept s b) :
    EncodersKept s (if c then a else b) := by
  split
  · exact h
  · exact k

/-- An update of one encoder's other fields. -/
theorem modTr_encodersKept (h : Half) {f : Trace → Trace} (s : State)
    (hf : ∀ t, (f t).capture = t.capture ∧ (f t).ringMib = t.ringMib) : EncodersKept s (modTr h f s) := by
  intro x
  cases h <;> cases x
  · exact hf _
  · exact ⟨rfl, rfl⟩
  · exact ⟨rfl, rfl⟩
  · exact hf _

theorem ringWrite_encodersKept (h : Half) (r : Nat) (s : State) : EncodersKept s (ringWrite h r s) :=
  .after (.ofOnly (count_only _ _ _ _) (by decide) (by decide)) (.after (modTr_encodersKept h _ fun _ => ⟨rfl, rfl⟩)
    (.ofOnly (putOwn_only _ _ _ _) (by decide) (by decide)))

theorem traceFlow_encodersKept (h : Half) (s : State) : EncodersKept s (traceFlow h s) :=
  .after (modTr_encodersKept h _ fun _ => ⟨rfl, rfl⟩) (.fold (fun _ _ => ringWrite_encodersKept _ _ _) _ _)

theorem putMark_encodersKept (h : Half) (stop : Bool) (s : State) : EncodersKept s (putMark h stop s) :=
  .after (traceFlow_encodersKept _ _) (modTr_encodersKept h _ fun _ => ⟨rfl, rfl⟩)

theorem tracePut_encodersKept (h : Half) (core r : Nat) (isSync : Bool) (s : State) :
    EncodersKept s (tracePut h core r isSync s) := by
  unfold tracePut
  dsimp only
  split
  · exact .after (.ofOnly (count_only _ _ _ _) (by decide) (by decide)) (modTr_encodersKept h _ fun _ => ⟨rfl, rfl⟩)
  · exact .after (traceFlow_encodersKept _ _) (modTr_encodersKept h _ fun _ => ⟨rfl, rfl⟩)

theorem putSyncFree_encodersKept (h : Half) (core : Nat) (s : State) : EncodersKept s (putSyncFree h core s) :=
  .after (tracePut_encodersKept _ _ _ _ _) (.ofOnly (takeFree_only _) (by decide) (by decide))

theorem crumb_encodersKept (h : Half) (pcs : List Nat) (s : State) : EncodersKept s (crumb h pcs s) := by
  exact .branch (.refl s) (.after (traceFlow_encodersKept _ _) (.after
    (.ofOnly (count_only _ _ _ _) (by decide) (by decide)) (modTr_encodersKept h _ fun _ => ⟨rfl, rfl⟩)))

theorem traceDrain_encodersKept (h : Half) (s : State) : EncodersKept s (traceDrain h s) :=
  .branch (traceFlow_encodersKept h s) (.after (traceFlow_encodersKept _ _) (.after
    (.ofOnly (waitHalf_only _ _ _) (by decide) (by decide)) (traceFlow_encodersKept h s)))

/-- An encoder with capture on and nothing recorded yet (R565). -/
def captureBegun (t : Trace) : Trace :=
  { t with capture := true, fifo := [], dropped := 0, lost := [false, false, false, false], bmap := [0, 0, 0, 0],
           bcnt := [0, 0, 0, 0], sinceSync := [0, 0, 0, 0] }

theorem startCapture_idle {h : Half} (hc : (tr s h).capture = false) (hr : (tr s h).ringMib ≠ 0) :
    EncodersKept (modTr h captureBegun s) (startCapture h s) := by
  unfold startCapture
  rw [if_neg (by simp [hc, hr])]
  exact .after (.branch (.refl _) (.fold (fun _ _ => putSyncFree_encodersKept _ _ _) _ _)) (putMark_encodersKept _ _ _)

/-- Capture starts on both halves. -/
theorem startCapture_both (hcA : s.trA.capture = false) (hrA : s.trA.ringMib ≠ 0) (hcB : s.trB.capture = false)
    (hrB : s.trB.ringMib ≠ 0) : (startCapture .b (startCapture .a s)).trA.capture = true ∧
      (startCapture .b (startCapture .a s)).trB.capture = true := by
  have hA := startCapture_idle (s := s) (h := .a) hcA hrA
  have hB := startCapture_idle (s := startCapture .a s) (h := .b) ((hA .b).1.trans hcB)
    (fun h0 => hrB ((hA .b).2.symm.trans h0))
  exact ⟨(hB .a).1.trans (hA .a).1, (hB .b).1⟩

theorem traceOpen_starts {t : State} (ht : takeDispatch 3 s = some (d, t)) :
    exec .traceOpen s = .next (startCapture .b (startCapture .a t)) := by
  change execTraceOpen s = _
  simp only [execTraceOpen, ht]

theorem stopCapture_stops (h : Half) (s : State) : (tr (stopCapture h s) h).capture = false ∧
    (tr (stopCapture h s) h.other).capture = (tr s h.other).capture := by
  unfold stopCapture
  split
  · next hc => exact ⟨by simpa using hc, rfl⟩
  · have hkept (pcs : List Nat) : EncodersKept s (traceDrain h (putMark h true
        (if (tr (traceDrain h s) h).lost.any id then crumb h pcs (takeFree (traceDrain h s)) else traceDrain h s))) :=
      .after (traceDrain_encodersKept _ _) (.after (putMark_encodersKept _ _ _) (.after (.branch
        (.after (crumb_encodersKept _ _ _) (.ofOnly (takeFree_only _) (by decide) (by decide))) (.refl _))
        (traceDrain_encodersKept _ _)))
    dsimp only
    rw [tr_modTr_self, tr_modTr_other]
    exact ⟨rfl, (hkept _ _).1⟩

theorem stopTrace_stops (s : State) : (stopTrace s).trA.capture = false ∧ (stopTrace s).trB.capture = false := by
  have hA := stopCapture_stops .a s
  have hB := stopCapture_stops .b (stopCapture .a s)
  unfold stopTrace
  dsimp only
  split
  · exact ⟨hB.2.trans hA.1, hB.1⟩
  · exact ⟨hB.2.trans hA.1, hB.1⟩

theorem traceClose_stops {t : State} (ht : takeDispatch 4 s = some (d, t)) :
    exec .traceClose s = .next (stopTrace t) := by
  change execTraceClose s = _
  simp only [execTraceClose, ht]

theorem hostEvent_raises {t : State} (ht : takeDispatch 7 s = some (d, t)) :
    exec .hostEvent s = .next (msix t.crown.holder (fld d.arg 7 0) t) := by
  change execHostEvent s = _
  simp only [execHostEvent, ht]

/-! ## Taps (R577) -/

/-- A tile's tap of a symbol, armed for its next `n` points with its count at 0. -/
def armTap (sym n : Nat) (x : Tile) : Tile :=
  { x with tapArm := FMap.set none x.tapArm sym (some n), tapCnt := FMap.set 0 x.tapCnt sym 0 }

/-- The tap of the symbol is armed at tile `i`. -/
def TapArmed (sym n i : Nat) (s : State) : Prop :=
  FMap.get none (tile s i).tapArm sym = some n ∧ FMap.get 0 (tile s i).tapCnt sym = 0

/-- A cluster's tiles armed, one by one; an absent position has none. -/
def armCluster (sym n : Nat) (s : State) (c : Nat) : State :=
  (List.range 64).foldl (fun s k => if absentPos s c k then s else modTile (64 * c + k) (armTap sym n) s) s

theorem tapArmed_modTile {sym n : Nat} (i j : Nat) (s : State) (h : i = j ∨ TapArmed sym n j s) :
    TapArmed sym n j (modTile i (armTap sym n) s) := by
  unfold TapArmed
  rw [tile_modTile]
  split
  · exact ⟨FMap.get_set_self none (tile s i).tapArm sym (some n), FMap.get_set_self 0 (tile s i).tapCnt sym 0⟩
  · next hne => exact h.resolve_left hne

theorem exec_tapEnable_arms {t : State} {x : Tap} {p : Machine.Part} (ht : takeDispatch 5 s = some (d, t))
    (hx : tapAt t (fld d.arg 75 72) = some x) (hp : part? t (fld d.arg 71 64) = some p)
    (hpart : x.part = fld d.arg 71 64) (hsym : x.sym = fld d.arg 31 0) (hg : x.gone = false) (hk : x.taken = false) :
    exec .tapEnable s = .next (p.clusters.foldl (armCluster (fld d.arg 31 0) (fld d.arg 63 32)) t) := by
  change execTapEnable s = _
  simp only [execTapEnable, ht, hx, hp, hpart, hsym, hg, hk, ne_eq, not_true_eq_false, Bool.false_eq_true, or_self,
    if_false]
  rfl

/-- A fold keeps what each of its steps keeps. -/
theorem Machine.foldl_keeps {α : Type} {P : State → Prop} {f : State → α → State} (k : ∀ s x, P s → P (f s x))
    (l : List α) (s : State) (h : P s) : P (l.foldl f s) := by
  induction l generalizing s with
  | nil => exact h
  | cons x r ih => exact ih (f s x) (k s x h)

/-- A fold reaches what one of its steps brings about and each keeps. -/
theorem Machine.foldl_reaches {α : Type} {P Q : State → Prop} {f : State → α → State} {x : α}
    (kQ : ∀ s y, Q s → Q (f s y)) (kP : ∀ s y, P s → P (f s y)) (hx : ∀ s, Q s → P (f s x)) (l : List α) (s : State)
    (hl : x ∈ l) (hq : Q s) : P (l.foldl f s) := by
  induction l generalizing s with
  | nil => cases hl
  | cons y r ih =>
    rcases List.mem_cons.1 hl with rfl | hr
    · exact foldl_keeps kP r _ (hx s hq)
    · exact ih (f s y) hr (kQ s y hq)

section Arm

variable {sym n : Nat}

theorem armCluster_only (sym n : Nat) (s : State) (c : Nat) : Only [.tiles] s (armCluster sym n s c) :=
  .sub (.fold (fun _ _ => .unless (modTile_only _ _ _)) (.none _)) rfl

theorem armCluster_keeps (j c : Nat) (s : State) (h : TapArmed sym n j s) : TapArmed sym n j (armCluster sym n s c) := by
  refine foldl_keeps (fun u k hu => ?_) _ s h
  split
  · exact hu
  · exact tapArmed_modTile _ _ _ (.inr hu)

/-- Which positions are absent, the clusters say. -/
theorem Only.absentPos_eq {t : State} (h : Only [.tiles] s t) (c k : Nat) : absentPos t c k = absentPos s c k := by
  have hclusters : t.comp.clusters = s.comp.clusters := h .clusters (by decide)
  have hcluster : cluster t c = cluster s c := by simp only [cluster, hclusters]
  rw [absentPos, absentPos, hcluster]

theorem armCluster_arms {c k : Nat} (hk : k < 64) (ha : absentPos s c k = false) :
    TapArmed sym n (64 * c + k) (armCluster sym n s c) := by
  have hstep (u : State) (m : Nat) : Only [.tiles] u
      (if absentPos u c m then u else modTile (64 * c + m) (armTap sym n) u) := .unless (modTile_only _ _ _)
  refine foldl_reaches (Q := fun u => absentPos u c k = false) (x := k) (fun u m hu => ?_) (fun u m hu => ?_)
    (fun u hu => ?_) _ s (List.mem_range.2 hk) ha
  · rw [(hstep u m).absentPos_eq]
    exact hu
  · split
    · exact hu
    · exact tapArmed_modTile _ _ _ (.inr hu)
  · rw [if_neg (by simp [hu])]
    exact tapArmed_modTile _ _ _ (.inl rfl)

theorem armClusters_arms {l : List Nat} {c k : Nat} (hc : c ∈ l) (hk : k < 64) (ha : absentPos s c k = false) :
    TapArmed sym n (64 * c + k) (l.foldl (armCluster sym n) s) :=
  foldl_reaches (Q := fun u => absentPos u c k = false)
    (fun u b hu => ((armCluster_only sym n u b).absentPos_eq c k).trans hu) (fun u b hu => armCluster_keeps _ b u hu)
    (fun _ hu => armCluster_arms hk hu) l s hc ha

end Arm

end Blocks

/-- Settles O34: the only pending entry is dispatched at its tick, and each block acts on the entry it takes. -/
theorem entriesAreDispatchedAndAct : Obligations.EntriesAreDispatchedAndAct := by
  refine ⟨fun s i hok hadj hv hst ha hl ho hle hroom =>
    schedDispatch_dispatches ⟨hok, hst, ho⟩ hadj hv ha hl hle hroom, fun s d => ⟨fun ho ha hf hl =>
    powerTarget_sets ho ha hf hl, fun ht hcA hrA hcB hrB => ?_, fun ht => ?_, fun x p ht hx hp hpart hsym hg hk => ?_,
    fun ht => hostEvent_raises ht⟩⟩
  · obtain ⟨hA, hB⟩ := startCapture_both (s := { s with sched := { s.sched with out := [] } }) hcA hrA hcB hrB
    have honly := (startCapture_only .b _).after (startCapture_only .a { s with sched := { s.sched with out := [] } })
    exact ⟨_, traceOpen_starts ht, hA, hB, congrArg Sched.out (honly .sched (by decide))⟩
  · obtain ⟨hA, hB⟩ := stopTrace_stops { s with sched := { s.sched with out := [] } }
    exact ⟨_, traceClose_stops ht, hA, hB, congrArg Sched.out (stopTrace_only _ .sched (by decide))⟩
  · exact ⟨_, exec_tapEnable_arms ht hx hp hpart hsym hg hk, .sub (.fold (armCluster_only _ _) (putSched_only _ _)) rfl,
      fun c hc k hk' ha => armClusters_arms hc hk' ha⟩

end Sys2Proof

namespace Sys2Proof
open Machine Claims

section Notices

variable {s : State}

/-! ## What one received flit leaves unchanged (R331) -/

/-- A port that one flit of channel 6 has reached and left. -/
def heardOne (x : Port) : Port :=
  { x with rxFlits := modNth x.rxFlits 6 (fun c => (c + 1) % 65536),
           freed := modNth x.freed 6 (fun c => (c + 1) % 65536) }

theorem port_count (b i n : Nat) (s : State) (q : Nat) : port (count b i n s) q = port s q := rfl

theorem port_rxOne (p : Nat) (s : State) (q : Nat) :
    port (rxOne p s) q = if p = q then heardOne (port s p) else port s q := by
  unfold rxOne rxCount
  simp only [port_modPort, port_count, if_true]
  split
  · rfl
  · rfl

theorem peerOk_congr {t : State} {p : Nat} (hr : (port t p).role = (port s p).role) (hi : t.ident = s.ident)
    (sw : Bool) (mid : Nat) : peerOk t p sw mid = peerOk s p sw mid := by
  simp only [peerOk, hr, hi]

theorem rtDisagrees_congr {t : State} {p : Nat} (hd : (port t p).linkDelay = (port s p).linkDelay)
    (ht : t.time = s.time) (hi : t.ident = s.ident) (b : Beacon) : rtDisagrees t p b = rtDisagrees s p b := by
  have hc : cnt t (portHalf p) = cnt s (portHalf p) := by simp only [cnt, ht]
  simp only [rtDisagrees, hc, hd, hi]

/-! ## Beacons (R59, R366) -/

/-- The port's beacon taken in. -/
def beaconTaken (p : Nat) (s : State) : State := rxOne p (modPort p (fun x => { x with beaconIn := true }) s)

theorem port_beaconTaken (p : Nat) (s : State) :
    port (beaconTaken p s) p = heardOne { port s p with beaconIn := true } := by
  rw [beaconTaken, port_rxOne, if_pos rfl, port_modPort, if_pos rfl]

theorem beaconTaken_only (p : Nat) (s : State) : Only [.ctr, .fab] s (beaconTaken p s) :=
  .sub (.after (rxOne_only _ _) (modPort_only _ _ _)) rfl

/-- A BL1 beacon carries no digest to compare. -/
theorem beaconDigest_bl1 (p : Nat) {b : Beacon} (hb : b.proto = 1) (s : State) :
    beaconDigest p b s = modPort p (fun x => { x with digUnchecked := true, digMismatch := false }) s :=
  if_pos (.inl hb)

theorem exec_beaconArrive_bl1 {p : Fin 64} {b : Beacon} (hst : [4, 5, 8].contains (port s p).st = true)
    (hpeer : peerOk s p b.isSwitch (b.srcMid % 4096) = true) (hb : b.proto = 1) :
    exec (.beaconArrive p b) s = .next (modPort p (fun x => { x with digUnchecked := true, digMismatch := false })
      (if b.tq = 0 ∧ rtDisagrees s p b then count (0x80 + p.val) 39 1 (rtFlag 7 (beaconTaken p s))
        else beaconTaken p s)) := by
  have honly := beaconTaken_only p s
  have htaken : peerOk (beaconTaken p s) p b.isSwitch (b.srcMid % 4096) = true :=
    (peerOk_congr (by rw [port_beaconTaken]; rfl) (honly .ident (by decide)) _ _).trans hpeer
  have hdis : rtDisagrees (beaconTaken p s) p b = rtDisagrees s p b :=
    rtDisagrees_congr (by rw [port_beaconTaken]; rfl) (honly .time (by decide)) (honly .ident (by decide)) b
  change execBeaconArrive p b s = _
  simp only [execBeaconArrive, hst, Bool.not_true, Bool.false_eq_true, if_false, beaconDigest_bl1 p.val hb]
  rw [← beaconTaken, if_pos htaken, hdis]

theorem beaconArrive_bl1 {p : Fin 64} {b : Beacon} (hst : [4, 5, 8].contains (port s p).st = true)
    (hpeer : peerOk s p b.isSwitch (b.srcMid % 4096) = true) (hb : b.proto = 1) :
    ∃ t, exec (.beaconArrive p b) s = .next t ∧ (port t p).beaconIn = true ∧ (port t p).digUnchecked = true ∧
      (port t p).st = (port s p).st ∧ (b.tq = 0 → rtDisagrees s p b = true → t.time.w1c.getLsbD 7) := by
  have hport (u : State) (c : Prop) [Decidable c] : port (if c then count (0x80 + p.val) 39 1 (rtFlag 7 u) else u) p
      = port u p := by
    split
    · rfl
    · rfl
  refine ⟨_, exec_beaconArrive_bl1 hst hpeer hb, ?_⟩
  rw [port_modPort, if_pos rfl, hport, port_beaconTaken]
  refine ⟨rfl, rfl, rfl, fun htq hdis => ?_⟩
  rw [if_pos ⟨htq, hdis⟩]
  exact getLsbD_rtFlag _ (by decide)

/-! ## Notices arm their comparator (R376) -/

theorem armNotice_arms {p kind : Nat} {k : Pkt} (hst : [4, 5, 8].contains (port s p).st = true)
    (hop : k.opcode = 0x0B) (htick : cnt s (portHalf p) < k.destMask) (hkind : k.opArg % 4 = kind) :
    { tick := k.destMask, kind := kind, port := if kind = 1 then p else 0, peer := k.srcMid } ∈
      (armNotice p kind k s).fab.comps := by
  have htime : (rxOne p s).time = s.time := rxOne_only p s .time (by decide)
  have hlater : ¬ k.destMask ≤ cnt (rxOne p s) (portHalf p) := by
    rw [show cnt (rxOne p s) (portHalf p) = cnt s (portHalf p) by simp only [cnt, htime]]
    exact Nat.not_le.2 htick
  unfold armNotice
  rw [if_neg (by simp only [hst, hkind, hop, ne_eq, not_true_eq_false, Bool.not_true, Bool.false_eq_true, or_self,
    not_false_eq_true])]
  dsimp only
  rw [if_neg hlater]
  exact List.mem_append_right _ (List.mem_singleton.2 rfl)

theorem armNotice_fab_ctr (p kind : Nat) (k : Pkt) (s : State) : Only [.fab, .ctr] s (armNotice p kind k s) :=
  .sub (armNotice_only p kind k s) rfl

/-! ## A comparator's tick (R376) -/

/-- What a comparator of another module does at its tick (R376, R345). -/
def comparatorActs (c : Comparator) (u : State) : State :=
  match c.kind with
  | 0 => (portsTo u c.peer).foldl (fun s p => withdrawPort p s) u
  | 1 => disablePort c.port u
  | 2 => (portsTo u c.peer).foldl (fun s p => joinPort p s) u
  | _ => trainByCtl (decide (c.cause = 1)) c.port u

section Acts

variable {c : Comparator} {u : State}

theorem comparatorActs_withdrawModule (hk : c.kind = 0) :
    comparatorActs c u = (portsTo u c.peer).foldl (fun s p => withdrawPort p s) u := by
  simp only [comparatorActs, hk]

theorem comparatorActs_withdrawPort (hk : c.kind = 1) : comparatorActs c u = disablePort c.port u := by
  simp only [comparatorActs, hk]

theorem comparatorActs_join (hk : c.kind = 2) :
    comparatorActs c u = (portsTo u c.peer).foldl (fun s p => joinPort p s) u := by
  simp only [comparatorActs, hk]

theorem comparatorActs_train (hk : c.kind = 3) :
    comparatorActs c u = trainByCtl (decide (c.cause = 1)) c.port u := by
  simp only [comparatorActs, hk]

end Acts

theorem exec_transitComparatorTick_first {c : Comparator} {r : List Comparator} (flash : Retry)
    (hc : s.fab.comps = c :: r) (hown : c.own = false) :
    exec (.transitComparatorTick 0 flash) s = .next (comparatorActs c
      (swapDue c.tick flash (modFab (fun f => { f with comps := r }) (waitCount c.tick s)))) := by
  have hfab : (waitCount c.tick s).fab = s.fab := waitCount_only c.tick s .fab (by decide)
  have hcomps : modFab (fun f => { f with comps := f.comps.erase c }) (waitCount c.tick s)
      = modFab (fun f => { f with comps := r }) (waitCount c.tick s) :=
    modFab_congr (by rw [hfab, hc, List.erase_cons_head])
  have hfirst : s.fab.comps[0]? = some c := by rw [hc]; rfl
  change execTransitComparatorTick 0 s flash = _
  simp only [execTransitComparatorTick, hfirst, hown, Bool.false_eq_true, if_false, hcomps]
  rfl

/-! ## The join notice (R376) -/

theorem noteSent_joined (p : Nat) (inj : Bool) (k : Pkt) (s : State) :
    (noteSent p inj k s).fab.joined = s.fab.joined := by
  unfold noteSent
  split
  · rfl
  · rfl

theorem leave_joined (p inp : Nat) (k : Pkt) (s : State) : (leave p inp k s).fab.joined = s.fab.joined := by
  have hfree (u : State) : (freeIn inp k u).fab.joined = u.fab.joined := by
    unfold freeIn freeBuf
    split
    · rfl
    · split
      · rfl
      · rfl
  have hdisarm (c : Prop) [Decidable c] (u : State) : (if c then disarm (0x80 + p) u else u).fab = u.fab := by
    split
    · rfl
    · rfl
  unfold leave
  dsimp only
  split
  · rw [noteSent_joined, hdisarm]
    exact hfree _
  · refine (noteSent_joined _ _ _ _).trans ?_
    rw [hdisarm]
    exact hfree _

theorem setQueue_joined (p : Nat) (q : List (Nat × Pkt)) (s : State) :
    (setQueue p q s).fab.joined = s.fab.joined := by
  unfold setQueue
  refine foldl_keeps (P := fun u => u.fab.joined = s.fab.joined) (fun u v h => ?_) _ _ (by rw [modPort_fab])
  simpa only [setCtr_fab] using h

theorem sendOn_joined (p : Nat) (k : Pkt) (s : State) : (sendOn p k s).fab.joined = s.fab.joined := by
  unfold sendOn putOut
  dsimp only
  split
  · exact leave_joined p 64 k s
  · exact (noteSent_joined _ _ _ _).trans (setQueue_joined _ _ _)

theorem noticeAll_joined (kind tick : Nat) (sts : List Nat) (s : State) :
    (noticeAll kind tick sts s).fab.joined = s.fab.joined :=
  foldl_keeps (P := fun u => u.fab.joined = s.fab.joined) (fun _ _ h => (sendOn_joined _ _ _).trans h) _ _ rfl

theorem exec_joinNoticeSend_once (hj : s.fab.joined = false) (hq : s.time.tq = .locked) (hr : s.power.rails = true)
    (hv : s.ident.variant ≠ .s) (hports : ∀ q < 64, (port s q).role = 0 ∨ [4, 7, 8].contains (port s q).st = true) :
    exec .joinNoticeSend s =
      .next (noticeAll 2 (s.time.sup + 100000) [4] (modFab (fun f => { f with joined := true }) s)) := by
  have hall : (List.range 64).all (fun p => (port s p).role = 0 || [4, 7, 8].contains (port s p).st) = true := by
    simpa only [List.all_eq_true, List.mem_range, Bool.or_eq_true, decide_eq_true_eq] using hports
  change execJoinNoticeSend s = _
  simp only [execJoinNoticeSend, hj, hq, hr, hv, hall, ne_eq, not_true_eq_false, Bool.not_true, Bool.false_eq_true,
    or_self, if_false]

theorem joinNoticeSend_joins (hj : s.fab.joined = false) (hq : s.time.tq = .locked) (hr : s.power.rails = true)
    (hv : s.ident.variant ≠ .s) (hports : ∀ q < 64, (port s q).role = 0 ∨ [4, 7, 8].contains (port s q).st = true) :
    ∃ t, exec .joinNoticeSend s = .next t ∧ t.fab.joined = true ∧ Only [.fab, .ctr, .win] s t :=
  ⟨_, exec_joinNoticeSend_once hj hq hr hv hports, noticeAll_joined _ _ _ _,
    .sub (.after (noticeAll_only _ _ _ _) (modFab_only _ _)) rfl⟩

/-! ## The route table's swap (R345) -/

theorem recordSettings_shadow (r : Retry) (l : List (Nat × List Byte)) (s : State) :
    (recordSettings r l s).2.fab.shadow = s.fab.shadow := by
  have hwrite : (writeSettings r (layRecords l s.start.settings) s).2.fab = s.fab :=
    writeSettings_only r _ s .fab (by decide)
  unfold recordSettings
  dsimp only
  split
  · rw [hwrite]
  · rw [modFab_fab, hwrite]

theorem routeTableSwap_swaps {t : Nat} {tab : RouteTab} {u : State} (hsh : s.fab.shadow = some (t, tab))
    (hrec : recordSettings .clean [(0x0001, tab.raw)] (modFab (fun f => { f with shadow := none }) (waitCount t s))
      = (true, u)) :
    exec (.routeTableSwap .clean) s =
      .next (event 0xB 0 0 0 (event 0xA 0 0 0 (modFab (fun f => { f with tab := tab, pathBad := [] }) u))) := by
  have hfab : (waitCount t s).fab.shadow = some (t, tab) :=
    (congrArg Fab.shadow (waitCount_only t s .fab (by decide))).trans hsh
  change execRouteTableSwap .clean s = _
  simp only [execRouteTableSwap, hsh, swapTable, hfab, hrec]

/-! ## Aborts from another module (R523, R524) -/

/-- An abort from another module, taken in for the first time. -/
def abortTaken (p : Nat) (k : Pkt) (s : State) : State :=
  modFab (fun f => { f with abortSeen := [(k.srcMid, fld k.opArg 15 0, s.time.clk)] }) (rxOne p s)

theorem portsIn_count (b i n : Nat) (s : State) (sts : List Nat) : portsIn (count b i n s) sts = portsIn s sts := rfl

/-- An abort counted, and sent on by each working port but its own (R523). -/
def abortForwarded (p : Nat) (k : Pkt) (u : State) : State :=
  ((portsIn u [4, 5]).filter (· != p)).foldl (fun s q => sendOn q { k with hops := k.hops + 1 } s)
    (count (0xA + (portHalf p).num) 33 1 u)

theorem rxOne_abortSeen (p : Nat) (s : State) : (rxOne p s).fab.abortSeen = s.fab.abortSeen := by
  simp only [rxOne, rxCount, count, modPort_fab, setCtr_fab]

/-- The partitions that an abort fences (R524). -/
def abortHits (k : Pkt) (s : State) : List Nat :=
  (List.range 36).filter (fun j => match part? s j with
    | some y => (partGroups s j).any (fun g => (abortGroups k).contains g) && !later48 y.lastTick (k.targetVa % 2 ^ 48) &&
        y.fence.isNone
    | none => false)

theorem abortHits_congr {t : State} (hw : t.work = s.work) (he : t.eng = s.eng) (k : Pkt) :
    abortHits k t = abortHits k s := by
  simp only [abortHits, part?, partGroups, hw, he]

theorem abortTaken_only (p : Nat) (k : Pkt) (s : State) : Only [.ctr, .fab] s (abortTaken p k s) :=
  .sub (.after (modFab_only _ _) (rxOne_only _ _)) rfl

theorem abortForwarded_only (p : Nat) (k : Pkt) (u : State) : Only [.win, .ctr, .fab] u (abortForwarded p k u) :=
  .sub (.fold (fun _ _ => sendOn_only _ _ _) (count_only _ _ _ _)) rfl

theorem abortHits_forwarded (p : Nat) (k : Pkt) (s : State) :
    abortHits k (abortForwarded p k (abortTaken p k s)) = abortHits k s := by
  have honly := (abortForwarded_only p k (abortTaken p k s)).after (abortTaken_only p k s)
  have hwork : (abortForwarded p k (abortTaken p k s)).work = s.work := honly .work (by decide)
  have heng : (abortForwarded p k (abortTaken p k s)).eng = s.eng := honly .eng (by decide)
  exact abortHits_congr hwork heng k

theorem exec_abortPacketArrive_first {p : Fin 64} {k : Pkt} (hst : (port s p).st = 4) (hop : k.opcode = 0x0A)
    (hhops : k.hops < 64) (hseen : s.fab.abortSeen = []) (htq : s.time.tq ≠ .locked) :
    exec (.abortPacketArrive p k) s = .next ((abortHits k s).foldl
      (fun s i => event (0xA + (portHalf p).num) 7 0 0 (fencePart 1 4 0 true i s))
      (abortForwarded p k (abortTaken p k s))) := by
  have htime : (rxOne p s).time = s.time := rxOne_only p s .time (by decide)
  have hnone : (rxOne p s).fab.abortSeen = [] := (rxOne_abortSeen p s).trans hseen
  have hunlocked : (abortTaken p k s).time.tq ≠ .locked := by
    rw [show (abortTaken p k s).time = s.time from abortTaken_only p k s .time (by decide)]
    exact htq
  have htaken : modFab (fun f => { f with
      abortSeen := ((k.srcMid, fld k.opArg 15 0, (rxOne p s).time.clk) :: f.abortSeen).take 1024 }) (rxOne p s)
      = abortTaken p k s := modFab_congr (by rw [hnone, htime]; rfl)
  have hfirst : ¬ (64 ≤ k.hops ∨ (rxOne p s).fab.abortSeen.any (fun x => x.1 = k.srcMid &&
      x.2.1 = fld k.opArg 15 0 && decide ((rxOne p s).time.clk < x.2.2 + 1000000)) = true) := by
    rw [hnone]
    simpa using hhops
  change execAbortPacketArrive p k s = _
  unfold execAbortPacketArrive
  dsimp only
  rw [if_neg (by simp [hst, hop]), if_neg hfirst, htaken, if_neg (fun h => hunlocked h.1)]
  rw [portsIn_count, ← abortForwarded, ← abortHits_forwarded p k s]
  generalize abortForwarded p k (abortTaken p k s) = v
  rfl

end Notices

/-- Settles O47: a BL1 beacon is noted, a notice arms its comparator, whose tick acts, the join notice goes out once,
the shadow table comes into force, and the first copy of an abort goes on and fences its partition. -/
theorem beaconsTablesAndAborts : Obligations.BeaconsTablesAndAborts := by
  refine ⟨fun s p => ⟨fun b hst hpeer hb => beaconArrive_bl1 hst hpeer hb, fun k hst hop htick => ⟨fun hk => ?_,
    fun hk => ?_, fun hk => ?_⟩, fun c r flash hc hown => ?_, fun hj hq hr hv hports =>
    joinNoticeSend_joins hj hq hr hv hports⟩, fun s => ⟨fun t tab u hsh hrec => ?_,
    fun p k i x hst hop hhops hseen htq _ hhits => ?_⟩⟩
  · exact ⟨_, rfl, armNotice_arms hst hop htick hk, armNotice_fab_ctr p 0 k s⟩
  · exact ⟨_, rfl, armNotice_arms hst hop htick hk, armNotice_fab_ctr p 1 k s⟩
  · exact ⟨_, rfl, armNotice_arms hst hop htick hk, armNotice_fab_ctr p 2 k s⟩
  · have htick := exec_transitComparatorTick_first flash hc hown
    refine ⟨fun hk => ?_, fun hk => ?_, fun hk => ?_, fun hk => ?_⟩
    · rw [htick, comparatorActs_withdrawModule hk]
    · rw [htick, comparatorActs_withdrawPort hk]
    · rw [htick, comparatorActs_join hk]
    · rw [htick, comparatorActs_train hk]
  · have hshadow : u.fab.shadow = none := by
      have hkept := recordSettings_shadow .clean [(0x0001, tab.raw)]
        (modFab (fun f => { f with shadow := none }) (waitCount t s))
      rw [hrec] at hkept
      exact hkept
    have hfab (v : State) : (event 0xB 0 0 0 (event 0xA 0 0 0 v)).fab = v.fab :=
      (event_only 0xB 0 0 0 _ .fab (by decide)).trans (event_only 0xA 0 0 0 v .fab (by decide))
    refine ⟨_, routeTableSwap_swaps hsh hrec, ?_, ?_, ?_, event_keeps _ _ _ _ (event_sets _ _ _ (by decide)),
      event_sets _ _ _ (by decide)⟩
    · rw [hfab]
      rfl
    · rw [hfab]
      exact hshadow
    · rw [hfab]
      rfl
  · have hhit : abortHits k s = [i] := hhits
    have hexec := exec_abortPacketArrive_first hst hop hhops hseen htq
    rw [hhit, List.foldl_cons, List.foldl_nil] at hexec
    exact hexec

end Sys2Proof

namespace Sys2Proof
open Machine Claims

/-! # Tiles: the shared rules of their descriptors

A tile is 64 times its cluster plus its position (`pos`). The skeletons `runUnit` and `runSeq` are taken once each: a
descriptor that may start, passes its checks and whose local reads are clean has its effect and is executed. -/

section TileRules

variable {s : State} {t : Nat} {d : Desc}

/-- The tile that the rows number, by its name. -/
theorem pos_eq (c : Fin 36) (n : Fin 64) : 64 * c.val + n.val = pos c n := rfl

theorem pos_div (c : Fin 36) (n : Fin 64) : pos c n / 64 = c.val := by
  unfold pos
  omega

theorem pos_mod (c : Fin 36) (n : Fin 64) : pos c n % 64 = n.val := by
  unfold pos
  omega

/-! ## Queues and checks -/

@[simp] theorem queue_putQueue (q : UnitQ) (l : List Desc) (x : Tile) : queue (putQueue q l x) q = l := by
  cases q <;> rfl

theorem modHead_cons {q : UnitQ} {x : Tile} {r : List Desc} (f : Desc → Desc) (h : queue x q = d :: r) :
    modHead q f x = putQueue q (f d :: r) x := by
  simp only [modHead, h]

theorem firstFault_eq_none {l : List (Option TFault)} : firstFault l = none ↔ ∀ x ∈ l, x = none :=
  List.findSome?_eq_none_iff

@[simp] theorem bad_eq_none {code : Nat} {p : Bool} : bad code p = none ↔ p = false := by
  cases p <;> simp [bad]

/-! ## What a tile reads of the rest of the state -/

/-- Which positions are absent and who holds a cluster, the clusters say. -/
theorem cluster_congr {u : State} (h : u.comp.clusters = s.comp.clusters) (c : Nat) : cluster u c = cluster s c := by
  simp only [cluster, h]

theorem tile_congr {u : State} (h : u.comp.tiles = s.comp.tiles) (i : Nat) : tile u i = tile s i := by
  simp only [tile, h]

theorem part_congr {u : State} (h : u.work.parts = s.work.parts) (i : Nat) : part? u i = part? s i := by
  simp only [part?, h]

theorem clCtx_congr {u : State} (hc : u.comp.clusters = s.comp.clusters) (hp : u.work.parts = s.work.parts) (c : Nat) :
    clCtx u c = clCtx s c := by
  simp only [clCtx, cluster_congr hc, part_congr hp]

theorem sigFault_congr {u : State} (hc : u.comp.clusters = s.comp.clusters) (hp : u.work.parts = s.work.parts)
    (t d : Nat) : sigFault u t d = sigFault s t d := by
  simp only [sigFault, targetOk, absentPos, cluster_congr hc, clCtx_congr hc hp, part_congr hp]

theorem tileRuns_congr {u : State} (ht : (tile u t).phase = (tile s t).phase) (hc : u.comp.clusters = s.comp.clusters)
    (hp : u.work.parts = s.work.parts) (hk : u.time = s.time) : tileRuns u t = tileRuns s t := by
  simp only [tileRuns, ht, cluster_congr hc, part_congr hp, hk]

theorem parts_modLaunch (c id : Nat) (f : Launch → Launch) (s : State) :
    (modLaunch c id f s).work.parts = s.work.parts := by
  unfold modLaunch modCtx
  split
  · rfl
  · rfl

theorem parts_progress (c : Nat) (s : State) : (progress c s).work.parts = s.work.parts := by
  unfold progress
  split
  · rfl
  · split
    · split
      · exact parts_modLaunch _ _ _ _
      · rfl
    · rfl

/-! ## Clean local reads (R83) -/

theorem injMode_unarmed {blk : Nat} (chk : Nat) (hit : Nat → Bool) (h : (win s blk).armed = false) :
    injMode s blk chk hit = none := by
  simp [injMode, h]

/-- Without an injection and without an error, every area read answers clean. -/
theorem readResult_clean (l : List (Nat × Nat)) (h : (win s (clBlk (t / 64))).armed = false) :
    ∀ x ∈ readResult s t l {}, x.2 = (.clean, false) := by
  have hinj : localInjection s t l = none := by simp [localInjection, injMode_unarmed _ _ h]
  intro x hx
  obtain ⟨k, -, hk⟩ := List.mem_filterMap.1 hx
  rw [hinj] at hk
  split at hk
  · cases hk
  · cases k <;> cases hk <;> rfl

theorem localReads_clean (desc : Nat) (l : List (Nat × Nat)) (h : (win s (clBlk (t / 64))).armed = false) :
    localReads t desc l {} s = (true, s) := by
  have hclean := readResult_clean l h
  have hfold (rs : List (Area × StoreRead × Bool)) (hrs : ∀ x ∈ rs, x.2 = (.clean, false)) :
      rs.foldl (fun s x => countRead (t / 64) x.1 x.2.1 (x.2.2 && x.2.1 != .lasting) s) s = s := by
    induction rs with
    | nil => rfl
    | cons x r ih =>
      rw [List.foldl_cons, hrs x List.mem_cons_self]
      exact ih fun y hy => hrs y (List.mem_cons_of_mem x hy)
  have hfind : (readResult s t l {}).find? (fun x => x.2.1 = .lasting) = none :=
    List.find?_eq_none.2 fun x hx => by simp [hclean x hx]
  simp only [localReads, hfold _ hclean, hfind]

/-- The same of a tile whose cluster has no injection armed. -/
theorem localReads_unarmed {c : Fin 36} {n : Fin 64} (desc : Nat) (l : List (Nat × Nat))
    (h : (win s (clBlk c)).armed = false) : localReads (pos c n) desc l {} s = (true, s) :=
  localReads_clean desc l (by rw [pos_div]; exact h)

theorem localReads_nil (desc : Nat) (ts : StoreReads) : localReads t desc [] ts s = (true, s) := rfl

/-! ## A unit runs the head of its queue (R90, R91) -/

theorem runUnit_ran {q : UnitQ} {op : Nat} {ts : StoreReads} {check : State → Nat → Option TFault}
    {reads : Nat → List (Nat × Nat)} {body : Nat → State → Option TFault × State} {u : State} (h : heads s t q op d)
    (hcheck : check s d.bits = none) (hreads : localReads t d.idx (reads d.bits) ts s = (true, s))
    (hbody : body d.bits s = (none, u)) : runUnit q op t ts check reads body s = ran q t u := by
  obtain ⟨hruns, hhead, hdone, hop, hgo⟩ := h
  obtain ⟨r, hq⟩ := List.head?_eq_some_iff.1 hhead
  have hwait : (bitOf d.bits 55 && !d.go) = false := by
    cases hw : bitOf d.bits 55 with
    | false => rfl
    | true => rw [hgo hw]; rfl
  simp only [runUnit, hq, hruns, hdone, hop, hwait, hcheck, hreads, hbody, Bool.not_true, Bool.false_eq_true, ne_eq,
    not_true_eq_false, or_self, if_false]
  rfl

/-! ## The sequencer runs the operation that holds dispatch (R89, R90) -/

section Sequencer

variable {op : Nat} {ts : StoreReads} {reads : State → Nat → List (Nat × Nat)} {check : State → Nat → Option TFault}
  {ready : State → Desc → Bool} {body : Desc → State → State}

theorem runSeq_passed (h : holds s t op d) (hcheck : check s d.bits = none) (hready : ready s d = true)
    (hreads : localReads t d.idx (reads s d.bits) ts s = (true, s)) :
    runSeq op t ts reads check ready body s = passed t d (body d s) := by
  obtain ⟨hruns, hhold, hop, hgo⟩ := h
  simp only [runSeq, hhold, hruns, hop, hgo, hcheck, hready, hreads, Bool.not_true, Bool.false_eq_true, ne_eq,
    not_true_eq_false, Bool.false_and, or_self, if_false, if_true]
  rfl

theorem runSeq_waits (h : holds s t op d) (hcheck : check s d.bits = none) (hready : ready s d = false) :
    runSeq op t ts reads check ready body s = s := by
  obtain ⟨hruns, hhold, hop, hgo⟩ := h
  simp only [runSeq, hhold, hruns, hop, hgo, hcheck, hready, Bool.not_true, Bool.false_eq_true, ne_eq,
    not_true_eq_false, Bool.false_and, or_self, if_false, if_true, Bool.not_false]

end Sequencer

end TileRules

end Sys2Proof

namespace Sys2Proof
open Machine Claims

/-! # The tile sequencer: fetch, dispatch and completion (O41) -/

section Descriptors

variable {s : State} {t : Nat} {d : Desc}

/-! ## Fetch and dispatch (R88, R89, R93) -/

/-- A line that a tile fetches joins its prefetch buffer, and dispatch goes as far as it can (R88). -/
theorem exec_descFetch_line {c : Fin 36} {n : Fin 64} {p cx pa a : Nat} {env : MemEnv} {w : Bool}
    (ha : (tile s (pos c n)).streamVa + 64 * (tile s (pos c n)).next = a) (hruns : tileRuns s (pos c n) = true)
    (hctx : clCtx s c = some (p, cx)) (hend : (tile s (pos c n)).endSeen = false) (hpre : (tile s (pos c n)).pre = [])
    (hinj : injMode s (clBlk c) 2 (fun g => fld g 41 36 = n.val) = none)
    (hsnoop : snoopLines s (.tile p c) cx false a 64 = []) (hheld : bridgeHolds s (.tile p c) cx false a 64 = false)
    (hline : lineAt s (.tile p c) cx env false a = .ok (pa, w)) :
    exec (.descFetch c n env) s = .next (dispatch (pos c n) (modTile (pos c n) (fun x => { x with
      pre := x.pre ++ [{ idx := (tile s (pos c n)).next, bits := leNat (Memory.bytes s.mem.phys pa 64) }],
      next := x.next + 1 })
      (count (clBlk c) 36 64 (count (clBlk c) 32 64 (lineNote (.tile p c) cx env false a 64 s))))) := by
  have hgo : ¬ ((!tileRuns s (pos c n)) = true ∨ (tile s (pos c n)).endSeen = true ∨
      64 ≤ (tile s (pos c n)).pre.length ∨ (tile s (pos c n)).pre.any (fun d => d.bad.isSome || bitOf d.bits 16) = true) := by
    simp [hruns, hend, hpre]
  change execDescFetch c n env s = _
  simp only [execDescFetch, hctx, pos_eq, ha, if_neg hgo, hinj, Option.isSome_none, Bool.false_eq_true, if_false, hsnoop,
    ne_eq, not_true_eq_false, hheld, hline]

/-- The prefetch buffer's head goes to its queue. -/
theorem dispatchDesc_queues {r : List Desc} {q : UnitQ} (hruns : tileRuns s t = true) (hend : (tile s t).endSeen = false)
    (hhold : (tile s t).hold = none) (hbar : (tile s t).barrier = none) (hpre : (tile s t).pre = d :: r)
    (hbad : d.bad = none) (hq : queueOf (opcodeOf d.bits) = some q) (hlen : (queue (tile s t) q).length < 8) :
    dispatchDesc t s = modTile t (fun x => putQueue q (queue x q ++ [d]) { x with
      pre := r, last := some d.idx, endSeen := bitOf d.bits 16,
      barrier := if bitOf d.bits 17 then some d.idx else none }) s := by
  have hgo : ¬ ((!tileRuns s t) = true ∨ (tile s t).endSeen = true ∨ (tile s t).hold.isSome = true ∨
      (tile s t).barrier.isSome = true) := by
    simp [hruns, hend, hhold, hbar]
  simp only [dispatchDesc, hpre, if_neg hgo, hbad, hq, if_neg (Nat.not_le.2 hlen)]

/-- With nothing prefetched there is nothing to dispatch. -/
theorem dispatch_idle (h : (tile s t).pre = []) : dispatch t s = s := by
  have hone : dispatchDesc t s = s := by simp only [dispatchDesc, h]
  have hall (f : Nat) : dispatchAll t f s = s := by
    induction f with
    | zero => rfl
    | succ f ih => rw [dispatchAll, hone, ih]
  exact hall 64

/-! ## Header waits and completion (R90, R91, R94, R95) -/

theorem exec_headerWaitSatisfied_go {c : Fin 36} {n : Fin 64} {q : UnitQ} {r : List Desc}
    (hruns : tileRuns s (pos c n) = true) (hq : queue (tile s (pos c n)) q = d :: r) (hgo : d.go = false)
    (hdone : d.done = false) (hwait : waitMet (tile s (pos c n)) d.bits = true) :
    exec (.headerWaitSatisfied c n q) s = .next (modTile (pos c n)
      (fun x => modHead q (fun d => { d with go := true }) (consumeWait d.bits x)) s) := by
  change execHeaderWaitSatisfied c n q s = _
  simp only [execHeaderWaitSatisfied, pos_eq, hq, hruns, hgo, hdone, hwait, Bool.not_true, Bool.false_eq_true, or_self,
    if_false]

/-- Consuming leaves the queues, and takes the threshold from the counter that the header names. -/
theorem consumeWait_consumes (x : Tile) (hwait : bitOf d.bits 55 = true) (hcons : bitOf d.bits 56 = true) :
    consumeWait d.bits x =
      { x with cnt := FMap.mod 0 x.cnt (fld d.bits 53 48) (fun v => v - fld d.bits 127 96) } :=
  if_pos (by rw [hwait, hcons]; rfl)

theorem queue_withCnt (q : UnitQ) (x : Tile) (m : FMap Nat) : queue { x with cnt := m } q = queue x q := by
  cases q <;> rfl

theorem cnt_putQueue (q : UnitQ) (l : List Desc) (x : Tile) : (putQueue q l x).cnt = x.cnt := by
  cases q <;> rfl

theorem headerWaitSatisfied_consumes {c : Fin 36} {n : Fin 64} {q : UnitQ} {r : List Desc}
    (hruns : tileRuns s (pos c n) = true) (hq : queue (tile s (pos c n)) q = d :: r) (hgo : d.go = false)
    (hdone : d.done = false) (hwait : bitOf d.bits 55 = true) (hcons : bitOf d.bits 56 = true)
    (hcnt : fld d.bits 127 96 ≤ FMap.get 0 (tile s (pos c n)).cnt (fld d.bits 53 48)) :
    ∃ u, exec (.headerWaitSatisfied c n q) s = .next u ∧ queue (tile u (pos c n)) q = { d with go := true } :: r ∧
      FMap.get 0 (tile u (pos c n)).cnt (fld d.bits 53 48) =
        FMap.get 0 (tile s (pos c n)).cnt (fld d.bits 53 48) - fld d.bits 127 96 ∧ Only [.tiles] s u := by
  have hmet : waitMet (tile s (pos c n)) d.bits = true := by simp [waitMet, hcnt]
  refine ⟨_, exec_headerWaitSatisfied_go hruns hq hgo hdone hmet, ?_, ?_, modTile_only _ _ _⟩
  · rw [tile_modTile, if_pos rfl, consumeWait_consumes _ hwait hcons,
      modHead_cons _ ((queue_withCnt _ _ _).trans hq), queue_putQueue]
  · rw [tile_modTile, if_pos rfl, consumeWait_consumes _ hwait hcons,
      modHead_cons _ ((queue_withCnt _ _ _).trans hq), cnt_putQueue, FMap.get_mod_self]

theorem exec_descriptorComplete_done {c : Fin 36} {n : Fin 64} {q : UnitQ} {r : List Desc}
    (hruns : tileRuns s (pos c n) = true) (hq : queue (tile s (pos c n)) q = d :: r) (hdone : d.done = true) :
    exec (.descriptorComplete c n q) s = .next (finish (pos c n) d (modTile (pos c n) (putQueue q r) s)) := by
  change execDescriptorComplete c n q s = _
  simp only [execDescriptorComplete, pos_eq, hq, hruns, hdone, Bool.not_true, Bool.false_eq_true, or_self, if_false]

/-! ## The end of a tile's part (R93) -/

/-- The last descriptor gone, the tile has finished its part, and nothing is left to dispatch. -/
theorem tile_checkEnd (hruns : tileRuns s t = true) (hend : (tile s t).endSeen = true) (hdr : drained (tile s t) = true)
    (hhold : (tile s t).hold = none) : tile (checkEnd t s) t = { tile s t with phase := 2, pre := [] } := by
  have hgo : ¬ ((!tileRuns s t) = true ∨ (!(tile s t).endSeen) = true ∨ (!drained (tile s t)) = true ∨
      (tile s t).hold.isSome = true) := by
    simp [hruns, hend, hdr, hhold]
  have hended : tile (modTile t (fun x => { x with phase := 2, pre := [] }) s) t =
      { tile s t with phase := 2, pre := [] } := by rw [tile_modTile, if_pos rfl]
  have hlaunch (c i : Nat) (f : Launch → Launch) (u : State) : tile (modLaunch c i f u) t = tile u t :=
    tile_congr (modLaunch_only c i f u .tiles (by decide)) t
  unfold checkEnd
  dsimp only
  rw [if_neg hgo]
  split
  · exact hended
  · split
    · split
      · split
        · rw [hlaunch, hended]
        · exact hended
      · exact hended
    · exact hended

/-- What a completion changes before its signal leaves: counters, the watchdog, the barrier it lifts. -/
def leaveUnit (t : Nat) (d : Desc) (s : State) : State :=
  modTile t (fun x => { x with barrier := if x.barrier = some d.idx then none else x.barrier })
    (progress (t / 64) (count (clBlk (t / 64)) (posCtr (t % 64) 0) 1 s))

theorem leaveUnit_only (t : Nat) (d : Desc) (s : State) : Only [.tiles, .work, .ctr] s (leaveUnit t d s) :=
  .sub (.after (modTile_only _ _ _) (.after (progress_only _ _) (count_only _ _ _ _))) rfl

theorem tile_leaveUnit (d : Desc) : tile (leaveUnit t d s) t =
    { tile s t with barrier := if (tile s t).barrier = some d.idx then none else (tile s t).barrier } := by
  have hprogress : tile (progress (t / 64) (count (clBlk (t / 64)) (posCtr (t % 64) 0) 1 s)) t = tile s t :=
    tile_congr (progress_only _ _ .tiles (by decide)) t
  rw [leaveUnit, tile_modTile, if_pos rfl, hprogress]

theorem parts_leaveUnit (d : Desc) : (leaveUnit t d s).work.parts = s.work.parts := by
  simp only [leaveUnit, modTile_work, parts_progress]
  rfl

theorem sigFault_leaveUnit (d : Desc) (b : Nat) : sigFault (leaveUnit t d s) t b = sigFault s t b :=
  sigFault_congr (leaveUnit_only t d s .clusters (by decide)) (parts_leaveUnit d) t b

/-- The completion signal that a descriptor's header names (R98). -/
def signalled (t : Nat) (d : Desc) (s : State) : State :=
  sendSignal t (fld d.bits 58 57) (fld d.bits 79 68) (fld d.bits 67 59) (fld d.bits 95 80) false s

theorem signalled_only (t : Nat) (d : Desc) (s : State) : Only [.signals] s (signalled t d s) :=
  sendSignal_only _ _ _ _ _ _ _

theorem finish_signals (hsig : sigFault s t d.bits = none) :
    finish t d s = dispatch t (checkEnd t (signalled t d (leaveUnit t d s))) := by
  have hnone : sigFault (leaveUnit t d s) t d.bits = none := (sigFault_leaveUnit d d.bits).trans hsig
  unfold leaveUnit at hnone
  unfold finish
  simp only [hnone]
  rfl

theorem finish_ends (hruns : tileRuns s t = true) (hend : (tile s t).endSeen = true) (hdr : drained (tile s t) = true)
    (hhold : (tile s t).hold = none) (hsig : sigFault s t d.bits = none) : (tile (finish t d s) t).phase = 2 := by
  have hsent := signalled_only t d (leaveUnit t d s)
  have honly := Only.after hsent (leaveUnit_only t d s)
  have hwork := hsent .work (by decide)
  rw [finish_signals hsig]
  generalize signalled t d (leaveUnit t d s) = u at hsent honly hwork ⊢
  have htile : tile u t = { tile s t with
      barrier := if (tile s t).barrier = some d.idx then none else (tile s t).barrier } :=
    (tile_congr (hsent .tiles (by decide)) t).trans (tile_leaveUnit d)
  have hruns' : tileRuns u t = true := (tileRuns_congr (by rw [htile]) (honly .clusters (by decide))
    ((congrArg Work.parts hwork).trans (parts_leaveUnit d)) (honly .time (by decide))).trans hruns
  have hended := tile_checkEnd hruns' (by rw [htile]; exact hend) (by rw [htile]; exact hdr) (by rw [htile]; exact hhold)
  rw [dispatch_idle (by rw [hended]), hended]

end Descriptors

/-- Settles O41: each row by what its guard leaves of it, the end of a part by following a completion to it. -/
theorem tilesTakeDescriptors : Obligations.TilesTakeDescriptors := by
  intro s c n t x hruns
  refine ⟨fun p cx env pa w => exec_descFetch_line rfl hruns, fun d r q hend hhold hbar hpre hbad hq hlen => ?_,
    fun d r q => headerWaitSatisfied_consumes hruns, fun d r q => exec_descriptorComplete_done hruns,
    fun d hend hdr hhold hsig => finish_ends hruns hend hdr hhold hsig⟩
  rw [dispatchDesc_queues hruns hend hhold hbar hpre hbad hq hlen]
  refine ⟨?_, ?_, ?_, ?_, ?_, modTile_only _ _ _⟩
  all_goals rw [tile_modTile, if_pos rfl]
  · exact queue_putQueue _ _ _
  all_goals cases q <;> rfl

end Sys2Proof

namespace Sys2Proof
open Machine Claims

/-! # The units of a tile execute and move data (O42) -/

section Units

variable {s : State} {c : Fin 36} {n : Fin 64} {d : Desc}

/-! ## Trigger writes (R126, R127) -/

theorem exec_fabricTrig {p cx : Nat} (h : heads s (pos c n) .fabric 0x18 d) (hctx : clCtx s c = some (p, cx))
    (hmode : fld d.bits 143 142 < 2) (hsig : sigFault s (pos c n) d.bits = none)
    (hidx : fld d.bits 140 128 < trigCount s (pos c n)) (harmed : trigArmed s (pos c n) (fld d.bits 140 128) = false) :
    exec (.fabricTrig c n) s = .next (ran .fabric (pos c n)
      (writeEntry (clHalf c) p (fld d.bits 140 128) (fld d.bits 511 256) (fld d.bits 143 142 = 1) s)) := by
  refine congrArg _ (runUnit_ran h ?_ (localReads_nil _ _) (by rw [hctx]))
  rw [pos_eq, firstFault_eq_none]
  simpa [hsig, harmed] using ⟨Nat.le_of_lt_succ hmode, hidx⟩

/-! ## The tile DMA engine (R117-R120) -/

variable {env : MemEnv} {l : List Piece}

/-- Neither a snoop nor the bridge holds the head of the DMA queue: it goes on. -/
theorem dmaStarts {t op : Nat} {u : State} (hsnoops : dmaSnoops s t op = []) (hheld : dmaHeld s t op = false) :
    (if dmaSnoops s t op ≠ [] then issueSnoops (dmaSnoops s t op) s else if dmaHeld s t op then s else u) = u := by
  rw [if_neg (not_not.2 hsnoops), if_neg (Bool.eq_false_iff.1 hheld)]

/-- Zeroing reaches no line of context memory. -/
theorem dmaHead_zeros {t : Nat} (h : heads s t .dma 0x08 d) (hz : bitOf d.bits 128 = true) : dmaHead s t 8 = [] := by
  obtain ⟨-, hhead, -⟩ := h
  obtain ⟨r, hq⟩ := List.head?_eq_some_iff.1 hhead
  have hqd : (tile s t).qd = d :: r := hq
  simp only [dmaHead, hqd, hz]
  exact if_neg (by simp)

theorem exec_load_zeros (h : heads s (pos c n) .dma 0x08 d) (hz : bitOf d.bits 128 = true)
    (hf : dmaFault s (pos c n) d.bits = none) :
    exec (.load c n env) s = .next (ran .dma (pos c n) ((rowsOf (fld d.bits 447 416) (fld d.bits 375 352)
      (fld d.bits 327 312) (fld d.bits 351 328)).foldl
        (fun s x => storeLocal (pos c n) x.1 (List.replicate x.2 0) s) s)) := by
  have hsnoops : dmaSnoops s (pos c n) 8 = [] := by rw [dmaSnoops, dmaHead_zeros h hz]; rfl
  have hheld : dmaHeld s (pos c n) 8 = false := by rw [dmaHeld, dmaHead_zeros h hz]; rfl
  exact congrArg _ ((dmaStarts hsnoops hheld).trans (runUnit_ran h hf (localReads_nil _ _) (if_pos hz)))

theorem exec_load_lines (hl : dmaPieces (baseReg (tile s (pos c n)) (fld d.bits 463 461)) d.bits = l)
    (h : heads s (pos c n) .dma 0x08 d) (hz : bitOf d.bits 128 = false) (hf : dmaFault s (pos c n) d.bits = none)
    (hsnoops : dmaSnoops s (pos c n) 8 = []) (hheld : dmaHeld s (pos c n) 8 = false)
    (hok : (loadPieces (pos c n) env l s).2.2 = none) :
    exec (.load c n env) s = .next (ran .dma (pos c n)
      (countMoved (pos c n) 32 (loadPieces (pos c n) env l s).2.1 (loadPieces (pos c n) env l s).1)) := by
  refine congrArg _ ((dmaStarts hsnoops hheld).trans (runUnit_ran h hf (localReads_nil _ _) ?_))
  rw [if_neg (Bool.eq_false_iff.1 hz), pos_eq, hl]
  exact Prod.ext (congrArg lineFault hok) rfl

theorem exec_store_lines (hl : dmaPieces (baseReg (tile s (pos c n)) (fld d.bits 463 461)) d.bits = l)
    (harm : (win s (clBlk c)).armed = false) (h : heads s (pos c n) .dma 0x09 d)
    (hf : dmaFault s (pos c n) d.bits = none) (hsnoops : dmaSnoops s (pos c n) 9 = [])
    (hheld : dmaHeld s (pos c n) 9 = false) (hok : (storePieces (pos c n) env l s).2.2 = none) :
    exec (.store c n env {}) s = .next (ran .dma (pos c n)
      (countMoved (pos c n) 33 (storePieces (pos c n) env l s).2.1 (storePieces (pos c n) env l s).1)) := by
  refine congrArg _ ((dmaStarts hsnoops hheld).trans (runUnit_ran h hf (localReads_unarmed _ _ harm) ?_))
  rw [pos_eq, hl]
  exact Prod.ext (congrArg lineFault hok) rfl

theorem exec_xfer_rows (harm : (win s (clBlk c)).armed = false) (h : heads s (pos c n) .dma 0x0A d)
    (hlen : fld d.bits 399 376 ≠ 0) (hrows : fld d.bits 375 360 ≠ 0) (hmode : fld d.bits 129 128 = 0)
    (hlocal : badLocal inEither (xferSrc d.bits ++ xferDst d.bits) = none) (hsig : sigFault s (pos c n) d.bits = none)
    (hover : overlap (xferSrc d.bits) (xferDst d.bits) = false) :
    exec (.xfer c n {}) s = .next (ran .dma (pos c n) (count (clBlk c) (posCtr n.val 6)
      ((xferSrc d.bits).map (fun x => (linesOf x.1 x.2).length)).sum
      (((xferDst d.bits).zip ((xferSrc d.bits).map (fun x => localBytes s (pos c n) x.1 x.2))).foldl
        (fun s x => storeLocal (pos c n) x.1.1 x.2 s) s))) := by
  refine congrArg _ (runUnit_ran h ?_ (localReads_unarmed _ _ harm) ?_)
  · rw [pos_eq, firstFault_eq_none]
    simp [hlen, hrows, hmode, hlocal, hsig]
  · simp only [hover, Bool.false_eq_true, if_false, xferRows, hmode]
    rfl

end Units

/-- Settles O42: each unit's head runs by its skeleton, whose checks and clean reads the hypotheses give. -/
theorem unitsExecuteAndMove : Obligations.UnitsExecuteAndMove := by
  refine ⟨fun s c n d harm => ?_, fun s c n d harm => ⟨fun _ => exec_load_zeros, fun _ => exec_load_lines rfl,
    fun _ => exec_store_lines rfl harm, exec_xfer_rows harm⟩⟩
  have hreads := localReads_unarmed (n := n) d.idx (h := harm)
  refine ⟨fun h hf => ?mma, fun h hf => ?mmaLam, fun h hf => ?vec, fun h hf => ?nlf, fun h hf => ?red,
    fun _ _ => exec_fabricTrig⟩
  all_goals exact congrArg _ (runUnit_ran h hf (hreads _) rfl)

end Sys2Proof

namespace Sys2Proof
open Machine Claims

/-! # What a tile's fault leaves standing (R136, R264, R520) -/

section TileFaults

variable {s t u : State}

/-! ## Status bits -/

theorem sts_eventG (inj : Bool) (h : Half) (blk bit code info : Nat) (s : State) (b : Nat) :
    (win (eventG inj h blk bit code info s) b).sts =
      if blk = b then (win s b).sts ||| BitVec.ofNat 32 (2 ^ bit) else (win s b).sts := by
  have hlatched : win (eventG inj h blk bit code info s) b = win (setWin blk
      (latchEvent (win s blk) bit code info (blkCount s blk h) inj) s) b :=
    Only.win_eq (.after (.when (msix_only _ _ _)) (.unless (countSat_only _ _ _ _))) (by decide) b
  rw [hlatched, win_setWin]
  split
  · next he => rw [latchEvent_sts, he]
  · rfl

theorem eventG_sets (inj : Bool) (h : Half) {blk bit : Nat} (code info : Nat) (s : State) (hb : bit < 32) :
    (win (eventG inj h blk bit code info s) blk).sts.getLsbD bit = true := by
  rw [sts_eventG, if_pos rfl, BitVec.getLsbD_or, BitVec.getLsbD_ofNat]
  simp [hb]

/-! ## The fence that a fault causes -/

/-- From `s` to `t` no tile changes, nor what the clusters hold of their positions, and no bit of a window clears. -/
structure FaultKept (s t : State) : Prop where
  tile : ∀ i, tile t i = tile s i
  codes : ∀ c, (cluster t c).codes = (cluster s c).codes
  testing : ∀ c, (cluster t c).testing = (cluster s c).testing
  retired : ∀ c, (cluster t c).retired = (cluster s c).retired
  sts : ∀ b i, (win s b).sts.getLsbD i = true → (win t b).sts.getLsbD i = true

namespace FaultKept

theorem refl (s : State) : FaultKept s s :=
  ⟨fun _ => rfl, fun _ => rfl, fun _ => rfl, fun _ => rfl, fun _ _ h => h⟩

theorem after (k : FaultKept t u) (h : FaultKept s t) : FaultKept s u :=
  ⟨fun i => (k.tile i).trans (h.tile i), fun c => (k.codes c).trans (h.codes c),
    fun c => (k.testing c).trans (h.testing c), fun c => (k.retired c).trans (h.retired c),
    fun b i hi => k.sts b i (h.sts b i hi)⟩

theorem branch {a b : State} {c : Prop} [Decidable c] (h : FaultKept s a) (k : FaultKept s b) :
    FaultKept s (if c then a else b) := by
  split
  · exact h
  · exact k

theorem fold {α : Type} {f : State → α → State} (k : ∀ s x, FaultKept s (f s x)) (l : List α) (s : State) :
    FaultKept s (l.foldl f s) :=
  foldl_keeps (P := FaultKept s) (fun u x hu => .after (k u x) hu) l s (.refl s)

/-- Where neither tiles nor clusters change and no bit of a window clears. -/
theorem ofSts {ps : List Zone} (h : Only ps s t) (ht : Zone.tiles ∉ ps) (hc : Zone.clusters ∉ ps)
    (hsts : ∀ b i, (win s b).sts.getLsbD i = true → (win t b).sts.getLsbD i = true) : FaultKept s t := by
  have hclusters (c : Nat) : cluster t c = cluster s c := cluster_congr (h .clusters hc) c
  exact ⟨tile_congr (h .tiles ht), fun c => by rw [hclusters], fun c => by rw [hclusters], fun c => by rw [hclusters],
    hsts⟩

theorem ofOnly {ps : List Zone} (h : Only ps s t) (hw : Zone.win ∉ ps) (ht : Zone.tiles ∉ ps)
    (hc : Zone.clusters ∉ ps) : FaultKept s t :=
  ofSts h ht hc fun b i hi => by rw [h.win_eq hw b, hi]

end FaultKept

theorem fenceMoves_book (cx : Nat) (s : State) : BookKept s (fenceMoves cx s) := by
  have hanswer (k st det : Nat) (r : List Byte) (u : State) : BookKept u (respond k st det r u) :=
    .ofOnly (respond_only _ _ _ _ _) (by decide) (by decide)
  refine .after (.fold (fun u k => hanswer _ _ _ _ u) _ _) (.fold (fun u k => ?_) _ _)
  split
  · exact .after (hanswer _ _ _ _ _) (.after (.ofOnly (setRun_only _ _ _) (by decide) (by decide))
      (.fold (fun v m => event_kept _ _ _ _ v) _ _))
  · exact .refl u

theorem abortSend_book (p : Machine.Part) (i code : Nat) (s : State) : BookKept s (abortSend p i code s) := by
  refine .branch (.refl s) (.fold (fun u h => .after (.fold (fun v g => ?_) _ _) (event_kept _ _ _ _ u)) _ _)
  exact .after (.ofOnly (modFab_only (fun f => { f with abortId := (f.abortId + 1) % 65536 }) _) (by decide) (by decide))
    (.fold (fun w q => sendOn_kept _ _ w) _ _)

theorem modCluster_fenced_kept (c : Nat) (s : State) :
    FaultKept s (modCluster c (fun x => { x with fenced := true, resetting := true }) s) := by
  refine ⟨fun _ => rfl, fun b => ?_, fun b => ?_, fun b => ?_, fun _ _ h => h⟩
  all_goals
    rw [cluster_modCluster]
    split
    · next h => rw [h]
    · rfl

/-- A fault's fence lets the tick of the fault go on in the other tiles. -/
theorem modTile_fence_kept (i : Nat) (s : State) : FaultKept s (modTile i (fenceTile true) s) := by
  refine ⟨fun j => ?_, fun _ => rfl, fun _ => rfl, fun _ => rfl, fun _ _ h => h⟩
  rw [tile_modTile]
  split
  · next h => rw [h]; rfl
  · rfl

theorem fenceWith_fault_kept (cause endSt code : Nat) (byAbort : Bool) (i : Nat) (s : State) :
    FaultKept s (fenceWith true cause endSt code byAbort i s) := by
  have hclusters (p : Machine.Part) (u : State) : FaultKept u (p.clusters.foldl (fun s c =>
      (List.range 64).foldl (fun s n => modTile (64 * c + n) (fenceTile true) s)
        (modCluster c (fun x => { x with fenced := true, resetting := true }) s)) u) :=
    .fold (fun v c => .after (.fold (fun w n => modTile_fence_kept _ w) _ _) (modCluster_fenced_kept c v)) _ _
  have hrest (e : Eng) (f : Fab) (u : State) : FaultKept u { u with eng := e, fab := f } :=
    .ofOnly (.after (modFab_only (fun _ => f) _) (modEng_only (fun _ => e) u)) (by decide) (by decide) (by decide)
  have hmoves (cx : Nat) (u : State) : FaultKept u (fenceMoves cx u) :=
    .ofSts (fenceMoves_only _ _) (by decide) (by decide) (fenceMoves_book _ _).sts
  have habort (p : Machine.Part) (u : State) : FaultKept u (abortSend p i code u) :=
    .ofSts (abortSend_only _ _ _ _) (by decide) (by decide) (abortSend_book _ _ _ _).sts
  unfold fenceWith
  split
  · exact .refl s
  · next p _ =>
    refine .branch (.refl s) ?_
    have hfenced (u : State) (h : FaultKept s u) : FaultKept s (if byAbort then u else abortSend p i code u) :=
      .branch h (.after (habort _ _) h)
    exact hfenced _ (.after (hmoves _ _) (.after (hrest _ _ _) (.after
      (.ofOnly (putSignals_only _ _) (by decide) (by decide) (by decide)) (.after (hclusters _ _)
        (.ofOnly (.after (setPart_only _ _ _) (hostEvent_only _ _ _ _ _)) (by decide) (by decide) (by decide))))))

theorem failLaunch_kept (i code desc c n : Nat) (wd : Bool) (s : State) :
    FaultKept s (failLaunch i code desc c n wd s) := by
  have hlaunch (a b : Nat) (f : Launch → Launch) (u : State) : FaultKept u (modLaunch a b f u) :=
    .ofOnly (modLaunch_only _ _ _ _) (by decide) (by decide) (by decide)
  have hfence (u : State) (h : FaultKept s u) :
      FaultKept s (if serving u then fenceWith true 1 4 code false i u else u) :=
    .branch (.after (fenceWith_fault_kept _ _ _ _ _ _) h) h
  unfold failLaunch
  split
  · exact .refl s
  · refine .branch (.refl s) ?_
    dsimp only
    split
    · exact .refl s
    · exact hfence _ (.branch (hlaunch _ _ _ _) (hlaunch _ _ _ _))

/-! ## A tile fault (R136) -/

/-- A tile fault as the cluster records it, before its launch is to fail. -/
def faultMarked (inj : Bool) (t : Nat) (f : TFault) (s : State) : State :=
  let c := t / 64
  let info := 2 ^ 48 * (t % 64) + f.info % 2 ^ 48
  let s := modCluster c (fun x => { x with codes := FMap.set 0 x.codes (t % 64) f.code })
    (eventG inj (clHalf c) (clBlk c) 0 f.code info s)
  modTile t stopTile (if f.kind = 0 then s
    else modCluster c (fun x => { x with xlVa := f.info, xlKind := f.kind }) (event (clBlk c) 1 f.kind info s))

/-- The launch of a cluster's partition is to fail by a fault of position `n`, where it has one (R265). -/
def launchFailed (c n code desc : Nat) (s : State) : State :=
  match clCtx s c with
  | some (p, _) => failLaunch p code desc c n false s
  | none => s

theorem launchFailed_kept (c n code desc : Nat) (s : State) : FaultKept s (launchFailed c n code desc s) := by
  unfold launchFailed
  split
  · exact failLaunch_kept _ _ _ _ _ _ _
  · exact .refl s

theorem tileFault_eq (inj : Bool) (i desc : Nat) (f : TFault) (s : State) :
    tileFault inj i desc f s = launchFailed (i / 64) (i % 64) f.code desc (faultMarked inj i f s) := rfl

theorem tileFault_kept (inj : Bool) (i desc : Nat) (f : TFault) (s : State) :
    FaultKept (faultMarked inj i f s) (tileFault inj i desc f s) := by
  rw [tileFault_eq]
  exact launchFailed_kept _ _ _ _ _

theorem tile_faultMarked (inj : Bool) (i : Nat) (f : TFault) (s : State) (j : Nat) :
    tile (faultMarked inj i f s) j = if i = j then stopTile (tile s i) else tile s j := by
  have hmarked (u : State) (hu : u.comp.tiles = s.comp.tiles) :
      tile (modTile i stopTile u) j = if i = j then stopTile (tile s i) else tile s j := by
    rw [tile_modTile, tile_congr hu, tile_congr hu]
  have hevent : (eventG inj (clHalf (i / 64)) (clBlk (i / 64)) 0 f.code (2 ^ 48 * (i % 64) + f.info % 2 ^ 48) s).comp.tiles
      = s.comp.tiles := eventG_only _ _ _ _ _ _ _ .tiles (by decide)
  refine hmarked _ ?_
  split
  · exact hevent
  · exact (event_only _ _ _ _ _ .tiles (by decide)).trans hevent

/-- A fault stops its tile and no other. -/
theorem tile_tileFault (inj : Bool) (i desc : Nat) (f : TFault) (s : State) (j : Nat) :
    tile (tileFault inj i desc f s) j = if i = j then stopTile (tile s i) else tile s j := by
  rw [(tileFault_kept inj i desc f s).tile, tile_faultMarked]

/-- The position shows the code of its fault. -/
theorem tileFault_code (inj : Bool) (i desc : Nat) {f : TFault} (s : State) (hk : f.kind = 0) :
    FMap.get 0 (cluster (tileFault inj i desc f s) (i / 64)).codes (i % 64) = f.code := by
  rw [(tileFault_kept inj i desc f s).codes, faultMarked]
  rw [if_pos hk, cluster_congr (modTile_clusters ..), cluster_modCluster, if_pos rfl, FMap.get_set_self]

theorem tileFault_sets (inj : Bool) (i desc : Nat) {f : TFault} (s : State) (hk : f.kind = 0) :
    (win (tileFault inj i desc f s) (clBlk (i / 64))).sts.getLsbD 0 = true := by
  refine (tileFault_kept inj i desc f s).sts _ _ ?_
  rw [faultMarked]
  rw [if_pos hk]
  exact eventG_sets _ _ _ _ s (by decide)

end TileFaults

/-! # Signals, hardware faults and the start test (O45) -/

section SignalsAndTests

variable {s : State} {c : Fin 36} {n : Fin 64}

/-! ## The first signal in flight (R95, R96, R99) -/

theorem tileCount_fits {g : Signal} {v : Nat} (hpart : (cluster s (g.tgt / 64)).part = some g.part)
    (habs : absentPos s (g.tgt / 64) (g.tgt % 64) = false)
    (hv : (if g.set then g.val else FMap.get 0 (tile s g.tgt).cnt g.cnt + g.val) = v) (hfit : v ≤ 0xFFFFFFFF) :
    tileCount g s = modTile g.tgt (fun x => { x with cnt := FMap.set 0 x.cnt g.cnt v }) s := by
  have hgo : ¬ ((cluster s (g.tgt / 64)).part ≠ some g.part ∨ absentPos s (g.tgt / 64) (g.tgt % 64) = true) := by
    simp [hpart, habs]
  unfold tileCount
  dsimp only
  rw [if_neg hgo, hv, if_pos hfit, Nat.min_eq_left hfit]

theorem tileSignalArrive_first {g : Signal} {r : List Signal} {v : Nat} (hs : s.comp.signals = g :: r)
    (heng : g.eng = none) (hpart : (cluster s (g.tgt / 64)).part = some g.part)
    (habs : absentPos s (g.tgt / 64) (g.tgt % 64) = false)
    (hv : (if g.set then g.val else FMap.get 0 (tile s g.tgt).cnt g.cnt + g.val) = v) (hfit : v ≤ 0xFFFFFFFF) :
    ∃ u, exec (.tileSignalArrive 0) s = .next u ∧ u.comp.signals = r ∧ FMap.get 0 (tile u g.tgt).cnt g.cnt = v ∧
      Only [.signals, .tiles] s u := by
  have hcount := tileCount_fits (s := { s with comp := { s.comp with signals := r } }) hpart habs hv hfit
  have hexec : exec (.tileSignalArrive 0) s = .next (modTile g.tgt (fun x => { x with cnt := FMap.set 0 x.cnt g.cnt v })
      { s with comp := { s.comp with signals := r } }) := by
    change execTileSignalArrive 0 s = _
    simp only [execTileSignalArrive, hs, List.getElem?_cons_zero, List.take_zero, List.any_nil, Bool.false_eq_true,
      if_false, List.eraseIdx_cons_zero, heng, hcount]
  refine ⟨_, hexec, rfl, ?_, .sub (.after (modTile_only _ _ _) (putSignals_only _ _)) rfl⟩
  rw [tile_modTile, if_pos rfl, FMap.get_set_self]

/-! ## A hardware fault (R77, R136) -/

theorem tileHwFault_stops (habs : absentPos s c n = false)
    (htest : (cluster s c).testing.any (fun y => y.1 = n.val) = false) :
    ∃ u, exec (.tileHwFault c n false) s = .next u ∧ (n.val, false) ∈ (cluster u c).testing ∧
      FMap.get 0 (cluster u c).codes n.val = 0x12 ∧ (win u (clBlk c)).sts.getLsbD 0 := by
  have hcode := tileFault_code false (pos c n) (lastDesc s (pos c n)) (f := { code := 0x12 }) s rfl
  have hsets := tileFault_sets false (pos c n) (lastDesc s (pos c n)) (f := { code := 0x12 }) s rfl
  rw [pos_div, pos_mod] at hcode
  rw [pos_div] at hsets
  refine ⟨modCluster c (fun y => { y with testing := y.testing ++ [(n.val, false)] })
    (tileFault false (pos c n) (lastDesc s (pos c n)) { code := 0x12 } s), ?_, ?_, ?_, hsets⟩
  · change execTileHwFault c n false s = _
    simp only [execTileHwFault, habs, htest, Bool.false_eq_true, or_self, if_false, pos_eq]
  · rw [cluster_modCluster, if_pos rfl]
    exact List.mem_append_right _ List.mem_cons_self
  · rw [cluster_modCluster, if_pos rfl]
    exact hcode

/-! ## The start test of the only tile that is due (R77) -/

/-- The tile reset for its test, and no test due any more. -/
def testTaken (c : Fin 36) (n : Fin 64) (s : State) : State :=
  modCluster c (fun y => { y with testing := y.testing.filter (fun z => z.1 != n.val) }) (zeroTile (pos c n) s)

theorem cluster_testTaken (htest : (cluster s c).testing = [(n.val, false)]) :
    cluster (testTaken c n s) c = { cluster s c with testing := [] } := by
  have hzero : cluster (zeroTile (pos c n) s) c = cluster s c :=
    cluster_congr (zeroTile_only _ _ .clusters (by decide)) c
  rw [testTaken, cluster_modCluster, if_pos rfl, hzero, htest]
  simp

theorem tile_testTaken : tile (testTaken c n s) (pos c n) = {} :=
  (tile_congr (modCluster_tiles ..) _).trans (FMap.get_set_self ({} : Tile) s.comp.tiles (pos c n) {})

/-- What a failed test leaves before the launch is to fail: the position retired, recorded and reported. -/
def testFailed (c : Fin 36) (n : Fin 64) (flash : Retry) (s : State) : State :=
  event (clBlk c) 9 0 (2 ^ 48 * n.val) (modCluster c (fun y => { y with retired := y.retired ++ [n.val] })
    (addDefect 1 2 (256 * c.val + nth (cluster s c).phys n.val) flash (testTaken c n s)))

theorem cluster_testFailed {flash : Retry} (htest : (cluster s c).testing = [(n.val, false)]) :
    cluster (testFailed c n flash s) c =
      { cluster s c with testing := [], retired := (cluster s c).retired ++ [n.val] } := by
  have hevent (u : State) : cluster (event (clBlk c) 9 0 (2 ^ 48 * n.val) u) c = cluster u c :=
    cluster_congr (event_only _ _ _ _ _ .clusters (by decide)) c
  have hdefect (u : State) (loc : Nat) : cluster (addDefect 1 2 loc flash u) c = cluster u c :=
    cluster_congr (addDefect_only _ _ _ _ _ .clusters (by decide)) c
  rw [testFailed, hevent, cluster_modCluster, if_pos rfl, hdefect, cluster_testTaken htest]

theorem find_testing (htest : (cluster s c).testing = [(n.val, false)]) :
    (cluster s c).testing.find? (fun y => y.1 = n.val) = some (n.val, false) := by
  simp [htest]

theorem exec_startTest_passed (htest : (cluster s c).testing = [(n.val, false)]) (hserve : serving s = true) :
    exec (.tileStartTestDone c n true .clean) s =
      .next (eventG false (clHalf c) (clBlk c) 8 0 (2 ^ 48 * n.val) (testTaken c n s)) := by
  change execTileStartTestDone c n true .clean s = _
  simp only [execTileStartTestDone, find_testing htest, hserve, Bool.not_true, Bool.false_eq_true, if_false, true_or,
    if_true]
  rfl

theorem exec_startTest_failed (htest : (cluster s c).testing = [(n.val, false)]) (hserve : serving s = true) :
    exec (.tileStartTestDone c n false .clean) s =
      .next (launchFailed c n 0x12 0xFFFFFFFF (testFailed c n .clean s)) := by
  change execTileStartTestDone c n false .clean s = _
  simp only [execTileStartTestDone, find_testing htest, hserve, Bool.not_true, Bool.false_eq_true, or_self, if_false]
  rfl

theorem startTest_returns (htest : (cluster s c).testing = [(n.val, false)]) (hserve : serving s = true) :
    ∃ u, exec (.tileStartTestDone c n true .clean) s = .next u ∧ (cluster u c).testing = [] ∧
      (cluster u c).retired = (cluster s c).retired ∧ tile u (pos c n) = {} ∧ (win u (clBlk c)).sts.getLsbD 8 := by
  have hevent := eventG_only false (clHalf c) (clBlk c) 8 0 (2 ^ 48 * n.val) (testTaken c n s)
  have hcluster := (cluster_congr (hevent .clusters (by decide)) c).trans (cluster_testTaken htest)
  exact ⟨_, exec_startTest_passed htest hserve, by rw [hcluster], by rw [hcluster],
    (tile_congr (hevent .tiles (by decide)) _).trans tile_testTaken, eventG_sets _ _ _ _ _ (by decide)⟩

theorem startTest_retires (htest : (cluster s c).testing = [(n.val, false)]) (hserve : serving s = true) :
    ∃ u, exec (.tileStartTestDone c n false .clean) s = .next u ∧ (cluster u c).testing = [] ∧
      n.val ∈ (cluster u c).retired ∧ (win u (clBlk c)).sts.getLsbD 9 := by
  have hkept := launchFailed_kept c n 0x12 0xFFFFFFFF (testFailed c n .clean s)
  refine ⟨_, exec_startTest_failed htest hserve, ?_, ?_, hkept.sts _ _ (event_sets _ _ _ (by decide))⟩
  · rw [hkept.testing, cluster_testFailed htest]
  · rw [hkept.retired, cluster_testFailed htest]
    exact List.mem_append_right _ List.mem_cons_self

end SignalsAndTests

/-- Settles O45: the first signal by its count; a fault by what it marks before its launch's fence, which keeps that;
a test by its two ends. -/
theorem signalsAndTileFaults : Obligations.SignalsAndTileFaults := fun _ =>
  ⟨fun _ _ hs heng hpart habs hfit => tileSignalArrive_first hs heng hpart habs rfl hfit,
    fun _ _ habs htest => tileHwFault_stops habs htest,
    fun _ _ htest hserve => ⟨startTest_returns htest hserve, startTest_retires htest hserve⟩⟩

end Sys2Proof

namespace Sys2Proof
open Machine Claims

/-! # The sequencer's own operations (O44) -/

section Sequencer

variable {s : State} {t : Nat} {d : Desc} {c : Fin 36} {n : Fin 64}

/-! ## Dispatch holds an operation only as it was fetched (R88, R89) -/

/-- No header wait is over of what a tile has prefetched, nor of the operation that holds its dispatch. -/
def Unstarted (x : Tile) : Prop := (∀ e ∈ x.pre, e.go = false) ∧ ∀ e, x.hold = some e → e.go = false

theorem unstarted_stopTile (x : Tile) : Unstarted (stopTile x) :=
  ⟨fun _ h => (List.not_mem_nil h).elim, fun _ h => nomatch h⟩

theorem pre_putQueue (q : UnitQ) (l : List Desc) (x : Tile) : (putQueue q l x).pre = x.pre := by
  cases q <;> rfl

theorem hold_putQueue (q : UnitQ) (l : List Desc) (x : Tile) : (putQueue q l x).hold = x.hold := by
  cases q <;> rfl

theorem unstarted_tileFault (inj : Bool) (desc : Nat) (f : TFault) (s : State) :
    Unstarted (tile (tileFault inj t desc f s) t) := by
  rw [tile_tileFault, if_pos rfl]
  exact unstarted_stopTile _

/-- A descriptor leaves the buffer for its queue, to hold dispatch, or with a fault. -/
theorem unstarted_dispatchDesc (h : Unstarted (tile s t)) : Unstarted (tile (dispatchDesc t s) t) := by
  unfold dispatchDesc
  dsimp only
  split
  · exact h
  · next d r hpre =>
    have hrest : ∀ e ∈ r, e.go = false := fun e he => h.1 e (hpre ▸ List.mem_cons_of_mem d he)
    have hhead : d.go = false := h.1 d (hpre ▸ List.mem_cons_self)
    split
    · exact h
    · split
      · exact unstarted_tileFault _ _ _ s
      · split
        · next q _ =>
          split
          · exact h
          · rw [tile_modTile, if_pos rfl]
            refine ⟨fun e he => hrest e ?_, fun e he => h.2 e ?_⟩
            · rwa [pre_putQueue] at he
            · rwa [hold_putQueue] at he
        · split
          · rw [tile_modTile, if_pos rfl]
            exact ⟨hrest, fun e he => Option.some.inj he ▸ hhead⟩
          · exact unstarted_tileFault _ _ _ s

theorem unstarted_dispatch (h : Unstarted (tile s t)) : Unstarted (tile (dispatch t s) t) := by
  have hall (f : Nat) (u : State) (hu : Unstarted (tile u t)) : Unstarted (tile (dispatchAll t f u) t) := by
    induction f generalizing u with
    | zero => exact hu
    | succ f ih => exact ih _ (unstarted_dispatchDesc hu)
  exact hall 64 s h

theorem unstarted_checkEnd (h : Unstarted (tile s t)) : Unstarted (tile (checkEnd t s) t) := by
  by_cases hgo : (!tileRuns s t) = true ∨ (!(tile s t).endSeen) = true ∨ (!drained (tile s t)) = true ∨
      (tile s t).hold.isSome = true
  · rw [checkEnd, if_pos hgo]
    exact h
  · simp only [Bool.not_eq_true', not_or, Bool.not_eq_false, Bool.not_eq_true, Option.isSome_eq_false_iff,
      Option.isNone_iff_eq_none] at hgo
    obtain ⟨hruns, hend, hdr, hhold⟩ := hgo
    rw [tile_checkEnd hruns hend hdr hhold]
    exact ⟨fun _ he => (List.not_mem_nil he).elim, h.2⟩

theorem unstarted_finish (d : Desc) (h : Unstarted (tile s t)) : Unstarted (tile (finish t d s) t) := by
  change Unstarted (tile (match sigFault (leaveUnit t d s) t d.bits with
    | some f => tileFault false t d.idx f (leaveUnit t d s)
    | none => dispatch t (checkEnd t (signalled t d (leaveUnit t d s)))) t)
  split
  · exact unstarted_tileFault _ _ _ _
  · refine unstarted_dispatch (unstarted_checkEnd ?_)
    rw [tile_congr (signalled_only _ _ _ .tiles (by decide)), tile_leaveUnit]
    exact h

/-! ## CWAIT and CSIGNAL (R121-R123) -/

theorem exec_cwait_ready (hsig : sigFault s (pos c n) d.bits = none) (h : holds s (pos c n) 0x10 d)
    (hready : cwaitReady (tile s (pos c n)) d.bits = true) :
    exec (.cwait c n) s = .next (passed (pos c n) d (modTile (pos c n) (cwaitConsume d.bits) s)) :=
  congrArg _ (runSeq_passed h hsig hready (localReads_nil _ _))

theorem exec_csignal_ready (hsig : sigFault s (pos c n) d.bits = none) (h : holds s (pos c n) 0x11 d)
    (htargets : ∀ g ∈ targets d.bits, fld g 10 8 < 6 ∧ (bitOf g 7 = true → fld g 10 8 = 1) ∧
      ctargetOk s (pos c n) g = true)
    (hdrain : bitOf d.bits 128 = true → drained (tile s (pos c n)) = true) :
    exec (.csignal c n) s =
      .next (passed (pos c n) d ((targets d.bits).foldl (fun s g => csend (pos c n) g s) s)) := by
  refine congrArg _ (runSeq_passed h ?_ ?_ (localReads_nil _ _))
  · have hscope : (targets d.bits).any (fun g => 6 ≤ fld g 10 8 || (bitOf g 7 && fld g 10 8 != 1)) = false := by
      refine List.any_eq_false.2 fun g hg => ?_
      obtain ⟨hlt, hset, -⟩ := htargets g hg
      simpa [hlt] using hset
    have hexists : (targets d.bits).any (fun g => !ctargetOk s (pos c n) g) = false :=
      List.any_eq_false.2 fun g hg => by simp [(htargets g hg).2.2]
    rw [pos_eq, firstFault_eq_none]
    simp [hscope, hsig, hexists]
  · rw [pos_eq]
    cases hb : bitOf d.bits 128 with
    | false => rfl
    | true => rw [hdrain hb]; rfl

/-! ## WAIT_RT (R124, R125) -/

/-- The step of a WAIT_RT (R125): one whose target has passed completes, any other does nothing yet. -/
def waitRtStep (c : Fin 36) (n : Fin 64) (s : State) : State :=
  runSeq 0x12 (pos c n) {} noReads (fun s d => sigFault s (pos c n) d)
    (fun s d => !d.done && decide (rtTarget (tile s (pos c n)) d.bits < cnt s (clHalf c)))
    (fun _ s => rtDone (pos c n) (countSat (clBlk c) (posCtr n.val 14) 1 s)) s

/-- The mark that a WAIT_RT takes if it still holds dispatch after its step `u`: it waits for its target. -/
def waitMarked (t : Nat) (s u : State) : State :=
  match (tile s t).hold, (tile u t).hold with
  | some d0, some d =>
    if d.idx = d0.idx ∧ d.go ∧ opcodeOf d.bits = 0x12 then
      modTile t (fun x => { x with hold := some { d with done := true } }) u
    else u
  | _, _ => u

theorem exec_waitRt : exec (.waitRt c n) s = .next (waitMarked (pos c n) s (waitRtStep c n s)) := rfl

/-- Where nothing that has started holds dispatch, nothing waits. -/
theorem waitMarked_new {u : State} (hnew : ∀ e, (tile u t).hold = some e → e.go = false) : waitMarked t s u = u := by
  unfold waitMarked
  split
  · next e _ he => exact if_neg fun hgo => absurd hgo.2.1 (by simp [hnew e he])
  · rfl

theorem waitMarked_held (h : holds s t 0x12 d) :
    waitMarked t s s = modTile t (fun x => { x with hold := some { d with done := true } }) s := by
  obtain ⟨-, hhold, hop, hgo⟩ := h
  simp only [waitMarked, hhold, hop, hgo, and_self, if_true]

theorem pre_rtDone (u : State) : (tile (rtDone t u) t).pre = (tile u t).pre := by
  unfold rtDone
  split
  · rfl
  · rw [tile_modTile, if_pos rfl]

theorem exec_waitRt_late (hsig : sigFault s (pos c n) d.bits = none) (h : holds s (pos c n) 0x12 d)
    (hdone : d.done = false) (hlate : rtTarget (tile s (pos c n)) d.bits < cnt s (clHalf c))
    (hpre : ∀ e ∈ (tile s (pos c n)).pre, e.go = false) :
    exec (.waitRt c n) s =
      .next (passed (pos c n) d (rtDone (pos c n) (countSat (clBlk c) (posCtr n.val 14) 1 s))) := by
  have hready : (!d.done && decide (rtTarget (tile s (pos c n)) d.bits < cnt s (clHalf c))) = true := by
    simp [hdone, hlate]
  have hstep : waitRtStep c n s =
      passed (pos c n) d (rtDone (pos c n) (countSat (clBlk c) (posCtr n.val 14) 1 s)) :=
    runSeq_passed h hsig hready (localReads_nil _ _)
  have hnew : Unstarted (tile (waitRtStep c n s) (pos c n)) := by
    rw [hstep]
    refine unstarted_finish d ⟨fun e he => hpre e ?_, fun e he => ?_⟩
    · rw [tile_modTile, if_pos rfl] at he
      exact pre_rtDone (countSat (clBlk c) (posCtr n.val 14) 1 s) ▸ he
    · rw [tile_modTile, if_pos rfl] at he
      cases he
  rw [exec_waitRt, waitMarked_new hnew.2, hstep]

theorem exec_waitRt_ahead (hsig : sigFault s (pos c n) d.bits = none) (h : holds s (pos c n) 0x12 d)
    (hahead : cnt s (clHalf c) ≤ rtTarget (tile s (pos c n)) d.bits) :
    exec (.waitRt c n) s =
      .next (modTile (pos c n) (fun x => { x with hold := some { d with done := true } }) s) := by
  have hready : (!d.done && decide (rtTarget (tile s (pos c n)) d.bits < cnt s (clHalf c))) = false := by
    simp [Nat.not_lt.2 hahead]
  have hstep : waitRtStep c n s = s := runSeq_waits h hsig hready
  rw [exec_waitRt, hstep, waitMarked_held h]

theorem exec_waitRtComplete_due (h : holds s (pos c n) 0x12 d) (hdone : d.done = true) :
    exec (.waitRtComplete c n) s = .next (passed (pos c n) d
      (rtDone (pos c n) (waitHalf (clHalf c) (rtTarget (tile s (pos c n)) d.bits) s))) := by
  obtain ⟨hruns, hhold, hop, -⟩ := h
  change execWaitRtComplete c n s = _
  simp only [execWaitRtComplete, pos_eq, hhold, hruns, hop, hdone, Bool.not_true, Bool.false_eq_true, ne_eq,
    not_true_eq_false, or_self, if_false]
  rfl

/-! ## MARK_REQ and MARK_WORK (R128-R132) -/

theorem exec_markReq_single (ts : StoreReads) (hsig : sigFault s (pos c n) d.bits = none)
    (h : holds s (pos c n) 0x20 d) (hnum : fld d.bits 415 400 = 0) (hroom : queuedEvents s (clHalf c) < 8192) :
    exec (.markReq c n ts) s = .next (passed (pos c n) d
      (markEvent (pos c n) (if bitOf d.bits 128 then 1 else 0) (fld d.bits 511 448) 0 s)) := by
  have hready : decide (queuedEvents s (clHalf c) + max 1 (fld d.bits 415 400) ≤ 8192) = true := by
    simpa [hnum] using hroom
  refine congrArg _ ((runSeq_passed h ?_ hready ?_).trans ?_)
  · rw [pos_eq, firstFault_eq_none]
    simp [hnum, hsig]
  · rw [if_pos hnum]
    rfl
  · rw [if_pos hnum]
    rfl

theorem exec_markWork_single (ts : StoreReads) (hsig : sigFault s (pos c n) d.bits = none)
    (h : holds s (pos c n) 0x21 d) (hmode : fld d.bits 129 128 = 0) (hroom : queuedEvents s (clHalf c) < 8192) :
    exec (.markWork c n ts) s = .next (passed (pos c n) d
      (markEvent (pos c n) 2 (fld d.bits 511 448) (fld d.bits 399 368) s)) := by
  have hready : decide (queuedEvents s (clHalf c) + (if fld d.bits 129 128 = 1 then fld d.bits 415 400 else 1) ≤ 8192)
      = true := by simpa [hmode] using hroom
  refine congrArg _ ((runSeq_passed h ?_ hready ?_).trans ?_)
  · rw [pos_eq, firstFault_eq_none]
    simp [hmode, hsig]
  · rw [if_neg (by simp [hmode])]
    rfl
  · simp only [hmode]
    rfl

/-! ## TAP_POINT (R133, R134, R578) -/

theorem exec_tapPoint_armed {k : Nat} {y : Tap} (env : MemEnv) (hsig : sigFault s (pos c n) d.bits = none)
    (harm : (win s (clBlk c)).armed = false) (hbridge : s.brRetrain = false) (h : holds s (pos c n) 0x28 d)
    (hlen : fld d.bits 447 424 ≠ 0) (hlocal : badLocal inEither [(fld d.bits 479 448, fld d.bits 447 424)] = none)
    (hhit : tapHit s (pos c n) (fld d.bits 511 480) = some (k, y)) (hdr : drained (tile s (pos c n)) = true) :
    exec (.tapPoint c n {} env) s = .next (passed (pos c n) d (modTile (pos c n) (fun x => { x with
      tapCnt := FMap.mod 0 x.tapCnt (fld d.bits 511 480) (· + 1) }) (tapCopy (pos c n) d.bits env k y s))) := by
  refine congrArg _ ((runSeq_passed h ?_ ?_ (localReads_unarmed _ _ harm)).trans ?_)
  · rw [pos_eq, firstFault_eq_none]
    simp [hlen, hlocal, hsig]
  · simp only [pos_eq, hhit, hdr, hbridge]
    rfl
  · simp only [pos_eq, hhit]

end Sequencer

/-- Settles O44: each operation passes by the sequencer's skeleton once its wait and its condition hold; a late WAIT_RT
leaves nothing started behind that it could take for itself. -/
theorem theSequencerExecutes : Obligations.TheSequencerExecutes := fun _ _ _ _ hsig =>
  ⟨exec_cwait_ready hsig, exec_csignal_ready hsig, exec_waitRt_late hsig, fun h _ => exec_waitRt_ahead hsig h,
    exec_waitRtComplete_due, fun ts => exec_markReq_single ts hsig, fun ts => exec_markWork_single ts hsig,
    fun _ _ env harm hbridge => exec_tapPoint_armed env hsig harm hbridge⟩

end Sys2Proof

namespace Sys2Proof
open Machine Claims

/-! # Where the units store, and what reads back (O43) -/

section Stores

variable {s u v : State} {t : Nat} {l : List (Nat × Nat)}

/-! ## Writing within ranges -/

namespace Claims.wroteOnly

theorem refl (t : Nat) (l : List (Nat × Nat)) (s : State) : wroteOnly t l s s :=
  ⟨fun _ _ => rfl, fun _ _ => rfl, rfl⟩

theorem after (k : wroteOnly t l u v) (h : wroteOnly t l s u) : wroteOnly t l s v := by
  obtain ⟨hts, hphys, hhost⟩ := h
  obtain ⟨kts, kphys, khost⟩ := k
  exact ⟨fun a ha => (kts a ha).trans (hts a ha), fun a ha => (kphys a ha).trans (hphys a ha), khost.trans hhost⟩

theorem mono {m : List (Nat × Nat)} (h : wroteOnly t l s u) (hl : ∀ x ∈ l, x ∈ m) : wroteOnly t m s u := by
  obtain ⟨hts, hphys, hhost⟩ := h
  exact ⟨fun a ha => hts a fun x hx => ha x (hl x hx), fun a ha => hphys a fun x hx => ha x (hl x hx), hhost⟩

/-- What changes no memory writes within any ranges. -/
theorem ofOnly {ps : List Zone} (l : List (Nat × Nat)) (h : Only ps s u) (hts : Zone.tileStores ∉ ps)
    (hphys : Zone.phys ∉ ps) (hhost : Zone.hostMem ∉ ps) : wroteOnly t l s u :=
  ⟨fun _ _ => congrArg (Memory.read · _) (h .tileStores hts), fun _ _ => congrArg (Memory.read · _) (h .phys hphys),
    h .hostMem hhost⟩

theorem fold {α : Type} {f : State → α → State} {m : List α} (k : ∀ u, ∀ x ∈ m, wroteOnly t l u (f u x))
    (s : State) : wroteOnly t l s (m.foldl f s) := by
  induction m generalizing s with
  | nil => exact refl t l s
  | cons x r ih =>
    exact after (ih (fun u y hy => k u y (List.mem_cons_of_mem x hy)) (f s x)) (k s x List.mem_cons_self)

theorem branch {a b : State} {c : Prop} [Decidable c] (h : wroteOnly t l s a) (k : wroteOnly t l s b) :
    wroteOnly t l s (if c then a else b) := by
  split
  · exact h
  · exact k

end Claims.wroteOnly

theorem Machine.Memory.read_store_outside {m : Memory} {a b : Nat} {w : List Byte} (h : b < a ∨ a + w.length ≤ b) :
    Memory.read (Memory.store m a w) b = Memory.read m b := by
  rw [Memory.read_store, if_neg (by omega)]

/-- A store at a local address writes within any range that starts there and is long enough (R79). -/
theorem storeLocal_wroteOnly {a n : Nat} {w : List Byte} (hmem : (a, n) ∈ l) (hlen : w.length ≤ n) (s : State) :
    wroteOnly t l s (storeLocal t a w s) := by
  unfold storeLocal
  split
  · next ha =>
    refine ⟨fun b hb => Memory.read_store_outside ?_, fun _ _ => rfl, rfl⟩
    have hrange := hb _ hmem ha
    dsimp only at hrange
    omega
  · next ha =>
    refine ⟨fun _ _ => rfl, fun b hb => Memory.read_store_outside ?_, rfl⟩
    have hrange := hb _ hmem (Nat.not_lt.1 ha)
    dsimp only at hrange
    omega

/-! ## Rows of results (R104, R141) -/

theorem packRow_length (f : Nat) (w : List Nat) : (packRow f w).length = packedBytes f w.length := natLe_length _ _

theorem packedBytes_mono (f : Nat) {m n : Nat} (h : m ≤ n) : packedBytes f m ≤ packedBytes f n :=
  Nat.div_le_div_right (Nat.add_le_add_right (Nat.mul_le_mul_left _ h) 7)

theorem mem_rowsOf {a stride n len r : Nat} (h : r < n) : (a + r * stride, len) ∈ rowsOf a stride n len :=
  List.mem_map.2 ⟨r, List.mem_range.2 h, rfl⟩

/-- Rows written stay within as many rows as there are, each long enough. -/
theorem writeRows_wroteOnly {f a stride n k : Nat} {rows : List (List Rnd)} (hn : rows.length ≤ n)
    (hk : ∀ r ∈ rows, r.length ≤ k) (s : State) :
    wroteOnly t (rowsOf a stride n (packedBytes f k)) s (writeRows t f a stride rows s) := by
  refine .after (.ofOnly _ (countArith_only _ _ _) (by decide) (by decide) (by decide))
    (.fold (fun u x hx => ?_) s)
  obtain ⟨hidx, hrow⟩ := List.of_mem_zip hx
  refine storeLocal_wroteOnly (mem_rowsOf (Nat.lt_of_lt_of_le (List.mem_range.1 hidx) hn)) ?_ u
  rw [packRow_length, List.length_map]
  exact packedBytes_mono f (hk _ hrow)

/-- A draw of a generator stores nothing. -/
theorem takeDraws_wroteOnly (unit k : Nat) (s : State) : wroteOnly t l s (takeDraws t unit k s) :=
  .ofOnly l (takeDraws_only _ _ _ _) (by decide) (by decide) (by decide)

/-! ## Each unit stores its rows (R106, R111, R113, R116) -/

/-- The rows of a table of `m` times `n` results. -/
theorem table_rows {m n : Nat} {f : Nat → List Rnd} (hf : ∀ i, (f i).length ≤ n) :
    ∀ r ∈ (List.range m).map f, r.length ≤ n :=
  List.forall_mem_map.2 fun i _ => hf i

theorem packedBytes_fp64 (n : Nat) : packedBytes 1 n = 8 * n := by
  change (64 * n + 7) / 8 = 8 * n
  omega

theorem packedBytes_scales (n : Nat) : packedBytes 0xE n = n := by
  change (8 * n + 7) / 8 = n
  omega

theorem mmaRun_wroteOnly (t d : Nat) (s : State) : wroteOnly t (mmaWrites d) s (mmaRun t d s) := by
  have hstart (p : Prop) [Decidable p] (i k : Nat) (f : Tile → Tile) (l : List (Nat × Nat)) :
      wroteOnly t l s (modTile t f (countSat (clBlk (t / 64)) i k (if p then takeFree s else s))) :=
    .ofOnly l (.after (modTile_only _ _ _) (.after (countSat_only _ _ _ _) (.when (takeFree_only s))))
      (by decide) (by decide) (by decide)
  unfold mmaRun
  split
  · exact .refl t _ s
  · dsimp only
    split
    · exact hstart _ _ _ _ _
    · next hwrite =>
      have hwrites : mmaWrites d =
          rowsOf (fld d 511 480) (fld d 319 304) (mOf d) (packedBytes (fld d 175 172) (nOf d)) :=
        if_pos (by simpa using hwrite)
      have hrows (v : State) (a : AccSet) (u : State) : wroteOnly t (mmaWrites d) u
          (writeRows t (fld d 175 172) (fld d 511 480) (fld d 319 304) (outRows v t d a) u) :=
        hwrites ▸ writeRows_wroteOnly (by simp) (table_rows fun i => by simp) u
      have hout (v : State) (a : AccSet) {u : State} (h : wroteOnly t (mmaWrites d) s u) := (hrows v a u).after h
      exact .branch (.after (takeDraws_wroteOnly _ _ _) (hout _ _ (hstart _ _ _ _ _))) (hout _ _ (hstart _ _ _ _ _))

theorem lamRun_wroteOnly (t d : Nat) (s : State) :
    wroteOnly t (rowsOf (fld d 511 480) (fld d 319 304) (mOf d) (8 * nOf d)) s (lamRun t d s) := by
  rw [← packedBytes_fp64]
  refine .after (writeRows_wroteOnly (by simp) ?_ _) (.ofOnly _ (.after (modTile_only _ _ _) (.after (countSat_only _ _ _ _)
    (.after (countSat_only _ _ _ _) (countSat_only _ _ _ _)))) (by decide) (by decide) (by decide))
  rw [List.map_map]
  exact table_rows fun i => by simp

theorem mxBlock_length (code mode : Nat) (draws : Nat → Nat) (xs : List Machine.Num) :
    (mxBlock code mode draws xs).2.length = xs.length := by
  unfold mxBlock
  dsimp only
  split
  · simp
  · simp

/-- The blocks of a row hold no more elements than the row. -/
theorem vecMxRow_length (s : State) (t d r : Nat) :
    (vecMxRow s t d r).1.length = vecCols d / 32 ∧ (vecMxRow s t d r).2.length ≤ vecCols d := by
  refine ⟨by simp [vecMxRow], ?_⟩
  have hblock (b : Nat) (f : Nat → Nat) :
      (mxBlock (vecOut d) (fld d 149 148) f (((vecX s t d r).drop (32 * b)).take 32)).2.length ≤ 32 := by
    rw [mxBlock_length]
    exact List.length_take_le _ _
  calc (vecMxRow s t d r).2.length
      ≤ ((List.range (vecCols d / 32)).map fun _ => 32).sum := by
        simp only [vecMxRow, List.length_flatMap, List.map_map]
        exact List.sum_le_sum fun b _ => hblock b _
    _ ≤ vecCols d := by
        simp only [List.map_const', List.length_range, List.sum_replicate, smul_eq_mul]
        omega

theorem vecRun_wroteOnly (t d : Nat) (s : State) : wroteOnly t (vecWrites d) s (vecRun t d s) := by
  have hrows {rows : List (List Rnd)} (hn : rows.length ≤ vecRows d) (hk : ∀ r ∈ rows, r.length ≤ vecCols d)
      (u : State) : wroteOnly t (vecWrites d) u (writeRows t (vecOut d) (fld d 447 416) (fld d 319 304) rows u) :=
    (writeRows_wroteOnly hn hk u).mono fun _ hx => List.mem_append_left _ hx
  have hscales (hmx : isMx (vecOut d) = true) (u : State) : wroteOnly t (vecWrites d) u (writeRows t 0xE (fld d 415 384)
      (vecCols d / 32) (((List.range (vecRows d)).map (vecMxRow s t d)).map (·.1)) u) := by
    refine (writeRows_wroteOnly (n := vecRows d) (k := vecCols d / 32) (by simp) ?_ u).mono fun x hx => ?_
    · rw [List.map_map]
      exact table_rows fun r => (vecMxRow_length s t d r).1.le
    · rw [packedBytes_scales] at hx
      exact List.mem_append_right _ (by rwa [if_pos hmx])
  have hdraws (u : State) (h : wroteOnly t (vecWrites d) s u) : wroteOnly t (vecWrites d) s
      (if fld d 149 148 = 2 then takeDraws t 1 (vecRows d * vecCols d) u else u) :=
    .branch (.after (takeDraws_wroteOnly _ _ _) h) h
  refine hdraws _ ?_
  split
  · next hmx =>
    refine .after (hscales hmx _) (hrows (by simp) ?_ s)
    rw [List.map_map]
    exact table_rows fun r => (vecMxRow_length s t d r).2
  · refine .after (.ofOnly _ (countSat_only _ _ _ _) (by decide) (by decide) (by decide)) (hrows (by simp) ?_ s)
    rw [List.map_map]
    exact table_rows fun r => by simp [vecRow]

theorem nlfRun_wroteOnly (t d : Nat) (s : State) : wroteOnly t (nlfD d) s (nlfRun t d s) := by
  have hrows (rows : List (List Rnd)) (hn : rows.length ≤ fld d 319 304)
      (hk : ∀ r ∈ rows, r.length ≤ fld d 303 288) : wroteOnly t (nlfD d) s (writeRows t (fld d 143 140) (fld d 415 384) (fld d 351 336) rows s) :=
    writeRows_wroteOnly hn hk s
  have hdone := hrows (((List.range (fld d 319 304)).zip (nlfX d)).map (fun x =>
      (List.range (fld d 303 288)).map (fun c => nlfElem d (drawAt s t 2 (x.1 * fld d 303 288 + c))
        (elemNum (fld d 139 136) (nth (rowAt s t (fld d 139 136) x.2.1 (fld d 303 288)) c)))))
    (by simp) (List.forall_mem_map.2 fun x _ => by simp)
  exact .branch (.after (takeDraws_wroteOnly _ _ _) hdone) hdone

theorem rowsOf_one (a stride k : Nat) : rowsOf a stride 1 k = [(a, k)] := by
  simp [rowsOf]

theorem redAccum_wroteOnly (t d : Nat) (s : State) : wroteOnly t (redD d) s (redAccum t d s) := by
  refine .fold (fun u y hy => ?_) s
  obtain ⟨hrange, -⟩ := List.of_mem_zip hy
  obtain ⟨r, -, hr⟩ := List.mem_map.1 hrange
  have hone : wroteOnly t (rowsOf y.1.1 0 1 (packedBytes (redOut d) (redCols d))) u (redUpdate t d y.1.1 y.2 u) := by
    refine writeRows_wroteOnly (Nat.le_refl 1) (fun row hrow => ?_) u
    rw [List.mem_singleton.1 hrow]
    simp [rowAt]
  refine hone.mono fun x hx => ?_
  rw [rowsOf_one, List.mem_singleton, ← hr] at hx
  rw [hx, hr]
  exact hr ▸ hrange

/-- The lists that ROWS and COLS reduce, one for each result. -/
def redLists (s : State) (t d : Nat) : List (List Machine.Num) :=
  if redMode d = 0 then redRowsOf s t d
  else (List.range (redCols d)).map (fun c => (redRowsOf s t d).map (fun r => r.getD c .nan))

theorem redLists_length (s : State) (t d : Nat) : (redLists s t d).length = redCount d := by
  unfold redLists redCount
  split
  · simp [redRowsOf, redX, rowsOf]
  · simp

theorem redReduce_wroteOnly (t d : Nat) (s : State) :
    wroteOnly t [(fld d 511 480, packedBytes (redOut d) (redCount d))] s (redReduce t d s) := by
  have hrow (res : List (Rnd × Nat)) (u : State) (hn : res.length ≤ redCount d) :
      wroteOnly t (rowsOf (fld d 511 480) 0 1 (packedBytes (redOut d) (redCount d))) u
        (writeRows t (redOut d) (fld d 511 480) 0 [res.map (·.1)] u) := by
    refine writeRows_wroteOnly (Nat.le_refl 1) (fun row hr => ?_) u
    rwa [List.mem_singleton.1 hr, List.length_map]
  have hdone (k : Nat) := (hrow (((List.range (redLists s t d).length).zip (redLists s t d)).map
      (fun y => redResult d (drawAt s t 3 y.1) (redMode d = 0) y.2)) _ (by simp [redLists_length])).after
    (.ofOnly _ (countSat_only (clBlk (t / 64)) (posCtr (t % 64) 10) k s) (by decide) (by decide) (by decide))
  rw [← rowsOf_one _ 0]
  exact .branch (.after (takeDraws_wroteOnly _ _ _) (hdone _)) (hdone _)

/-! ## What is stored reads back (R79, R141) -/

theorem localBytes_congr (hts : u.comp.ts = s.comp.ts) (hphys : u.mem.phys = s.mem.phys) (t a n : Nat) :
    localBytes u t a n = localBytes s t a n := by
  simp only [localBytes, hts, hphys]

theorem localBytes_ofOnly {ps : List Zone} (h : Only ps s u) (hts : Zone.tileStores ∉ ps) (hphys : Zone.phys ∉ ps)
    (t a n : Nat) : localBytes u t a n = localBytes s t a n :=
  localBytes_congr (h .tileStores hts) (h .phys hphys) t a n

theorem localBytes_storeLocal {a : Nat} (w : List Byte) (ha : a < 0x1000000) (s : State) :
    localBytes (storeLocal t a w s) t a w.length = w := by
  rw [storeLocal, if_pos ha, localBytes, if_pos ha]
  exact Memory.bytes_store w _ _

/-- The only row written to a tile store reads back packed. -/
theorem localBytes_writeRow {f a stride n : Nat} {row : List Rnd} (ha : a < 0x1000000) (hn : row.length = n)
    (s : State) : localBytes (writeRows t f a stride [row] s) t a (packedBytes f n) = packRow f (row.map (·.code)) := by
  have hlen : packedBytes f n = (packRow f (row.map (·.code))).length := by
    rw [packRow_length, List.length_map, hn]
  have hstored : writeRows t f a stride [row] s =
      countArith t [row].flatten (storeLocal t (a + 0 * stride) (packRow f (row.map (·.code))) s) := rfl
  rw [hstored, localBytes_ofOnly (countArith_only _ _ _) (by decide) (by decide), hlen, Nat.zero_mul, Nat.add_zero,
    localBytes_storeLocal _ ha]

theorem localBytes_ifDraws (p : Prop) [Decidable p] (unit k : Nat) (u : State) (a n : Nat) :
    localBytes (if p then takeDraws t unit k u else u) t a n = localBytes u t a n :=
  localBytes_ofOnly (.when (takeDraws_only _ _ _ _)) (by decide) (by decide) t a n

/-- The results of a one-row NLF. -/
def nlfRow (s : State) (t d : Nat) : List Rnd :=
  (List.range (fld d 303 288)).map (fun c => nlfElem d (drawAt s t 2 c)
    (elemNum (fld d 139 136) (nth (rowAt s t (fld d 139 136) (fld d 383 352) (fld d 303 288)) c)))

theorem nlfRun_one {d : Nat} (t : Nat) (s : State) (hrows : fld d 319 304 = 1) : nlfRun t d s =
    if fld d 151 150 = 2 then takeDraws t 2 (1 * fld d 303 288)
      (writeRows t (fld d 143 140) (fld d 415 384) (fld d 351 336) [nlfRow s t d] s)
    else writeRows t (fld d 143 140) (fld d 415 384) (fld d 351 336) [nlfRow s t d] s := by
  simp [nlfRun, nlfX, hrows, rowsOf_one, nlfRow]

theorem nlfRun_readsBack {d : Nat} (t : Nat) (s : State) (hrows : fld d 319 304 = 1) (ha : fld d 415 384 < 0x1000000) :
    localBytes (nlfRun t d s) t (fld d 415 384) (packedBytes (fld d 143 140) (fld d 303 288)) =
      packRow (fld d 143 140) ((nlfRow s t d).map (·.code)) := by
  rw [nlfRun_one t s hrows, localBytes_ifDraws, localBytes_writeRow ha (by simp [nlfRow])]

/-- A one-row VEC into a format without block scales, before its draws are taken. -/
def vecStored (t d : Nat) (s : State) : State :=
  countSat (clBlk (t / 64)) (posCtr (t % 64) 10) ((vecRow s t d 0).map (·.2)).sum
    (writeRows t (vecOut d) (fld d 447 416) (fld d 319 304) [(vecRow s t d 0).map (·.1)] s)

theorem vecRun_one {d : Nat} (t : Nat) (s : State) (hrows : vecRows d = 1) (hmx : isMx (vecOut d) = false) :
    vecRun t d s = if fld d 149 148 = 2 then takeDraws t 1 (1 * vecCols d) (vecStored t d s) else vecStored t d s := by
  simp [vecRun, hrows, hmx, vecStored]

theorem vecRun_readsBack {d : Nat} (t : Nat) (s : State) (hrows : vecRows d = 1) (hmx : isMx (vecOut d) = false)
    (ha : fld d 447 416 < 0x1000000) :
    localBytes (vecRun t d s) t (fld d 447 416) (packedBytes (vecOut d) (vecCols d)) =
      packRow (vecOut d) ((vecRow s t d 0).map (fun x => x.1.code)) := by
  rw [vecRun_one t s hrows hmx, localBytes_ifDraws, vecStored,
    localBytes_ofOnly (countSat_only _ _ _ _) (by decide) (by decide), localBytes_writeRow ha (by simp [vecRow]),
    List.map_map]
  rfl

end Stores

/-- Settles O43: each unit comes to rows written within its ranges, and a row written to a tile store reads back. -/
theorem resultsAreStoredAndReadBack : Obligations.ResultsAreStoredAndReadBack := by
  refine ⟨fun s t d => ⟨mmaRun_wroteOnly t d s, lamRun_wroteOnly t d s, vecRun_wroteOnly t d s, nlfRun_wroteOnly t d s,
    redAccum_wroteOnly t d s, fun _ => redReduce_wroteOnly t d s, fun l => .fold (fun u x hx => ?_) s⟩,
    fun s t d => ⟨fun hrows ha => ?_, fun hrows hmx ha => vecRun_readsBack t s hrows hmx ha⟩⟩
  · exact storeLocal_wroteOnly (List.mem_map.2 ⟨x, hx, rfl⟩) (Nat.le_refl _) u
  · rw [nlfRun_readsBack t s hrows ha, nlfRow, List.map_map]
    rfl

end Sys2Proof

namespace Sys2Proof
open Machine

/-! # A finite code of any format is rounded back to itself (O12)

A code without its sign bit, its magnitude code, has a magnitude and an exponent: `Fmt.parts`. A finite code decodes
to the parts of its magnitude code (`decode_fin`), which encode to it again (`encode_parts`); and the parts grow with
the code (`parts_mono`), so that no finite code lies past the largest, whose parts bound what overflows. -/

namespace Machine.Fmt

variable {f : Fmt}

/-! ## Magnitude codes -/

/-- The magnitude and the exponent of a magnitude code (R137): subnormal in the lowest binade, else normal. -/
def parts (f : Fmt) (c : Nat) : Nat × Int :=
  if c / 2 ^ f.mb = 0 then (c % 2 ^ f.mb, 1 - (f.bias : Int) - f.mb)
  else (2 ^ f.mb + c % 2 ^ f.mb, ((c / 2 ^ f.mb : Nat) : Int) - f.bias - f.mb)

theorem parts_subnormal {c : Nat} (h : c < 2 ^ f.mb) : f.parts c = (c, 1 - (f.bias : Int) - f.mb) := by
  simp [parts, h, Nat.mod_eq_of_lt h]

theorem parts_normal {c : Nat} (h : 2 ^ f.mb ≤ c) :
    f.parts c = (2 ^ f.mb + c % 2 ^ f.mb, ((c / 2 ^ f.mb : Nat) : Int) - f.bias - f.mb) := by
  simp [parts, h]

/-- What the formats of R137 share: the largest finite value is normal, and the one NaN of E4M3 is the last of its
seven-bit magnitude codes (R138). -/
structure Proper (f : Fmt) : Prop where
  largestNormal : 2 ^ f.mb ≤ f.maxCode
  sevenBits : f.sp = .e4m3 → f.eb + f.mb = 7

theorem largest_eq_parts (h : f.Proper) : f.largest = f.parts f.maxCode := (parts_normal h.largestNormal).symm

/-- A code without its sign bit. -/
def mag (f : Fmt) (b : Nat) : Nat := b % 2 ^ (f.eb + f.mb)

theorem mag_lt (f : Fmt) (b : Nat) : f.mag b < 2 ^ (f.eb + f.mb) := Nat.mod_lt _ (by positivity)

/-- The exponent field of a code is that of its magnitude code. -/
theorem expField_mag (f : Fmt) (b : Nat) : b / 2 ^ f.mb % 2 ^ f.eb = f.mag b / 2 ^ f.mb := by
  rw [mag, Nat.add_comm, Nat.pow_add, Nat.mod_mul_right_div_self]

/-- The mantissa field of a code is that of its magnitude code. -/
theorem mantissa_mag (f : Fmt) (b : Nat) : b % 2 ^ f.mb = f.mag b % 2 ^ f.mb :=
  (Nat.mod_mod_of_dvd b (Nat.pow_dvd_pow 2 (Nat.le_add_left _ _))).symm

/-- A magnitude code below the exponent field of infinities and NaNs is at most the largest finite one. -/
theorem le_maxCode_of_expField {c : Nat} (hs : f.sp = .ieee) (hc : c < 2 ^ (f.eb + f.mb))
    (he : c / 2 ^ f.mb ≠ 2 ^ f.eb - 1) : c ≤ f.maxCode := by
  have hlt : c / 2 ^ f.mb < 2 ^ f.eb := Nat.div_lt_of_lt_mul (by rwa [← Nat.pow_add, Nat.add_comm])
  have : c < (2 ^ f.eb - 1) * 2 ^ f.mb := (Nat.div_lt_iff_lt_mul (by positivity)).1 (by omega)
  simp only [maxCode, hs]
  omega

/-- The value of a code, by its sign and its magnitude code (R137, R138). -/
theorem decode_eq (f : Fmt) (b : Nat) : f.decode b =
    if f.sp = .ieee ∧ f.mag b / 2 ^ f.mb = 2 ^ f.eb - 1 then
      if f.mag b % 2 ^ f.mb = 0 then .inf (bitOf b (f.eb + f.mb)) else .nan
    else if f.sp = .e4m3 ∧ f.mag b = 0x7F then .nan
    else .fin (bitOf b (f.eb + f.mb)) (f.parts (f.mag b)).1 (f.parts (f.mag b)).2 := by
  have hfin (neg : Bool) : (if f.mag b / 2 ^ f.mb = 0 then Num.fin neg (f.mag b % 2 ^ f.mb) (1 - (f.bias : Int) - f.mb)
      else .fin neg (2 ^ f.mb + f.mag b % 2 ^ f.mb) (((f.mag b / 2 ^ f.mb : Nat) : Int) - f.bias - f.mb)) =
      .fin neg (f.parts (f.mag b)).1 (f.parts (f.mag b)).2 := by
    unfold parts
    split <;> rfl
  rw [← hfin, decode, expField_mag, mantissa_mag, ← mag]
  cases f.sp with
  | ieee => by_cases he : f.mag b / 2 ^ f.mb = 2 ^ f.eb - 1 <;> simp [he]
  | e4m3 => by_cases hnan : f.mag b = 0x7F <;> simp [hnan]
  | none => simp

/-- A finite code is its sign and the parts of its magnitude code, which is at most the largest (R137, R138). -/
theorem decode_fin {b m : Nat} {neg : Bool} {e : Int} (h : f.Proper) (hd : f.decode b = .fin neg m e) :
    neg = bitOf b (f.eb + f.mb) ∧ f.parts (f.mag b) = (m, e) ∧ f.mag b ≤ f.maxCode := by
  have hc := f.mag_lt b
  rw [decode_eq] at hd
  split at hd
  case isTrue => split at hd <;> cases hd
  case isFalse hieee =>
    split at hd
    case isTrue => cases hd
    case isFalse he4m3 =>
      cases hd
      refine ⟨rfl, rfl, ?_⟩
      cases hs : f.sp with
      | ieee => exact le_maxCode_of_expField hs hc fun he => hieee ⟨hs, he⟩
      | e4m3 =>
        rw [h.sevenBits hs] at hc
        have hnan : f.mag b ≠ 0x7F := fun hn => he4m3 ⟨hs, hn⟩
        simp only [maxCode, hs]
        omega
      | none =>
        simp only [maxCode, hs]
        omega

/-- A sign and a magnitude code make up the code. -/
theorem signed_mag {b : Nat} (hb : b < 2 ^ f.width) :
    f.signed (bitOf b (f.eb + f.mb)) (f.mag b) = b := by
  have h : b % 2 ^ (f.eb + f.mb + 1) = b := Nat.mod_eq_of_lt (by rwa [width, Nat.add_assoc, Nat.add_comm 1] at hb)
  rw [Nat.mod_pow_succ] at h
  unfold signed mag bitOf
  rw [Nat.testBit_eq_decide_div_mod_eq]
  rcases Nat.mod_two_eq_zero_or_one (b / 2 ^ (f.eb + f.mb)) with hbit | hbit <;> simpa [hbit] using h

/-! ## The parts of a magnitude code encode to it -/

/-- At the spacing of the value's own exponent nothing is rounded. -/
theorem toUnits_self (mode r m : Nat) (e : Int) : toUnits mode r m e e = m := by simp [toUnits]

theorem encode_subnormal {c : Nat} (mode r : Nat) (h : c < 2 ^ f.mb) :
    f.encode mode r c (1 - (f.bias : Int) - f.mb) = c := by
  by_cases h0 : c = 0
  · simp [encode, h0]
  have hlog : c.log2 < f.mb := (Nat.log2_lt h0).2 h
  have hq : max (topExp c (1 - (f.bias : Int) - f.mb) - f.mb) (1 - (f.bias : Int) - f.mb) =
      1 - (f.bias : Int) - f.mb := by
    unfold topExp; omega
  simp [encode, h0, hq, toUnits_self, h]

theorem encode_normal {x E : Nat} (mode r : Nat) (hx : x < 2 ^ f.mb) (hE : 1 ≤ E) :
    f.encode mode r (2 ^ f.mb + x) ((E : Int) - f.bias - f.mb) = E * 2 ^ f.mb + x := by
  have hpos : 0 < 2 ^ f.mb := by positivity
  have hlog : (2 ^ f.mb + x).log2 = f.mb := (Nat.log2_eq_iff (by omega)).2 ⟨by omega, by omega⟩
  have hq : max (topExp (2 ^ f.mb + x) ((E : Int) - f.bias - f.mb) - f.mb) (1 - (f.bias : Int) - f.mb) =
      (E : Int) - f.bias - f.mb := by
    unfold topExp; omega
  have hshift : ((E : Int) - f.bias - f.mb - (1 - (f.bias : Int) - f.mb)).toNat = E - 1 := by omega
  obtain ⟨E, rfl⟩ := Nat.exists_eq_add_of_le' hE
  have hne : 2 ^ f.mb + x ≠ 0 := by omega
  simp only [encode, hne, if_false, hq, toUnits_self, hshift, Nat.not_lt.2 (Nat.le_add_right _ _)]
  simp [Nat.succ_mul, Nat.add_assoc]

theorem encode_parts (f : Fmt) (mode r c : Nat) : f.encode mode r (f.parts c).1 (f.parts c).2 = c := by
  rcases Nat.lt_or_ge c (2 ^ f.mb) with h | h
  · rw [parts_subnormal h, encode_subnormal mode r h]
  · rw [parts_normal h, encode_normal mode r (Nat.mod_lt _ (by positivity)) (Nat.div_pos h (by positivity)),
      Nat.div_add_mod']

/-! ## No finite code overflows -/

/-- A magnitude code up to a normal one has no larger exponent, and no larger magnitude (R137). -/
theorem parts_mono {c d : Nat} (hd : 2 ^ f.mb ≤ d) (hcd : c ≤ d) : (f.parts c).2 ≤ (f.parts d).2 ∧
    (f.parts c).1 ≤ (f.parts d).1 * 2 ^ ((f.parts d).2 - (f.parts c).2).toNat := by
  have hE : 1 ≤ d / 2 ^ f.mb := Nat.div_pos hd (by positivity)
  have hdiv : c / 2 ^ f.mb ≤ d / 2 ^ f.mb := Nat.div_le_div_right hcd
  rw [parts_normal hd]
  rcases Nat.lt_or_ge c (2 ^ f.mb) with h | h
  · rw [parts_subnormal h]
    exact ⟨by dsimp only; omega,
      (by omega : c ≤ 2 ^ f.mb + d % 2 ^ f.mb).trans (Nat.le_mul_of_pos_right _ (by positivity))⟩
  rw [parts_normal h]
  refine ⟨by dsimp only; omega, ?_⟩
  rcases hdiv.eq_or_lt with heq | hlt
  · have hc := Nat.div_add_mod' c (2 ^ f.mb)
    have hd := Nat.div_add_mod' d (2 ^ f.mb)
    simp only [heq, Int.sub_self, Int.toNat_zero, pow_zero, mul_one] at hc ⊢
    omega
  · calc 2 ^ f.mb + c % 2 ^ f.mb ≤ (2 ^ f.mb + d % 2 ^ f.mb) * 2 := by
          have := Nat.mod_lt c (show 0 < 2 ^ f.mb by positivity)
          omega
      _ ≤ _ := Nat.mul_le_mul_left _ (Nat.le_self_pow (by dsimp only; omega) 2)

/-- A magnitude up to n × 2^(e + d) does not exceed it. -/
theorem magGe_strict_of_le {m n d : Nat} {e : Int} (h : m ≤ n * 2 ^ d) : magGe true m e n (e + d) = false := by
  simp [magGe, h]

/-- A magnitude up to n × 2^(e + d) lies below n and a half, times 2^(e + d). -/
theorem magGe_half_of_le {m n d : Nat} {e : Int} (h : m ≤ n * 2 ^ d) :
    magGe false m e (2 * n + 1) (e + d - 1) = false := by
  cases d with
  | zero =>
    rw [pow_zero, mul_one] at h
    have hlt : m * 2 < 2 * n + 1 := by omega
    simpa [magGe] using hlt
  | succ d =>
    have hmin : min e (e + (d + 1 : Nat) - 1) = e := by omega
    have hexp : (e + (d + 1 : Nat) - 1 - e).toNat = d := by omega
    have hlt : m < (2 * n + 1) * 2 ^ d := by
      calc m ≤ 2 * n * 2 ^ d := by rwa [Nat.mul_comm 2, Nat.mul_assoc, ← Nat.pow_succ']
        _ < (2 * n + 1) * 2 ^ d := Nat.mul_lt_mul_of_pos_right (Nat.lt_succ_self _) (by positivity)
    simp only [magGe, hmin, hexp]
    simpa using hlt

/-- A magnitude that is at most the largest finite one does not overflow, whatever the mode (R147). -/
theorem over_eq_false {m : Nat} {e : Int} (mode : Nat) (he : e ≤ f.largest.2)
    (hm : m ≤ f.largest.1 * 2 ^ (f.largest.2 - e).toNat) : f.over mode m e = false := by
  obtain ⟨d, hd⟩ := Int.le.dest he
  rw [← hd, add_sub_cancel_left, Int.toNat_natCast] at hm
  simp [Fmt.over, ← hd, magGe_strict_of_le hm, magGe_half_of_le hm]

/-- The value of a finite code is rounded back to it (R137, R146). -/
theorem round_decode {b m : Nat} {neg : Bool} {e : Int} (h : f.Proper) (hb : b < 2 ^ f.width)
    (hd : f.decode b = .fin neg m e) (mode draw : Nat) (sat : Bool) :
    f.round mode sat draw (.fin neg m e) = { code := b } := by
  obtain ⟨rfl, hparts, hmax⟩ := decode_fin h hd
  obtain ⟨hexp, hmag⟩ := parts_mono h.largestNormal hmax
  have henc := encode_parts f mode draw (f.mag b)
  rw [hparts] at hexp hmag henc
  rw [← largest_eq_parts h] at hexp hmag
  simp [round, over_eq_false mode hexp hmag, henc, signed_mag hb]

/-- The nine floating-point formats of R137 are proper. -/
theorem proper_of_mem (h : f ∈ [fp64, fp32, bf16, fp16, e4m3, e5m2, e3m2, e2m3, e2m1]) : f.Proper := by
  have hall : ∀ g ∈ [fp64, fp32, bf16, fp16, e4m3, e5m2, e3m2, e2m3, e2m1],
      2 ^ g.mb ≤ g.maxCode ∧ (g.sp = .e4m3 → g.eb + g.mb = 7) := by decide
  obtain ⟨hnormal, hbits⟩ := hall f h
  exact ⟨hnormal, hbits⟩

end Machine.Fmt

/-- Settles O12: a finite code decodes to the parts of its magnitude code, which encode to it and do not overflow. -/
theorem floatCodesRoundTrip : Obligations.FloatCodesRoundTrip :=
  fun _ hf _ hb _ _ _ hd mode draw sat _ => Fmt.round_decode (Fmt.proper_of_mem hf) hb hd mode draw sat

end Sys2Proof

namespace Sys2Proof
open Machine

/-! # Block scales, zeros, MAX, MIN, ABS, NEG and integer compute (O11)

The rules of zeros and of one NaN are facts of `Num`. Integer compute turns on one fact: an integer rounded to `w` bits
is only saturated, whatever the mode (`roundInt_saturates`). A VEC does so once for INT32, and once more for INT8. -/

namespace Machine

/-! ## Zeros (R143) -/

theorem signedOf_not (a : Bool) (m : Nat) : signedOf (!a) m = -signedOf a m := by cases a <;> simp [signedOf]

theorem signedOf_zero (a : Bool) : signedOf a 0 = 0 := by cases a <;> rfl

namespace Num

/-- An exact sum of opposite operands is +0 (R143). -/
theorem add_opposite (a : Bool) (m : Nat) (e : Int) : add (.fin a m e) (.fin (!a) m e) = .fin false 0 e := by
  simp [add, signedOf_not, ofInt]

theorem add_zeros (a : Bool) (e g : Int) : add (.fin a 0 e) (.fin a 0 g) = .fin a 0 (Min.min e g) := by
  simp [add, signedOf_zero, ofInt]

theorem mul_zero_right (a b : Bool) (m : Nat) (e g : Int) : mul (.fin a m e) (.fin b 0 g) = .fin (a != b) 0 (e + g) :=
  rfl

theorem mul_zero_left (a b : Bool) (m : Nat) (e g : Int) : mul (.fin b 0 g) (.fin a m e) = .fin (a != b) 0 (e + g) := by
  simp [mul, Bool.xor_comm, Int.add_comm]

/-- −0 lies below +0 (R143). -/
theorem lt_zeros (a b : Bool) (e g : Int) : lt (.fin a 0 e) (.fin b 0 g) = (a && !b) := by simp [lt]

theorem max_zeros (e g : Int) : max (.fin true 0 e) (.fin false 0 g) = .fin false 0 g ∧
    max (.fin false 0 g) (.fin true 0 e) = .fin false 0 g := by
  simp [max, lt_zeros]

theorem min_zeros (e g : Int) : min (.fin true 0 e) (.fin false 0 g) = .fin true 0 e ∧
    min (.fin false 0 g) (.fin true 0 e) = .fin true 0 e := by
  simp [min, lt_zeros]

/-! ## One NaN (R163) -/

theorem max_nan_left (x : Num) : max .nan x = x := by cases x <;> rfl
theorem max_nan_right (x : Num) : max x .nan = x := by cases x <;> rfl
theorem min_nan_left (x : Num) : min .nan x = x := by cases x <;> rfl
theorem min_nan_right (x : Num) : min x .nan = x := by cases x <;> rfl

end Num

/-- MAX and MIN return the other operand of one NaN. -/
theorem vecExact_maxMin_nan {fn : Nat} (hfn : fn = 5 ∨ fn = 6) (s x z : Num) :
    vecExact fn s .nan x z = x ∧ vecExact fn s x .nan z = x := by
  rcases hfn with rfl | rfl
  · exact ⟨Num.max_nan_left x, Num.max_nan_right x⟩
  · exact ⟨Num.min_nan_left x, Num.min_nan_right x⟩

/-- ABS and NEG of a NaN are a NaN. -/
theorem vecExact_absNeg_nan {fn : Nat} (hfn : fn = 0xA ∨ fn = 0xB) (s y z : Num) : vecExact fn s .nan y z = .nan := by
  rcases hfn with rfl | rfl <;> rfl

/-! ## A zero is rounded to the zero of its sign -/

namespace Fmt

theorem over_zero (f : Fmt) (mode : Nat) (e : Int) : f.over mode 0 e = false := by
  simp [Fmt.over, magGe]

theorem round_zero (f : Fmt) (mode draw : Nat) (sat neg : Bool) (e : Int) :
    f.round mode sat draw (.fin neg 0 e) = { code := f.signed neg 0 } := by
  simp [round, over_zero, encode]

end Fmt

/-! ## Integers of `w` bits (R149, R164) -/

theorem signedOf_natAbs (i : Int) : signedOf (decide (i < 0)) i.natAbs = i := by
  simp only [signedOf, decide_eq_true_eq]
  split <;> omega

/-- An integer is rounded by saturation alone, whatever the mode. -/
theorem roundInt_ofInt (w mode r : Nat) (i : Int) :
    roundInt w mode r (Num.ofInt false i 0) = ⟨wrapI w (satInt w i).1, false, (satInt w i).2⟩ := by
  by_cases h : i = 0
  · simp [Num.ofInt, h, roundInt, toUnits, signedOf]
  · simp [Num.ofInt, h, roundInt, toUnits, signedOf_natAbs]

section Width

variable {w : Nat} {i : Int}

theorem satInt_above (h : 2 ^ (w - 1) ≤ i) : satInt w i = (2 ^ (w - 1) - 1, true) := by
  simp [satInt, show (2 : Int) ^ (w - 1) - 1 < i by omega]

theorem satInt_below (h : i < -2 ^ (w - 1)) : satInt w i = (-2 ^ (w - 1), true) := by
  have : (0 : Int) < 2 ^ (w - 1) := by positivity
  simp [satInt, h, show ¬ (2 : Int) ^ (w - 1) - 1 < i by omega]

theorem satInt_within (hlo : -2 ^ (w - 1) ≤ i) (hhi : i < 2 ^ (w - 1)) : satInt w i = (i, false) := by
  simp [satInt, show ¬ (2 : Int) ^ (w - 1) - 1 < i by omega, hlo]

theorem wrapI_natCast {n : Nat} (h : n < 2 ^ w) : wrapI w n = n := by
  rw [wrapI, ← Int.natCast_emod, Int.toNat_natCast, Nat.mod_eq_of_lt h]

theorem wrapI_neg {n : Nat} (hpos : 0 < n) (h : n ≤ 2 ^ w) : wrapI w (-n) = 2 ^ w - n := by
  have hmod : (-n : Int) % (2 ^ w : Nat) = ((2 ^ w - n : Nat) : Int) := by
    rw [← Int.add_emod_right, Int.emod_eq_of_lt] <;> omega
  rw [wrapI, hmod, Int.toNat_natCast]

/-- An integer of 32 bits is read back from its image. -/
theorem sext_wrapI (hlo : -2 ^ 31 ≤ i) (hhi : i < 2 ^ 31) : sext 32 (wrapI 32 i) = i := by
  unfold sext wrapI
  split <;> omega

end Width

/-- How an integer is written in `w` bits (R149): as its image, or as the end of the range that it is past. -/
def Saturates (w : Nat) (i : Int) (r : Rnd) : Prop :=
  (2 ^ (w - 1) ≤ i → r.code = 2 ^ (w - 1) - 1 ∧ r.sat = true) ∧
  (i < -2 ^ (w - 1) → r.code = 2 ^ (w - 1) ∧ r.sat = true) ∧
  (-2 ^ (w - 1) ≤ i → i < 2 ^ (w - 1) → r.code = wrapI w i ∧ r.sat = false)

theorem roundInt_saturates {w : Nat} (hw : 0 < w) (mode r : Nat) (i : Int) :
    Saturates w i (roundInt w mode r (Num.ofInt false i 0)) := by
  have hpow : 2 ^ w = 2 * 2 ^ (w - 1) := by rw [← pow_succ', Nat.sub_one_add_one hw.ne']
  have hpos : 0 < 2 ^ (w - 1) := by positivity
  have hmax : wrapI w (2 ^ (w - 1) - 1) = 2 ^ (w - 1) - 1 := by
    simpa [Nat.cast_sub hpos] using wrapI_natCast (w := w) (n := 2 ^ (w - 1) - 1) (by omega)
  have hmin : wrapI w (-2 ^ (w - 1)) = 2 ^ (w - 1) := by
    have := wrapI_neg (w := w) hpos (by omega)
    rw [Nat.cast_pow] at this
    simpa [hpow, Nat.two_mul] using this
  rw [roundInt_ofInt]
  refine ⟨fun h => ?_, fun h => ?_, fun hlo hhi => ?_⟩
  · simp [satInt_above h, hmax]
  · simp [satInt_below h, hmin]
  · simp [satInt_within hlo hhi]

/-- Integer compute is INT32 (R164). -/
theorem vecResult_int32 {fn : Nat} (hfn : fn ≠ 9) (rm r : Nat) (sat : Bool) (x : Num) :
    (vecResult fn 0xF 0xF rm sat r x).1 = roundInt 32 0 0 x := by
  simp [vecResult, hfn, isInt]

/-- A result of INT32 is narrowed to INT8 by a second saturation. -/
theorem vecResult_int8 {fn : Nat} (hfn : fn ≠ 9) (rm r : Nat) (sat : Bool) (x : Num) :
    (vecResult fn 0xF 0xE rm sat r x).1 =
      roundInt 8 0 0 (Num.ofInt false (sext 32 (roundInt 32 0 0 x).code) 0) := by
  simp [vecResult, hfn, isInt, elemNum, fmtOf, bitsOfFmt]

end Machine

/-- Settles O11: zeros and NaNs case by case, integer compute by one saturation to INT32 and one more to INT8. -/
theorem numbersFollowTheRules : Obligations.NumbersFollowTheRules := by
  refine ⟨fun v hv => if_neg hv.ne, rfl,
    fun a m e g => ⟨Num.add_opposite a m e, Num.add_zeros a e g,
      fun b => ⟨Num.mul_zero_right a b m e g, Num.mul_zero_left a b m e g⟩⟩,
    fun e g => and_assoc.1 ⟨Num.max_zeros e g, Num.min_zeros e g⟩,
    fun f rm d sat a e => f.round_zero rm d sat a e, fun fn s x z hfn => vecExact_maxMin_nan hfn s x z,
    fun fn s y z hfn => vecExact_absNeg_nan hfn s y z, fun f rm sat d => rfl,
    fun a m e s y z => ⟨rfl, rfl, rfl, rfl⟩, fun fn rm d sat i hfn => ?_, fun fn rm d sat i hfn hlo hhi => ?_⟩
  · rw [vecResult_int32 hfn]
    exact roundInt_saturates (w := 32) (by decide) 0 0 i
  · obtain ⟨-, -, hwithin⟩ := roundInt_saturates (w := 32) (by decide) 0 0 i
    obtain ⟨hcode, -⟩ := hwithin hlo hhi
    rw [vecResult_int8 hfn, hcode, sext_wrapI hlo hhi]
    exact roundInt_saturates (w := 8) (by decide) 0 0 i

end Sys2Proof

namespace Sys2Proof
open Machine Claims

/-! # Lines at the memory controllers (O39) -/

section Lines

variable {s : State} {m pa : Nat}

theorem landing_of_atMc (h : atMc s m pa = true) : ∃ x, landing s pa = some (m, x) := by
  have hl : (landing s pa).map (·.1) = some m := by simpa [atMc] using h
  obtain ⟨⟨m', x⟩, hx, rfl⟩ := Option.map_eq_some_iff.1 hl
  exact ⟨x, hx⟩

/-! ## Reads and writes without an injection (R194, R216-R219) -/

/-- A line neither bad nor the target of an injection reads as the memory answers. -/
theorem readEnd_plain (ue : Retry) (hbad : s.mem.bad.contains (pa / 64) = false)
    (hinj : injMode s (mcBlk m) 0 (fun t => t = pa / 64) = none) : readEnd s m pa ue = ue := by
  rw [readEnd, hinj, hbad]
  rfl

theorem readOutcome_clean (lastBit lastKind cause : Nat) (hbad : s.mem.bad.contains (pa / 64) = false)
    (hinj : injMode s (mcBlk m) 0 (fun t => t = pa / 64) = none) :
    readOutcome m pa false false .clean lastBit lastKind cause s = s := by
  simp [readOutcome, readEnd_plain .clean hbad hinj, hinj]

theorem readOutcome_lasting (lastBit lastKind cause : Nat) (hbad : s.mem.bad.contains (pa / 64) = false)
    (hinj : injMode s (mcBlk m) 0 (fun t => t = pa / 64) = none) :
    readOutcome m pa false false .lasting lastBit lastKind cause s = markBad pa false (badFrame m cause pa false
      (logError m lastKind pa false (eventG false (mcHalf m) (mcBlk m) lastBit 0 pa s))) := by
  simp [readOutcome, readEnd_plain .lasting hbad hinj, hinj]

theorem writeEnd_plain (r : Retry) (hinj : injMode s (mcBlk m) 1 (fun t => t = pa / 64) = none) :
    writeEnd s m pa r = r := by
  rw [writeEnd, hinj]
  rfl

theorem writeOutcome_clean (hinj : injMode s (mcBlk m) 1 (fun t => t = pa / 64) = none) :
    writeOutcome m pa .clean s = s := by
  simp [writeOutcome, writeEnd_plain .clean hinj, hinj]

theorem memNote_read {x : Nat × Nat} (hl : landing s pa = some (m, x)) (ag : Agent) (part ode ce : Bool)
    (ue wf : Retry) : memNote ag false part pa ode ce ue wf s =
      readOutcome m pa ode ce ue 9 2 3 (count (mcBlk m) 56 64 (request m (agentPort ag) (agentSite ag) pa s)) := by
  simp [memNote, hl]

theorem memNote_read_clean {x : Nat × Nat} (hl : landing s pa = some (m, x)) (ag : Agent) (wf : Retry)
    (hbad : s.mem.bad.contains (pa / 64) = false) (hinj : injMode s (mcBlk m) 0 (fun t => t = pa / 64) = none) :
    memNote ag false false pa false false .clean wf s =
      count (mcBlk m) 56 64 (request m (agentPort ag) (agentSite ag) pa s) := by
  rw [memNote_read hl]
  exact readOutcome_clean 9 2 3 hbad hinj

theorem memNote_write_clean {x : Nat × Nat} (hl : landing s pa = some (m, x)) (ag : Agent) (ode ce : Bool) (ue : Retry)
    (hinj : injMode s (mcBlk m) 1 (fun t => t = pa / 64) = none) :
    memNote ag true false pa ode ce ue .clean s =
      count (mcBlk m) 57 64 (request m (agentPort ag) (agentSite ag) pa s) := by
  have hinj' : injMode (request m (agentPort ag) (agentSite ag) pa s) (mcBlk m) 1 (fun t => t = pa / 64) = none := hinj
  simp [memNote, hl, writeEnd_plain .clean hinj', writeOutcome_clean hinj']

/-! ## A lasting error leaves its bit and its mark (R216, R220) -/

theorem eventG_kept (inj : Bool) (h : Half) (blk bit code info : Nat) (s : State) :
    BookKept s (eventG inj h blk bit code info s) := by
  refine ⟨congrArg frameBook (eventG_only inj h blk bit code info s .led (by decide)), fun b i hi => ?_⟩
  rw [sts_eventG]
  split
  · rw [BitVec.getLsbD_or, hi, Bool.true_or]
  · exact hi

theorem logError_kept (m kind pa : Nat) (inj : Bool) (s : State) : BookKept s (logError m kind pa inj s) :=
  .branch (eventG_kept _ _ _ _ _ _ s) (.ofOnly (modMc_only _ _ _) (by decide) (by decide))

theorem flashCheck_kept (lo n : Nat) (s : State) : BookKept s (flashCheck lo n s).2 := by
  unfold flashCheck
  split
  · exact .refl s
  · exact .after (eventG_kept _ _ _ _ _ _ _) (disarm_kept _ _)

theorem flashTry_kept {α : Type} (d : Dual α) (lo n : Nat) (r : Retry) (s : State) :
    BookKept s (flashTry d lo n r s).2 := by
  unfold flashTry
  split
  · exact event_kept _ _ _ _ s
  · exact flashCheck_kept _ _ s

theorem addDefect_kept (kind cause loc : Nat) (r : Retry) (s : State) : BookKept s (addDefect kind cause loc r s) := by
  have hput (v : Start) (u : State) : BookKept u { u with start := v } :=
    .ofOnly (putStart_only v u) (by decide) (by decide)
  have hflash (f : Flash) (v : Start) (u : State) : BookKept u { u with flash := f, start := v } :=
    .ofOnly (putFlashStart_only f v u) (by decide) (by decide)
  unfold addDefect
  refine .branch (.refl s) (.branch (.after (hput _ _) (hput _ s)) ?_)
  exact .after (hflash _ _ _) (.after (flashTry_kept _ _ _ _ _) (hput _ s))

theorem badFrame_kept (m cause pa : Nat) (inj : Bool) (s : State) : BookKept s (badFrame m cause pa inj s) :=
  .branch (.refl s) (addDefect_kept _ _ _ _ s)

theorem markBad_kept (pa : Nat) (inj : Bool) (s : State) : BookKept s (markBad pa inj s) :=
  .ofOnly (markBad_only _ _ _) (by decide) (by decide)

theorem mem_bad_markBad (pa : Nat) (s : State) : pa / 64 ∈ (markBad pa false s).mem.bad := by
  unfold markBad
  split
  · next h => simpa using h
  · simp

theorem readOutcome_lasting_marks {lastBit : Nat} (lastKind cause : Nat) (hbit : lastBit < 32)
    (hbad : s.mem.bad.contains (pa / 64) = false) (hinj : injMode s (mcBlk m) 0 (fun t => t = pa / 64) = none) :
    let t := readOutcome m pa false false .lasting lastBit lastKind cause s
    (win t (mcBlk m)).sts.getLsbD lastBit = true ∧ pa / 64 ∈ t.mem.bad := by
  rw [readOutcome_lasting lastBit lastKind cause hbad hinj]
  refine ⟨?_, mem_bad_markBad pa _⟩
  exact (BookKept.after (markBad_kept _ _ _) (.after (badFrame_kept _ _ _ _ _) (logError_kept _ _ _ _ _))).sts _ _
    (eventG_sets _ _ _ _ s hbit)

/-! ## Whole lines written (R194) -/

theorem maskWrite_all (l : List Byte) : ∀ (a : Nat) (m : Memory), maskWrite a (l.map some) m = Memory.store m a l := by
  induction l with
  | nil => exact fun _ _ => rfl
  | cons b r ih => exact fun a m => ih (a + 1) (Memory.write m a b)

theorem wholeWords_all {l : List Byte} (h : l.length = 64) : wholeWords (l.map some) = true := by
  refine List.all_eq_true.2 fun w hw => ?_
  have hw8 : w < 8 := List.mem_range.1 hw
  have hlen : ((l.drop (8 * w)).take 8).length = 8 := by simp; omega
  simp only [← List.map_drop, ← List.map_take, List.all_map, List.length_map, hlen]
  simp

end Lines

/-! ## The commands of a controller -/

section Controllers

variable {s : State} {mc : Fin 24} {pa : Nat} {who : Requester}

theorem lineHeld_open (h : s.brRetrain = false) (mc : Nat) (ag : Agent) : lineHeld s mc ag = false := by
  simp [lineHeld, h]

variable (hr : s.power.rails = true) (ha : absentBlk s (mcBlk mc) = false)
include hr ha

theorem exec_memRead_unbacked (ode ce : Bool) (ue : Retry) (hb : backed s pa = false) (hopen : s.brRetrain = false) :
    exec (.memRead mc pa ode ce ue who) s = .next (event (mcBlk mc) 4 0 pa s) := by
  change execMemRead mc pa ode ce ue s who = _
  simp [execMemRead, hr, ha, hb, lineHeld_open hopen]

variable (hb : backed s pa = true) (hat : atMc s mc pa = true)
include hb hat

theorem exec_scrubRead_clean (hbad : s.mem.bad.contains (pa / 64) = false)
    (hinj : injMode s (mcBlk mc) 0 (fun t => t = pa / 64) = none) :
    exec (.scrubRead mc pa false .clean) s = .next (modMc mc takeSlot (count (mcBlk mc) 58 1 s)) := by
  change execScrubRead mc pa false .clean s = _
  have hclean := readOutcome_clean (s := modMc mc takeSlot (count (mcBlk mc) 58 1 s)) 12 5 5 hbad hinj
  simp [execScrubRead, hr, ha, hb, hat, hclean]

variable (hopen : s.brRetrain = false)
include hopen

theorem exec_memRead_line (ue : Retry) :
    exec (.memRead mc pa false false ue who) s = .next (readOutcome mc pa false false ue 9 2 3 (count (mcBlk mc) 56 64
      (request mc (agentPort (requester who)) (agentSite (requester who)) pa s))) := by
  obtain ⟨x, hl⟩ := landing_of_atMc hat
  change execMemRead mc pa false false ue s who = _
  simp [execMemRead, hr, ha, hb, hat, lineHeld_open hopen, memNote_read hl]

theorem memRead_clean (hbad : s.mem.bad.contains (pa / 64) = false)
    (hinj : injMode s (mcBlk mc) 0 (fun t => t = pa / 64) = none) :
    exec (.memRead mc pa false false .clean who) s =
      .next (count (mcBlk mc) 56 64 (request mc (agentPort (requester who)) (agentSite (requester who)) pa s)) :=
  (exec_memRead_line hr ha hb hat hopen .clean).trans (congrArg _ (readOutcome_clean 9 2 3 hbad hinj))

theorem memRead_lasting (hbad : s.mem.bad.contains (pa / 64) = false)
    (hinj : injMode s (mcBlk mc) 0 (fun t => t = pa / 64) = none) :
    ∃ t, exec (.memRead mc pa false false .lasting who) s = .next t ∧ (win t (mcBlk mc)).sts.getLsbD 9 ∧
      pa / 64 ∈ t.mem.bad :=
  ⟨_, exec_memRead_line hr ha hb hat hopen .lasting, readOutcome_lasting_marks (lastBit := 9) 2 3 (by decide) hbad hinj⟩

theorem exec_memWrite_line {l : List Byte} (hlen : l.length = 64) (hpa : pa % 64 = 0)
    (hinj : injMode s (mcBlk mc) 1 (fun t => t = pa / 64) = none) :
    exec (.memWrite mc pa (l.map some) .clean .clean who) s = .next (tableWrite pa (l.map some) (storePhys pa l
      (clearBad pa (count (mcBlk mc) 57 64
        (request mc (agentPort (requester who)) (agentSite (requester who)) pa s))))) := by
  obtain ⟨x, hl⟩ := landing_of_atMc hat
  have hwhole : (l.map some).take 64 = l.map some := List.take_of_length_le (by simp [hlen])
  have hall : (l.map some).all (·.isSome) = true := by simp
  change execMemWrite mc pa (l.map some) .clean .clean s who = _
  simp [execMemWrite, hr, ha, hb, hat, hpa, hlen, hwhole, wholeWords_all hlen, lineHeld_open hopen,
    memNote_write_clean hl _ _ _ _ hinj, writeEnd_plain .clean hinj, maskWrite_all, storePhys]

theorem memWrite_stores {l : List Byte} (hlen : l.length = 64) (hpa : pa % 64 = 0)
    (hinj : injMode s (mcBlk mc) 1 (fun t => t = pa / 64) = none) :
    ∃ t, exec (.memWrite mc pa (l.map some) .clean .clean who) s = .next t ∧ Only [.phys, .mcs, .xl, .ctr] s t ∧
      pa / 64 ∉ t.mem.bad ∧
      (∀ a, Memory.read t.mem.phys a = if pa ≤ a ∧ a < pa + 64 then l.getD (a - pa) 0 else Memory.read s.mem.phys a) ∧
      ctr t (mcBlk mc) 57 = (ctr s (mcBlk mc) 57 + 64) % 2 ^ 64 := by
  have htable (u : State) := tableWrite_only pa (l.map some) u
  refine ⟨_, exec_memWrite_line hr ha hb hat hopen hlen hpa hinj,
    .sub (.after (htable _) (.after (storePhys_only _ _ _) (.after (clearBad_only _ _)
      (.after (count_only _ _ _ _) (request_only _ _ _ _ _))))) rfl, ?_, fun a => ?_, ?_⟩
  · rw [(htable _ .mcs (by decide)).2]
    simp [clearBad]
  · rw [htable _ .phys (by decide), storePhys_phys, Memory.read_store, hlen]
    rfl
  · rw [ctr, htable _ .ctr (by decide)]
    exact FMap.get_set_self ..

end Controllers

/-! ## The temperature of a stack (R221) -/

theorem exec_stackTempReport {s : State} (st : Fin 16) (temp : Nat) (hr : s.power.rails = true) :
    exec (.stackTempReport st temp) s = .next (modMc st (fun m => { m with refresh2 := decide (85 < temp) })
      (if 85 < temp ∧ (mcOf s st).refresh2 = false then event (mcBlk st) 14 0 0 s else s)) := by
  change execStackTempReport st temp s = _
  simp [execStackTempReport, hr]

theorem stackTempReport_refreshes {s : State} (st : Fin 16) (temp : Nat) (hr : s.power.rails = true) :
    ∃ t, exec (.stackTempReport st temp) s = .next t ∧ (mcOf t st).refresh2 = decide (85 < temp) ∧
      (85 < temp → (mcOf s st).refresh2 = false → (win t (mcBlk st)).sts.getLsbD 14) := by
  refine ⟨_, exec_stackTempReport st temp hr, ?_, fun htemp hcool => ?_⟩
  · rw [mc_modMc, if_pos rfl]
  · rw [if_pos ⟨htemp, hcool⟩]
    exact event_sets 0 0 s (by decide)

end Sys2Proof

namespace Sys2Proof
open Machine Claims

/-! # The arbiters (O39) -/

section Arbiters

/-! ## Values of a port -/

theorem Machine.modNth_eq_set {α : Type} {l : List α} {i : Nat} {x : α} (f : α → α) (h : l[i]? = some x) :
    modNth l i f = l.set i (f x) := by
  simp [modNth, h]

theorem Machine.nth_modNth (l : List Nat) (i j : Nat) (f : Nat → Nat) :
    nth (modNth l i f) j = if i = j ∧ i < l.length then f (nth l i) else nth l j := by
  unfold modNth
  split
  · next x hx =>
    obtain ⟨hi, rfl⟩ := List.getElem?_eq_some_iff.1 hx
    by_cases hij : i = j
    · subst hij; simp [nth, hi]
    · simp [nth, hij]
  · next hnone => simp [List.getElem?_eq_none_iff.1 hnone]

theorem Machine.nth_modNth_self {l : List Nat} {i : Nat} (f : Nat → Nat) (h : i < l.length) :
    nth (modNth l i f) i = f (nth l i) := by
  rw [nth_modNth, if_pos ⟨rfl, h⟩]

theorem Machine.nth_modNth_other {i j : Nat} (l : List Nat) (f : Nat → Nat) (h : j ≠ i) :
    nth (modNth l i f) j = nth l j := by
  rw [nth_modNth, if_neg fun hij => h hij.1.symm]

theorem Machine.nth_map_range {n k : Nat} (f : Nat → Nat) (h : k < n) : nth ((List.range n).map f) k = f k := by
  simp [nth, h]

variable {m : Mc} {clk : Nat}

/-! ## Windows and weights (R230-R232) -/

/-- Within a window nothing is refilled. -/
theorem refillTo_same (h : m.window = clk / 4096 + 1) : refillTo clk m = m := by
  simp [refillTo, h]

theorem refillTo_window_next (h : clk / 4096 = m.window) : (refillTo clk m).window = clk / 4096 + 1 := by
  simp [refillTo, h]

theorem refillTo_credit_next {k : Nat} (h : clk / 4096 = m.window) (hk : k < 8) :
    nth (refillTo clk m).credit k = min 4095 (nth m.credit k + nth m.weight k) := by
  have hone : clk / 4096 + 1 - m.window = 1 := by omega
  simp only [refillTo, hone, Nat.one_ne_zero, if_false, one_mul]
  exact nth_map_range _ hk

theorem advanceTo_idle (h : m.writes = []) : advanceTo clk m = refillTo clk m := by
  obtain ⟨⟩ := m
  cases h
  rfl

theorem advanceTo_same (h : m.writes = []) (hw : m.window = clk / 4096 + 1) : advanceTo clk m = m := by
  rw [advanceTo_idle h, refillTo_same hw]

/-- The registers of an arbiter that waits for one weight write of its clock. -/
theorem arbView_written {p w : Nat} (h : m.writes = [(m.clock, p, w)]) (hw : m.window = m.clock / 4096 + 1) :
    arbView m =
      { m with weight := modNth m.weight p (fun _ => w), credit := modNth m.credit p (fun c => min c w) } := by
  have hlands : weightLands m (m.clock, p, w) =
      { m with weight := modNth m.weight p (fun _ => w), credit := modNth m.credit p (fun c => min c w) } := by
    rw [weightLands, refillTo_same hw]
  rw [arbView, h, List.foldl_cons, List.foldl_nil, hlands, refillTo_same (by exact hw)]
  simp only [h]

/-! ## A request alone at an arbiter (R225, R228, R235) -/

theorem splitBursts_within {line n f : Nat} (who at_ : Nat) (hpos : 0 < n) (hfit : line % 16 + n ≤ 16) :
    splitBursts who at_ (f + 1) line n = [{ who := who, gran := line / 16, lines := n, at_ := at_ }] := by
  have hmin : min n (16 - line % 16) = n := by omega
  have hrest : splitBursts who at_ f (line + n) 0 = [] := by cases f <;> rfl
  simp only [splitBursts, if_neg hpos.ne', hmin, Nat.sub_self, hrest]

/-- The burst that a request within one granule is. -/
def burstOf (a : Arrival) : Burst := { who := a.who, gran := a.line / 16, lines := a.lines, at_ := a.clock }

theorem arrives_alone {a : Arrival} (hm : m.ports = List.replicate 8 []) (hp : a.port < 8) (hpos : 0 < a.lines)
    (hfit : a.line % 16 + a.lines ≤ 16) :
    arrives m a = { m with ports := (List.replicate 8 []).set a.port [burstOf a] } := by
  have hat : (List.replicate 8 ([] : List Burst))[a.port]? = some [] := by rw [List.getElem?_replicate, if_pos hp]
  rw [arrives, hm, splitBursts_within _ _ hpos hfit, modNth_eq_set _ hat]
  rfl

section Alone

variable {p : Nat} {b : Burst} (hm : m.ports = (List.replicate 8 []).set p [b]) (hp : p < 8)
include hm hp

theorem headBurst_alone (i : Nat) : headBurst m i = if i = p then some b else none := by
  rw [headBurst, hm, List.getD_eq_getElem?_getD, List.getElem?_set, List.getElem?_replicate, List.length_replicate,
    if_pos hp]
  by_cases h : i = p
  · rw [if_pos h.symm, if_pos h]; rfl
  · rw [if_neg (Ne.symm h), if_neg h]
    split <;> rfl

omit hm in
theorem winner_alone (lp : Bool) : winner m lp [p] = some p := by
  cases lp with
  | false => rfl
  | true =>
    have hturn : ((List.range 8).map (fun i => (m.rot + i) % 8)).find? (fun i => [p].contains i) ≠ none := by
      simp only [ne_eq, List.find?_eq_none, not_forall, not_not]
      exact ⟨p, List.mem_map.2 ⟨(p + 8 - m.rot % 8) % 8, by simp; omega, by omega⟩, by simp⟩
    obtain ⟨w, hw⟩ := Option.ne_none_iff_exists'.1 hturn
    have hwp : w = p := by simpa using List.find?_some hw
    exact hw.trans (congrArg _ hwp)

/-- The one burst that waits is taken (R228, R234, R235). -/
theorem decideAt_alone (lp : Bool) (hb : b.at_ < clk) (hcredit : m.credit.length = 8) (hgrant : m.grant.length = 8)
    (hwait : m.waitMax.length = 8) :
    (decideAt lp clk m).clock = clk + 1 ∧ (decideAt lp clk m).pathFree = clk + 1 + slotsOf lp b.lines ∧
      (decideAt lp clk m).ports = List.replicate 8 [] ∧
      nth (decideAt lp clk m).grant p = (nth m.grant p + 1) % 2 ^ 64 ∧
      nth (decideAt lp clk m).credit p = (if lp then nth m.credit p else nth m.credit p - slotsOf lp b.lines) ∧
      nth (decideAt lp clk m).waitMax p = max (nth m.waitMax p) (min (clk - b.at_) 0xFFFFFFFF) := by
  have hhead : headBurst m p = some b := by rw [headBurst_alone hm hp, if_pos rfl]
  have hports : modNth m.ports p (popBurst clk) = List.replicate 8 [] := by
    rw [hm, modNth_eq_set _ (List.getElem?_set_self (by simpa using hp)), List.set_set]
    exact List.set_replicate_self
  unfold decideAt
  dsimp only
  generalize hq : List.filter _ (List.range 8) = ask
  have hask : ask = [p] := by
    have honly : (List.range 8).filter (fun i => decide (i = p)) = [p] := by
      interval_cases p <;> rfl
    rw [← hq, ← honly]
    refine List.filter_congr fun i _ => ?_
    rw [headBurst_alone hm hp]
    by_cases h : i = p <;> simp [h, hb]
  simp only [hask, winner_alone hp, hhead, Option.getD_some, hports, true_and]
  refine ⟨nth_modNth_self _ (by omega), ?_, nth_modNth_self _ (by omega)⟩
  cases lp with
  | true => rfl
  | false => exact nth_modNth_self _ (by omega)

end Alone

/-! ## The commands of an arbiter -/

section Commands

variable {s : State}

theorem modMc_congr {i : Nat} {f g : Mc → Mc} (h : f (mcOf s i) = g (mcOf s i)) : modMc i f s = modMc i g s := by
  have hmod : FMap.mod {} s.mem.mcs i f = FMap.mod {} s.mem.mcs i g := congrArg (FMap.set ({} : Mc) s.mem.mcs i) h
  rw [modMc, modMc, hmod]

theorem exec_arbWeightWrite (st : Fin 16) (n : Fin 8) (w : BitVec 12) {clk : Nat} (hr : s.power.rails = true)
    (hw : (mcOf s st).writes = []) (hwin : (mcOf s st).window = clk / 4096 + 1) (hclk : (mcOf s st).clock ≤ clk) :
    exec (.arbWeightWrite st n w clk) s =
      .next (modMc st (fun m => { m with writes := [(clk, n.val, w.toNat)], clock := clk }) s) := by
  change execArbWeightWrite st n w clk s = _
  rw [execArbWeightWrite, onlyIf_true _ _ hr]
  refine congrArg _ (modMc_congr ?_)
  simp only [advanceTo_same hw hwin, hw, List.nil_append, max_eq_right hclk]

theorem arbWeightWrite_lands (st : Fin 16) (n : Fin 8) (w : BitVec 12) {clk : Nat} (hr : s.power.rails = true)
    (hw : (mcOf s st).writes = []) (hwin : (mcOf s st).window = clk / 4096 + 1) (hclk : (mcOf s st).clock ≤ clk)
    (hcredit : (mcOf s st).credit.length = 8) (hweight : (mcOf s st).weight.length = 8) :
    ∃ t, exec (.arbWeightWrite st n w clk) s = .next t ∧ Only [.mcs] s t ∧ (mcOf t st).weight = (mcOf s st).weight ∧
      (mcOf t st).credit = (mcOf s st).credit ∧
      let v := arbView (mcOf t st)
      nth v.weight n = w.toNat ∧ nth v.credit n = min (nth (mcOf s st).credit n) w.toNat ∧
      ∀ k < 8, k ≠ n.val →
        nth v.weight k = nth (mcOf s st).weight k ∧ nth v.credit k = nth (mcOf s st).credit k := by
  have hlen : n.val < (mcOf s st).weight.length ∧ n.val < (mcOf s st).credit.length := by omega
  refine ⟨_, exec_arbWeightWrite st n w hr hw hwin hclk, modMc_only _ _ _, ?_⟩
  rw [mc_modMc, if_pos rfl, arbView_written rfl hwin]
  exact ⟨rfl, rfl, nth_modNth_self _ hlen.1, nth_modNth_self _ hlen.2,
    fun k _ hk => ⟨nth_modNth_other _ _ hk, nth_modNth_other _ _ hk⟩⟩

theorem arbWindowRefill_refills (st : Fin 16) {clk : Nat} (hr : s.power.rails = true) (hw : (mcOf s st).writes = [])
    (hwin : clk / 4096 = (mcOf s st).window) :
    ∃ t, exec (.arbWindowRefill st clk) s = .next t ∧ Only [.mcs] s t ∧ (mcOf t st).window = clk / 4096 + 1 ∧
      ∀ k < 8, nth (mcOf t st).credit k = min 4095 (nth (mcOf s st).credit k + nth (mcOf s st).weight k) := by
  refine ⟨modMc st (advanceTo clk) s, congrArg _ (onlyIf_true _ _ hr), modMc_only _ _ _, ?_⟩
  rw [mc_modMc, if_pos rfl, advanceTo_idle hw]
  exact ⟨refillTo_window_next hwin, fun k hk => refillTo_credit_next hwin hk⟩

variable {st : Fin 24} {clk : Nat} (hr : s.power.rails = true) (ha : absentBlk s (mcBlk st) = false)
  (hclk : (mcOf s st).clock ≤ clk) (hpath : (mcOf s st).pathFree ≤ clk + 1) (hw : (mcOf s st).writes = [])
  (hwin : (mcOf s st).window = clk / 4096 + 1)
include hr ha hclk hpath hw hwin

/-- A decision within a window, where no weight write waits: of a stack as of an LPDDR5X controller. -/
theorem exec_arbDecision (l : List Arrival) (own : Bool) :
    exec (.arbDecision st clk l own) s = .next (modMc st (fun m =>
      if own then { l.foldl arrives m with clock := clk + 1, pathFree := max (l.foldl arrives m).pathFree (clk + 1) }
      else decideAt (decide (16 ≤ st.val)) clk (l.foldl arrives m)) s) := by
  change execArbDecision st clk l s own = _
  rw [execArbDecision, if_neg (by simp [hr, ha, hclk, hpath])]
  refine congrArg _ (modMc_congr ?_)
  simp only [advanceTo_same hw hwin, ite_self]

theorem arbDecision_takes {a : Arrival} (hports : (mcOf s st).ports = List.replicate 8 [])
    (hcredit : (mcOf s st).credit.length = 8) (hgrant : (mcOf s st).grant.length = 8)
    (hwait : (mcOf s st).waitMax.length = 8) (hp : a.port < 8) (hpos : 0 < a.lines)
    (hfit : a.line % 16 + a.lines ≤ 16) (hcame : a.clock < clk) :
    let n := slotsOf (16 ≤ st.val) a.lines
    ∃ t, exec (.arbDecision st clk [a] false) s = .next t ∧ Only [.mcs] s t ∧
      (mcOf t st).clock = clk + 1 ∧ (mcOf t st).pathFree = clk + 1 + n ∧ (mcOf t st).ports = List.replicate 8 [] ∧
      nth (mcOf t st).grant a.port = (nth (mcOf s st).grant a.port + 1) % 2 ^ 64 ∧
      nth (mcOf t st).credit a.port =
        (if 16 ≤ st.val then nth (mcOf s st).credit a.port else nth (mcOf s st).credit a.port - n) ∧
      nth (mcOf t st).waitMax a.port = max (nth (mcOf s st).waitMax a.port) (min (clk - a.clock) 0xFFFFFFFF) := by
  refine ⟨_, exec_arbDecision hr ha hclk hpath hw hwin [a] false, modMc_only _ _ _, ?_⟩
  have hdecided := decideAt_alone (m := { mcOf s st with ports := (List.replicate 8 []).set a.port [burstOf a] }) rfl hp
    (decide (16 ≤ st.val)) hcame hcredit hgrant hwait
  rw [mc_modMc, if_pos rfl, if_neg Bool.false_ne_true, List.foldl_cons, List.foldl_nil,
    arrives_alone hports hp hpos hfit]
  simp only [decide_eq_true_eq] at hdecided
  exact hdecided

theorem arbDecision_ownSlot :
    ∃ t, exec (.arbDecision st clk [] true) s = .next t ∧ Only [.mcs] s t ∧ (mcOf t st).clock = clk + 1 ∧
      (mcOf t st).grant = (mcOf s st).grant ∧ (mcOf t st).credit = (mcOf s st).credit := by
  refine ⟨_, exec_arbDecision hr ha hclk hpath hw hwin [] true, modMc_only _ _ _, ?_⟩
  rw [mc_modMc, if_pos rfl]
  exact ⟨rfl, rfl, rfl⟩

end Commands

end Arbiters

/-- Settles O39: what each line leaves at its controller, and what the arbiter's next state reads, command by
command. -/
theorem controllersAndArbiter : Obligations.ControllersAndArbiter := by
  refine ⟨fun s mc pa who hr ha => ⟨?reads, fun ode ce ue => exec_memRead_unbacked hr ha ode ce ue, ?write⟩,
    fun s st temp => stackTempReport_refreshes st temp, fun s st hr => ⟨?weight, ?refill⟩,
    fun s st clk a hr ha hclk hpath hw hwin =>
      ⟨arbDecision_takes hr ha hclk hpath hw hwin, arbDecision_ownSlot hr ha hclk hpath hw hwin⟩⟩
  case reads =>
    exact fun hb hat hopen hbad hinj => ⟨memRead_clean hr ha hb hat hopen hbad hinj,
      exec_scrubRead_clean hr ha hb hat hbad hinj, memRead_lasting hr ha hb hat hopen hbad hinj⟩
  case write =>
    exact fun l hlen hpa hb hat hopen => memWrite_stores hr ha hb hat hopen hlen hpa
  case weight =>
    exact fun n w clk hw hwin hclk => arbWeightWrite_lands st n w hr hw hwin hclk
  case refill =>
    exact fun clk => arbWindowRefill_refills st hr

end Sys2Proof

namespace Sys2Proof
open Machine Claims

/-! # The CXL.mem window and the CXL ports (O40) -/

section Window

variable {s : State} {pa : Nat}

/-! ## Lines of memory without an armed injection (R216-R218) -/

section Unarmed

variable (harm : ∀ b, (win s b).armed = false) (ag : Agent)
include harm

theorem memFails_write_unarmed : memFails s {} true false pa = false := by
  unfold memFails
  split
  · rfl
  · next m _ _ _ =>
    have hend : writeEnd s m pa (envWrite {} pa) = .clean := writeEnd_plain .clean (injMode_unarmed _ _ (harm _))
    simp [hend]

theorem memNote_write_unarmed : Only [.mcs, .ctr] s (memNote ag true false pa false false .clean .clean s) := by
  cases hl : landing s pa with
  | none => simpa only [memNote, hl] using Only.refl _ s
  | some x =>
    rw [memNote_write_clean hl _ _ _ _ (injMode_unarmed _ _ (harm _))]
    exact .after (count_only _ _ _ _) (request_only _ _ _ _ _)

variable (hbad : s.mem.bad.contains (pa / 64) = false)
include hbad

theorem memFails_read_unarmed : memFails s {} false false pa = false := by
  unfold memFails
  split
  · rfl
  · next m _ _ _ =>
    have hend : readEnd s m pa (envRead {} pa) = .clean :=
      readEnd_plain .clean hbad (injMode_unarmed _ _ (harm _))
    simp [hend]

theorem memNote_read_unarmed : Only [.mcs, .ctr] s (memNote ag false false pa false false .clean .clean s) := by
  cases hl : landing s pa with
  | none => simpa only [memNote, hl] using Only.refl _ s
  | some x =>
    rw [memNote_read_clean hl _ _ hbad (injMode_unarmed _ _ (harm _))]
    exact .after (count_only _ _ _ _) (request_only _ _ _ _ _)

end Unarmed

/-! ## Accesses of the host (R214, R215) -/

/-- A line enters the snoop filter, where it is not there yet. -/
def mayCache (k : Nat) (s : State) : State :=
  if s.mem.filter.contains k then s else { s with mem := { s.mem with filter := s.mem.filter ++ [k] } }

theorem mem_filter_mayCache (k : Nat) (s : State) : k ∈ (mayCache k s).mem.filter := by
  unfold mayCache
  split
  · next h => simpa using h
  · simp

theorem snoops_mayCache (k : Nat) (s : State) : (mayCache k s).mem.snoops = s.mem.snoops := by
  unfold mayCache
  split <;> rfl

theorem mayCache_only (k : Nat) (s : State) : Only [.snoop] s (mayCache k s) := .unless (putSnoop_only _ _ _ _)

section HostAccess

variable {p : Half} {off : Nat} (hr : s.power.rails = true) (hup : (cxl s p).up = true)
  (hen : (cxl s p).enabled = true) (hcom : (cxl s p).committed = true) (hoff : off < s.mem.windowGib * 2 ^ 30)
  (hopen : s.brRetrain = false) (harm : ∀ b, (win s b).armed = false)
include hr hup hen hcom hoff hopen harm

theorem exec_windowHostAccess_write (b : List Byte) :
    exec (.windowHostAccess p off (some b) {}) s = .next (clearBad (winBase s + 64 * (off / 64))
      (storePhys (winBase s + 64 * (off / 64)) (b.take 64)
        (memNote (.host p) true false (winBase s + 64 * (off / 64)) false false .clean .clean s))) := by
  change execWindowHostAccess p off (some b) s {} = _
  have hfails := memFails_write_unarmed (pa := winBase s + 64 * (off / 64)) harm
  rw [execWindowHostAccess, if_neg (by simp [hr, hup, hen, hcom]; omega),
    if_neg (by simp [bridgeWaits, hopen])]
  dsimp only
  rw [hfails]
  rfl

theorem windowHostAccess_writes (b : List Byte) :
    ∃ t, exec (.windowHostAccess p off (some b) {}) s = .next t ∧ Only [.phys, .mcs, .ctr] s t ∧
      t.mem.phys = Memory.store s.mem.phys (winBase s + 64 * (off / 64)) (b.take 64) := by
  have hnote := memNote_write_unarmed (pa := winBase s + 64 * (off / 64)) harm (.host p)
  refine ⟨_, exec_windowHostAccess_write hr hup hen hcom hoff hopen harm b,
    .sub (.after (clearBad_only _ _) (.after (storePhys_only _ _ _) hnote)) rfl, ?_⟩
  exact congrArg (Memory.store · _ _) (hnote .phys (by decide))

variable (hroom : s.mem.filter.length < 1048576)
  (hbad : s.mem.bad.contains ((winBase s + 64 * (off / 64)) / 64) = false)
include hroom hbad

theorem exec_windowHostAccess_read :
    exec (.windowHostAccess p off none {}) s = .next (mayCache (off / 64)
      (memNote (.host p) false false (winBase s + 64 * (off / 64)) false false .clean .clean s)) := by
  change execWindowHostAccess p off none s {} = _
  have hfails := memFails_read_unarmed (pa := winBase s + 64 * (off / 64)) harm hbad
  rw [execWindowHostAccess, if_neg (by simp [hr, hup, hen, hcom]; omega),
    if_neg (by simp [bridgeWaits, hopen])]
  dsimp only
  rw [if_neg (by simp [hroom]), hfails]
  simp only [Bool.false_eq_true, or_false]
  rfl

theorem windowHostAccess_reads :
    ∃ t, exec (.windowHostAccess p off none {}) s = .next t ∧ Only [.snoop, .mcs, .ctr] s t ∧
      off / 64 ∈ t.mem.filter ∧ t.mem.snoops = s.mem.snoops := by
  have hnote := memNote_read_unarmed (pa := winBase s + 64 * (off / 64)) harm (.host p) hbad
  refine ⟨_, exec_windowHostAccess_read hr hup hen hcom hoff hopen harm hroom hbad,
    .sub (.after (mayCache_only _ _) hnote) rfl, mem_filter_mayCache _ _, ?_⟩
  rw [snoops_mayCache]
  exact (hnote .snoop (by decide)).2.1

end HostAccess

/-! ## Snoops (R215, R222) -/

theorem winSnoopTimeout_fails (mc : Fin 24) (hpa : winBase s ≤ pa) (hout : s.mem.snoops.contains (lineOfPa s pa) = true)
    (hat : atMc s mc pa = true) :
    ∃ t, exec (.winSnoopTimeout mc pa) s = .next t ∧ lineOfPa s pa ∉ t.mem.snoops ∧ lineOfPa s pa ∈ t.mem.snoopBad ∧
      (win t (mcBlk mc)).sts.getLsbD 5 := by
  have hmem : lineOfPa s pa ∈ s.mem.snoops := by simpa using hout
  have hexec : exec (.winSnoopTimeout mc pa) s = .next (event (mcBlk mc) 5 0 pa { s with mem := { s.mem with
      snoops := s.mem.snoops.filter (· ≠ lineOfPa s pa), snoopBad := s.mem.snoopBad ++ [lineOfPa s pa] } }) :=
    congrArg _ (if_neg (by simp [hpa.not_gt, hmem, hat]))
  refine ⟨_, hexec, ?_, ?_, event_sets _ _ _ (by decide)⟩
  · rw [(event_only _ _ _ _ _ .snoop (by decide)).2.1]
    simp
  · rw [(event_only _ _ _ _ _ .snoop (by decide)).2.2]
    simp

theorem exec_backInvalidateResponse_dirty (off : Nat) (b : List Byte) (hout : s.mem.snoops.contains (off / 64) = true) :
    let u := putOwn (.host (if s.cxlA.committed then .a else .b)) (winBase s + 64 * (off / 64)) (b.take 64) s
    exec (.backInvalidateResponse off (some b)) s = .next (wakeEngines { u with mem := { u.mem with
      filter := u.mem.filter.filter (· ≠ off / 64), snoops := u.mem.snoops.filter (· ≠ off / 64),
      snoopBad := u.mem.snoopBad.filter (· ≠ off / 64) } }) := by
  have hmem : off / 64 ∈ s.mem.snoops := by simpa using hout
  exact congrArg _ (if_neg (by simp [hmem]))

end Window

/-! ## The CXL ports (R510, R590-R592) -/

section Ports

variable {s : State} {h : Half}

/-- A frame without the CXL ports keeps each of them. -/
theorem Only.cxl_eq {ps : List Zone} {t : State} (k : Only ps s t) (ha : Zone.cxlA ∉ ps) (hb : Zone.cxlB ∉ ps)
    (x : Half) : cxl t x = cxl s x := by
  cases x with
  | a => exact k .cxlA ha
  | b => exact k .cxlB hb

/-- What waits for the filter goes on, and leaves the ports as they are. -/
theorem cxl_portStops (h : Half) (f : Cxl → Cxl) (s : State) (x : Half) :
    cxl (portStops h f s) x = cxl (modCxl h f s) x := by
  unfold portStops
  split
  · exact (dropFilter_only _).cxl_eq (by decide) (by decide) x
  · rfl

/-- A link that has retrained, before it is seen to be degraded. -/
def linkBack (h : Half) (w g : Nat) (s : State) : State :=
  modCxl h (fun c => { c with up := true, width := w, gts := g })
    (if (cxl s h).up then event (0x12 + h.num) 1 0 0 s else s)

theorem linkBack_retrained (w g : Nat) (hup : (cxl s h).up = true) :
    (win (linkBack h w g s) (0x12 + h.num)).sts.getLsbD 1 = true := by
  rw [linkBack, (modCxl_only _ _ _).win_eq (by decide), if_pos hup]
  exact event_sets _ _ _ (by decide)

variable (hr : s.power.rails = true)
include hr

theorem hdmCommit_commits (hup : (cxl s h).up = true) (hen : (cxl s h).enabled = true)
    (hother : (cxl s h.other).committed = false) :
    exec (.hdmCommit h true) s = .next (modCxl h (fun c => { c with committed := true }) s) :=
  congrArg _ (if_neg (by simp [hr, hup, hen, hother]))

theorem hdmCommit_decommits (hup : (cxl s h).up = true) (hen : (cxl s h).enabled = true) :
    exec (.hdmCommit h false) s = .next (modCxl h (fun c => { c with committed := false }) s) :=
  congrArg _ (if_neg (by simp [hr, hup, hen]))

theorem perstN_resets : ∃ t, exec (.perstN h) s = .next t ∧ (cxl t h).up = false ∧ (cxl t h).committed = false ∧
    (cxl t h).enabled = (cxl s h).enabled ∧ cxl t h.other = cxl s h.other := by
  refine ⟨_, congrArg Host.Outcome.next (if_pos hr), ?_⟩
  simp only [cxl_portStops, cxl_modCxl_self, cxl_modCxl_other, and_self]

theorem cxlLinkDown_keepsDecoder (hup : (cxl s h).up = true) : ∃ t, exec (.cxlLinkDown h) s = .next t ∧
    (cxl t h).up = false ∧ (cxl t h).committed = (cxl s h).committed := by
  refine ⟨_, congrArg Host.Outcome.next (if_pos ⟨hr, hup⟩), ?_⟩
  simp only [cxl_portStops, cxl_modCxl_self, and_self]

theorem exec_cxlLinkRetrain_back (w : Nat) {g : Nat} (hg : 32 ≤ g) :
    exec (.cxlLinkRetrain h w g) s = .next (
      if w ≤ 4 then event (0x12 + h.num) 2 0 0 (linkBack h w g s) else linkBack h w g s) := by
  change execCxlLinkRetrain h w g s = _
  rw [execCxlLinkRetrain, if_neg (by simp [hr]), if_neg hg.not_gt]
  rfl

theorem cxlLinkRetrain_returns (w : Nat) {g : Nat} (hg : 32 ≤ g) :
    ∃ t, exec (.cxlLinkRetrain h w g) s = .next t ∧ (cxl t h).up = true ∧ (cxl t h).width = w ∧ (cxl t h).gts = g ∧
      ((cxl s h).up = true → (win t (0x12 + h.num)).sts.getLsbD 1) ∧
      (w ≤ 4 → (win t (0x12 + h.num)).sts.getLsbD 2) := by
  refine ⟨_, exec_cxlLinkRetrain_back hr w hg, ?_⟩
  rw [Only.cxl_eq (.when (event_only _ _ _ _ _)) (by decide) (by decide), linkBack, cxl_modCxl_self]
  refine ⟨rfl, rfl, rfl, fun hup => ?_, fun hw => ?_⟩
  · have hkept : BookKept (linkBack h w g s) (if w ≤ 4 then event (0x12 + h.num) 2 0 0 (linkBack h w g s)
        else linkBack h w g s) := .when (event_kept _ _ _ _ _)
    exact hkept.sts _ _ (linkBack_retrained w g hup)
  · rw [if_pos hw]
    exact event_sets _ _ _ (by decide)

end Ports

/-- Settles O40: the window's accesses and its snoops, then each event of a port. -/
theorem windowAndCxlPorts : Obligations.WindowAndCxlPorts := by
  refine ⟨fun s => ⟨fun p off hr hup hen hcom hoff hopen harm => ⟨?writes, ?reads⟩,
    fun mc pa => winSnoopTimeout_fails mc, exec_backInvalidateResponse_dirty⟩,
    fun s h hr => ⟨fun hup hen => ⟨hdmCommit_commits hr hup hen, hdmCommit_decommits hr hup hen⟩, perstN_resets hr,
      cxlLinkDown_keepsDecoder hr, fun w g => cxlLinkRetrain_returns hr w⟩⟩
  case writes => exact windowHostAccess_writes hr hup hen hcom hoff hopen harm
  case reads => exact windowHostAccess_reads hr hup hen hcom hoff hopen harm

end Sys2Proof

namespace Sys2Proof
open Machine Claims

/-! # ALLOC, FREE and MAP (O16) -/

section Mapping

variable {s : State} {mb : Fin 128}

/-! ## Mappings and translation caches (R201, R205) -/

theorem growTables_maps (s : State) (c : Ctx) : (growTables s c).maps = c.maps := rfl

theorem ctx_modCtx_self {i : Nat} {c : Ctx} (f : Ctx → Ctx) (h : ctx? s i = some c) :
    ctx? (modCtx i f s) i = some (f c) := by
  rw [modCtx, h]
  exact (ctx_setCtx i i _ s).trans (if_pos rfl)

theorem ctx_setMaps (i va n : Nat) (f : Ctx → Ctx) (s : State) (j : Nat) :
    ctx? (setMaps i va n f s) j = ctx? (modCtx i (fun c => growTables s (f c)) s) j := by
  unfold setMaps
  dsimp only
  split <;> rfl

theorem maps_setMaps {i : Nat} {c : Ctx} (va n : Nat) (f : Ctx → Ctx) (h : ctx? s i = some c) :
    (ctx? (setMaps i va n f s) i).map (·.maps) = some (f c).maps := by
  rw [ctx_setMaps, ctx_modCtx_self _ h, Option.map_some, growTables_maps]

theorem mem_cacheDrop {cx va n site : Nat} {e : Xl} (h : e ∈ FMap.get [] (cacheDrop cx va n s).mem.xl site) :
    e.cx ≠ cx ∨ va + n ≤ e.va ∨ e.va + e.size ≤ va := by
  rcases FMap.get_default_or_mem [] (cacheDrop cx va n s).mem.xl site with hnil | hmem
  · rw [hnil] at h
    cases h
  · obtain ⟨x, hx, -, hget⟩ := hmem
    obtain ⟨y, -, hy⟩ := List.mem_filterMap.1 hx
    dsimp only at hy
    split at hy
    · cases hy
    · cases hy
      rw [hget] at h
      have hkept := (List.mem_filter.1 h).2
      simp only [Bool.not_eq_true', Bool.and_eq_false_iff, decide_eq_false_iff_not] at hkept
      omega

theorem caches_setMaps (i va n : Nat) (f : Ctx → Ctx) (s : State) (site : Nat) :
    (FMap.get [] (setMaps i va n f s).mem.xl site).all (fun e =>
      e.cx != i || decide (va + n ≤ e.va) || decide (e.va + e.size ≤ va)) := by
  refine List.all_eq_true.2 fun e he => ?_
  simpa [or_assoc] using mem_cacheDrop he

/-! ## The commands (R200, R204-R206, R215, R306) -/

theorem alloc_maps {t va n : Nat} {big : Bool} {runs : List (Nat × Nat)} (h : accepted s mb 0x101 = true)
    (hbig : decide (arg s mb 9 1 = 1) = big) (hn : cdiv (arg s mb 0 8) (pageSize big) * pageSize big = n)
    (hsize : 0 < arg s mb 0 8) (htier : arg s mb 8 1 ≤ 2) (hpage : arg s mb 9 1 ≤ 1)
    (hfree : bitOf (arg s mb 10 2) 1 = false) (hruns : pickTier s (arg s mb 8 1) big n = some (t, runs))
    (hva : findVa s (theCtx s (cx s mb)) (pageSize big) n = some va) :
    exec (.alloc mb) s = .next (answered s mb 0x101 (natLe 8 va ++ natLe 8 n ++ natLe 1 t)
      (place (cx s mb) 0 t big (bitOf (arg s mb 10 2) 0) va n runs s)) := by
  refine congrArg _ (runOp_ok h ?_)
  unfold arg cx at *
  simp only [hbig, hn, hsize.ne', htier.not_gt, hpage.not_gt, hfree, hruns, hva, if_false,
    Bool.false_eq_true, false_and]

theorem free_frees {a : Alloc} (h : accepted s mb 0x102 = true)
    (ha : (theCtx s (cx s mb)).allocs.find? (fun a => a.va = addrAt (load s mb) 0 && a.recipe = 0) = some a) :
    exec (.free mb) s = .next (answered s mb 0x102 []
      (failUsers (cx s mb) (addrAt (load s mb) 0) a.size (freeAlloc (cx s mb) (addrAt (load s mb) 0) s))) := by
  refine congrArg _ (runOp_ok h ?_)
  unfold cx at *
  simp only [ha]

theorem mapProtect_protects {va n : Nat} (h : accepted s mb 0x103 = true) (hva : addrAt (load s mb) 0 = va)
    (hn : arg s mb 8 8 = n) (hop : arg s mb 16 1 = 0) (hpages : mapFault (theCtx s (cx s mb)) va n false = none)
    (hmapped : covered va n (fun _ => true) (theCtx s (cx s mb)).maps = true) :
    exec (.mapProtect mb) s = .next (answered s mb 0x103 [] (setMaps (cx s mb) va n (fun c => { c with
      maps := unmapRange va n c.maps ++ (insideRange va n c.maps).map (fun m =>
        { m with read := bitOf (arg s mb 17 1) 0, write := bitOf (arg s mb 17 1) 1 }) }) s)) := by
  unfold arg cx at *
  refine congrArg _ (runCmd_ok h (by simp [hop]) ?_)
  simp only [hva, hn, hop, hpages, hmapped, ne_eq, not_true_eq_false, if_false, Bool.not_true, Bool.false_eq_true]

theorem mapUnmap_unmaps {va n : Nat} (h : accepted s mb 0x103 = true) (hva : addrAt (load s mb) 0 = va)
    (hn : arg s mb 8 8 = n) (hop : arg s mb 16 1 = 1) (hpages : mapFault (theCtx s (cx s mb)) va n true = none) :
    exec (.mapUnmap mb) s = .next (answered s mb 0x103 [] (failUsers (cx s mb) va n
      (setMaps (cx s mb) va n (fun c => { c with maps := unmapRange va n c.maps }) s))) := by
  unfold arg cx at *
  refine congrArg _ (runCmd_ok h (by simp [hop]) ?_)
  simp only [hva, hn, hpages]

theorem mapWindow_maps {va n off : Nat} (h : accepted s mb 0x103 = true) (hva : addrAt (load s mb) 0 = va)
    (hn : arg s mb 8 8 = n) (hoff : addrAt (load s mb) 24 = off) (hop : arg s mb 16 1 = 2)
    (hvaPage : va % 0x200000 = 0) (hpos : 0 < n) (hnPage : n % 0x200000 = 0) (hoffPage : off % 0x200000 = 0)
    (hfree : vaFree (theCtx s (cx s mb)) va n = true) (hfit : off + n ≤ s.mem.windowGib * 2 ^ 30) :
    exec (.mapWindow mb) s = .next (answered s mb 0x103 [] (setMaps (cx s mb) va n (fun c => { c with maps := c.maps ++
      [{ va := va, pa := winBase s + off, len := n, read := bitOf (arg s mb 17 1) 0,
         write := bitOf (arg s mb 17 1) 1, window := true }] }) s)) := by
  unfold arg cx at *
  refine congrArg _ (runCmd_ok h (by simp [hop]) ?_)
  simp only [hva, hn, hoff, hvaPage, hpos.ne', hnPage, hoffPage, hfree, hfit.not_gt, ne_eq, not_true_eq_false, or_self,
    if_false, Bool.not_true, Bool.false_eq_true]

end Mapping

/-- Settles O16: each form comes to its change of the context; the caches hold no translation of a range that
changed. -/
theorem memoryIsMapped : Obligations.MemoryIsMapped := by
  intro s mb
  refine ⟨fun t runs va h hsize htier hpage _ hfree hruns hva => ?alloc, fun a => free_frees, ?protect, ?unmap, ?window,
    fun i va n c f hc => ⟨maps_setMaps va n f hc, caches_setMaps i va n f s⟩⟩
  case alloc => exact alloc_maps h rfl rfl hsize htier hpage hfree hruns hva
  case protect => exact fun h => mapProtect_protects h rfl rfl
  case unmap => exact fun h => mapUnmap_unmaps h rfl rfl
  case window => exact fun h => mapWindow_maps h rfl rfl rfl

end Sys2Proof

namespace Sys2Proof
open Machine Claims

/-! # Launches from LAUNCH to their end (O19) -/

section Launches

variable {s : State}

/-! ## Launches and partitions read back (R251, R259) -/

theorem launch_congr {u : State} (h : u.work.ctxs = s.work.ctxs) (c id : Nat) : launch? u c id = launch? s c id := by
  simp only [launch?, ctx?, h]

theorem launch_modLaunch (c id : Nat) (f : Launch → Launch) (s : State) :
    launch? (modLaunch c id f s) c id = (launch? s c id).map f := by
  cases hc : ctx? s c with
  | none => simp only [modLaunch, modCtx, launch?, hc, Option.map_none]
  | some x =>
    rw [modLaunch, launch?, ctx_modCtx_self _ hc, launch?, hc]
    dsimp only
    split
    · next l hl => simp only [FMap.get_set_self, hl, Option.map_some]
    · next hl => simp only [hl, Option.map_none]

theorem launch_setPart (i : Nat) (p : Option Machine.Part) (s : State) (c id : Nat) :
    launch? (setPart i p s) c id = launch? s c id := rfl

theorem part_modPart {i : Nat} {p : Machine.Part} (f : Machine.Part → Machine.Part) (h : part? s i = some p) :
    part? (modPart i f s) i = some (f p) := by
  rw [modPart, h]
  exact (part_setPart i i _ s).trans (if_pos rfl)

theorem ctxs_modPart (i : Nat) (f : Machine.Part → Machine.Part) (s : State) :
    (modPart i f s).work.ctxs = s.work.ctxs := by
  unfold modPart
  split <;> rfl

theorem Only.now_eq {ps : List Zone} {t : State} (k : Only ps s t) (ht : Zone.time ∉ ps) (hc : Zone.crown ∉ ps) :
    now t = now s := by
  have htime : t.time = s.time := k .time ht
  have hcrown : t.crown = s.crown := k .crown hc
  simp only [now, cnt, htime, hcrown]

/-! ## A launch is queued (R256, R259) -/

/-- A launch stands in its context under its LAUNCH_ID, and at the end of its partition's queue. -/
def enqueue (c : Nat) (l : Launch) (p : Machine.Part) (s : State) : State :=
  setPart l.part (some { p with queue := p.queue ++ [l.id], recent := ((l.hsn, l.id) :: p.recent).take 16 })
    (modCtx c (fun x => { x with
      seed := l.seed, lastLaunch := l.id, launches := FMap.set none x.launches l.id (some l) }) s)

theorem launch_enqueue {c : Nat} {x : Ctx} (l : Launch) (p : Machine.Part) (h : ctx? s c = some x) :
    launch? (enqueue c l p s) c l.id = some l := by
  rw [enqueue, launch_setPart]
  simp only [launch?, ctx_modCtx_self _ h, FMap.get_set_self]

theorem part_enqueue (c : Nat) (l : Launch) (p : Machine.Part) (s : State) : part? (enqueue c l p s) l.part =
    some { p with queue := p.queue ++ [l.id], recent := ((l.hsn, l.id) :: p.recent).take 16 } := by
  rw [enqueue, part_setPart, if_pos rfl]

theorem enqueue_only (c : Nat) (l : Launch) (p : Machine.Part) (s : State) : Only [.work] s (enqueue c l p s) :=
  .sub (.after (setPart_only _ _ _) (modCtx_only _ _ _)) rfl

section Queued

variable {mb : Fin 128}

/-- The launch that a LAUNCH without SEED_SET asks for, in the context that it finds. -/
def asked (s : State) (mb : Fin 128) (c : Ctx) : Launch :=
  { id := nextLaunchId c.lastLaunch, hsn := arg s mb 8 8, part := arg s mb 0 1, recipe := arg s mb 4 4,
    startRt := arg s mb 16 8, args := (List.range 16).map (fun k => addrAt (load s mb) (32 + 8 * k)),
    notify := if bitOf (arg s mb 1 1) 1 then arg s mb 2 1 else 0, seed := c.seed }

theorem launch_queues {c : Ctx} {p : Machine.Part} (h : accepted s mb 0x205 = true) (hc : ctx? s (cx s mb) = some c)
    (hp : ownPart s (cx s mb) (arg s mb 0 1) = some p)
    (hnew : p.recent.find? (fun x => x.1 = arg s mb 8 8) = none)
    (hok : launchFault s (cx s mb) (arg s mb 0 1) p (load s mb) (asked s mb c).args = none)
    (hseed : bitOf (arg s mb 1 1) 0 = false) :
    exec (.launch mb) s = .next (answered s mb 0x205 (natLe 4 (asked s mb c).id ++ natLe 1 0 ++ natLe 1 0)
      (enqueue (cx s mb) (asked s mb c) p s)) := by
  have hctx : theCtx s (cx s mb) = c := by rw [theCtx, hc, Option.getD_some]
  refine congrArg Host.Outcome.next (runOp_ok h ?_)
  unfold asked at hok
  simp only [← arg.eq_def, ← cx.eq_def, hp, hnew, hok, hseed, hctx, Bool.not_false, if_true, Bool.false_eq_true,
    false_and, if_false]
  rfl

end Queued

/-! ## The life of a launch (R260-R262, R517) -/

section Life

variable {part : Fin 36} {p : Machine.Part} {l : Launch} {r : Recipe}

/-- The windows of a partition's clusters and the base registers of its tiles, as a recipe sets them (R260). -/
def loaded (p : Machine.Part) (r : Recipe) (args : List Nat) (s : State) : State :=
  r.streams.foldl (fun s x => loadTile p r args x s)
    (p.clusters.foldl (fun s c => modCluster c (fun x => { x with win := r.win }) s) s)

theorem loaded_only (p : Machine.Part) (r : Recipe) (args : List Nat) (s : State) :
    Only [.clusters, .tiles] s (loaded p r args s) :=
  .sub (.fold (fun _ _ => loadTile_only _ _ _ _ _) (.fold (fun _ _ => modCluster_only _ _ _) (.none _))) rfl

/-- A launch `y` prepared at the count of `s`, its fields as `l` had them when the preparation began (R260). -/
def prepared (l : Launch) (s : State) (y : Launch) : Launch :=
  { y with st := 1, tick := if l.startRt ≤ now s then now s + 1 else l.startRt, tileVer := s.fw.tileVer,
           late := y.late || (decide (l.startRt ≤ now s) && decide (l.startRt ≠ 0)) }

variable (hp : part? s part.val = some p) (hl : headLaunch s part.val = some l)
include hl

theorem progressWatchdog_fails (hst : l.st = 2) (hrun : l.endRt = 0) (hserve : serving s = true) :
    exec (.progressWatchdog part) s = .next (failLaunch part.val 0 0 0 0 true (waitUntil l.wdAt s)) := by
  change execProgressWatchdog part s = _
  simp [execProgressWatchdog, hl, hst, hrun, hserve]

variable (hfence : p.fence = none)
include hp hfence

theorem launchDone_ends (hst : l.st = 2) (hend : l.endRt ≠ 0) (hserve : serving s = true) :
    exec (.launchDone part) s = .next (endLaunch p.ctx l.id 3 s) := by
  change execLaunchDone part s = _
  simp [execLaunchDone, hp, hl, hst, hend, hfence, hserve]

variable (hr : recipe? s p.ctx l.recipe = some r)
include hr

theorem launchStart_starts {w : Nat} {ws : List Nat}
    (hwait : ((partHalves p).filter (fun h => !begun l h)).map (fun h => ticksTo s (cnt s h) l.tick) = w :: ws)
    (hst : l.st = 1 ∨ l.st = 2) :
    exec (.launchStart part) s = .next (startHalves part.val p r l.id (advance (ws.foldl min w) s)) := by
  have hgo : ¬ ((l.st ≠ 1 ∧ l.st ≠ 2) ∨ p.fence.isSome = true) := by
    simpa [hfence, Classical.or_iff_not_imp_left] using hst
  change execLaunchStart part s = _
  simp only [execLaunchStart, hp, hl, hr, hwait, if_neg hgo]

theorem exec_launchPrepare (hst : l.st = 0) (hserve : serving s = true) :
    exec (.launchPrepare part) s =
      .next (modLaunch p.ctx l.id (prepared l (loaded p r l.args s)) (loaded p r l.args s)) := by
  have hgo : ¬ (l.st ≠ 0 ∨ p.fence.isSome = true ∨ (!serving s) = true) := by simp [hst, hfence, hserve]
  change execLaunchPrepare part s = _
  simp only [execLaunchPrepare, hp, hl, hr, if_neg hgo, decide_eq_true_eq]
  rfl

theorem launchPrepare_prepares (hst : l.st = 0) (hserve : serving s = true) :
    ∃ t, exec (.launchPrepare part) s = .next t ∧ Only [.work, .clusters, .tiles] s t ∧
      (launch? t p.ctx l.id).map (fun y => (y.st, y.tick)) =
        (launch? s p.ctx l.id).map (fun _ => (1, if l.startRt ≤ now s then now s + 1 else l.startRt)) := by
  have hload := loaded_only p r l.args s
  have hwork : (loaded p r l.args s).work = s.work := hload .work (by decide)
  have hnow : now (loaded p r l.args s) = now s := hload.now_eq (by decide) (by decide)
  refine ⟨_, exec_launchPrepare hp hl hfence hr hst hserve, .sub (.after (modLaunch_only _ _ _ _) hload) rfl, ?_⟩
  rw [launch_modLaunch, launch_congr (congrArg Work.ctxs hwork), Option.map_map, ← hnow]
  rfl

end Life

end Launches

/-- Settles O19: a launch goes to the end of its queue; each step of its life by what its guard leaves of it. -/
theorem launchesRun : Obligations.LaunchesRun := by
  refine ⟨fun s mb c p h hc hp hnew hok hseed => ?queued, fun s part p l r hp hl hr hfence =>
    ⟨launchPrepare_prepares hp hl hfence hr, fun w ws => launchStart_starts hp hl hfence hr,
      launchDone_ends hp hl hfence, progressWatchdog_fails hl⟩⟩
  case queued =>
    exact ⟨_, launch_queues h hc hp hnew hok hseed, enqueue_only _ _ _ _, launch_enqueue _ _ hc,
      part_enqueue _ _ _ _⟩

end Sys2Proof

namespace Sys2Proof
open Machine Claims

/-! # The end of a launch, WAIT and ABORT (O20) -/

section LaunchEnds

variable {s : State}

/-! ## The end of a launch (R262, R264) -/

section Ends

variable {c id : Nat} {l : Launch}

/-- The record of a launch that ends in `st`. -/
def endRecord (st : Nat) (l : Launch) (s : State) : Launch :=
  { l with st := st, endRt := if l.st = 2 then (if l.endRt = 0 then now s else l.endRt) else 0,
           tick := if l.st = 2 then l.tick else 0, tq := if l.st = 2 ∧ l.endRt ≠ 0 then l.tq else s.time.tq.code }

/-- The record written, and the launch out of its partition's queue. -/
def recorded (c id st : Nat) (l : Launch) (s : State) : State :=
  modPart l.part (fun p => { p with queue := p.queue.filter (· != id) }) (modLaunch c id (fun _ => endRecord st l s) s)

/-- What else the end of a launch does, to mailboxes, tiles and taps, leaves contexts and partitions alone. -/
theorem work_endLaunch (st : Nat) (h : launch? s c id = some l) :
    (endLaunch c id st s).work = (recorded c id st l s).work := by
  have honly : Only ([.mbx] ++ [.tiles, .taps] ++ [.mbx]) (recorded c id st l s) (endLaunch c id st s) := by
    unfold endLaunch
    rw [h]
    exact .fold (fun _ _ => respond_only _ _ _ _ _) (.after (takeTaps_only _ _ _) (.unless (msix_only _ _ _)))
  exact honly .work (by decide)

theorem launch_endLaunch (st : Nat) (h : launch? s c id = some l) :
    launch? (endLaunch c id st s) c id = some (endRecord st l s) := by
  rw [launch_congr (congrArg Work.ctxs (work_endLaunch st h)), recorded,
    launch_congr (ctxs_modPart _ _ _), launch_modLaunch, h]
  rfl

theorem part_endLaunch (st : Nat) {p : Machine.Part} (h : launch? s c id = some l) (hp : part? s l.part = some p) :
    part? (endLaunch c id st s) l.part = some { p with queue := p.queue.filter (· != id) } := by
  rw [part_congr (congrArg Work.parts (work_endLaunch st h)), recorded]
  exact part_modPart _ ((part_congr (parts_modLaunch _ _ _ _) _).trans hp)

end Ends

/-! ## WAIT (R263) -/

section Commands

variable {mb : Fin 128} {l : Launch}

theorem waitTimeout_answers {k : Nat} {r : RunCmd} (hr : runKeyOf s mb 0x206 = some (k, r))
    (hl : launch? (waitUntil r.deadline s) r.ctx r.arg = some l) :
    exec (.waitTimeout mb) s = .next (respond k stTimeout 0 (recordOf l) (waitUntil r.deadline s)) := by
  change execWaitTimeout mb s = _
  simp only [execWaitTimeout, hr, hl]

section Wait

variable (h : accepted s mb 0x206 = true) (hl : launch? s (cx s mb) (arg s mb 0 4) = some l)
  (htime : arg s mb 4 4 ≤ 60000)
include h hl htime

theorem waitCmd_answers (hst : 3 ≤ l.st) :
    exec (.waitCmd mb) s = .next (answered s mb 0x206 (recordOf l) s) := by
  refine congrArg Host.Outcome.next (runOp_ok h ?_)
  simp only [← arg.eq_def, ← cx.eq_def, hl, htime.not_gt, hst, if_false, if_true]

theorem waitCmd_stays (hst : l.st < 3) :
    exec (.waitCmd mb) s = .next (stays s mb { placed s mb 0x206 with
      arg := arg s mb 0 4, deadline := s.time.clk + arg s mb 4 4 * 100000 } s) := by
  refine congrArg Host.Outcome.next (runOp_stay h ?_)
  simp only [← arg.eq_def, ← cx.eq_def, hl, htime.not_gt, hst.not_ge, if_false]

end Wait

/-! ## ABORT (R266) -/

/-- Nothing is brought up to date in a partition whose first launch has not been prepared, or runs still. -/
theorem settleHead_same {i : Nat} (h : ∀ m, headLaunch s i = some m → m.st = 0 ∨ m.st = 2 ∧ m.endRt = 0) :
    settleHead i s = s := by
  unfold settleHead
  split
  · next m _ hm =>
    have hprep : m.st ≠ 1 := by have := h m hm; omega
    have hend : ¬ (m.st = 2 ∧ m.endRt ≠ 0) := by have := h m hm; omega
    split
    · simp only [hprep, hend, if_false, ite_self]
    · rfl
  · rfl

section Abort

variable {p : Machine.Part} (hp : part? s l.part = some p) (hfence : p.fence = none)
include hp hfence

/-- What ABORT does to a launch that has not ended, in a partition that is up to date and not fenced. -/
theorem abortOne_unended {c id : Nat} (hl : launch? s c id = some l) (hst : l.st < 3)
    (hsettled : settleHead l.part s = s) (rc : RunCmd) : abortOne id rc c s =
      if l.st = 2 then .stay { rc with arg := id } (fencePart 1 5 0 false l.part s)
      else okRep (recordOf (endRecord 6 l s)) (endLaunch c id 6 s) := by
  simp only [abortOne, hl, if_pos hst, hsettled, Option.getD_some, hp, hfence, if_neg hst.not_ge, Option.isSome_none,
    Bool.false_eq_true, if_false, launch_endLaunch 6 hl]

variable (h : accepted s mb 0x207 = true) (hop : arg s mb 0 1 = 0)
  (hl : launch? s (cx s mb) (arg s mb 4 4) = some l)
include h hop hl

theorem abortCmd_removes (hst : l.st = 0) (hhead : ∀ m, headLaunch s l.part = some m → m.st = 0) :
    exec (.abortCmd mb) s = .next (answered s mb 0x207 (recordOf (endRecord 6 l s))
      (endLaunch (cx s mb) (arg s mb 4 4) 6 s)) := by
  have hsettled : settleHead l.part s = s := settleHead_same fun m hm => .inl (hhead m hm)
  refine congrArg Host.Outcome.next (runOp_ok h ?_)
  simp only [← arg.eq_def, ← cx.eq_def, hop]
  rw [abortOne_unended hp hfence hl (by omega) hsettled, if_neg (by omega)]

theorem abortCmd_fences (hst : l.st = 2) (hend : l.endRt = 0) (hhead : headLaunch s l.part = some l) :
    exec (.abortCmd mb) s = .next (stays s mb { placed s mb 0x207 with arg := arg s mb 4 4 }
      (fencePart 1 5 0 false l.part s)) := by
  have hsettled : settleHead l.part s = s := settleHead_same fun m hm => by
    rw [hhead] at hm
    cases hm
    exact .inr ⟨hst, hend⟩
  refine congrArg Host.Outcome.next (runOp_stay h ?_)
  simp only [← arg.eq_def, ← cx.eq_def, hop]
  rw [abortOne_unended hp hfence hl (by omega) hsettled, if_pos hst]

end Abort

end Commands

end LaunchEnds

/-- Settles O20: the record and the queue by what the end of a launch writes of them, the commands by what their
guards leave. -/
theorem launchesEnd : Obligations.LaunchesEnd := by
  refine ⟨fun s c id st l hl hst => ⟨?record, fun p hp => ?queue, endLaunch_only _ _ _ _⟩,
    fun s mb l => ⟨fun h hl htime => ⟨waitCmd_answers h hl htime, waitCmd_stays h hl htime⟩,
      fun k r => waitTimeout_answers⟩,
    fun s mb l p h hop hl hp hfence => ⟨fun hst hhead => ?removed, abortCmd_fences hp hfence h hop hl⟩⟩
  case record =>
    rw [launch_endLaunch st hl]
    simp [endRecord, hst, ite_not]
  case queue =>
    rw [part_endLaunch st hl hp, Option.map_some]
  case removed =>
    dsimp only
    rw [launch_endLaunch 6 hl]
    exact abortCmd_removes hp hfence h hop hl hst hhead

end Sys2Proof

namespace Sys2Proof
open Machine Claims

/-! # Contexts, recipes, partitions and the ledger's commands (O15, O18, O27) -/

section Sessions

variable {s : State} {mb : Fin 128}

/-! ## OPEN and CLOSE (R236-R238, R303) -/

theorem openCmd_opens (d : BitVec 64) {v : Nat} (h : accepted s mb 0x001 = true)
    (hver : pickVer (arg s mb 0 2) (arg s mb 2 2) = some v)
    (hown : (bitsOf (arg s mb 16 16) 128).contains (key s mb % 128) = true)
    (hfree : (bitsOf (arg s mb 16 16) 128).all (fun m => FMap.get 0 s.mbx.bind m == 0) = true)
    (hroom : liveCtxs s < 64) :
    let i := nextCtxId s s.work.lastCtx 64
    exec (.openCmd mb d) s = .next (answered s mb 0x001 (natLe 2 v ++ natLe 2 i) (openCtx i
      (if arg s mb 8 8 = 0 then d.toNat else arg s mb 8 8) v (bitsOf (arg s mb 16 16) 128) s)) := by
  have hbound : (bitsOf (arg s mb 16 16) 128).any (fun m => FMap.get 0 s.mbx.bind m != 0) = false := by
    simpa using hfree
  refine congrArg Host.Outcome.next (runOp_ok h ?_)
  simp only [← arg.eq_def, hver, hown, hbound, hroom.not_ge, Bool.not_true, Bool.false_eq_true, or_self, if_false]

theorem closeCmd_closes {c : Ctx} (h : accepted s mb 0x002 = true) (hc : ctx? s (cx s mb) = some c)
    (hopen : c.closing = false)
    (hparts : ctxParts (modCtx (cx s mb) (fun c => { c with closing := true }) s) (cx s mb) = []) :
    exec (.closeCmd mb) s = .next (answered s mb 0x002 []
      (finishClose (cx s mb) (modCtx (cx s mb) (fun c => { c with closing := true }) s))) := by
  refine congrArg Host.Outcome.next (runOp_ok h ?_)
  simp only [← cx.eq_def, hc, hopen, hparts, Bool.false_eq_true, if_false, if_true]

/-! ## Recipes (R246, R248) -/

theorem recipeLoad_stays (h : accepted s mb 0x203 = true) (hsrc : arg s mb 0 1 ≤ 1) :
    exec (.recipeLoad mb) s = .next (stays s mb (placed s mb 0x203) s) :=
  congrArg Host.Outcome.next (runOp_stay h (by simp only [← arg.eq_def, hsrc.not_gt, if_false]))

theorem recipeUnload_frees {i : Nat} (h : accepted s mb 0x204 = true) (hi : arg s mb 0 4 = i)
    (hr : (recipe? s (cx s mb) i).isSome = true) (hidle : recipeBusy s (cx s mb) i = false) :
    exec (.recipeUnload mb) s = .next (answered s mb 0x204 []
      (modCtx (cx s mb) (fun c => { c with recipes := FMap.set none c.recipes i none })
        (((theCtx s (cx s mb)).allocs.filter (fun a => a.recipe = i)).foldl
          (fun x a => freeAlloc (cx s mb) a.va x) s))) := by
  have hthere : (recipe? s (cx s mb) i).isNone = false := Option.isNone_eq_false_iff.2 hr
  refine congrArg Host.Outcome.next (runOp_ok h ?_)
  simp only [← arg.eq_def, ← cx.eq_def, hi, hthere, hidle, Bool.false_eq_true, if_false]

/-- The range of a bundle in context memory lies where the host holds no line of it, and the bridge carries it. -/
def bundleOpen (s : State) (c va n : Nat) : Prop :=
  snoopLines s (.host (crownHalf s)) c false va n = [] ∧ bridgeHolds s (.host (crownHalf s)) c false va n = false

theorem recipeLoadDone_loads {env : MemEnv} {k n : Nat} {r : RunCmd} {hd b : List Byte} {src : Bool}
    (hr : runKeyOf s mb 0x203 = some (k, r)) (hk : k < 256) (hserve : serving s = true)
    (hsrc : decide (numAt r.pl 0 1 = 1) = src) (hn : numAt r.pl 16 8 = n)
    (hopen : src = true → bundleOpen s r.ctx (addrAt r.pl 8) n) (hc : (ctx? s r.ctx).isSome = true)
    (hhead : readBundle s r.ctx env src (addrAt r.pl 8) (min n 128) = .ok hd)
    (hver : bundleVersion (numAt hd 0 128) = true)
    (hread : readBundle s r.ctx env src (addrAt r.pl 8) n = .ok b) :
    exec (.recipeLoadDone mb env) s = .next (answer k 0x203 (loadBundle r.ctx n env b
      (if src then readNote (.host (crownHalf s)) r.ctx env (addrAt r.pl 8) n s else s))) := by
  have hsnoop : ¬ (src = true ∧ snoopLines s (.host (crownHalf s)) r.ctx false (addrAt r.pl 8) n ≠ []) :=
    fun hx => hx.2 (hopen hx.1).1
  have hbridge : ¬ (src = true ∧ bridgeHolds s (.host (crownHalf s)) r.ctx false (addrAt r.pl 8) n = true) :=
    fun hx => by simp [(hopen hx.1).2] at hx
  have hlive : (ctx? s r.ctx).isNone = false := Option.isNone_eq_false_iff.2 hc
  change execRecipeLoadDone mb env s = _
  simp only [execRecipeLoadDone, hr, hsrc, hn, hserve, hsnoop, hbridge, hk.not_ge, hlive, hhead, hver, hread,
    Bool.not_true, Bool.false_eq_true, if_false]

/-! ## Partitions (R250, R251, R254) -/

theorem partCreate_creates {cs l : List Nat} {i mg : Nat} (h : accepted s mb 0x201 = true)
    (hpl : partFault (load s mb) = none)
    (hl : (List.range (arg s mb 3 1)).map (fun i => arg s mb (8 + i) 1) = l)
    (hmg : (if arg s mb 2 1 = 0 then 64 else arg s mb 2 1) = mg)
    (hopen : (theCtx s (cx s mb)).closing = false)
    (hcs : choose s (arg s mb 0 1) (arg s mb 1 1) mg l = some cs) (hi : FMap.freeKey none s.work.parts 0 36 = some i)
    (hcnt : reserved s (·.feCnt) + arg s mb 4 2 ≤ 512) (htrig : reserved s (·.feTrig) + arg s mb 6 2 ≤ 8192) :
    exec (.partCreate mb) s = .next (answered s mb 0x201 (natLe 1 i ++ natLe 1 cs.length ++ natLe 6 0 ++
      cs.flatMap (natLe 1 ·) ++ List.replicate (36 - cs.length) 0)
      (createPart i (cx s mb) cs (arg s mb 4 2) (arg s mb 6 2) s)) := by
  refine congrArg Host.Outcome.next (runOp_ok h ?_)
  simp only [← arg.eq_def, ← cx.eq_def, hpl, hl, hmg, hopen, hcs, hi, hcnt.not_gt, htrig.not_gt, Bool.false_eq_true,
    or_self, if_false]

theorem partDestroy_destroys {p : Machine.Part} (h : accepted s mb 0x202 = true)
    (hp : ownPart s (cx s mb) (arg s mb 0 1) = some p) (hforce : bitOf (arg s mb 1 1) 0 = false)
    (hfence : p.fence = none) (hidle : p.queue = []) :
    exec (.partDestroy mb) s = .next (answered s mb 0x202 [] (destroyPart (arg s mb 0 1) s)) := by
  refine congrArg Host.Outcome.next (runOp_ok h ?_)
  simp only [← arg.eq_def, ← cx.eq_def, hp, hforce, hfence, hidle, Option.isSome_none, Bool.false_eq_true, ne_eq,
    not_true_eq_false, if_false]

/-! ## Requests and receipts (R269, R474, R484) -/

/-- A payload of whole tags is taken tag by tag, for REQ_OPEN and REQ_CLOSE alike. -/
theorem reqBody_tags (kind : Nat) (hpos : 0 < arg s mb 0 2) (hmax : arg s mb 0 2 ≤ 256)
    (hlen : (head s mb).len = 8 + 8 * arg s mb 0 2) :
    let o := tagEvents (cx s mb) kind ((List.range (arg s mb 0 2)).map (fun i => numAt (load s mb) (8 + 8 * i) 8)) s
    reqBody kind (head s mb) (load s mb) s = okRep o.1 o.2 := by
  have hn : ¬ (arg s mb 0 2 = 0 ∨ 256 < arg s mb 0 2) := by omega
  simp only [reqBody, ← arg.eq_def, ← cx.eq_def, if_neg hn, hlen, ne_eq, not_true_eq_false, if_false]

theorem ledgerRead_answers {own : Option (Nat × Nat)} {r : List Byte} {u : State} (h : accepted s mb 0x505 = true)
    (hkind : arg s mb 0 1 ≤ 2)
    (hown : (if arg s mb 0 1 = 0 then (ctx? s (cx s mb)).map (fun c => (cx s mb, c.openSeq)) else none) = own)
    (hread : ledgerRead (arg s mb 0 1) (arg s mb 8 8) (arg s mb 16 2) own s = (stOk, 0, r, u)) :
    exec (.ledgerRead mb) s = .next (answered s mb 0x505 r u) := by
  refine congrArg Host.Outcome.next (runOp_ok h ?_)
  simp only [← arg.eq_def, ← cx.eq_def, hkind.not_gt, hown, hread, if_false]
  rfl

end Sessions

/-- Settles O15: the one path that the checks of each command leave open. -/
theorem sessionsOpenAndClose : Obligations.SessionsOpenAndClose :=
  fun _ _ => ⟨fun d _ => openCmd_opens d, fun _ => closeCmd_closes⟩

/-- Settles O18: a bundle is loaded once its source can be read; the other commands by the path that their checks
leave open. -/
theorem recipesAndPartitions : Obligations.RecipesAndPartitions :=
  ⟨fun _ _ => ⟨recipeLoad_stays, fun _ _ _ _ _ hr hk hserve => recipeLoadDone_loads hr hk hserve rfl rfl,
      fun h => recipeUnload_frees h rfl⟩,
    fun _ _ => ⟨fun _ _ h hpl => partCreate_creates h hpl rfl rfl, fun _ => partDestroy_destroys⟩⟩

/-- Settles O27: both request commands by the body that they share; a read that finds its receipts answers them. -/
theorem requestsAndReceipts : Obligations.RequestsAndReceipts := by
  intro s mb
  refine ⟨fun hpos hmax hlen => ⟨fun h => ?opens, fun h => ?closes⟩,
    fun r u h hkind _ hread => ledgerRead_answers h hkind rfl hread⟩
  case opens => exact congrArg Host.Outcome.next (runOp_ok h (reqBody_tags 0 hpos hmax hlen))
  case closes => exact congrArg Host.Outcome.next (runOp_ok h (reqBody_tags 1 hpos hmax hlen))

end Sys2Proof

namespace Sys2Proof
open Machine Claims

/-! # Mailbox pages and their answers (O13, O29) -/

section Mailboxes

variable {s : State} {h : Half} {k st det : Nat} {r : List Byte}

/-! ## What a message leaves alone (R281) -/

theorem mbx_raiseVec (h : Half) (v : Nat) (s : State) : (raiseVec h v s).mbx.pages = s.mbx.pages ∧
    (raiseVec h v s).mbx.run = s.mbx.run ∧ (raiseVec h v s).mbx.watch = s.mbx.watch := by
  unfold raiseVec
  split <;> exact ⟨rfl, rfl, rfl⟩

/-- A message changes no page, no execution place and no watchdog. -/
theorem mbx_msix (h : Half) (v : Nat) (s : State) : (msix h v s).mbx.pages = s.mbx.pages ∧
    (msix h v s).mbx.run = s.mbx.run ∧ (msix h v s).mbx.watch = s.mbx.watch := by
  unfold msix
  split
  · exact ⟨rfl, rfl, rfl⟩
  · split
    · exact mbx_raiseVec _ _ _
    · split
      · exact mbx_raiseVec _ _ _
      · exact ⟨rfl, rfl, rfl⟩

/-! ## The page of an answer (R283, R289) -/

/-- The page that an answer leaves: the payload, the control line and OWN 2. -/
def answerOf (k st det : Nat) (r : List Byte) (s : State) : Page :=
  { own := 2, status := st, respLen := r.length, tagEcho := (hdr (page s k)).tag, opEcho := (hdr (page s k)).opcode,
    ifVer := verUsed (hdr (page s k)) st r, detail := det, doneRt := now s, arrival := (page s k).arrival,
    bytes := Memory.store (page s k).bytes 0x80 r }

theorem mbx_answerPage (k st det : Nat) (r : List Byte) (s : State) :
    (answerPage k st det r s).mbx.pages = FMap.set {} s.mbx.pages k (answerOf k st det r s) ∧
    (answerPage k st det r s).mbx.run = s.mbx.run ∧
    (answerPage k st det r s).mbx.watch = FMap.set none s.mbx.watch k none := by
  unfold answerPage
  dsimp only
  split
  · exact mbx_msix _ _ _
  · exact ⟨rfl, rfl, rfl⟩

theorem page_answerPage (k st det : Nat) (r : List Byte) (s : State) (j : Nat) :
    page (answerPage k st det r s) j = if k = j then answerOf k st det r s else page s j := by
  obtain ⟨hpages, -, -⟩ := mbx_answerPage k st det r s
  rw [page, hpages, FMap.get_set, page]

theorem running_answerPage (k st det : Nat) (r : List Byte) (s : State) (j : Nat) :
    running (answerPage k st det r s) j = running s j := by
  obtain ⟨-, hplaces, -⟩ := mbx_answerPage k st det r s
  rw [running, hplaces, running]

theorem watch_answerPage (k st det : Nat) (r : List Byte) (s : State) :
    FMap.get none (answerPage k st det r s).mbx.watch k = none := by
  obtain ⟨-, -, hwatch⟩ := mbx_answerPage k st det r s
  rw [hwatch, FMap.get_set_self]

/-! ## Firmware's answer (R302, R318, R320) -/

/-- The command of a mailbox stands in no place, or firmware runs unpaused and the port takes its claim number. -/
def AnswerGoesOut (s : State) (k : Nat) : Prop :=
  ∀ x, running s k = some x →
    k < 256 ∧ heldBack s x.opcode = false ∧ portTakes s (Half.ofNum (k / 128)) s.crown.claim = true

/-- An answer goes to the page of a state that differs at most in the freed place. -/
theorem respond_writes (h : AnswerGoesOut s k) :
    ∃ u, respond k st det r s = answerPage k st det r u ∧ running u k = none ∧
      (∀ j, page u j = page s j) ∧ now u = now s := by
  cases hrun : running s k with
  | none => exact ⟨s, by simp only [respond, hrun], hrun, fun _ => rfl, rfl⟩
  | some x =>
    obtain ⟨hk, hheld, htakes⟩ := h x hrun
    refine ⟨setRun k none s, ?_, (running_setRun _ _ _ _).trans (if_pos rfl), fun _ => rfl, rfl⟩
    simp only [respond, hrun, hk.not_ge, hheld, htakes, Bool.false_eq_true, if_false, if_true]

theorem answerOf_congr {u : State} (hpage : page u k = page s k) (hnow : now u = now s) :
    answerOf k st det r u = answerOf k st det r s := by
  rw [answerOf, hpage, hnow, answerOf]

theorem respond_answers (h : AnswerGoesOut s k) :
    (∀ j, page (respond k st det r s) j = if k = j then answerOf k st det r s else page s j) ∧
      running (respond k st det r s) k = none ∧ FMap.get none (respond k st det r s).mbx.watch k = none := by
  obtain ⟨u, hu, hrun, hpage, hnow⟩ := respond_writes (st := st) (det := det) (r := r) h
  rw [hu]
  refine ⟨fun j => ?_, (running_answerPage _ _ _ _ _ _).trans hrun, watch_answerPage _ _ _ _ _⟩
  rw [page_answerPage, hpage, answerOf_congr (hpage k) hnow]

theorem respond_frees {x : RunCmd} (hrun : running s k = some x)
    (h : 256 ≤ k ∨ heldBack s x.opcode = false ∧ portTakes s (Half.ofNum (k / 128)) s.crown.claim = false) :
    respond k st det r s = setRun k none s := by
  simp only [respond, hrun]
  split
  · rfl
  · next hk =>
    obtain ⟨hheld, htakes⟩ := h.resolve_left hk
    simp only [hheld, htakes, Bool.false_eq_true, if_false]

/-! ## The mailbox hardware (R285, R286, R302) -/

/-- The arrival number that a port gives out next. -/
def nextArrival (s : State) (h : Half) : Nat := match h with | .a => s.mbx.nextA | .b => s.mbx.nextB

/-- That number given out. -/
def giveArrival (h : Half) (s : State) : State :=
  match h with
  | .a => { s with mbx := { s.mbx with nextA := s.mbx.nextA + 1 } }
  | .b => { s with mbx := { s.mbx with nextB := s.mbx.nextB + 1 } }

/-- A mailbox taken over by the device: OWN 1 with its arrival number. -/
def taken (h : Half) (k : Nat) (s : State) : State :=
  setPage k { page s k with own := 1, arrival := nextArrival s h } (giveArrival h s)

/-- The same with its watchdog set. -/
def handedOver (h : Half) (k : Nat) (s : State) : State :=
  setWatch k (some (s.time.clk + watchLimit (hdr (page s k)) (payload (page s k)))) (taken h k s)

theorem giveArrival_only (h : Half) (s : State) : Only [.mbx] s (giveArrival h s) := by
  cases h <;> exact putMbx_only _ _

theorem handedOver_only (h : Half) (k : Nat) (s : State) : Only [.mbx] s (handedOver h k s) :=
  .sub (.after (setWatch_only _ _ _) (.after (setPage_only _ _ _) (giveArrival_only _ _))) rfl

theorem page_giveArrival (h : Half) (s : State) (j : Nat) : page (giveArrival h s) j = page s j := by
  cases h <;> rfl

theorem page_taken (h : Half) (k : Nat) (s : State) (j : Nat) : page (taken h k s) j =
    if k = j then { page s k with own := 1, arrival := nextArrival s h } else page s j := by
  rw [taken, page_setPage, page_giveArrival]

theorem page_handedOver (h : Half) (k : Nat) (s : State) (j : Nat) :
    page (handedOver h k s) j = page (taken h k s) j := rfl

theorem watch_handedOver (h : Half) (k : Nat) (s : State) : FMap.get none (handedOver h k s).mbx.watch k =
    some (s.time.clk + watchLimit (hdr (page s k)) (payload (page s k))) := by
  rw [handedOver, setWatch_mbx, FMap.get_set_self]

theorem hdr_taken (h : Half) (k : Nat) (s : State) : hdr (page (taken h k s) k) = hdr (page s k) := by
  rw [page_taken, if_pos rfl]
  rfl

theorem payload_taken (h : Half) (k : Nat) (s : State) : payload (page (taken h k s) k) = payload (page s k) := by
  rw [page_taken, if_pos rfl]
  rfl

theorem clk_taken (h : Half) (k : Nat) (s : State) : (taken h k s).time.clk = s.time.clk := by
  cases h <;> rfl

theorem hwAnswer_taken (h x : Half) (k : Nat) (s : State) : hwAnswer (taken h k s) x = hwAnswer s x := by
  cases h <;> rfl

theorem injMode_handedOver (h : Half) (k : Nat) (s : State) (blk chk : Nat) (hit : Nat → Bool) :
    injMode (handedOver h k s) blk chk hit = injMode s blk chk hit := by
  cases h <;> rfl

/-- Without an answer of the hardware, an armed injection or a fault of its header, a command is handed over. -/
theorem submit_handsOver (hhw : hwAnswer s h = none) (hinj : injMode s h.num 0 (fun t => t % 128 = k % 128) = none)
    (hok : opcodeFault (hdr (page s k)) = none) : submit h k .clean s = handedOver h k s := by
  unfold submit
  dsimp only
  generalize hu : setPage k _ _ = u
  have htaken : u = taken h k s := by
    rw [← hu]
    cases h <;> rfl
  clear hu
  subst htaken
  simp only [hwAnswer_taken, hhw, hdr_taken, payload_taken, clk_taken, ← handedOver.eq_def, injMode_handedOver, hinj,
    hok, injRetry, Option.isSome_none, Bool.false_eq_true, if_false, reduceCtorEq]

section Hardware

variable {mb : Fin 128}

theorem exec_ownershipWrite {size data : Nat} (parity : Retry) (hr : s.power.rails = true)
    (hsize : size = 4 ∨ size = 8) :
    exec (.ownershipWrite h mb size data parity) s = .next (
      if (page s (mbKey h mb)).own = 1 then event h.num 2 0 (mb.val + 256 * (page s (mbKey h mb)).arrival) s
      else if data % 4 = 1 then submit h (mbKey h mb) parity s
      else if (page s (mbKey h mb)).own = 2 ∧ data % 4 = 0 then
        setPage (mbKey h mb) { page s (mbKey h mb) with own := 0 } s
      else s) := by
  have hword : ¬ (size ≠ 4 ∧ size ≠ 8) := by omega
  change execOwnershipWrite h mb size data parity s = _
  simp only [execOwnershipWrite, hr, hword, Bool.not_true, Bool.false_eq_true, or_self, if_false]

theorem ownershipWrite_handsOver {size data : Nat} (hr : s.power.rails = true) (hsize : size = 4 ∨ size = 8)
    (hdata : data % 4 = 1) (hown : (page s (mbKey h mb)).own ≠ 1) (hhw : hwAnswer s h = none)
    (hinj : injMode s h.num 0 (fun t => t % 128 = mbKey h mb % 128) = none)
    (hlen : (hdr (page s (mbKey h mb))).len ≤ 3968)
    (hop : (opInfo (hdr (page s (mbKey h mb))).opcode).isSome = true) :
    exec (.ownershipWrite h mb size data .clean) s = .next (handedOver h (mbKey h mb) s) := by
  have hok : opcodeFault (hdr (page s (mbKey h mb))) = none := by
    rw [opcodeFault, if_neg hlen.not_gt, if_neg (by simp [Option.isSome_iff_ne_none.1 hop])]
  rw [exec_ownershipWrite _ hr hsize, if_neg hown, if_pos hdata, submit_handsOver hhw hinj hok]

theorem ownershipWrite_takesBack {size data : Nat} (parity : Retry) (hr : s.power.rails = true)
    (hsize : size = 4 ∨ size = 8) (hdata : data % 4 = 0) (hown : (page s (mbKey h mb)).own = 2) :
    exec (.ownershipWrite h mb size data parity) s =
      .next (setPage (mbKey h mb) { page s (mbKey h mb) with own := 0 } s) := by
  rw [exec_ownershipWrite _ hr hsize, if_neg (by omega), if_neg (by omega), if_pos ⟨hown, hdata⟩]

theorem mailboxPageWrite_stores {off : Nat} {bytes : List Byte} (hr : s.power.rails = true) (hlo : 0x40 ≤ off)
    (hhi : off + bytes.length ≤ 0x1000) (hown : (page s (mbKey h mb)).own ≠ 1) :
    exec (.mailboxPageWrite h mb off bytes) s = .next (setPage (mbKey h mb) { page s (mbKey h mb) with
      bytes := Memory.store (page s (mbKey h mb)).bytes off (headerMask off bytes) } s) := by
  change execMailboxPageWrite h mb off bytes s = _
  simp only [execMailboxPageWrite, hr, hlo.not_gt, hhi.not_gt, hown, Bool.not_true, Bool.false_eq_true, or_self,
    if_false]

theorem page_watchdogAnswer (k : Nat) (s : State) :
    page (watchdogAnswer k s) k = answerOf k stTimeout 0xFFFFFFFF [] s := by
  have hpage := page_answerPage k stTimeout 0xFFFFFFFF [] s k
  rw [if_pos rfl] at hpage
  rw [← hpage, watchdogAnswer]
  split <;> rfl

theorem mailboxWatchdog_answers {d : Nat} (hd : FMap.get none s.mbx.watch (mbKey h mb) = some d)
    (hown : (page s (mbKey h mb)).own = 1) (hact : s.crown.activating = none) (htake : s.crown.takeover = false)
    (hreset : (s.fab.withdrawn && s.start.resetAt.isSome) = false) :
    exec (.mailboxWatchdog h mb) s = .next (watchdogAnswer (mbKey h mb) (event h.num 1 0
      (mb.val + 256 * (page (waitUntil d s) (mbKey h mb)).arrival) (waitUntil d s))) := by
  have hgo : ¬ (s.fab.withdrawn = true ∧ s.start.resetAt.isSome = true) := by simpa using hreset
  change execMailboxWatchdog h mb s = _
  simp only [execMailboxWatchdog, hd, hown, hact, htake, hgo, ne_eq, not_true_eq_false, Option.isSome_none,
    Bool.false_eq_true, or_self, if_false]

end Hardware

end Mailboxes

/-- Settles O13: an answer that is written goes to the page; else only the place frees. -/
theorem answerWritesTheControlLine : Obligations.AnswerWritesTheControlLine := by
  refine ⟨fun k st det r s h => ?_, fun k st det r s x => respond_frees⟩
  obtain ⟨hpage, hrun, hwatch⟩ := respond_answers (st := st) (det := det) (r := r) h
  have hself := (hpage k).trans (if_pos rfl)
  simp only [hself, answerOf, true_and]
  exact ⟨hrun, hwatch, fun j hj => (hpage j).trans (if_neg hj.symm), respond_only _ _ _ _ _⟩

/-- Settles O29: a hand-over by what submitting a sound command leaves, the watchdog by the page of its answer. -/
theorem mailboxHardware : Obligations.MailboxHardware := by
  intro s h mb
  refine ⟨fun size data hr hsize hdata hown hhw hinj hlen hop => ?handedOver,
    fun size data parity hr hsize hdata hown => ownershipWrite_takesBack parity hr hsize hdata hown,
    fun off bytes => mailboxPageWrite_stores, fun d hd hown hact htake hreset => ?timedOut⟩
  case handedOver =>
    refine ⟨_, ownershipWrite_handsOver hr hsize hdata hown hhw hinj hlen hop, ?_, watch_handedOver _ _ _,
      fun j hj => ?_, handedOver_only _ _ _⟩
    · rw [page_handedOver, page_taken, if_pos rfl]
      rfl
    · rw [page_handedOver, page_taken, if_neg hj.symm]
  case timedOut =>
    refine ⟨_, mailboxWatchdog_answers hd hown hact htake hreset, ?_⟩
    rw [page_watchdogAnswer, (watchdogAnswer_only _ _).win_eq (by decide)]
    exact ⟨rfl, rfl, rfl, rfl, event_sets 0 _ _ (by decide)⟩

end Sys2Proof

namespace Sys2Proof
open Machine Claims

/-! # Commands that report (O14) -/

section Reports

variable {s : State} {mb : Fin 128}

/-! ## The state reported (R304, R305) -/

theorem queryCaps_summary (h : accepted s mb 0x003 = true) (hsec : arg s mb 0 2 = 0) :
    exec (.queryCaps mb) s = .next (answered s mb 0x003 (capsSummary s) s) :=
  congrArg Host.Outcome.next (runOp_ok h (by simp only [← arg.eq_def, hsec]))

theorem queryCaps_clusters (h : accepted s mb 0x003 = true) (hsec : arg s mb 0 2 = 1) :
    exec (.queryCaps mb) s = .next (answered s mb 0x003 (capsClusters s) s) :=
  congrArg Host.Outcome.next (runOp_ok h (by simp only [← arg.eq_def, hsec]))

theorem queryStatus_module (h : accepted s mb 0x004 = true) (hscope : arg s mb 0 1 = 0) :
    exec (.queryStatus mb) s = .next (answered s mb 0x004 (statusModule s) s) :=
  congrArg Host.Outcome.next (runOp_ok h (by simp only [← arg.eq_def, hscope]))

/-! ## Counters read and cleared (R226, R576) -/

/-- What a counter reads after its clear: 0, but for the queue depths of a port. -/
def clearedRead (s : State) (blk k : Nat) : Nat := if 0x80 ≤ blk ∧ 4 ≤ k ∧ k < 12 then ctrRead s blk k else 0

theorem nth_modNth_zero (l : List Nat) (i j : Nat) :
    nth (modNth l i (fun _ => 0)) j = if i = j then 0 else nth l j := by
  rw [nth_modNth]
  by_cases hij : i = j
  · subst hij
    by_cases hi : i < l.length
    · simp [hi]
    · simp [nth, hi]
  · simp [hij]

theorem ctr_setCtr_same (blk i j v : Nat) (s : State) :
    ctr (setCtr blk i v s) blk j = if i = j then v else ctr s blk j := by
  rw [ctr_setCtr]
  simp only [Nat.add_left_cancel_iff]

theorem ctr_modMc (m : Nat) (f : Mc → Mc) (s : State) (blk j : Nat) : ctr (modMc m f s) blk j = ctr s blk j := rfl

theorem ctrRead_absent {blk : Nat} (h : absentBlk s blk = true) (j : Nat) : ctrRead s blk j = 0 := by
  rw [ctrRead, if_pos h]

theorem absentBlk_ctrClear (blk i : Nat) (s : State) (b : Nat) :
    absentBlk (ctrClear blk i s) b = absentBlk s b := by
  have hident : (ctrClear blk i s).ident = s.ident := ctrClear_only _ _ _ .ident (by decide)
  rw [absentBlk, hident, absentBlk]

/-- A counter of a memory controller: the arbiter's own, else the counter `d` of its block (R226). -/
def arbRead (mc : Mc) (j d : Nat) : Nat :=
  if 32 ≤ j ∧ j < 40 then nth mc.grant (j - 32)
  else if 40 ≤ j ∧ j < 48 then nth mc.starve (j - 40)
  else if 48 ≤ j ∧ j < 56 then nth mc.waitMax (j - 48)
  else d

/-- A controller whose counter `i` is cleared. -/
def arbClear (i : Nat) (mc : Mc) : Mc :=
  if 32 ≤ i ∧ i < 40 then { mc with grant := modNth mc.grant (i - 32) (fun _ => 0) }
  else if 40 ≤ i ∧ i < 48 then { mc with starve := modNth mc.starve (i - 40) (fun _ => 0) }
  else if 48 ≤ i ∧ i < 56 then { mc with waitMax := modNth mc.waitMax (i - 48) (fun _ => 0) }
  else mc

theorem arbRead_arbClear (mc : Mc) (i j d : Nat) :
    arbRead (arbClear i mc) j (if i = j then 0 else d) = if i = j then 0 else arbRead mc j d := by
  by_cases hij : i = j
  · subst hij
    rw [if_pos rfl, if_pos rfl]
    unfold arbRead arbClear
    split_ifs <;> simp [nth_modNth_zero]
  · -- two counters of one list stand at different places of it, two of different lists in different lists
    rw [if_neg hij, if_neg hij]
    unfold arbRead arbClear
    split_ifs <;> simp [nth_modNth_zero] <;> omega

theorem blkMc_lt {blk m : Nat} (hmc : blkMc blk = some m) : blk < 0x80 := by
  unfold blkMc at hmc
  split at hmc
  · omega
  · cases hmc

section Controller

variable {blk m : Nat} (hmc : blkMc blk = some m)
include hmc

theorem ctrRead_mc (ha : absentBlk s blk = false) (j : Nat) :
    ctrRead s blk j = arbRead (mcOf s m) j (ctr s blk j) := by
  simp only [ctrRead, ha, hmc, Bool.false_eq_true, if_false]
  rfl

theorem ctrClear_mc (i : Nat) (s : State) : ctrClear blk i s = setCtr blk i 0 (modMc m (arbClear i) s) := by
  simp only [ctrClear, hmc]
  rfl

theorem ctrRead_ctrClear_mc (ha : absentBlk s blk = false) (i j : Nat) :
    ctrRead (ctrClear blk i s) blk j = if i = j then 0 else ctrRead s blk j := by
  have hread : mcOf (ctrClear blk i s) m = arbClear i (mcOf s m) := by
    rw [ctrClear_mc hmc]
    exact (mc_modMc _ _ _ _).trans (if_pos rfl)
  have hctr : ctr (ctrClear blk i s) blk j = if i = j then 0 else ctr s blk j := by
    rw [ctrClear_mc hmc, ctr_setCtr_same, ctr_modMc]
  rw [ctrRead_mc hmc ((absentBlk_ctrClear _ _ _ _).trans ha), hread, hctr, arbRead_arbClear, ctrRead_mc hmc ha]

end Controller

section Block

variable {blk : Nat} (hmc : blkMc blk = none)
include hmc

theorem ctrRead_block (ha : absentBlk s blk = false) (j : Nat) : ctrRead s blk j = ctr s blk j := by
  simp only [ctrRead, ha, hmc, Bool.false_eq_true, if_false]

theorem ctrClear_block (i : Nat) (s : State) :
    ctrClear blk i s = if 0x80 ≤ blk ∧ 4 ≤ i ∧ i < 12 then s else setCtr blk i 0 s := by
  simp only [ctrClear, hmc]

theorem ctrRead_ctrClear_block (ha : absentBlk s blk = false) (i j : Nat) :
    ctrRead (ctrClear blk i s) blk j = if i = j then clearedRead s blk j else ctrRead s blk j := by
  rw [ctrRead_block hmc ((absentBlk_ctrClear _ _ _ _).trans ha), clearedRead, ctrRead_block hmc ha,
    ctrClear_block hmc]
  by_cases hij : i = j
  · subst hij
    rw [if_pos rfl]
    split
    · rfl
    · rw [ctr_setCtr_same, if_pos rfl]
  · rw [if_neg hij]
    split
    · rfl
    · rw [ctr_setCtr_same, if_neg hij]

end Block

theorem ctrRead_ctrClear (blk i j : Nat) (s : State) :
    ctrRead (ctrClear blk i s) blk j = if i = j then clearedRead s blk j else ctrRead s blk j := by
  cases ha : absentBlk s blk with
  | true =>
    simp only [clearedRead, ctrRead_absent ha, ctrRead_absent ((absentBlk_ctrClear _ _ _ _).trans ha), ite_self]
  | false =>
    cases hmc : blkMc blk with
    | some m =>
      have hgauge : ¬ (0x80 ≤ blk ∧ 4 ≤ j ∧ j < 12) := by
        have := blkMc_lt hmc
        omega
      rw [ctrRead_ctrClear_mc hmc ha, clearedRead, if_neg hgauge]
    | none => exact ctrRead_ctrClear_block hmc ha i j

/-- Counters `i` to `i + n - 1` of a block cleared. -/
def ctrsClear (blk i n : Nat) (s : State) : State := (List.range n).foldl (fun s k => ctrClear blk (i + k) s) s

theorem ctrsClear_only (blk i n : Nat) (s : State) : Only [.ctr, .mcs] s (ctrsClear blk i n s) :=
  .sub (.fold (fun _ _ => ctrClear_only _ _ _) (.none _)) rfl

theorem ctrRead_ctrsClear (blk i n j : Nat) (s : State) : ctrRead (ctrsClear blk i n s) blk j =
    if i ≤ j ∧ j < i + n then clearedRead s blk j else ctrRead s blk j := by
  induction n with
  | zero => simp [ctrsClear]
  | succ n ih =>
    have hlast : ctrsClear blk i (n + 1) s = ctrClear blk (i + n) (ctrsClear blk i n s) := by
      simp [ctrsClear, List.range_succ]
    rw [hlast, ctrRead_ctrClear, clearedRead, ih]
    by_cases hj : i + n = j
    · subst hj
      simp [clearedRead]
    · have hrange : (i ≤ j ∧ j < i + (n + 1)) ↔ (i ≤ j ∧ j < i + n) := by omega
      simp only [hj, if_false, hrange]

theorem counterRead_answers {blk i n : Nat} {clear : Bool} (h : accepted s mb 0x804 = true)
    (hblk : arg s mb 0 2 = blk) (hi : arg s mb 2 2 = i) (hn : arg s mb 4 2 = n)
    (hclear : bitOf (arg s mb 6 2) 0 = clear) (hb : isBlock blk = true) (hpos : 0 < n) (hmax : n ≤ 495)
    (hend : i + n ≤ 2048) (hlow : clear = true → i + n ≤ 1024) :
    exec (.counterRead mb) s = .next (answered s mb 0x804
      (natLe 8 (now s) ++ ((List.range n).map (fun k => ctrRead s blk (i + k))).flatMap (natLe 8))
      (if clear then ctrsClear blk i n s else s)) := by
  have hcount : ¬ (n = 0 ∨ 495 < n) := by omega
  have hrange : ¬ (2048 < i + n ∨ clear = true ∧ 1024 < i + n) := by
    rintro (hout | ⟨hc, hout⟩)
    · omega
    · exact absurd (hlow hc) hout.not_ge
  refine congrArg Host.Outcome.next (runOp_ok h ?_)
  simp only [← arg.eq_def, hblk, hi, hn, hb, hclear, hcount, hrange, Bool.not_true, Bool.false_eq_true, if_false]
  rfl

end Reports

/-- Settles O14: each query by the state that its answer shows; the counters that a read clears, one after another. -/
theorem commandsThatReport : Obligations.CommandsThatReport := by
  refine ⟨fun _ _ => ⟨queryCaps_summary, queryCaps_clusters, queryStatus_module,
      ?time, ?power, ?digest, ?fw, ?crown⟩,
    fun s _ blk i n h hblk hi hn hb _ hpos hmax hend => ⟨fun hclear => ?reads, fun hclear hlow => ?clears⟩⟩
  case time | power | digest | fw | crown => exact fun h => congrArg Host.Outcome.next (runOp_ok h rfl)
  case reads => exact counterRead_answers h hblk hi hn hclear hb hpos hmax hend (by simp)
  case clears =>
    exact ⟨ctrsClear blk i n s, ctrsClear_only _ _ _ _,
      fun k hk hkn => (ctrRead_ctrsClear _ _ _ _ _).trans (if_pos ⟨hk, hkn⟩),
      counterRead_answers h hblk hi hn hclear hb hpos hmax hend (fun _ => hlow)⟩

end Sys2Proof

namespace Sys2Proof
open Machine Claims

/-! # COPY and TIER_MOVE (O17) -/

section Moves

variable {s : State} {mb : Fin 128}

/-- No line of the two sides' ranges is to be snooped, and the bridge carries both. -/
def sidesOpen (s : State) (ag : Agent) (cx : Nat) (a b : Side) (n : Nat) : Prop :=
  sideSnoops s ag cx false a n ++ sideSnoops s ag cx true b n = [] ∧
    sideHeld s ag cx false a n = false ∧ sideHeld s ag cx true b n = false

/-! ## COPY (R306) -/

theorem copy_stays (h : accepted s mb 0x104 = true) (hpos : 0 < arg s mb 16 8) (hmax : arg s mb 16 8 ≤ 2 ^ 32)
    (hsrc : arg s mb 24 1 ≤ 1) (hdst : arg s mb 25 1 ≤ 1) :
    exec (.copy mb) s = .next (stays s mb (placed s mb 0x104) s) := by
  refine congrArg Host.Outcome.next (runOp_stay h ?_)
  simp only [← arg.eq_def, hpos.ne', hmax.not_gt, hsrc.not_gt, hdst.not_gt, or_self, if_false]

theorem copyDone_answers {env : MemEnv} {k n : Nat} {r : RunCmd} {a b : Side} (hr : runKeyOf s mb 0x104 = some (k, r))
    (hn : numAt r.pl 16 8 = n) (ha : ({ host := numAt r.pl 24 1 = 1, va := addrAt r.pl 0 } : Side) = a)
    (hb : ({ host := numAt r.pl 25 1 = 1, va := addrAt r.pl 8 } : Side) = b)
    (hopen : sidesOpen s (.host (crownHalf s)) r.ctx a b n)
    (hok : (moveAll (.host (crownHalf s)) r.ctx env a b n s).2.2 = none) :
    exec (.copyDone mb env) s = .next (respond k stOk 0
      (natLe 8 (moveAll (.host (crownHalf s)) r.ctx env a b n s).2.1)
      (moveAll (.host (crownHalf s)) r.ctx env a b n s).1) := by
  obtain ⟨hsnoop, hfrom, hto⟩ := hopen
  change execCopyDone mb env s = _
  simp only [execCopyDone, hr, hn, ha, hb, hsnoop, hfrom, hto, hok, ne_eq, not_true_eq_false, Bool.or_self,
    Bool.false_eq_true, if_false, Option.isNone_none, if_true, Option.map_none, Option.getD_none]

/-! ## TIER_MOVE (R208-R211) -/

theorem tierMove_stays {n : Nat} (h : accepted s mb 0x105 = true) (hn : (head s mb).len / 64 = n)
    (hlen : (head s mb).len % 64 = 0) (hpos : 0 < n) (hmax : n ≤ 62)
    (hok : ∀ i < n, moverFault s (cx s mb) (moverDesc (load s mb) i) = none) :
    exec (.tierMove mb) s = .next (stays s mb { placed s mb 0x105 with moves := List.replicate n {} } s) := by
  have hnone : (List.range n).findSome?
      (fun i => (moverFault s (cx s mb) (moverDesc (load s mb) i)).map (64 * i + ·)) = none := by
    refine List.findSome?_eq_none_iff.2 fun i hi => ?_
    rw [hok i (List.mem_range.1 hi), Option.map_none]
  refine congrArg Host.Outcome.next (runOp_stay h ?_)
  simp only [← cx.eq_def, hn, hlen, hpos.ne', hmax.not_gt, hnone, ne_eq, not_true_eq_false, or_self, if_false]

section Descriptor

variable {i k : Nat} {r : RunCmd} {m : MoveSt} (hr : runKeyOf s mb 0x105 = some (k, r)) (hm : r.moves[i]? = some m)
include hr hm

theorem tierMoveDescStart_starts {half : Half} {mover : Fin 4} (hst : m.st = 0)
    (hfree : moverBusy s half mover.val = false) (htake : s.crown.takeover = false)
    (hearly : bitOf (moverDesc r.pl i) 128 = true → ∀ x ∈ r.moves.take i, 2 ≤ x.st) :
    exec (.tierMoveDescStart mb i half mover) s = .next (setRun k
      (some { r with moves := r.moves.set i { m with st := 1, half := half, mover := mover.val } })
      (waitCount (fld (moverDesc r.pl i) 319 256) s)) := by
  have hturn : ¬ (bitOf (moverDesc r.pl i) 128 = true ∧
      (!(r.moves.take i).all (fun m => decide (2 ≤ m.st))) = true) := by
    rintro ⟨hb, hlate⟩
    have hall : (r.moves.take i).all (fun m => decide (2 ≤ m.st)) = true := by simpa using hearly hb
    simp [hall] at hlate
  change execTierMoveDescStart mb i half mover s = _
  simp only [execTierMoveDescStart, hr, hm, hst, hfree, htake, hturn, ne_eq, not_true_eq_false, Bool.false_eq_true,
    or_self, if_false]

theorem tierMoveDescDone_ends {env : MemEnv} {d n : Nat} {a b : Side} {o : State × Nat × Option Fail} (hst : m.st = 1)
    (hd : moverDesc r.pl i = d) (ha : ({ host := false, va := fld d 495 448 } : Side) = a)
    (hb : ({ host := false, va := fld d 431 384 } : Side) = b) (hn : fld d 351 320 = n)
    (hmove : moveAll (.mover m.half) r.ctx env a b n s = o)
    (hopen : sidesOpen s (.mover m.half) r.ctx a b n) (hok : o.2.2 = none) :
    let r' := { r with moves := r.moves.set i { m with st := 2, reason := 0, moved := o.2.1 } }
    exec (.tierMoveDescDone mb i env) s = .next (tierMoveEnd k r' (setRun k (some r')
      (count (0x10 + m.half.num) 33 1 (count (0x10 + m.half.num) 32 o.2.1 (moverSignal k r.ctx d o.1))))) := by
  obtain ⟨hsnoop, hfrom, hto⟩ := hopen
  change execTierMoveDescDone mb i env s = _
  simp only [execTierMoveDescDone, hr, hm, hst, hd, ha, hb, hn, hmove, hsnoop, hfrom, hto, hok, ne_eq,
    not_true_eq_false, Bool.or_self, Bool.false_eq_true, if_false, Option.isNone_none, Option.isSome_none, if_true,
    Option.map_none, Option.getD_none, Bool.false_and]

end Descriptor

end Moves

/-- Settles O17: each command by the path that its checks leave open, each end by the move of its lines. -/
theorem bytesAreMoved : Obligations.BytesAreMoved := by
  refine ⟨fun _ _ => ⟨copy_stays, fun _ _ _ _ hr hn hsnoop hfrom hto => ?copied⟩,
    fun _ _ => ⟨fun h => tierMove_stays h rfl, fun _ _ _ _ _ _ hr hm => tierMoveDescStart_starts hr hm,
      fun _ _ _ _ _ hr hm hst hsnoop hfrom hto => ?moved⟩⟩
  case copied => exact copyDone_answers hr hn.symm rfl rfl ⟨hsnoop, hfrom, hto⟩
  case moved => exact tierMoveDescDone_ends hr hm hst rfl rfl rfl rfl rfl ⟨hsnoop, hfrom, hto⟩

end Sys2Proof

namespace Sys2Proof
open Machine Claims

/-! # Configuration and settings commands (O24) -/

section Settings

variable {s u : State} {mb : Fin 128}

/-! ## The functions (R312, R548) -/

theorem configStop_holds (h : accepted s mb 0x601 = true) (hf : arg s mb 0 1 ≤ 5)
    (hfree : stopOf s (arg s mb 0 1) = none) :
    exec (.configStop mb) s = .next (answered s mb 0x601 []
      (setStop (arg s mb 0 1) (some { holder := holderOf (key s mb) (head s mb) }) s)) := by
  refine congrArg Host.Outcome.next (runOp_ok h ?_)
  simp only [← arg.eq_def, hf.not_gt, hfree, if_false]

section Held

variable {x : Stopped} (hf : arg s mb 0 1 ≤ 5) (hx : stopOf s (arg s mb 0 1) = some x)
  (hholder : x.holder = holderOf (key s mb) (head s mb))
include hf hx hholder

theorem configWrite_stages {l : List (Nat × List Byte)} (h : accepted s mb 0x602 = true)
    (hlen : 8 ≤ (load s mb).length) (hl : recordsOf s (arg s mb 0 1) 2 (load s mb) = .ok l) :
    exec (.configWrite mb) s = .next (answered s mb 0x602 []
      (setStop (arg s mb 0 1) (some { x with staged := layRecords l x.staged }) s)) := by
  refine congrArg Host.Outcome.next (runOp_ok h ?_)
  simp only [← arg.eq_def, hlen.not_gt, hf.not_gt, hl, hx, hholder, ne_eq, not_true_eq_false, if_false]

theorem configStart_applies {flash : Retry} (h : accepted s mb 0x603 = true) (hstaged : x.staged ≠ [])
    (hvc : FMap.get [] x.staged 0x0003 = []) (hrec : recordSettings flash x.staged s = (true, u)) :
    let v := setStop (arg s mb 0 1) none (x.staged.foldl (fun s y => applyKey y.1 s) u)
    exec (.configStart mb flash) s = .next (answered s mb 0x603 (hashBytes (digest v)) v) := by
  refine congrArg Host.Outcome.next (runOp_ok h ?_)
  simp only [← arg.eq_def, hf.not_gt, hx, hholder, hstaged, hvc, hrec, ne_eq, not_true_eq_false, false_and, if_false]

end Held

/-! ## Settings outside the functions (R313, R471, R564) -/

theorem settingsWrite_records {flash : Retry} {l : List (Nat × List Byte)} (h : accepted s mb 0x604 = true)
    (hl : recordsOf s 6 0 (load s mb) = .ok l) (hne : l ≠ []) (hrec : recordSettings flash l s = (true, u)) :
    exec (.settingsWrite mb flash) s = .next (answered s mb 0x604 (hashBytes (digest u)) u) := by
  refine congrArg Host.Outcome.next (runOp_ok h ?_)
  cases l with
  | nil => exact absurd rfl hne
  | cons y ys => simp only [hl, hrec]

theorem methodSet_schedules {flash : Retry} {m hs t : Nat} (h : accepted s mb 0x506 = true) (hm : arg s mb 0 2 = m)
    (hhs : arg s mb 2 1 = hs) (ht : arg s mb 8 8 = t) (hmethod : m = 1 ∨ m = 2) (hshare : hs ≤ 1)
    (hframe : t % 100000 = 0) (hgo : isStopped s 4 = false)
    (hrec : recordSettings flash [(0x0401, natLe 2 m), (0x0402, natLe 1 hs)] s = (true, u)) :
    exec (.methodSet mb flash) s = .next (answered s mb 0x506 []
      (modLed (fun l => { l with pendMethod := some (max (t / 100000) (now u / 100000 + 1), m, hs) }) u)) := by
  have hknown : ¬ (m ≠ 1 ∧ m ≠ 2) := by omega
  refine congrArg Host.Outcome.next (runOp_ok h ?_)
  simp only [← arg.eq_def, hm, hhs, ht, hknown, hshare.not_gt, hframe, hgo, hrec, ne_eq, not_true_eq_false,
    Bool.false_eq_true, if_false]

theorem traceCtlRingSize_sizes {flash : Retry} {m : Nat} (h : accepted s mb 0x801 = true) (hm : arg s mb 4 4 = m)
    (hop : arg s mb 0 1 = 2) (hmax : m ≤ 1024) (hgo : isStopped s 5 = false)
    (hrec : recordSettings flash [(0x0501, natLe 4 m)] s = (true, u)) :
    exec (.traceCtlRingSize mb flash) s = .next (answered s mb 0x801 (natLe 8 0) (ringSize m u)) := by
  refine congrArg Host.Outcome.next (runCmd_ok h (by simpa [arg] using hop) ?_)
  simp only [← arg.eq_def, hm, hmax.not_gt, hgo, hrec, Bool.false_eq_true, if_false]

end Settings

/-- Settles O24: each command by the path that its checks and the flash leave open; a METHOD_SET whose frame has passed
takes the next one (log entry 76). -/
theorem settingsTakeEffect : Obligations.SettingsTakeEffect :=
  ⟨fun _ _ => ⟨configStop_holds, fun _ _ h hlen hf hl hx hholder => configWrite_stages hf hx hholder h hlen hl,
      fun _ _ _ h hf hx hholder => configStart_applies hf hx hholder h, fun _ _ _ => settingsWrite_records⟩,
    fun _ _ _ => ⟨fun _ h => methodSet_schedules h rfl rfl rfl, fun _ h => traceCtlRingSize_sizes h rfl⟩⟩

end Sys2Proof

namespace Sys2Proof
open Machine Claims

/-! # Ports: their states, queues and counters

What each update of a port does to that port, to the other ports and to the counters. -/

section PortRules

variable {s : State}

/-! ## Frames without the fabric or the counters -/

theorem Only.port_eq {ps : List Zone} {t : State} (h : Only ps s t) (hp : ps.contains .fab = false) (q : Nat) :
    port t q = port s q := by
  have hfab : t.fab = s.fab := h .fab (by simpa using hp)
  simp only [port, hfab]

theorem Only.ctr_eq {ps : List Zone} {t : State} (h : Only ps s t) (hp : ps.contains .ctr = false) (b i : Nat) :
    ctr t b i = ctr s b i := by
  have hctr : t.obs.ctr = s.obs.ctr := h .ctr (by simpa using hp)
  simp only [ctr, hctr]

theorem ctr_count (b i n : Nat) (s : State) (c j : Nat) : ctr (count b i n s) c j =
    if 2048 * b + i = 2048 * c + j then (ctr s b i + n) % 2 ^ 64 else ctr s c j := ctr_setCtr ..

/-- A port's events raise no counter of their own (R371, R573). -/
theorem portEvent_uncounted (p bit : Nat) (s : State) : Only [.win, .mbx] s (portEvent p bit s) := by
  unfold portEvent event eventG
  dsimp only
  rw [if_pos (Nat.le_add_right 0x80 p)]
  exact .after (.when (msix_only _ _ _)) (setWin_only _ _ s)

theorem port_portEvent (p bit : Nat) (s : State) (q : Nat) : port (portEvent p bit s) q = port s q :=
  (portEvent_uncounted p bit s).port_eq rfl q

theorem portEvent_sets (p : Nat) {bit : Nat} (s : State) (h : bit < 32) :
    (win (portEvent p bit s) (0x80 + p)).sts.getLsbD bit = true := event_sets _ _ _ h

/-! ## Queues (R330, R371) -/

theorem setQueue_fab (p : Nat) (l : List (Nat × Pkt)) (s : State) :
    (setQueue p l s).fab = (modPort p (fun x => { x with queue := l }) s).fab := by
  unfold setQueue
  exact foldl_keeps (P := fun u => u.fab = (modPort p (fun x => { x with queue := l }) s).fab)
    (fun u v h => by simpa only [setCtr_fab] using h) _ _ rfl

theorem port_setQueue (p : Nat) (l : List (Nat × Pkt)) (s : State) (q : Nat) :
    port (setQueue p l s) q = if p = q then { port s p with queue := l } else port s q := by
  have hmod : port (setQueue p l s) q = port (modPort p (fun x => { x with queue := l }) s) q := by
    simp only [port, setQueue_fab]
  exact hmod.trans (port_modPort ..)

/-- A queue's depths and their high-water marks are counters 4 to 19 of its port, and no others change. -/
theorem ctr_setQueue (p : Nat) (l : List (Nat × Pkt)) (s : State) (q : Nat) {i : Nat} (hi : 20 ≤ i) (hi' : i < 2048) :
    ctr (setQueue p l s) (0x80 + q) i = ctr s (0x80 + q) i := by
  unfold setQueue
  refine List.foldlRecOn (motive := fun u => ctr u (0x80 + q) i = ctr s (0x80 + q) i) _ _ rfl fun u hu v hv => ?_
  have hv : v < 8 := List.mem_range.1 hv
  rw [ctr_setCtr, if_neg (by omega), ctr_setCtr, if_neg (by omega), hu]

/-! ## Port states (R326-R330) -/

/-- An empty queue has nothing to route again. -/
theorem port_requeue_empty {p : Nat} (hq : (port s p).queue = []) : port (requeue p s) p = port s p := by
  have hempty : requeue p s = setQueue p [] s := by
    unfold requeue
    simp only [hq, List.filter_nil, ite_self, List.foldl_nil]
  rw [hempty, port_setQueue, if_pos rfl, ← hq]

/-- A port that leaves no queue behind changes its state and nothing else. -/
theorem port_setPortSt {p : Nat} (st : Nat) (h : (port s p).st ≠ 4 ∨ (port s p).queue = []) :
    port (setPortSt p st s) p = { port s p with st := st, since := s.time.clk } := by
  have hmod : port (modPort p (fun x => { x with st := st, since := s.time.clk }) s) p =
      { port s p with st := st, since := s.time.clk } := by rw [port_modPort, if_pos rfl]
  unfold setPortSt
  dsimp only
  split
  · exact hmod
  split
  · next hst =>
    have hq : (port s p).queue = [] := h.resolve_left (absurd hst)
    rw [port_requeue_empty (by rw [port_portEvent, hmod]; exact hq), port_portEvent, hmod]
  · rw [port_portEvent, hmod]

theorem port_train {p : Nat} (h : (port s p).st ≠ 4 ∨ (port s p).queue = []) :
    port (train p s) p = { port s p with test := none, proto := 0, st := 1, since := s.time.clk } := by
  unfold train
  rw [port_setPortSt 1 (by simpa only [port_modPort, if_true] using h), port_modPort, if_pos rfl]
  rfl

theorem port_retrain {p : Nat} (h : (port s p).queue = []) : port (retrain p s) p =
    { port s p with retrain := true, tries := 0, test := none, proto := 0, st := 1, since := s.time.clk } := by
  unfold retrain
  rw [port_train (.inr (by simpa only [port_modPort, if_true] using h)), port_modPort, if_pos rfl]
  rfl

theorem port_becomeActive {p : Nat} (hw : (port s p).withdrawn = false) (hst : (port s p).st ≠ 4) :
    port (becomeActive p s) p =
      { freshLink s { port s p with retrain := false, tries := 0, reason := 0, ctlOff := false } with
        st := 4, since := s.time.clk } := by
  have htold (c : Prop) [Decidable c] :
      Only [.ctr, .win, .mbx] s (if c then portEvent p 1 (count (0x80 + p) 36 1 s) else s) :=
    .when (.after (portEvent_uncounted _ _ _) (count_only _ _ _ _))
  have hport (c : Prop) [Decidable c] := (htold c).port_eq rfl p
  have htime (c : Prop) [Decidable c] := (htold c).time_eq rfl
  unfold becomeActive
  dsimp only
  rw [hw, if_neg Bool.false_ne_true, port_setPortSt]
  · simp only [port_modPort, if_true, hport, freshLink, modPort_time, htime, hw]
  · left
    simpa only [port_modPort, if_true, hport, freshLink] using hst

/-- A first attempt that fails starts over (R328). -/
theorem port_attemptFailed_first {p : Nat} (reason : Nat) (hw : (port s p).withdrawn = false)
    (hr : (port s p).retrain = false) (ht : (port s p).tries = 0) (hst : (port s p).st ≠ 4) :
    port (attemptFailed p reason s) p =
      { port s p with tries := 1, reason := reason, st := 1, since := s.time.clk } := by
  unfold attemptFailed
  dsimp only
  rw [if_neg (by simp [hw]), if_neg (by simp [hr]), if_pos ht,
    port_setPortSt 1 (.inl (by simpa only [port_modPort, if_true] using hst)), port_modPort, if_pos rfl]
  rfl

end PortRules

end Sys2Proof

namespace Sys2Proof
open Machine Claims

/-! # Withdrawals at their ticks, and their drain (O35) -/

section Withdrawals

variable {s : State}

/-! ## The comparator's tick (R346, R373, R376) -/

/-- A table due after the tick waits (R346). -/
theorem swapDue_later {tick : Nat} (flash : Retry) (h : ∀ x, s.fab.shadow = some x → tick < x.1) :
    swapDue tick flash s = s := by
  unfold swapDue
  split
  · next t _ hsh => exact if_neg (Nat.not_le.2 (h _ hsh))
  · rfl

theorem holdCredits_withdrawal (s : State) : (holdCredits s).fab.withdrawn = s.fab.withdrawn ∧
    (holdCredits s).fab.drainEnd = s.fab.drainEnd := by
  unfold holdCredits
  exact foldl_keeps (P := fun u => u.fab.withdrawn = s.fab.withdrawn ∧ u.fab.drainEnd = s.fab.drainEnd)
    (fun u p h => by simpa only [modPort_fab] using h) _ s ⟨rfl, rfl⟩

/-- The state in which a comparator of the module acts: it and its entry are gone, and a table due by its tick is in
force. -/
def comparatorDue (c : Comparator) (flash : Retry) (s : State) : State :=
  endWithdrawEntry c (modFab (fun f => { f with comps := f.comps.erase c }) (swapDue c.tick flash (waitCount c.tick s)))

theorem exec_transitWithdrawTick_module {c : Comparator} (flash : Retry) (hc : ownComp s = some c) (hk : c.kind = 0) :
    exec (.transitWithdrawTick flash) s = .next (holdCredits (modFab
      (fun f => { f with withdrawn := true, drainEnd := some ((comparatorDue c flash s).time.clk + 10000) })
      (comparatorDue c flash s))) := by
  change execTransitWithdrawTick s flash = _
  simp only [execTransitWithdrawTick, hc, hk, if_true]
  rfl

theorem exec_transitWithdrawTick_port {c : Comparator} (flash : Retry) (hc : ownComp s = some c) (hk : c.kind ≠ 0) :
    exec (.transitWithdrawTick flash) s = .next (disablePort c.port (comparatorDue c flash s)) := by
  change execTransitWithdrawTick s flash = _
  simp only [execTransitWithdrawTick, hc, hk, if_false]
  rfl

/-- Without a table due by the tick, only time passes, and the comparator and its entry end. -/
theorem comparatorDue_only {c : Comparator} (flash : Retry) (h : ∀ x, s.fab.shadow = some x → c.tick < x.1) :
    Only [.time, .fab, .sched] s (comparatorDue c flash s) := by
  have hwait : Only [.time] s (waitCount c.tick s) := waitCount_only _ _
  have hfab : (waitCount c.tick s).fab = s.fab := hwait .fab (by decide)
  unfold comparatorDue
  rw [swapDue_later flash (by rwa [hfab])]
  exact .after (endWithdrawEntry_only _ _) (.after (modFab_only _ _) hwait)

theorem transitWithdrawTick_withdraws {c : Comparator} (flash : Retry) (hc : ownComp s = some c) (hk : c.kind = 0)
    (h : ∀ x, s.fab.shadow = some x → c.tick < x.1) :
    ∃ t, exec (.transitWithdrawTick flash) s = .next t ∧ t.fab.withdrawn = true ∧
      t.fab.drainEnd = some (t.time.clk + 10000) ∧ Only [.time, .fab, .sched] s t := by
  refine ⟨_, exec_transitWithdrawTick_module flash hc hk, ?_⟩
  generalize hu : comparatorDue c flash s = u
  obtain ⟨hwithdrawn, hdrain⟩ := holdCredits_withdrawal
    (modFab (fun f => { f with withdrawn := true, drainEnd := some (u.time.clk + 10000) }) u)
  refine ⟨hwithdrawn, ?_, .sub (.after (holdCredits_only _) (.after (modFab_only _ _)
    (hu ▸ comparatorDue_only flash h))) rfl⟩
  rw [hdrain, (holdCredits_only _).time_eq rfl]
  rfl

/-! ## The end of the drain (R373) -/

/-- What is left in a port's queue is dropped and counted. -/
def dropQueue (p : Nat) (s : State) : State :=
  if (port s p).queue.length = 0 then s
  else setQueue p [] (count (0x80 + p) 46 (port s p).queue.length
    ((port s p).queue.foldl (fun s y => freeIn y.1 y.2 s) s))

theorem queue_freeIn (inp : Nat) (k : Pkt) (s : State) (q : Nat) :
    (port (freeIn inp k s) q).queue = (port s q).queue := by
  unfold freeIn freeBuf
  split
  · rfl
  split
  · rfl
  · rw [port_modPort]
    split
    · next h => rw [h]
    · rfl

theorem queue_freeIn_all (l : List (Nat × Pkt)) (s : State) (q : Nat) :
    (port (l.foldl (fun s y => freeIn y.1 y.2 s) s) q).queue = (port s q).queue :=
  foldl_keeps (P := fun u => (port u q).queue = (port s q).queue) (fun _ _ h => (queue_freeIn _ _ _ q).trans h) l s rfl

theorem dropQueue_only (p : Nat) (s : State) : Only [.fab, .ctr] s (dropQueue p s) :=
  .unless (.sub (.after (setQueue_only _ _ _) (.after (count_only _ _ _ _)
    (.fold (fun _ _ => freeIn_only _ _ _) (.none s)))) rfl)

theorem queue_dropQueue (p : Nat) (s : State) (q : Nat) :
    (port (dropQueue p s) q).queue = if p = q then [] else (port s q).queue := by
  unfold dropQueue
  split
  · next h =>
    split
    · next hp => exact hp ▸ List.eq_nil_of_length_eq_zero h
    · rfl
  · rw [port_setQueue]
    split
    · rfl
    · rw [port_count, queue_freeIn_all]

theorem dropped_dropQueue (p : Nat) (s : State) (q : Nat) : ctr (dropQueue p s) (0x80 + q) 46 =
    if p = q ∧ (port s q).queue ≠ [] then (ctr s (0x80 + q) 46 + (port s q).queue.length) % 2 ^ 64
    else ctr s (0x80 + q) 46 := by
  have hfreed (b i : Nat) : ctr ((port s p).queue.foldl (fun s y => freeIn y.1 y.2 s) s) b i = ctr s b i :=
    Only.ctr_eq (.fold (fun _ _ => freeIn_only _ _ _) (.none s)) rfl b i
  unfold dropQueue
  split
  · next h =>
    rw [if_neg]
    rintro ⟨rfl, hne⟩
    exact hne (List.eq_nil_of_length_eq_zero h)
  · next h =>
    rw [ctr_setQueue _ _ _ _ (by decide) (by decide), ctr_count, hfreed, hfreed]
    by_cases hp : p = q
    · subst hp
      rw [if_pos rfl, if_pos ⟨rfl, fun hnil => h (by rw [hnil]; rfl)⟩]
    · rw [if_neg (by omega), if_neg fun hq => hp hq.1]

/-- What the first `n` ports hold is dropped. -/
def dropQueues (n : Nat) (s : State) : State := (List.range n).foldl (fun s p => dropQueue p s) s

theorem dropQueues_succ (n : Nat) (s : State) : dropQueues (n + 1) s = dropQueue n (dropQueues n s) := by
  rw [dropQueues, List.range_succ, List.foldl_append]
  rfl

theorem dropQueues_only (n : Nat) (s : State) : Only [.fab, .ctr] s (dropQueues n s) :=
  .fold (fun _ _ => dropQueue_only _ _) (.none s)

theorem queue_dropQueues (n : Nat) (s : State) (q : Nat) :
    (port (dropQueues n s) q).queue = if q < n then [] else (port s q).queue := by
  induction n with
  | zero => rfl
  | succ n ih =>
    rw [dropQueues_succ, queue_dropQueue, ih]
    grind

theorem dropped_dropQueues (n : Nat) (s : State) (q : Nat) : ctr (dropQueues n s) (0x80 + q) 46 =
    if q < n ∧ (port s q).queue ≠ [] then (ctr s (0x80 + q) 46 + (port s q).queue.length) % 2 ^ 64
    else ctr s (0x80 + q) 46 := by
  induction n with
  | zero => rfl
  | succ n ih =>
    rw [dropQueues_succ, dropped_dropQueue, queue_dropQueues, ih]
    grind

theorem dropQueue_drainEnd (p : Nat) (s : State) : (dropQueue p s).fab.drainEnd = s.fab.drainEnd := by
  have hfree (inp : Nat) (k : Pkt) (u : State) : (freeIn inp k u).fab.drainEnd = u.fab.drainEnd := by
    unfold freeIn freeBuf
    split
    · rfl
    split
    · rfl
    · rfl
  unfold dropQueue
  split
  · rfl
  · rw [setQueue_fab]
    exact foldl_keeps (P := fun u => u.fab.drainEnd = s.fab.drainEnd) (fun _ _ h => (hfree _ _ _).trans h) _ s rfl

theorem dropQueues_drainEnd (n : Nat) (s : State) : (dropQueues n s).fab.drainEnd = s.fab.drainEnd :=
  foldl_keeps (P := fun u => u.fab.drainEnd = s.fab.drainEnd) (fun _ _ h => (dropQueue_drainEnd _ _).trans h) _ s rfl

/-- The module at the end of its drain, all queues dropped. -/
def drainedAt (d : Nat) (s : State) : State :=
  dropQueues 64 (modFab (fun f => { f with drainEnd := none }) (waitUntil d s))

theorem drainedAt_only (d : Nat) (s : State) : Only [.time, .fab, .ctr] s (drainedAt d s) :=
  .sub (.after (dropQueues_only _ _) (.after (modFab_only _ _) (waitUntil_only d s))) rfl

theorem exec_withdrawDrainEnd {d : Nat} (hd : s.fab.drainEnd = some d) : exec .withdrawDrainEnd s =
    .next (if s.start.resetAt.isSome then moduleReset (drainedAt d s) else drainedAt d s) := by
  have hstart : (drainedAt d s).start = s.start := drainedAt_only d s .start (by decide)
  change execWithdrawDrainEnd s = _
  simp only [execWithdrawDrainEnd, hd, ← dropQueue.eq_def, ← dropQueues.eq_def, ← drainedAt.eq_def, hstart]

theorem withdrawDrainEnd_drops {d : Nat} (hd : s.fab.drainEnd = some d) (hr : s.start.resetAt = none) :
    ∃ t, exec .withdrawDrainEnd s = .next t ∧ t.fab.drainEnd = none ∧ (∀ p < 64, (port t p).queue = []) ∧
      ∀ p < 64, (port s p).queue ≠ [] →
        ctr t (0x80 + p) 46 = (ctr s (0x80 + p) 46 + (port s p).queue.length) % 2 ^ 64 := by
  have hqueue (p : Nat) : (port (modFab (fun f => { f with drainEnd := none }) (waitUntil d s)) p).queue =
      (port s p).queue := congrArg Port.queue ((waitUntil_only d s).port_eq rfl p)
  have hctr (p : Nat) : ctr (modFab (fun f => { f with drainEnd := none }) (waitUntil d s)) (0x80 + p) 46 =
      ctr s (0x80 + p) 46 := (waitUntil_only d s).ctr_eq rfl _ _
  refine ⟨drainedAt d s, by rw [exec_withdrawDrainEnd hd, hr]; rfl, ?_, fun p hp => ?_, fun p hp hne => ?_⟩
  · rw [drainedAt, dropQueues_drainEnd]
    rfl
  · rw [drainedAt, queue_dropQueues, if_pos hp]
  · rw [drainedAt, dropped_dropQueues, hqueue, hctr, if_pos ⟨hp, hne⟩]

/-- A module reset is a cap update of a module that starts again from rail sequencing, with no context and no memory
(R526). -/
theorem moduleReset_restarts (s : State) : ∃ u, moduleReset s = capUpdate u ∧ u.start.resetAt = none ∧
    u.start.phase = 2 ∧ u.power.rails = false ∧ u.work.ctxs = [] ∧ u.mem.phys = [] :=
  ⟨_, rfl, rfl, rfl, rfl, rfl, rfl⟩

theorem capUpdate_rails (s : State) : (capUpdate s).power.rails = s.power.rails := by
  rw [capUpdate_power]
  split
  · rfl
  · rfl

theorem withdrawDrainEnd_resets {d : Nat} (hd : s.fab.drainEnd = some d) (hr : s.start.resetAt.isSome = true) :
    ∃ t, exec .withdrawDrainEnd s = .next t ∧ t.start.resetAt = none ∧ t.start.phase = 2 ∧ t.power.rails = false ∧
      t.work.ctxs = [] ∧ t.mem.phys = [] ∧ t.flash = s.flash := by
  have hflash : (moduleReset (drainedAt d s)).flash = s.flash :=
    Only.after (moduleReset_only _) (drainedAt_only d s) .flash (by decide)
  obtain ⟨u, hu, hreset, hphase, hrails, hctxs, hphys⟩ := moduleReset_restarts (drainedAt d s)
  have hstart : (capUpdate u).start = u.start := capUpdate_only u .start (by decide)
  have hwork : (capUpdate u).work = u.work := capUpdate_only u .work (by decide)
  have hmem : (capUpdate u).mem.phys = u.mem.phys := capUpdate_only u .phys (by decide)
  rw [hu] at hflash
  refine ⟨capUpdate u, by rw [exec_withdrawDrainEnd hd, if_pos hr, hu], ?_, ?_, ?_, ?_, ?_, hflash⟩
  · rw [hstart, hreset]
  · rw [hstart, hphase]
  · rw [capUpdate_rails, hrails]
  · rw [hwork, hctxs]
  · rw [hmem, hphys]

end Withdrawals

/-- Settles O35: the comparator's tick begins the drain or disables the port, and the drain's end empties every queue
and starts a pending reset. -/
theorem withdrawalsAndTables : Obligations.WithdrawalsAndTables := fun _ =>
  ⟨fun _ flash hc hk h => transitWithdrawTick_withdraws flash hc hk h,
    fun _ flash hc hk => exec_transitWithdrawTick_port flash hc hk,
    fun _ hd hr => withdrawDrainEnd_drops hd hr, fun _ hd hr => withdrawDrainEnd_resets hd hr⟩

end Sys2Proof

namespace Sys2Proof
open Machine Claims

/-! # Links train, carry and fail (O46) -/

section Links

variable {s : State} {p : Fin 64}

/-! ## Training (R326-R328) -/

/-- A training stage hands on to the next. -/
theorem setPortSt_handsOn (st : Nat) (h : (port s p).st ≠ 4) :
    port (setPortSt p st s) p = { port s p with st := st, since := s.time.clk } ∧
      Only [.fab, .win, .ctr, .mbx] s (setPortSt p st s) :=
  ⟨port_setPortSt st (.inl h), (setPortSt_only _ _ _).sub rfl⟩

theorem exec_phyTrainDone (h : (port s p).st = 1) : exec (.phyTrainDone p) s = .next (setPortSt p 2 s) :=
  congrArg Host.Outcome.next (if_pos (decide_eq_true h))

theorem exec_fecLockDone (h : (port s p).st = 2) : exec (.fecLockDone p) s = .next (setPortSt p 3 s) :=
  congrArg Host.Outcome.next (if_pos (decide_eq_true h))

theorem port_bertSettle (s : State) (q : Nat) : port (bertSettle s) q = port s q := (bertSettle_only s).port_eq rfl q

/-- A port that has heard the capability word of a module on BL2; its credits are the buffers of that word (log entry
111). -/
def peerHeard (p : Nat) (cap : CapWord) (s : State) : State :=
  modPort p (fun x => { x with proto := 2 }) (modPort p (fun x => { x with
    linkDelay := cap.linkDelay % 65536, peerMid := cap.mid, peerSwitch := false,
    credit := (List.range 8).map (nth cap.buffer) }) s)

theorem port_peerHeard (p : Nat) (cap : CapWord) (s : State) : port (peerHeard p cap s) p =
    { port s p with linkDelay := cap.linkDelay % 65536, peerMid := cap.mid, peerSwitch := false,
                    credit := (List.range 8).map (nth cap.buffer), proto := 2 } := by
  simp only [peerHeard, port_modPort, if_true]

/-- Of two BL2 ends, the one that hears the peer it expects becomes ACTIVE (R327). -/
theorem exec_negotiateDone_bl2 {cap : CapWord} (hst : (port s p).st = 3) (hmid : s.ident.midValid = true)
    (hsw : cap.isSwitch = false) (hcap : cap.mid < 4096) (hproto : cap.protoMask % 4 = 2 ∨ cap.protoMask % 4 = 3)
    (hpeer : peerOk s p false cap.mid = true) :
    exec (.negotiateDone p cap) s = .next (bertSettle (becomeActive p (peerHeard p cap s))) := by
  have hmod : cap.mid % 4096 = cap.mid := Nat.mod_eq_of_lt hcap
  have hsome : cap.protoMask % 4 ≠ 0 := by omega
  have hbl2 : cap.protoMask % 4 ≠ 1 := by omega
  have hrole : (port (peerHeard p cap s) p).role = (port s p).role := by rw [port_peerHeard]
  have hheard : peerOk (peerHeard p cap s) p false cap.mid = true := by rw [peerOk_congr hrole rfl, hpeer]
  change execNegotiateDone p cap s = _
  simp only [execNegotiateDone, hst, hmid, hsw, hmod, hsome, hbl2, ne_eq, not_true_eq_false, Bool.not_true,
    Bool.false_eq_true, or_self, false_and, if_false]
  rw [← peerHeard, if_pos hheard]

theorem negotiateDone_activates {cap : CapWord} (hst : (port s p).st = 3) (hmid : s.ident.midValid = true)
    (hsw : cap.isSwitch = false) (hcap : cap.mid < 4096) (hproto : cap.protoMask % 4 = 2 ∨ cap.protoMask % 4 = 3)
    (hpeer : peerOk s p false cap.mid = true) (hw : (port s p).withdrawn = false) :
    ∃ t, exec (.negotiateDone p cap) s = .next t ∧ (port t p).st = 4 ∧ (port t p).proto = 2 ∧
      (port t p).peerMid = cap.mid ∧ (port t p).credit = (List.range 8).map (nth cap.buffer) := by
  refine ⟨_, exec_negotiateDone_bl2 hst hmid hsw hcap hproto hpeer, ?_⟩
  rw [port_bertSettle, port_becomeActive, port_peerHeard]
  · exact ⟨rfl, rfl, rfl, rfl⟩
  · rw [port_peerHeard]
    exact hw
  · rw [port_peerHeard]
    simp only [hst]
    decide

/-- A first attempt that runs out of time in PHY training starts over with that stage as its reason (R328). -/
theorem trainStateTimeout_retries (hst : (port s p).st = 1) (hw : (port s p).withdrawn = false)
    (hr : (port s p).retrain = false) (ht : (port s p).tries = 0) :
    ∃ t, exec (.trainStateTimeout p) s = .next t ∧ (port t p).st = 1 ∧ (port t p).tries = 1 ∧
      (port t p).reason = 1 := by
  have hexec : exec (.trainStateTimeout p) s = .next (bertSettle (attemptFailed p 1
      (waitUntil ((port s p).since + trainLimit (port s p)) s))) := by
    change execTrainStateTimeout p s = _
    simp [execTrainStateTimeout, hst]
  have hport : port (waitUntil ((port s p).since + trainLimit (port s p)) s) p = port s p :=
    (waitUntil_only _ _).port_eq rfl p
  refine ⟨_, hexec, ?_⟩
  rw [port_bertSettle, port_attemptFailed_first 1 (by rwa [hport]) (by rwa [hport]) (by rwa [hport])
    (by rw [hport, hst]; decide)]
  exact ⟨rfl, rfl, rfl⟩

/-! ## Links lost (R328) -/

theorem linkLost_withdrawn (h : (port s p).st = 5) : linkLost p s = train p s := by
  simp only [linkLost, h]

theorem linkLost_active (h : (port s p).st = 4) : linkLost p s = retrain p s := by
  simp only [linkLost, h]

theorem exec_uncorrCodewordBurst (h : (port s p).st = 4) :
    exec (.uncorrCodewordBurst p) s = .next (retrain p s) :=
  congrArg Host.Outcome.next (if_pos (decide_eq_true h))

/-! ## Codewords (R331) -/

/-- The port as an uncorrectable codeword leaves it, before its event. -/
def codewordLost (p : Nat) (l : List (Pkt × Nat)) (s : State) : State :=
  count (0x80 + p) 31 1 (modPort p (fun x => { x with hit := x.hit ++ l }) s)

section Codeword

variable (hst : [3, 4, 5, 8].contains (port s p).st = true)
include hst

theorem exec_codewordArrive_corrected (n : Nat) (l : List (Pkt × Nat)) :
    exec (.codewordArrive p (some n) l) s = .next (count (0x80 + p.val) 30 n s) :=
  congrArg Host.Outcome.next (if_neg (by simp only [hst]; decide))

theorem exec_codewordArrive_lost (l : List (Pkt × Nat)) :
    exec (.codewordArrive p none l) s = .next (portEvent p 3 (codewordLost p l s)) :=
  congrArg Host.Outcome.next (if_neg (by simp only [hst]; decide))

theorem codewordArrive_lost_counts (l : List (Pkt × Nat)) :
    ∃ t, exec (.codewordArrive p none l) s = .next t ∧
      ctr t (0x80 + p.val) 31 = (ctr s (0x80 + p.val) 31 + 1) % 2 ^ 64 ∧ (port t p).hit = (port s p).hit ++ l ∧
      (win t (0x80 + p.val)).sts.getLsbD 3 ∧ Only [.fab, .win, .ctr, .mbx] s t := by
  refine ⟨_, exec_codewordArrive_lost hst l, ?_, ?_, portEvent_sets _ _ (by decide),
    .sub (.after (portEvent_uncounted _ _ _) (.after (count_only _ _ _ _) (modPort_only _ _ _))) rfl⟩
  · rw [(portEvent_uncounted _ _ _).ctr_eq rfl, codewordLost, ctr_count, if_pos rfl]
    rfl
  · rw [port_portEvent, codewordLost, port_count, port_modPort, if_pos rfl]

end Codeword

/-! ## Flow control (R332, R333) -/

/-- The flits of each channel that a control flit shows to be lost. -/
def flitsGone (f : CtrlFlit) (x : Port) : List Nat :=
  (List.range 8).map (fun v => since16 (nth f.sent v % 65536) (nth x.rxFlits v))

/-- A port after a control flit that shows `gone` to be lost: its counts are brought up to date, and what the peer
returns is credit. -/
def flowHeard (f : CtrlFlit) (gone : List Nat) (x : Port) : Port :=
  { x with
    rxFlits := (List.range 8).map (fun v => nth f.sent v % 65536),
    freed := (List.range 8).map (fun v => (nth x.freed v + nth gone v) % 65536),
    credit := (List.range 8).map (fun v => nth x.credit v + since16 (nth f.ret v % 65536) (nth x.retSeen v)),
    retSeen := (List.range 8).map (fun v => nth f.ret v % 65536),
    testReq := f.testReq, retrainReq := f.retrainReq, peerHeld := f.withdrawn,
    byCtl := x.byCtl && (f.withdrawn || x.st != 4) }

/-- The state in which that port is left, the lost flits counted. -/
def flitHeard (p : Nat) (f : CtrlFlit) (s : State) : State :=
  modPort p (flowHeard f (flitsGone f (port s p)))
    (if (flitsGone f (port s p)).sum = 0 then s else count (0x80 + p) 32 (flitsGone f (port s p)).sum s)

theorem port_flitHeard (p : Nat) (f : CtrlFlit) (s : State) :
    port (flitHeard p f s) p = flowHeard f (flitsGone f (port s p)) (port s p) := by
  have hcounted (n : Nat) : port (if n = 0 then s else count (0x80 + p) 32 n s) p = port s p :=
    Only.port_eq (.unless (count_only _ _ _ _)) rfl p
  rw [flitHeard, port_modPort, if_pos rfl, hcounted]

theorem flitHeard_only (p : Nat) (f : CtrlFlit) (s : State) : Only [.ctr, .fab] s (flitHeard p f s) :=
  .after (modPort_only _ _ _) (.unless (count_only _ _ _ _))

theorem drainPort_empty {q : Nat} (h : (port s q).queue = []) : drainPort q s = s := by
  rw [drainPort, h]
  rfl

/-- With no queue to send and no request of the peer, a control flit only brings the port up to date. -/
theorem exec_linkControlFlit_plain {f : CtrlFlit} (hst : [4, 5, 8].contains (port s p).st = true)
    (hcrc : f.crcOk = true) (hq : (port s p).queue = []) (htest : f.testReq = false) (hretrain : f.retrainReq = false) :
    exec (.linkControlFlit p f) s = .next (flitHeard p f s) := by
  have hempty : (port (flitHeard p f s) p).queue = [] := by
    rw [port_flitHeard]
    exact hq
  have hdrain : drainPort p (flitHeard p f s) = flitHeard p f s := drainPort_empty hempty
  have hexec : exec (.linkControlFlit p f) s = .next (drainPort p (flitHeard p f s)) := by
    change execLinkControlFlit p f s = _
    unfold execLinkControlFlit
    dsimp only
    rw [if_neg (by simp only [hcrc, hst]; decide), if_neg (by simp [htest]), if_neg (by simp [hretrain])]
    rfl
  rw [hexec, hdrain]

theorem linkControlFlit_returns {f : CtrlFlit} (hst : [4, 5, 8].contains (port s p).st = true)
    (hcrc : f.crcOk = true) (hq : (port s p).queue = []) (htest : f.testReq = false) (hretrain : f.retrainReq = false) :
    ∃ t, exec (.linkControlFlit p f) s = .next t ∧ Only [.fab, .ctr] s t ∧ (port t p).st = (port s p).st ∧
      ∀ v < 8, nth (port t p).rxFlits v = nth f.sent v % 65536 ∧ nth (port t p).retSeen v = nth f.ret v % 65536 ∧
        nth (port t p).credit v = nth (port s p).credit v +
          (nth f.ret v % 65536 + 65536 - nth (port s p).retSeen v % 65536) % 65536 := by
  refine ⟨_, exec_linkControlFlit_plain hst hcrc hq htest hretrain, (flitHeard_only _ _ _).sub rfl, ?_, fun v hv => ?_⟩
  · rw [port_flitHeard]
    rfl
  · rw [port_flitHeard]
    exact ⟨nth_map_range _ hv, nth_map_range _ hv, nth_map_range _ hv⟩

end Links

/-- Settles O46: the stages hand on, a BL2 link becomes ACTIVE, a failed attempt or a lost link trains again, and what
arrives on a link is counted, reported or turned into credits. -/
theorem linksTrainAndCarry : Obligations.LinksTrainAndCarry := by
  refine ⟨fun s p => ⟨fun h => ?_, fun h => ?_, fun cap hst hmid hsw hcap hproto hpeer hw => ?_,
    fun hst hw hr ht => ?_, fun h => ?_, fun h => ⟨?_, exec_uncorrCodewordBurst h, fun hq => ?_⟩⟩,
    fun s p => ⟨fun hst l => ⟨fun n => ?_, ?_⟩, fun f hst hcrc hq htest hretrain => ?_⟩⟩
  · exact ⟨_, exec_phyTrainDone h, setPortSt_handsOn 2 (by omega)⟩
  · exact ⟨_, exec_fecLockDone h, setPortSt_handsOn 3 (by omega)⟩
  · exact negotiateDone_activates hst hmid hsw hcap hproto hpeer hw
  · exact trainStateTimeout_retries hst hw hr ht
  · exact congrArg Host.Outcome.next (linkLost_withdrawn h)
  · exact congrArg Host.Outcome.next (linkLost_active h)
  · rw [port_retrain hq]
    exact ⟨rfl, rfl⟩
  · exact exec_codewordArrive_corrected hst n l
  · exact codewordArrive_lost_counts hst l
  · exact linkControlFlit_returns hst hcrc hq htest hretrain

end Sys2Proof

namespace Sys2Proof
open Machine Claims

/-! # Packets arrive in order and are applied (O48) -/

section Deliveries

variable {s : State} {p op : Nat} {k : Pkt} {env : MemEnv}

/-! ## At the destination (R355, R356) -/

theorem arrive_elsewhere (hm : k.mcast = false) (hd : k.destMid ≠ s.ident.mid) : arrive op p k env s = s := by
  unfold arrive
  dsimp only
  rw [if_pos (by simp [hm, hd])]

section Ours

variable (hop : k.opcode = op) (hm : k.mcast = false) (hd : k.destMid = s.ident.mid) (hr : s.power.rails = true)
  (hv : s.ident.variant ≠ .s)
include hop hm hd hr hv

theorem arrive_broken (hcrc : k.crcOk = false) :
    arrive op p k env s = portEvent p 6 (count (0x80 + p) 33 1 s) := by
  unfold arrive
  dsimp only
  rw [if_neg (by simp [hop, hm, hd, hr, hv]), if_pos (by simp [hcrc])]

/-- The last packet that its flow has applied, again. -/
theorem arrive_repeated (hcrc : k.crcOk = true) (hnext : (rxFlow s k).next = (k.seq + 1) % 2 ^ 32)
    (hseq : k.seq < 2 ^ 32) : arrive op p k env s = sendAck k s := by
  have hbehind : 2 ^ 31 ≤ (k.seq + 2 ^ 32 - (rxFlow s k).next) % 2 ^ 32 := by omega
  unfold arrive
  dsimp only
  rw [if_neg (by simp [hop, hm, hd, hr, hv]), if_neg (by simp [hcrc]), if_pos hbehind]

/-- The next packet of a flow that holds none. -/
theorem arrive_next (hcrc : k.crcOk = true) (hnext : (rxFlow s k).next = k.seq)
    (hheld : (rxFlow s k).held = []) :
    arrive op p k env s = runFlow env k 256 (setFlow k { rxFlow s k with held := [(p, k)] } s) := by
  have hdist : (k.seq + 2 ^ 32 - (rxFlow s k).next) % 2 ^ 32 = 0 := by omega
  unfold arrive
  dsimp only
  rw [if_neg (by simp [hop, hm, hd, hr, hv]), if_neg (by simp [hcrc]), hdist, if_neg (by decide), if_pos (.inl rfl),
    hheld, if_neg (by simp), List.nil_append]

end Ours

/-- What a command does by which a packet of opcode `op` arrives. -/
theorem arrives_inOrder {i : Instr} (hi : exec i s = .next (arrive op p k env s)) :
    (k.mcast = false → k.destMid ≠ s.ident.mid → exec i s = .next s) ∧
    (k.opcode = op → k.mcast = false → k.destMid = s.ident.mid → s.power.rails = true → s.ident.variant ≠ .s →
      let f := rxFlow s k
      (k.crcOk = false → exec i s = .next (portEvent p 6 (count (0x80 + p) 33 1 s))) ∧
      (k.crcOk = true → f.next = (k.seq + 1) % 2 ^ 32 → k.seq < 2 ^ 32 → exec i s = .next (sendAck k s)) ∧
      (k.crcOk = true → f.next = k.seq → k.seq < 2 ^ 32 → f.held = [] →
        exec i s = .next (runFlow env k 256 (setFlow k { f with held := [(p, k)] } s)))) := by
  rw [hi]
  refine ⟨fun hm hd => ?_, fun hop hm hd hr hv => ⟨fun hcrc => ?_, fun hcrc hnext hseq => ?_,
    fun hcrc hnext _ hheld => ?_⟩⟩
  · rw [arrive_elsewhere hm hd]
  · rw [arrive_broken hop hm hd hr hv hcrc]
  · rw [arrive_repeated hop hm hd hr hv hcrc hnext hseq]
  · rw [arrive_next hop hm hd hr hv hcrc hnext hheld]

/-! ## The run of a flow (R355, R356) -/

/-- The flow has gone on past its next packet, which it held with its port of arrival. -/
def flowPassed (k : Pkt) (y : Nat × Pkt) (s : State) : State :=
  setFlow k { rxFlow s k with
    held := (rxFlow s k).held.erase y, next := ((rxFlow s k).next + 1) % 2 ^ 32,
    unacked := (rxFlow s k).unacked + 1, ackAt := (rxFlow s k).ackAt.or (some s.time.clk), gapAt := none,
    nackAt := none } s

/-- The answer to a packet applied: its refusal, or the ACK of the flow's eighth. -/
def flowAnswered (k x : Pkt) (r : State × Option Nat) : State :=
  match r.2 with
  | some c => sendRefusal x c r.1
  | none => if 8 ≤ (rxFlow r.1 k).unacked then sendAck k r.1 else r.1

theorem runFlow_applies {x : Pkt} (n : Nat)
    (hfind : (rxFlow s k).held.find? (fun y => y.2.seq = (rxFlow s k).next) = some (p, x)) (hheld : pktHeld s x = false)
    (hsnoop : pktSnoops s x = []) :
    runFlow env k (n + 1) s = runFlow env k n (flowAnswered k x (applyPkt env x (flowPassed k (p, x) s))) := by
  rw [runFlow]
  simp only [hfind, hheld, hsnoop, Bool.false_eq_true, ne_eq, not_true_eq_false, if_false]
  rfl

/-! ## What each packet does (R389, R390, R392, R407) -/

/-- The payload of a packet counted at its engine. -/
abbrev received (k : Pkt) (s : State) : State := count (feBlk k.destHalf) 36 k.payload.length s

theorem applyPkt_refused {c : Nat} (h : targetOf s k = .error c) : applyPkt env k s = (s, some c) := by
  simp only [applyPkt, h]

section Target

variable {pi : Nat} {q : Machine.Part} {u : State}

theorem applyPut_stores (h : badLine u (.engine pi k.destHalf) q.ctx {} k.targetVa k.payload.length = none) :
    let w := (writeVa (.engine pi k.destHalf) q.ctx {} k.targetVa k.payload u).1
    applyPut pi q k u = (if bitOf k.opArg 0 ∧ bitOf k.opArg 1 then
      counterCycle k.destHalf pi (fld k.opArg 10 2) [] [1] w else w, none) := by
  simp only [applyPut, h]

theorem applyGet_answers {b : List Byte}
    (h : readVa u (.engine pi k.destHalf) q.ctx env k.targetVa (fld k.opArg 12 0) = (b, none)) :
    let w := readNote (.engine pi k.destHalf) q.ctx env k.targetVa (fld k.opArg 12 0) u
    applyGet env pi q k u = (sendOwn { respPkt w k with opcode := 3, opArg := k.opArg, payload := b } w, none) := by
  simp only [applyGet, h]

theorem applyAtomic_adds {b : List Byte} (hfmt : k.opArg % 4 = 0) (hret : bitOf k.opArg 2 = false)
    (h : readVa u (.engine pi k.destHalf) q.ctx env k.targetVa 8 = (b, none)) :
    let w := readNote (.engine pi k.destHalf) q.ctx env k.targetVa 8 u
    badLine w (.engine pi k.destHalf) q.ctx {} k.targetVa 8 = none →
    applyAtomic env pi q k u = ((writeVa (.engine pi k.destHalf) q.ctx {} k.targetVa
      (natLe 8 ((leNat b + leNat k.payload) % 2 ^ 64)) w).1, none) := by
  intro w hw
  simp only [applyAtomic, hfmt, OfNat.zero_ne_ofNat, h, hret, w, hw, atomicSum, Bool.false_eq_true, if_false]

theorem applyResp_lands {o : Op} {cx va n : Nat} (ho : opOf u k.destHalf k.tag = some o)
    (hreach : reach u k = some (cx, va, n)) (hpart : o.part = pi)
    (hw : (writeVa (.engine pi k.destHalf) cx {} va (sliceB k.payload 0 n) u).2.2 = none) :
    applyResp pi k u = modOp k.destHalf k.tag (fun o => { o with left := o.left - n })
      (writeVa (.engine pi k.destHalf) cx {} va (sliceB k.payload 0 n) u).1 := by
  simp only [applyResp, ho, hreach, hpart, hw, ne_eq, not_true_eq_false, if_false]

variable (ht : targetOf s k = .ok (pi, q))
include ht

theorem applyPkt_put (hop : k.opcode = 1) (hchunk : chunkPut (collTouched k (received k s)) k = none) :
    applyPkt env k s = let r := applyPut pi q k (collTouched k (received k s)); (pokeAll r.1, r.2) := by
  simp only [applyPkt, ht, hop, true_or, if_true, hchunk]

theorem applyPkt_chunk {c} (hop : k.opcode = 1) (hchunk : chunkPut (collTouched k (received k s)) k = some c) :
    applyPkt env k s = (chunkApply c k (collTouched k (received k s)), none) := by
  simp only [applyPkt, ht, hop, true_or, if_true, hchunk]

theorem applyPkt_atomic (hop : k.opcode = 4) :
    applyPkt env k s = let r := applyAtomic env pi q k (collTouched k (received k s)); (pokeAll r.1, r.2) := by
  simp only [applyPkt, ht, hop, or_true, if_true]

theorem applyPkt_get (hop : k.opcode = 2) : applyPkt env k s = applyGet env pi q k (received k s) := by
  simp [applyPkt, ht, hop]

theorem applyPkt_resp (hop : k.opcode = 3 ∨ k.opcode = 5) :
    applyPkt env k s = (applyResp pi k (received k s), none) := by
  rcases hop with hop | hop
  · simp [applyPkt, ht, hop]
  · simp [applyPkt, ht, hop]

theorem applyPkt_reduce (hop : k.opcode = 6) : applyPkt env k s = (reduceApply k (received k s), none) := by
  simp [applyPkt, ht, hop]

theorem applyPkt_rndv (hop : k.opcode = 7) : applyPkt env k s = (applyRndv k (received k s), none) := by
  simp [applyPkt, ht, hop]

theorem applyPkt_counterAdd (hop : k.opcode = 0xC) :
    applyPkt env k s =
      (counterCycle k.destHalf pi (k.targetVa % 512) [] [k.opArg] (received k s), none) := by
  simp [applyPkt, ht, hop]

end Target

end Deliveries

/-- Settles O48: a packet is ignored, reported, acknowledged again or applied as its flow stands, and each opcode is
applied by its own rule. -/
theorem packetsArriveAndApply : Obligations.PacketsArriveAndApply := by
  refine ⟨fun s p k env => ⟨arrives_inOrder rfl, arrives_inOrder rfl, arrives_inOrder rfl, arrives_inOrder rfl,
    arrives_inOrder rfl, arrives_inOrder rfl, arrives_inOrder rfl, arrives_inOrder rfl⟩,
    fun s k env => ⟨fun n p x hfind hheld hsnoop => runFlow_applies n hfind hheld hsnoop, fun c => applyPkt_refused,
      fun pi p ht => ⟨fun hop hchunk hbad => ?_, fun q => applyPkt_chunk ht, fun b hop hread => ?_,
        fun b hop hfmt hret hread hbad => ?_, fun o cx va n hop ho hreach hpart hw => ?_, applyPkt_reduce ht,
        applyPkt_rndv ht, applyPkt_counterAdd ht⟩⟩⟩
  · rw [applyPkt_put ht hop hchunk, applyPut_stores hbad]
  · rw [applyPkt_get ht hop, applyGet_answers hread]
  · rw [applyPkt_atomic ht hop, applyAtomic_adds hfmt hret hread hbad]
  · rw [applyPkt_resp ht hop, applyResp_lands ho hreach hpart hw]

end Sys2Proof

namespace Sys2Proof
open Machine Claims

/-! # Fabric engines and collectives run (O50) -/

section Engines

variable {s : State} {h : Half}

/-! ## Engine counters (R381, R382) -/

theorem armed_congr {t : State} (hent : t.eng.ent = s.eng.ent) (q : Nat → Nat → Bool) : armed t h q = armed s h q := by
  rw [armed, armed, hent]

theorem fireAll_unarmed {q : Nat → Nat → Bool} (hq : armed s h q = []) : fireAll h q s = s := by
  rw [fireAll, hq, List.foldl_nil]

/-- A counter that a cycle's sum `n` has reached: it saturates, and a sum beyond its range is an event. -/
def counterAt (h : Half) (p i n : Nat) (s : State) : State :=
  let u := modEng (fun e => { e with cnt := FMap.set 0 e.cnt (cntKey h p i) (min n 0xFFFFFFFF) }) s
  if 0xFFFFFFFF < n then event (feBlk h) 1 0 0 u else u

theorem counterAt_eng (h : Half) (p i n : Nat) (s : State) :
    (counterAt h p i n s).eng = { s.eng with cnt := FMap.set 0 s.eng.cnt (cntKey h p i) (min n 0xFFFFFFFF) } :=
  Only.when (event_only _ _ _ _ _) .eng (by decide)

theorem engCnt_counterAt (h : Half) (p i n : Nat) (s : State) :
    engCnt (counterAt h p i n s) h p i = min n 0xFFFFFFFF := by
  rw [engCnt, counterAt_eng, FMap.get_set, if_pos rfl]

theorem counterAt_saturates {p i n : Nat} (hn : 0xFFFFFFFF < n) :
    (win (counterAt h p i n s) (feBlk h)).sts.getLsbD 1 = true := by
  rw [counterAt, if_pos hn]
  exact event_sets _ _ _ (by decide)

/-- A cycle of adds alone brings the counter to their sum, before the entries that wait for it fire. -/
theorem counterCycle_adds {p i : Nat} {x : Machine.Part} (adds : List Nat) (hx : part? s p = some x)
    (hi : i < x.feCnt) :
    counterCycle h p i [] adds s =
      fireAll h (fun q e => q = p && fld e 16 8 = i) (counterAt h p i (engCnt s h p i + adds.sum) s) := by
  have hthere : ¬ ((part? s p).map (·.feCnt)).getD 0 ≤ i := by simpa [hx] using hi
  exact if_neg hthere

theorem engineCounterAdd_saturates {p : Fin 36} {i : Nat} {x : Machine.Part} (adds : List Nat)
    (hx : part? s p.val = some x) (hi : i < x.feCnt)
    (hq : armed s h (fun q e => q = p.val && fld e 16 8 = i) = []) :
    exec (.engineCounterAdd h p i [] adds) s =
      .next (counterAt h p.val i (engCnt s h p.val i + adds.sum) s) := by
  have hent : (counterAt h p.val i (engCnt s h p.val i + adds.sum) s).eng.ent = s.eng.ent := by rw [counterAt_eng]
  have hidle := (armed_congr hent _).trans hq
  exact congrArg Host.Outcome.next ((counterCycle_adds adds hx hi).trans (fireAll_unarmed hidle))

/-! ## Operations (R383, R392) -/

theorem engineOpComplete_signals {i : Nat} {o : Op} (ho : (opsOf s h)[i]? = some o) (hdone : opDone o = true) :
    exec (.engineOpComplete h i) s = .next (doneSignal h o.part o.entry
      (modOp h o.tag (fun o => { o with freed := true }) (count (feBlk h) 33 1 s))) := by
  change execEngineOpComplete h i s = _
  simp only [execEngineOpComplete, ho, hdone, Bool.not_true, Bool.false_eq_true, if_false]

/-- With no entry armed, the context of an ended operation is all that goes. -/
theorem exec_opContextFree_unarmed {i : Nat} {o : Op} (ho : (opsOf s h)[i]? = some o) (hfreed : o.freed = true)
    (hent : s.eng.ent = []) :
    exec (.opContextFree h i) s = .next
      (modEng (fun e => { e with ops := e.ops.filter (fun x => !(x.half = h && x.tag = o.tag)) }) s) := by
  have hidle (q : Nat → Nat → Bool) : armed s h q = [] := by rw [armed, hent, List.filterMap_nil]
  have hkept (f : Op → Bool) (q : Nat → Nat → Bool) :
      fireAll h q (modEng (fun e => { e with ops := e.ops.filter f }) s) =
        modEng (fun e => { e with ops := e.ops.filter f }) s := fireAll_unarmed (hidle q)
  change execOpContextFree h i s = _
  simp only [execOpContextFree, ho, hfreed, hkept, Bool.not_true, Bool.false_eq_true, if_false]

/-! ## Collectives (R400-R403, R415) -/

theorem freeSlots_congr {t : State} (heng : t.eng = s.eng) : freeSlots t h = freeSlots s h := by
  simp only [freeSlots, heng]

/-- The collective of the smallest key starts at its tick in the first free slot. -/
theorem collectiveSlotAlloc_starts {c : Coll} {j : Nat} {r : List Nat} (hc : leastColl (eligibles s h) = some c)
    (hfree : freeSlots s h = j :: r) (hheld : collHeld (waitHalf h c.startTick s) c = false)
    (hsnoop : collSnoops (waitHalf h c.startTick s) c = []) :
    exec (.collectiveSlotAlloc h) s = .next (startColl c j (waitHalf h c.startTick s)) := by
  have hslot : freeSlots (waitHalf h c.startTick s) h = j :: r :=
    (freeSlots_congr (waitHalf_only _ _ _ .eng (by decide))).trans hfree
  change execCollectiveSlotAlloc h s = _
  simp only [execCollectiveSlotAlloc, hc, hslot, hheld, hsnoop, ne_eq, not_true_eq_false, Bool.false_eq_true, if_false]

theorem group_modGroup (g j : Nat) (f : Group → Group) (s : State) :
    group? (modGroup g f s) j = if g = j then (group? s g).map f else group? s j := by
  cases hg : group? s g with
  | none =>
    have hsame : modGroup g f s = s := by simp only [modGroup, hg]
    rw [hsame, Option.map_none]
    split
    · next hj => rw [← hj, hg]
    · rfl
  | some x =>
    have hset : modGroup g f s = modEng (fun e => { e with groups := FMap.set none e.groups g (some (f x)) }) s := by
      simp only [modGroup, hg]
    rw [hset]
    exact FMap.get_set none s.eng.groups g j (some (f x))

theorem modGroup_colls (g : Nat) (f : Group → Group) (s : State) : (modGroup g f s).eng.colls = s.eng.colls := by
  unfold modGroup
  cases group? s g <;> rfl

/-- A collective that is over: it leaves its slot, and its group goes on to the next one. -/
def collEnded (h : Half) (c : Coll) (s : State) : State :=
  modGroup c.group (fun g => { g with
      nextSeq := (g.nextSeq + 1) % 2 ^ 32, ready := g.ready.filter (fun x => x.1 ≠ c.seq) })
    (count (feBlk h) 34 1 (modEng (fun e => { e with colls := e.colls.filter (· ≠ c) }) s))

theorem collEnded_only (h : Half) (c : Coll) (s : State) : Only [.eng, .ctr] s (collEnded h c s) :=
  .sub (.after (modGroup_only _ _ _) (.after (count_only _ _ _ _) (modEng_only _ _))) rfl

theorem collEnded_leaves (h : Half) (c : Coll) (s : State) : c ∉ (collEnded h c s).eng.colls := by
  have hcolls : (collEnded h c s).eng.colls = s.eng.colls.filter (· ≠ c) := by
    rw [collEnded, modGroup_colls]
    rfl
  simp [hcolls]

theorem ctr_collEnded (h : Half) (c : Coll) (s : State) :
    ctr (collEnded h c s) (feBlk h) 34 = (ctr s (feBlk h) 34 + 1) % 2 ^ 64 := by
  rw [collEnded, (modGroup_only _ _ _).ctr_eq rfl, ctr_count, if_pos rfl]
  rfl

theorem nextSeq_collEnded {c : Coll} {g : Group} (hg : group? s c.group = some g) :
    (group? (collEnded h c s) c.group).map (·.nextSeq) = some ((g.nextSeq + 1) % 2 ^ 32) := by
  have hkept : group? (count (feBlk h) 34 1 (modEng (fun e => { e with colls := e.colls.filter (· ≠ c) }) s)) c.group =
      some g := hg
  rw [collEnded, group_modGroup, if_pos rfl, hkept]
  rfl

section Slot

variable {k : Nat} {c : Coll} (hc : s.eng.colls.find? (fun c => c.half = h && c.slot = some k) = some c)
include hc

/-- Once both entries have signalled, completion sends nothing more. -/
theorem exec_collectiveComplete_signalled {p : Par} (hp : parOf s c = some p) (hpath : pathDone p c = true)
    (hsend : c.sigS = true) (hrecv : c.sigR = true) :
    exec (.collectiveComplete h k) s = .next (collEnded h c s) := by
  change execCollectiveComplete h k s = _
  simp only [execCollectiveComplete, hc, hp, hpath, hsend, hrecv, Bool.not_true, Bool.false_eq_true, if_false, if_true]
  rfl

theorem collectiveStall_fails {x : Machine.Part} (hx : part? s c.part = some x) (hms : x.stallMs ≠ 0) :
    exec (.collectiveStall h k) s = .next
      (collFail h c.group c.seq 0 0xB (waitUntil (c.moveAt + x.stallMs * 100000) s)) := by
  change execCollectiveStall h k s = _
  simp only [execCollectiveStall, hc, hx, Option.map_some, Option.getD_some, hms, if_false]

end Slot

end Engines

/-- Settles O50: a counter comes to its saturated sum, an operation signals and its context goes, and a collective
starts in its slot, ends, or fails once its time is out. -/
theorem enginesRun : Obligations.EnginesRun := by
  refine fun s h => ⟨fun p i adds x hx hi hq => ?_, fun i o => engineOpComplete_signals, fun i o ho hfreed hent => ?_,
    fun c j r => collectiveSlotAlloc_starts, fun k c p hc hp hpath hsend hrecv => ?_,
    fun k c x hc => collectiveStall_fails hc⟩
  · exact ⟨_, engineCounterAdd_saturates adds hx hi hq, engCnt_counterAt .., counterAt_saturates⟩
  · exact ⟨_, exec_opContextFree_unarmed ho hfreed hent, modEng_only _ _, rfl⟩
  · exact ⟨_, exec_collectiveComplete_signalled hc hp hpath hsend hrecv, collEnded_leaves h c s, ctr_collEnded h c s,
      fun g => nextSeq_collEnded, collEnded_only h c s⟩

end Sys2Proof

namespace Sys2Proof
open Machine Claims

/-! # Group commands and link commands (O22) -/

section GroupsAndLinks

variable {s : State} {mb : Fin 128}

/-! ## Commands that may read window memory (R24, R215) -/

/-- A command that reads no window memory has no snoop to wait for. -/
theorem afterSnoops_noRange {op : Nat} {rng : List Byte → Option (Nat × Nat)} (f : State → State)
    (hr : rng (load s mb) = none) : afterSnoops mb op rng f s = f s := by
  simp only [afterSnoops, ← key.eq_def, ← load.eq_def, hr, ne_eq, not_true_eq_false, Bool.false_eq_true, or_self,
    false_and, if_false]

theorem afterSnoops_open {op va n : Nat} {rng : List Byte → Option (Nat × Nat)} (f : State → State)
    (hr : rng (load s mb) = some (va, n)) (hopen : bundleOpen s (cx s mb) va n) :
    afterSnoops mb op rng f s = f s := by
  obtain ⟨hsnoop, hbridge⟩ := hopen
  simp only [afterSnoops, ← key.eq_def, ← load.eq_def, ← head.eq_def, ← cx.eq_def, hr, hsnoop, hbridge, ne_eq,
    not_true_eq_false, Bool.false_eq_true, or_self, false_and, if_false]

/-! ## Groups (R395, R396) -/

theorem Only.ownMemberOk_eq {ps : List Zone} {t : State} (k : Only ps s t) (hi : Zone.ident ∉ ps)
    (hw : Zone.work ∉ ps) (c : Nat) (g : Group) : ownMemberOk t c g = ownMemberOk s c g := by
  have hident : t.ident = s.ident := k .ident hi
  have hwork : t.work = s.work := k .work hw
  simp only [ownMemberOk, theCtx, ctx?, hident, hwork]

/-- Members that the groups of the module hold together (R396). -/
def membersHeld (s : State) : Nat :=
  (s.eng.groups.map (fun x => match x.2 with | some y => y.members.length | none => 0)).sum

theorem Only.hasRoom {ps : List Zone} {t : State} {n : Nat} (k : Only ps s t) (he : Zone.eng ∉ ps)
    (hgroups : s.eng.groups.length < 256) (hmembers : membersHeld s + n ≤ 65536) :
    ¬ (256 ≤ t.eng.groups.length ∨ 65536 < membersHeld t + n) := by
  have heng : t.eng = s.eng := k .eng he
  have hheld : membersHeld t = membersHeld s := by rw [membersHeld, membersHeld, heng]
  rw [heng, hheld]
  omega

/-- The table is read before its checks, and that read changes nothing that they ask for. -/
theorem groupCreate_creates {id pi n rank : Nat} {p : Machine.Part} {g : Group} {b : List Byte}
    (h : accepted s mb 0x301 = true) (hid : arg s mb 0 2 = id) (hpi : arg s mb 2 1 = pi) (hn : arg s mb 4 2 = n)
    (hrank : arg s mb 6 2 = rank) (hg : groupOf pi rank b = g)
    (hopen : bundleOpen s (cx s mb) (addrAt (load s mb) 8) (64 + 8 * min 4096 n)) (hnew : group? s id = none)
    (hp : ownPart s (cx s mb) pi = some p) (hpos : 0 < n) (hmax : n ≤ 4096) (hin : rank < n)
    (hread : readBundle s (cx s mb) {} true (addrAt (load s mb) 8) (64 + 8 * n) = .ok b)
    (hok : groupOk g b n = true) (hmixed : mixedGroup g = true → bitOf (arg s mb 3 1) 0 = true)
    (hown : ownMemberOk s (cx s mb) g = true) (hfence : p.fence = none) (hgroups : s.eng.groups.length < 256)
    (hmembers : membersHeld s + n ≤ 65536) :
    exec (.groupCreate mb) s = .next (answered s mb 0x301 []
      (modEng (fun e => { e with groups := FMap.set none e.groups id (some g) })
        (readNote (.host (crownHalf s)) (cx s mb) {} (addrAt (load s mb) 8) (64 + 8 * n) s))) := by
  have hempty : ¬ (n = 0 ∨ 4096 < n) := by omega
  have hnamed : ¬ (mixedGroup g = true ∧ (!bitOf (arg s mb 3 1) 0) = true) := fun hx => by simp [hmixed hx.1] at hx
  have hnote := readNote_only (.host (crownHalf s)) (cx s mb) {} (addrAt (load s mb) 8) (64 + 8 * n) s
  have hmember := (hnote.ownMemberOk_eq (by decide) (by decide) (cx s mb) g).trans hown
  have hroom := hnote.hasRoom (by decide) hgroups hmembers
  have hrange : some (addrAt (load s mb) 8, 64 + 8 * min 4096 (numAt (load s mb) 4 2)) =
      some (addrAt (load s mb) 8, 64 + 8 * min 4096 n) := by rw [← arg.eq_def, hn]
  refine congrArg Host.Outcome.next ((afterSnoops_open _ hrange hopen).trans (runOp_ok h ?_))
  simp only [← arg.eq_def, ← cx.eq_def, hid, hpi, hn, hrank, hnew, hp, hempty, hread, hg, bundleNote, hok, hnamed,
    hin.not_ge, hmember, hfence, Option.isSome_none, Bool.not_true, Bool.false_eq_true, if_false, if_true]
  exact if_neg hroom

theorem groupDestroy_destroys {id : Nat} {g : Group} (h : accepted s mb 0x302 = true) (hid : arg s mb 0 2 = id)
    (hg : group? s id = some g) (hp : (ownPart s (cx s mb) g.part).isSome = true)
    (hidle : s.eng.colls.any (fun c => c.group = id) = false) :
    exec (.groupDestroy mb) s = .next (answered s mb 0x302 []
      (modEng (fun e => { e with groups := FMap.set none e.groups id none }) s)) := by
  have howned : (ownPart s (cx s mb) g.part).isNone = false := Option.isNone_eq_false_iff.2 hp
  refine congrArg Host.Outcome.next (runOp_ok h ?_)
  simp only [← arg.eq_def, ← cx.eq_def, hid, hg, howned, hidle, Bool.false_eq_true, if_false]

/-! ## The routing image (R345) -/

/-- A table that host memory holds, for the tick that it names or for now (log entry 67). -/
theorem routeLoad_shadows {env : MemEnv} {b : List Byte} {t : Nat} (h : accepted s mb 0x303 = true)
    (hsrc : arg s mb 0 1 = 0) (hlen : arg s mb 16 4 = 21056) (ht : arg s mb 24 8 = t)
    (hread : readBundle s (cx s mb) env false (addrAt (load s mb) 8) 21056 = .ok b) (hok : routeOk b = true)
    (hdue : t = 0 ∨ now s + 1000 ≤ t) (hgo : isStopped s 0 = false) :
    exec (.routeLoad mb env) s = .next (answered s mb 0x303 []
      (modFab (fun f => { f with shadow := some (if t = 0 then now s else t, parseRoute b) }) s)) := by
  have hknown : ¬ 1 < arg s mb 0 1 := by omega
  have hhost : ¬ arg s mb 0 1 = 1 := by omega
  have hlate : ¬ (t ≠ 0 ∧ t < now s + 1000) := by omega
  have hrange : (if numAt (load s mb) 0 1 = 1 then some (addrAt (load s mb) 8, 21056) else none) = none :=
    if_neg hhost
  refine congrArg Host.Outcome.next ((afterSnoops_noRange _ hrange).trans (runOp_ok h ?_))
  simp only [← arg.eq_def, ← cx.eq_def, hknown, hhost, hlen, ht, hlate, hgo, hok, hread, bundleNote, decide_false,
    ne_eq, not_true_eq_false, Bool.not_true, Bool.false_eq_true, false_and, if_false]

/-! ## LINK_CTL (R376) -/

theorem linkCtlDisable_withdraws {i p t : Nat} (h : accepted s mb 0x304 = true) (hp : arg s mb 0 1 = p)
    (ht : (if arg s mb 8 8 = 0 then now s + 1000 else arg s mb 8 8) = t) (hop : arg s mb 1 1 = 0)
    (hok : linkFault s (load s mb) = none) (hi : freeFrom s 5 27 = some i) :
    let u := schedPut i t 6 0 (1 + 2 ^ 8 * p + 2 ^ 16 * 4) false 0 s
    let v := if [4, 5, 8].contains (port u p).st then sendOn p (noticePkt u p 1 p t) u else u
    exec (.linkCtlDisable mb) s = .next (answered s mb 0x304 (natLe 1 (port v p).st) v) := by
  refine congrArg Host.Outcome.next (runCmd_ok h (by simp [← arg.eq_def, hop]) ?_)
  simp only [← arg.eq_def, hok, hp, ht, hi]

theorem linkTrain_now {enable : Bool} {p : Nat} (hp : arg s mb 0 1 = p) (hok : linkFault s (load s mb) = none)
    (hnow : arg s mb 8 8 = 0) (hrole : enable = true → (port s p).role ≠ 0) :
    linkTrain enable (load s mb) s =
      okRep (natLe 1 (port (trainByCtl enable p s) p).st) (trainByCtl enable p s) := by
  have hfit : ¬ (enable = true ∧ (port s p).role = 0) := fun hx => hrole hx.1 hx.2
  simp only [linkTrain, ← arg.eq_def, hok, hp, hnow, hfit, if_false, if_true]

section Train

variable {p : Nat} (h : accepted s mb 0x304 = true) (hp : arg s mb 0 1 = p)
  (hok : linkFault s (load s mb) = none) (hnow : arg s mb 8 8 = 0)
include h hp hok hnow

theorem linkCtlEnable_trains (hop : arg s mb 1 1 = 1) (hrole : (port s p).role ≠ 0) :
    exec (.linkCtlEnable mb) s = .next (answered s mb 0x304 (natLe 1 (port (trainByCtl true p s) p).st)
      (trainByCtl true p s)) :=
  congrArg Host.Outcome.next (runCmd_ok h (by simp [← arg.eq_def, hop]) (linkTrain_now hp hok hnow fun _ => hrole))

theorem linkCtlRetrain_trains (hop : arg s mb 1 1 = 2) :
    exec (.linkCtlRetrain mb) s = .next (answered s mb 0x304 (natLe 1 (port (trainByCtl false p s) p).st)
      (trainByCtl false p s)) :=
  congrArg Host.Outcome.next (runCmd_ok h (by simp [← arg.eq_def, hop]) (linkTrain_now hp hok hnow (by simp)))

end Train

/-! ## LINK_BERT (R377) -/

theorem linkBert_tests {peers : BitVec 64} {ms : Nat} (h : accepted s mb 0x305 = true) (hms : arg s mb 8 4 = ms)
    (hpos : 0 < ms) (hmax : ms ≤ 60000) :
    let l := (bitsOf (arg s mb 0 8) 64).filter (fun p => testable (port s p))
    let till (p : Nat) : Nat := s.time.clk + (if peers.getLsbD p then ms * 100000 else 1000000)
    let mask (b : Bool) : Nat := bitsWord ((l.filter (fun p => peers.getLsbD p = b)).map (fun p => (p, true)))
    exec (.linkBert mb peers) s = .next (stays s mb { placed s mb 0x305 with
        arg := mask true + 2 ^ 64 * mask false, deadline := (l.map till).foldl min (s.time.clk + ms * 100000) }
      (l.foldl (fun x p =>
        setPortSt p 6 (modPort p (fun y => { y with test := some (till p), retrain := false }) x)) s)) := by
  have hfit : ¬ (ms = 0 ∨ 60000 < ms) := by omega
  refine congrArg Host.Outcome.next (runOp_stay h ?_)
  simp only [← arg.eq_def, hms, hfit, if_false]

/-- The ports of a LINK_BERT: those in TEST, then those that wait for their peer. -/
def bertPorts (r : RunCmd) : List Nat := bitsOf (r.arg % 2 ^ 64) 64 ++ bitsOf (r.arg / 2 ^ 64) 64

/-- The state once the next deadline of a LINK_BERT has passed for its ports. -/
def bertDue (r : RunCmd) (s : State) : State := (bertPorts r).foldl testEnds (waitUntil r.deadline s)

section BertEnd

variable {k : Nat} {r : RunCmd} (hr : runKeyOf s mb 0x305 = some (k, r)) (hd : r.deadline ≠ 0)
include hr hd

/-- After the last test, the command waits for its ports to settle (log entry 68). -/
theorem linkBertEnd_settles (counts : List (Nat × Nat))
    (hover : (bertPorts r).filterMap (fun p => (port (bertDue r s) p).test) = []) :
    exec (.linkBertEnd mb counts) s = .next (bertSettle (setRun k (some { r with
      deadline := 0, arg := r.arg % 2 ^ 64, pl := bertBytes (bitsOf (r.arg % 2 ^ 64) 64) counts }) (bertDue r s))) := by
  change execLinkBertEnd mb counts s = _
  simp only [execLinkBertEnd, hr, hd, if_false, ← bertPorts.eq_def, ← bertDue.eq_def, hover]

theorem linkBertEnd_waits (counts : List (Nat × Nat)) {t : Nat} {ts : List Nat}
    (hopen : (bertPorts r).filterMap (fun p => (port (bertDue r s) p).test) = t :: ts) :
    exec (.linkBertEnd mb counts) s = .next (setRun k (some { r with deadline := ts.foldl min t }) (bertDue r s)) := by
  change execLinkBertEnd mb counts s = _
  simp only [execLinkBertEnd, hr, hd, if_false, ← bertPorts.eq_def, ← bertDue.eq_def, hopen]

end BertEnd

end GroupsAndLinks

/-- Settles O22: each command by the path that its checks leave open; a test's end by the ports that it leaves open. -/
theorem groupsAndLinkCommands : Obligations.GroupsAndLinkCommands := by
  refine ⟨fun s mb => ⟨fun p b h hsnoop hbridge => ?_, fun g h => groupDestroy_destroys h rfl⟩,
    fun s mb => ⟨fun env b h hsrc hlen => routeLoad_shadows h hsrc hlen rfl,
      fun i h hop => linkCtlDisable_withdraws h rfl rfl hop,
      fun h hok hnow => ⟨linkCtlEnable_trains h rfl hok hnow, linkCtlRetrain_trains h rfl hok hnow⟩,
      fun peers h => linkBert_tests h rfl,
      fun k r counts hr hd => ⟨linkBertEnd_settles hr hd counts, fun t ts => linkBertEnd_waits hr hd counts⟩⟩⟩
  exact groupCreate_creates h rfl rfl rfl rfl rfl ⟨hsnoop, hbridge⟩

end Sys2Proof

namespace Sys2Proof
open Machine Claims

/-! # The crown (O10, O52-O55) -/

section Crowns

variable {s t u : State} {ps : List Zone} {c : Prop} [Decidable c]

/-! ## A frame without the crown -/

theorem Only.crown_eq (h : Only ps s t) (hp : ps.contains .crown = false) : t.crown = s.crown :=
  h .crown (by simpa using hp)

/-! ## Entry into the safe state (R437, R438) -/

/-- The ports as the entry leaves them: a takeover ends, and a half whose firmware is dead serves on none. -/
def safePorts (old : Half) (s : State) : State :=
  let m := mon s s.crown.holder
  let live := m.live && !m.halted
  if s.crown.takeover then
    let t := s.crown.takeAt
    let s := modCrown (fun c => { c with takeover := false, portA := live && c.holder = .a,
                                         portB := live && c.holder = .b }) s
    let s := vector0 s
    if live then flushHeld (answerTakeover old s) else resumeWatch t s
  else if live then s
  else if s.crown.portA || s.crown.portB then
    vector0 (modCrown (fun c => { c with portA := false, portB := false }) (endPause s))
  else endPause s

theorem enterSafe_again (bridge : Bool) (h : s.crown.safe = true) :
    enterSafe bridge s = if bridge then withdrawModule 0 (s.time.sup + 100000) 3 s else s := if_pos h

theorem endPause_crown (s : State) : (endPause s).crown = { s.crown with activating := none } := by
  unfold endPause
  split
  · exact (resumeWatch_only _ _).crown_eq rfl
  · next h => rw [← h]

/-- The ports and the pause may change; a takeover is over. -/
theorem safePorts_crown (old : Half) (s : State) : ∃ a b p, (safePorts old s).crown =
    { s.crown with takeover := false, portA := a, portB := b, activating := p } := by
  have hvector (v : State) : (vector0 v).crown = v.crown := (vector0_only v).crown_eq rfl
  have hended (p : Prop) [Decidable p] (n : Nat) (v : State) :
      (if p then flushHeld (answerTakeover old v) else resumeWatch n v).crown = v.crown :=
    Only.crown_eq (.either (.after (flushHeld_only _) (answerTakeover_only _ _)) (resumeWatch_only _ _)) rfl
  unfold safePorts
  dsimp only
  split
  · rw [hended, hvector]
    exact ⟨_, _, _, rfl⟩
  next htake =>
    have hover : s.crown.takeover = false := by simpa using htake
    split
    · exact ⟨_, _, _, by rw [← hover]⟩
    split
    · rw [hvector, modCrown_crown, endPause_crown]
      exact ⟨_, _, _, by rw [← hover]⟩
    · rw [endPause_crown]
      exact ⟨_, _, _, by rw [← hover]⟩

/-- What the entry into the safe state changes of the crown. -/
theorem enterSafe_crown (bridge : Bool) (h : s.crown.safe = false) : ∃ a b p, (enterSafe bridge s).crown =
    { s.crown with safe := true, req := none, latch := none, takeover := false, portA := a, portB := b,
                   activating := p } := by
  unfold enterSafe
  rw [if_neg (by simp [h])]
  extract_lets was old marked capped told fenced m live began ended shown ports sent
  have hfenced : fenced.crown = marked.crown :=
    Only.crown_eq (.after (closeAllReqs_only _ _) (.after (fenceAll_only _ _ _) (.after (.unless (event_only _ _ _ _ _))
      (.after (capUpdate_only _) (brakeStart_only _ _))))) rfl
  have hsent : (if bridge then withdrawModule 0 (sent.time.sup + 100000) 3 sent else sent).crown = ports.crown :=
    Only.crown_eq (.after (.when (withdrawModule_only _ _ _ _)) (plEvent_only _ _ _)) rfl
  obtain ⟨a, b, p, hports⟩ : ∃ a b p, ports.crown = _ := safePorts_crown old fenced
  rw [hsent, hports, hfenced]
  exact ⟨a, b, p, rfl⟩

/-! ## The reign: the claim number with the crown's half (R416, R417) -/

/-- The claim number in force and the half that it is granted to. -/
def reign (s : State) : Nat × Half := (s.crown.claim, s.crown.holder)

/-- From `s` to `t` the crown is not granted. -/
def SameReign (s t : State) : Prop := reign t = reign s

theorem SameReign.refl (s : State) : SameReign s s := rfl

/-- One after the other, the later first. -/
theorem SameReign.after (k : SameReign t u) (h : SameReign s t) : SameReign s u := Eq.trans k h

theorem SameReign.ofCrown (h : t.crown = s.crown) : SameReign s t := by simp only [SameReign, reign, h]

theorem SameReign.ofOnly (h : Only ps s t) (hp : ps.contains .crown = false) : SameReign s t :=
  .ofCrown (h.crown_eq hp)

/-- What a frame without the crown adds. -/
theorem SameReign.rest (k : Only ps t u) (h : SameReign s t) (hp : ps.contains .crown = false) : SameReign s u :=
  .after (.ofOnly k hp) h

theorem SameReign.branch {a b : State} (h : SameReign s a) (k : SameReign s b) : SameReign s (if c then a else b) := by
  split
  · exact h
  · exact k

theorem SameReign.when {a : State} (h : SameReign s a) : SameReign s (if c then a else s) := .branch h (.refl s)

theorem SameReign.unless {a : State} (h : SameReign s a) : SameReign s (if c then s else a) := .branch (.refl s) h

theorem SameReign.fold {α : Type} {f : State → α → State} (k : ∀ s x, SameReign s (f s x)) (l : List α) (s : State) :
    SameReign s (l.foldl f s) :=
  foldl_keeps (P := SameReign s) (fun u x hu => .after (k u x) hu) l s (.refl s)

theorem SameReign.claim (h : SameReign s t) : t.crown.claim = s.crown.claim := congrArg Prod.fst h

theorem SameReign.holder (h : SameReign s t) : t.crown.holder = s.crown.holder := congrArg Prod.snd h

/-! ### The operations that keep it -/

theorem modCrown_reign {f : Crown → Crown} (s : State) (h : (f s.crown).claim = s.crown.claim := by rfl)
    (k : (f s.crown).holder = s.crown.holder := by rfl) : SameReign s (modCrown f s) := Prod.ext h k

theorem modMon_reign (h : Half) (f : Monitor → Monitor) (s : State) : SameReign s (modMon h f s) := by
  cases h with
  | a => rfl
  | b => rfl

theorem modStage_reign (i : Nat) (f : Stage → Stage) (s : State) : SameReign s (modStage i f s) := rfl

theorem rejectWrite_reign (i : Nat) (s : State) : SameReign s (rejectWrite i s) :=
  .rest (event_only _ _ _ _ _) (modStage_reign _ _ _) rfl

theorem demote_reign (h : Half) (s : State) : SameReign s (demote h s) := by
  have hfalls (f : Monitor → Monitor) : SameReign s (event 2 11 0 0 (modMon h f s)) :=
    .rest (event_only _ _ _ _ _) (modMon_reign _ _ _) rfl
  exact .unless (.branch (hfalls _) (.after (modCrown_reign _) (hfalls _)))

theorem refreshStandby_reign (s : State) : SameReign s (refreshStandby s) :=
  .after (modMon_reign _ _ _) (modCrown_reign s)

theorem endPause_reign (s : State) : SameReign s (endPause s) := by
  simp only [SameReign, reign, endPause_crown]

theorem enterSafe_reign (bridge : Bool) (s : State) : SameReign s (enterSafe bridge s) := by
  cases h : s.crown.safe with
  | true =>
    rw [enterSafe_again bridge h]
    exact .when (.ofOnly (withdrawModule_only _ _ _ _) rfl)
  | false =>
    obtain ⟨a, b, p, hcrown⟩ := enterSafe_crown bridge h
    simp only [SameReign, reign, hcrown]

theorem askVote_reign (h : Half) (s : State) : SameReign s (askVote h s) :=
  .unless (.branch (enterSafe_reign _ _) (.unless (modCrown_reign s)))

theorem standbyAsks_reign (s : State) : SameReign s (standbyAsks s) := .when (askVote_reign _ _)

theorem complexFails_reign (h : Half) (s : State) : SameReign s (complexFails h s) := by
  have hports (v : State) : SameReign v (vector0 (modCrown (fun c => { c with portA := false, portB := false })
      (endPause v))) := .rest (vector0_only _) (.after (modCrown_reign _) (endPause_reign v)) rfl
  have hfailed := modMon_reign h (fun m => { m with live := false, failedAt := some s.time.clk, beatsFrom := none }) s
  exact .branch hfailed (.branch (.after (enterSafe_reign _ _) hfailed) (.branch (.after (hports _) hfailed) hfailed))

theorem raiseFloors_reign (s : State) : SameReign s (raiseFloors s) := .fold (fun u _ => modCrown_reign u) _ _

theorem floorsArrive_reign (s : State) : SameReign s (floorsArrive s) :=
  .fold (fun _ _ => .unless (modStage_reign _ _ _)) _ _

theorem writeStage_reign (h : Half) (i n : Nat) (enable : Bool) (s : State) :
    SameReign s (writeStage h i n enable s) := by
  have hreject : SameReign s (rejectWrite i s) := rejectWrite_reign i s
  unfold writeStage
  split
  · exact hreject
  · exact .after (demote_reign _ _) (.rest (event_only _ _ _ _ _) hreject rfl)
  · exact .rest (event_only _ _ _ _ _) hreject rfl
  · exact .ofOnly (applyStage_only _ _ _) rfl

theorem activateControl_reign (slot : Nat) (s : State) : SameReign s (activateControl slot s) := by
  refine .rest (vector0_only _) (.after (modCrown_reign _) (.after (modMon_reign _ _ _) ?_)) rfl
  exact .ofOnly (.after (putFw_only _ _) (.fold (fun _ _ => .when (answerPage_only _ _ _ _ _))
    (.fold (fun _ _ => respond_only _ _ _ _ _) (.none _)))) rfl

/-- A module reset keeps what R526 keeps of the crown. -/
theorem moduleReset_reign (s : State) : SameReign s (moduleReset s) := by
  refine .rest (.after (capUpdate_only _) (.after (putStart_only _ _) (.after (toRails_only _) (putPower_only _ _))))
    (.after (modCrown_reign _) ?_) rfl
  exact .ofOnly (.after (railsLost_only _) (.after (takeMid_only _) (.after (putStart_only _ _)
    (.after (schedClear_only _) (.fold (fun _ _ => .after (hostEvent_only _ _ _ _ _) (hostEvent_only _ _ _ _ _))
    (.none s)))))) rfl

/-! ### Grants (R417) -/

theorem grant_reign (h : Half) (takeover : Bool) (verified : List Bool) (s : State) :
    reign (grant h takeover verified s) = ((s.crown.claim + 1) % 2 ^ 32, h) := by
  unfold grant
  extract_lets n r ok flash recorded granted
  have hgranted : reign granted = (r.claim, h) := modMon_reign h (fun m => { m with own := r.claim }) _
  have hlast : SameReign granted (if ([0, 1, 2].filter ok).length < 2 then event 2 13 0 0 granted else granted) :=
    .when (.ofOnly (event_only _ _ _ _ _) rfl)
  exact hlast.trans hgranted

/-- From `s` to `t` the crown is granted to `h`, with the next claim number. -/
def GrantedTo (h : Half) (s t : State) : Prop := reign t = ((s.crown.claim + 1) % 2 ^ 32, h)

theorem GrantedTo.then {h : Half} (k : SameReign t u) (g : GrantedTo h s t) : GrantedTo h s u := Eq.trans k g

theorem GrantedTo.from {h : Half} (g : GrantedTo h t u) (k : SameReign s t) : GrantedTo h s u := by
  simpa only [GrantedTo, k.claim] using g

theorem startGrant_grants (h : Half) (verified : List Bool) (s : State) :
    GrantedTo h s (startGrant h verified s) := by
  have hstarts : SameReign (grant h false verified s) (startGrant h verified s) :=
    .rest (.after (flushHeld_only _) (vector0_only _)) (.after (modCrown_reign _) (.rest (modStart_only _ _)
      (.after (modMon_reign _ _ _) (raiseFloors_reign _)) rfl)) rfl
  exact .then hstarts (grant_reign h false verified s)

theorem beginTakeover_grants (h : Half) (latchAt : Nat) (verified : List Bool) (s : State) :
    GrantedTo h s (beginTakeover h latchAt verified s) := by
  have hbegins : SameReign (grant h true verified (endPause s)) (beginTakeover h latchAt verified s) :=
    .rest (.after (vector0_only _) (.when (.after (plEvent_only _ _ _) (putStart_only _ _)))) (modCrown_reign _) rfl
  exact .then hbegins (.from (grant_reign h true verified _) (endPause_reign s))

/-! ## The vote (R426, R427, R441) -/

/-- The latched ballots as a tally counts them: a channel whose vote wires are silent gives none. -/
def ballots (silent : Bool × Bool × Bool) (s : State) : List Nat :=
  let l := s.crown.latch.getD (latchNow s)
  [if silent.1 then 0 else l.a, if silent.2.1 then 0 else l.b, if silent.2.2 then 0 else l.c]

/-- How many of them name a half. -/
def votesFor (silent : Bool × Bool × Bool) (s : State) (h : Half) : Nat :=
  ((ballots silent s).filter (fun v => v = ballot h)).length

/-- An INCONCLUSIVE vote; the first of its request starts the 200 ms of R437. -/
def inconclusive (s : State) : State :=
  let first := s.crown.last.outcome ≠ 3 ∨ s.crown.tallyAt < s.crown.reqAt
  event 2 12 0 0 (if first then modCrown (fun c => { c with reqAt := s.time.clk }) s else s)

/-- What a tally does before it is recorded (R427). -/
def voteActs (silent : Bool × Bool × Bool) (verified : List Bool) (s : State) : State :=
  let u := modCrown (fun c => { c with latch := none }) s
  if 2 ≤ votesFor silent s s.crown.holder then
    modCrown (fun c => { c with req := none, votedAt := some u.time.clk, beatSince := false }) u
  else if 2 ≤ votesFor silent s s.crown.holder.other then
    beginTakeover s.crown.holder.other (s.crown.latch.getD (latchNow s)).at_ verified u
  else inconclusive u

/-- LAST_VOTE of a tally for the request of half `q`, whose claim number is then `claim` (R441). -/
def voteRecord (silent : Bool × Bool × Bool) (q : Half) (claim : Nat) (s : State) : Vote :=
  let stays := 2 ≤ votesFor silent s s.crown.holder
  let moves := 2 ≤ votesFor silent s s.crown.holder.other
  { outcome := if stays then 1 else if moves then 2 else 3, requester := q, ballotA := nth (ballots silent s) 0,
    ballotB := nth (ballots silent s) 1, ballotC := nth (ballots silent s) 2,
    result := if stays then ballot s.crown.holder else if moves then ballot s.crown.holder.other else 0,
    claimAfter := claim, rt := (s.crown.latch.getD (latchNow s)).rt }

/-- A tally acts and is recorded while no takeover, safe state or lost supervisor stands in its way. -/
theorem runVote_tallies {silent : Bool × Bool × Bool} (verified : List Bool) {q : Half} (hq : s.crown.req = some q)
    (h : ¬ (s.crown.takeover ∨ s.crown.safe ∨ s.crown.supFail)) : runVote silent verified s =
      let u := voteActs silent verified s
      modCrown (fun k => { k with tallyAt := u.time.clk, last := voteRecord silent q k.claim s }) u := by
  simp only [runVote, hq, if_neg h, voteActs, voteRecord, votesFor, inconclusive, decide_eq_true_eq]
  rfl

theorem runVote_idle {silent : Bool × Bool × Bool} (verified : List Bool)
    (h : s.crown.req = none ∨ s.crown.takeover ∨ s.crown.safe ∨ s.crown.supFail) :
    runVote silent verified s = s := by
  unfold runVote
  split
  · rfl
  · next hq => exact if_pos (h.resolve_left (by simp [hq]))

theorem inconclusive_reign (s : State) : SameReign s (inconclusive s) :=
  .rest (event_only _ _ _ _ _) (.when (modCrown_reign s)) rfl

theorem voteActs_reign (silent : Bool × Bool × Bool) (verified : List Bool) (s : State) :
    SameReign s (voteActs silent verified s) ∨ GrantedTo s.crown.holder.other s (voteActs silent verified s) := by
  have hopened : SameReign s (modCrown (fun c => { c with latch := none }) s) := modCrown_reign s
  unfold voteActs
  dsimp only
  split
  · exact .inl (.after (modCrown_reign _) hopened)
  split
  · exact .inr (.from (beginTakeover_grants _ _ _ _) hopened)
  · exact .inl (.after (inconclusive_reign _) hopened)

/-- A vote grants the crown to the other half, or to none. -/
theorem runVote_reign (silent : Bool × Bool × Bool) (verified : List Bool) (s : State) :
    SameReign s (runVote silent verified s) ∨ GrantedTo s.crown.holder.other s (runVote silent verified s) := by
  by_cases hidle : s.crown.req = none ∨ s.crown.takeover ∨ s.crown.safe ∨ s.crown.supFail
  · exact .inl (.ofCrown (by rw [runVote_idle verified hidle]))
  · obtain ⟨hreq, hopen⟩ := not_or.1 hidle
    obtain ⟨q, hq⟩ := Option.ne_none_iff_exists'.1 hreq
    rw [runVote_tallies verified hq hopen]
    exact (voteActs_reign silent verified s).imp (.after (modCrown_reign _)) (.then (modCrown_reign _))

end Crowns

/-! ## The commands -/

section Reigns

/-- Whatever next state `o` answers, the crown is not granted in it. -/
def ReignKept (s : State) (o : Ans) : Prop := ∀ t, o = .next t → SameReign s t

theorem ReignKept.next {s t : State} (h : SameReign s t) : ReignKept s (.next t) := by
  intro u hu
  cases hu
  exact h

theorem Runs.reignKept {ps : List Zone} {s : State} {o : Ans} (h : Runs ps s o) (hp : ps.contains .crown = false) :
    ReignKept s o := by
  obtain ⟨t, rfl, ht⟩ := h
  exact .next (.ofOnly ht hp)

/-! ### Mailbox commands: a firmware body leaves the crown alone, but for the journal (R429) -/

/-- Every zone but the crown. -/
def uncrowned : List Zone :=
  [.pending, .ident, .pins, .time, .sched, .mbx, .work, .clusters, .tiles, .signals, .tileStores, .phys, .hostMem, .mcs,
   .snoop, .xl, .memMode, .win, .ctr, .fab, .eng, .power, .led, .flash, .start, .fw, .trA, .trB, .taps, .cxlA, .cxlB,
   .mgmt, .bridge, .free]

theorem answer_reign {k op : Nat} {r : Rep} {s : State} (hr : Only uncrowned s (repState r)) :
    SameReign s (answer k op r) := by
  cases r with
  | ans st det l u =>
    have hu : SameReign s u := .ofOnly hr rfl
    have hjournal : SameReign u (modCrown (fun c => { c with journal := c.journal + 1 }) u) := modCrown_reign u
    exact .rest (respond_only _ _ _ _ _) (.branch (.after hjournal hu) hu) rfl
  | stay rc u => exact .rest (setRun_only _ _ _) (.ofOnly hr rfl) rfl

theorem runCmd_reign {op : Nat} {sel : List Byte → Bool} {body : Nat → Hdr → List Byte → RunCmd → State → Rep}
    {mb : Fin 128} {s : State} (hb : ∀ k h pl rc, Only uncrowned s (repState (body k h pl rc s))) :
    SameReign s (runCmd op sel body mb s) := by
  have hrespond (k st det : Nat) (l : List Byte) : SameReign s (respond k st det l s) :=
    .ofOnly (respond_only _ _ _ _ _) rfl
  unfold runCmd
  split
  · exact .refl s
  refine .when ?_
  split
  · exact hrespond _ _ _ _
  refine .branch (hrespond _ _ _ _) ?_
  split
  · exact .after (demote_reign _ _) (.rest (event_only _ _ _ _ _) (rejectWrite_reign _ _) rfl)
  · exact .unless (answer_reign (hb _ _ _ _))

theorem ReignKept.cmd {op : Nat} {sel : List Byte → Bool} {body : Nat → Hdr → List Byte → RunCmd → State → Rep}
    {mb : Fin 128} {s : State} (hb : ∀ k h pl rc, Only uncrowned s (repState (body k h pl rc s))) :
    ReignKept s (.next (runCmd op sel body mb s)) := .next (runCmd_reign hb)

theorem ReignKept.op {op : Nat} {body : Nat → Hdr → List Byte → RunCmd → State → Rep} {mb : Fin 128} {s : State}
    (hb : ∀ k h pl rc, Only uncrowned s (repState (body k h pl rc s))) : ReignKept s (.next (runOp op body mb s)) :=
  .next (runCmd_reign hb)

theorem afterSnoops_reign {mb : Fin 128} {op : Nat} {rng : List Byte → Option (Nat × Nat)} {f : State → State}
    {s : State} (h : SameReign s (f s)) : SameReign s (afterSnoops mb op rng f s) :=
  .branch (.unless (.ofOnly (issueSnoops_only _ _) rfl)) h

variable (s : State)

theorem execOpenCmd_reign (mb drawn) : ReignKept s (exec (.openCmd mb drawn) s) := by
  refine .op fun _ _ _ _ => ?_
  split
  · exact .refl _ _
  · exact .sub (.unlessBad (.unlessRefused (.ok (openCtx_only _ _ _ _ _)))) rfl

theorem execCloseCmd_reign (mb) : ReignKept s (exec (.closeCmd mb) s) :=
  .op fun _ _ _ _ => .sub (.choice (.stay (.none _))
    (.choice (.ok (.after (finishClose_only _ _) (modCtx_only _ _ _)))
    (.stay (.fold (fun _ _ => resetToDestroy_only _ _ _) (modCtx_only _ _ _))))) rfl

theorem execQueryCaps_reign (mb) : ReignKept s (exec (.queryCaps mb) s) := by
  refine .op fun _ _ _ _ => ?_
  split <;> exact .refl _ _

theorem execQueryStatus_reign (mb) : ReignKept s (exec (.queryStatus mb) s) := by
  refine .op fun _ _ _ _ => ?_
  split
  · exact .refl _ _
  · split
    · exact .sub (.choice (.ok (.none _)) (.bad (.none _))) rfl
    · exact .refl _ _
  · split <;> exact .refl _ _
  · exact .refl _ _

theorem execAlloc_reign (mb) : ReignKept s (exec (.alloc mb) s) := by
  refine .op fun _ _ _ _ => .unlessBad (.unlessBad (.unlessBad (.unlessBad ?_)))
  refine .unlessBad ?_
  split
  · exact .sub (.ok (place_only _ _ _ _ _ _ _ _ _)) rfl
  · exact .refl _ _

theorem execFree_reign (mb) : ReignKept s (exec (.free mb) s) := by
  refine .op fun _ _ _ _ => ?_
  dsimp only
  split
  · exact .sub (.ok (.after (failUsers_only _ _ _ _) (freeAlloc_only _ _ _))) rfl
  · exact .refl _ _

theorem execMapProtect_reign (mb) : ReignKept s (exec (.mapProtect mb) s) := by
  refine .cmd fun _ _ _ _ => .unlessBad ?_
  split
  · exact .refl _ _
  · exact .sub (.unlessBad (.ok (setMaps_only _ _ _ _ _))) rfl

theorem execMapUnmap_reign (mb) : ReignKept s (exec (.mapUnmap mb) s) := by
  refine .cmd fun _ _ _ _ => ?_
  dsimp only
  split
  · exact .refl _ _
  · exact .sub (.ok (.after (failUsers_only _ _ _ _) (setMaps_only _ _ _ _ _))) rfl

theorem execMapWindow_reign (mb) : ReignKept s (exec (.mapWindow mb) s) :=
  .cmd fun _ _ _ _ => .sub (.unlessBad (.unlessBad
    (.unlessBad (.unlessBad (.unlessBad (.ok (setMaps_only _ _ _ _ _))))))) rfl

theorem execCopy_reign (mb) : ReignKept s (exec (.copy mb) s) :=
  .op fun _ _ _ _ => .sub (.unlessBad (.unlessBad (.unlessBad (.stay (.none _))))) rfl

theorem execTierMove_reign (mb) : ReignKept s (exec (.tierMove mb) s) := by
  refine .op fun _ _ _ _ => .unlessBad ?_
  split <;> exact .refl _ _

theorem execPartCreate_reign (mb) : ReignKept s (exec (.partCreate mb) s) := by
  refine .op fun _ _ _ _ => ?_
  split
  · exact .refl _ _
  · refine .unlessRefused ?_
    split
    · exact .sub (.unlessRefused (.ok (createPart_only _ _ _ _ _ _))) rfl
    · exact .refl _ _

theorem execPartDestroy_reign (mb) : ReignKept s (exec (.partDestroy mb) s) := by
  refine .op fun _ _ _ _ => ?_
  dsimp only
  split
  · exact .refl _ _
  · exact .sub (.choice (.stay (resetToDestroy_only _ _ _))
      (.unlessRefused (.unlessRefused (.ok (destroyPart_only _ _))))) rfl

theorem execRecipeLoad_reign (mb) : ReignKept s (exec (.recipeLoad mb) s) :=
  .op fun _ _ _ _ => .sub (.unlessBad (.stay (.none _))) rfl

theorem execRecipeUnload_reign (mb) : ReignKept s (exec (.recipeUnload mb) s) :=
  .op fun _ _ _ _ => .sub (.unlessBad (.unlessRefused
    (.ok (.after (modCtx_only _ _ _) (.fold (fun _ _ => freeAlloc_only _ _ _) (.none _)))))) rfl

theorem execLaunch_reign (mb) : ReignKept s (exec (.launch mb) s) := by
  refine .op fun _ _ _ _ => ?_
  dsimp only
  split
  · exact .refl _ _
  · split
    · exact .refl _ _
    · split
      · exact .refl _ _
      · exact .sub (.ok (.after (setPart_only _ _ _) (.after (modCtx_only _ _ _) (.when (takeFree_only _))))) rfl

theorem execWaitCmd_reign (mb) : ReignKept s (exec (.waitCmd mb) s) := by
  refine .op fun _ _ _ _ => ?_
  dsimp only
  split
  · exact .refl _ _
  · exact .sub (.unlessBad (.choice (.ok (.none _)) (.stay (.none _)))) rfl

theorem execAbortCmd_reign (mb) : ReignKept s (exec (.abortCmd mb) s) := by
  refine .op fun _ _ _ _ => ?_
  split
  · exact .sub (abortOne_only _ _ _ _) rfl
  · exact .sub (abortAll_only _ _ _ _) rfl
  · exact .refl _ _

theorem execGroupCreate_reign (mb) : ReignKept s (exec (.groupCreate mb) s) := by
  refine .next (afterSnoops_reign (runCmd_reign fun _ _ _ _ => .unlessBad ?_))
  split
  · exact .refl _ _
  · refine .unlessBad ?_
    split
    · exact .sub (.refused (bundleNote_only _ _ _ _ _ _)) rfl
    · exact .sub (.choice (.bad (bundleNote_only _ _ _ _ _ _))
        (.choice (.bad (bundleNote_only _ _ _ _ _ _)) (.choice (.bad (bundleNote_only _ _ _ _ _ _))
        (.choice (.bad (bundleNote_only _ _ _ _ _ _)) (.choice (.refused (bundleNote_only _ _ _ _ _ _))
        (.choice (.refused (bundleNote_only _ _ _ _ _ _))
        (.ok (.after (modEng_only _ _) (bundleNote_only _ _ _ _ _ _))))))))) rfl

theorem execGroupDestroy_reign (mb) : ReignKept s (exec (.groupDestroy mb) s) := by
  refine .op fun _ _ _ _ => ?_
  dsimp only
  split
  · exact .refl _ _
  · exact .sub (.unlessBad (.unlessRefused (.ok (modEng_only _ _)))) rfl

theorem execRouteLoad_reign (mb env) : ReignKept s (exec (.routeLoad mb env) s) := by
  refine .next (afterSnoops_reign (runCmd_reign fun _ _ _ _ => .unlessBad (.unlessBad ?_)))
  refine .unlessBad (.repBranch (.sub (.bad (bundleNote_only _ _ _ _ _ _)) rfl) ?_)
  refine .repBranch (.sub (.bad (bundleNote_only _ _ _ _ _ _)) rfl) ?_
  refine .repBranch (.sub (.refused (bundleNote_only _ _ _ _ _ _)) rfl) ?_
  split
  · exact .sub (.refused (bundleNote_only _ _ _ _ _ _)) rfl
  · exact .sub (.ok (.after (modFab_only _ _) (bundleNote_only _ _ _ _ _ _))) rfl

theorem execLinkCtlDisable_reign (mb) : ReignKept s (exec (.linkCtlDisable mb) s) := by
  refine .cmd fun _ _ _ _ => ?_
  split
  · exact .refl _ _
  · dsimp only
    split
    · exact .refl _ _
    · exact .sub (.ok (.after (.when (sendOn_only _ _ _)) (schedPut_only _ _ _ _ _ _ _ _))) rfl

theorem execLinkCtlEnable_reign (mb) : ReignKept s (exec (.linkCtlEnable mb) s) :=
  .cmd fun _ _ _ _ => .sub (linkTrain_only _ _ _) rfl

theorem execLinkCtlRetrain_reign (mb) : ReignKept s (exec (.linkCtlRetrain mb) s) :=
  .cmd fun _ _ _ _ => .sub (linkTrain_only _ _ _) rfl

theorem execLinkBert_reign (mb peerTests) : ReignKept s (exec (.linkBert mb peerTests) s) :=
  .op fun _ _ _ _ => .sub (.unlessBad (.stay (.fold
    (fun _ _ => .after (setPortSt_only _ _ _) (modPort_only _ _ _)) (.none _)))) rfl

theorem execTimeQuery_reign (mb) : ReignKept s (exec (.timeQuery mb) s) :=
  .op fun _ _ _ _ => .sub (.ok (.none _)) rfl

theorem execSchedAdd_reign (mb) : ReignKept s (exec (.schedAdd mb) s) := by
  refine .op fun _ _ _ _ => .unlessBad (.unlessBad (.unlessBad ?_))
  split
  · exact .refl _ _
  · exact .sub (.ok (schedPut_only _ _ _ _ _ _ _ _)) rfl

theorem execSchedCancel_reign (mb) : ReignKept s (exec (.schedCancel mb) s) := by
  refine .op fun _ _ _ _ => ?_
  split
  · exact .refl _ _
  · exact .sub (.unlessBad (.choice (.ok (.after (putFwStart_only _ _ _) (schedEnd_only _ _ _)))
      (.ok (schedEnd_only _ _ _)))) rfl

theorem execPowerSet_reign (mb) : ReignKept s (exec (.powerSet mb) s) :=
  .op fun _ _ _ _ => .sub (.unlessBad (.unlessRefused
    (.ans (.after (.either (.after (capUpdate_only _) (modPower_only _ _)) (schedPut_only _ _ _ _ _ _ _ _))
    (.after (dropLowering_only _ _) (schedEnd_only _ _ _)))))) rfl

theorem execPowerQuery_reign (mb) : ReignKept s (exec (.powerQuery mb) s) :=
  .op fun _ _ _ _ => .sub (.ok (.none _)) rfl

theorem execReqOpen_reign (mb) : ReignKept s (exec (.reqOpen mb) s) :=
  .op fun _ _ _ _ => .sub (reqBody_only _ _ _ _) rfl

theorem execReqClose_reign (mb) : ReignKept s (exec (.reqClose mb) s) :=
  .op fun _ _ _ _ => .sub (reqBody_only _ _ _ _) rfl

theorem execLedgerRead_reign (mb) : ReignKept s (exec (.ledgerRead mb) s) :=
  .op fun _ _ _ _ => .sub (.unlessBad (.ans (ledgerRead_only _ _ _ _ _))) rfl

theorem execMethodSet_reign (mb flash) : ReignKept s (exec (.methodSet mb flash) s) := by
  refine .op fun _ _ _ _ => .unlessBad (.unlessBad (.unlessBad ?_))
  refine .unlessRefused ?_
  split
  · exact .sub (.refused (.ofSnd ‹_ = (_, _)› (recordSettings_only _ _ _))) rfl
  · exact .sub (.ok (.after (modLed_only _ _) (.ofSnd ‹_ = (_, _)› (recordSettings_only _ _ _)))) rfl

theorem execConfigStop_reign (mb) : ReignKept s (exec (.configStop mb) s) := by
  refine .op fun _ _ _ _ => .unlessBad ?_
  split
  · exact .sub (.choice (.ok (.none _)) (.refused (.none _))) rfl
  · exact .sub (.ok (setStop_only _ _ _)) rfl

theorem execConfigWrite_reign (mb) : ReignKept s (exec (.configWrite mb) s) := by
  refine .op fun _ _ _ _ => .unlessBad (.unlessBad ?_)
  split
  · exact .refl _ _
  · split
    · exact .refl _ _
    · exact .sub (.unlessRefused (.ok (setStop_only _ _ _))) rfl

theorem execConfigStart_reign (mb flash) : ReignKept s (exec (.configStart mb flash) s) := by
  refine .op fun _ _ _ _ => .unlessBad ?_
  split
  · exact .refl _ _
  · refine .unlessRefused (.repBranch (.sub (.ok (setStop_only _ _ _)) rfl) (.unlessBad ?_))
    split
    · exact .sub (.refused (.ofSnd ‹_ = (_, _)› (recordSettings_only _ _ _))) rfl
    · exact .sub (.ok (.after (setStop_only _ _ _) (.fold (fun _ _ => applyKey_only _ _)
        (.ofSnd ‹_ = (_, _)› (recordSettings_only _ _ _))))) rfl

theorem execSettingsWrite_reign (mb flash) : ReignKept s (exec (.settingsWrite mb flash) s) := by
  refine .op fun _ _ _ _ => ?_
  split
  · exact .refl _ _
  · exact .refl _ _
  · split
    · exact .sub (.refused (.ofSnd ‹_ = (_, _)› (recordSettings_only _ _ _))) rfl
    · exact .sub (.ok (.ofSnd ‹_ = (_, _)› (recordSettings_only _ _ _))) rfl

theorem execDigestQuery_reign (mb) : ReignKept s (exec (.digestQuery mb) s) :=
  .op fun _ _ _ _ => .sub (.ok (.none _)) rfl

theorem execFwStage_reign (mb flash) : ReignKept s (exec (.fwStage mb flash) s) := by
  refine .next (afterSnoops_reign (runCmd_reign fun _ _ _ _ => .unlessBad (.unlessBad ?_)))
  dsimp only
  split
  · exact .sub (.refused (bundleNote_only _ _ _ _ _ _)) rfl
  · split
    · exact .sub (.refused (bundleNote_only _ _ _ _ _ _)) rfl
    · exact .sub (.choice (.after (stageFactory_only _ _ _) (bundleNote_only _ _ _ _ _ _))
        (.stay (.after (putFw_only _ _) (bundleNote_only _ _ _ _ _ _)))) rfl

theorem execFwActivate_reign (mb) : ReignKept s (exec (.fwActivate mb) s) :=
  .op fun _ _ _ _ => .sub (activate_only _ _ _ _) rfl

theorem execFwQuery_reign (mb) : ReignKept s (exec (.fwQuery mb) s) :=
  .op fun _ _ _ _ => .sub (.ok (.none _)) rfl

theorem execTraceCtlWindow_reign (mb) : ReignKept s (exec (.traceCtlWindow mb) s) := by
  refine .cmd fun _ _ _ _ => .unlessBad (.unlessBad (.unlessBad (.unlessBad ?_)))
  refine .unlessBad (.unlessRefused ?_)
  split
  · exact .refl _ _
  · refine .repBranch (.sub (.ok (schedPut_only _ _ _ _ _ _ _ _)) rfl) ?_
    split
    · exact .refl _ _
    · exact .sub (.ok (.after (setArg_only _ _ _) (.after (setArg_only _ _ _)
        (.after (schedPut_only _ _ _ _ _ _ _ _) (schedPut_only _ _ _ _ _ _ _ _))))) rfl

theorem execTraceCtlCloseAll_reign (mb) : ReignKept s (exec (.traceCtlCloseAll mb) s) :=
  .cmd fun _ _ _ _ => .sub (.unlessRefused (.ok (.after (stopTrace_only _) (schedEndAll_only _ _ _)))) rfl

theorem execTraceCtlRingSize_reign (mb flash) : ReignKept s (exec (.traceCtlRingSize mb flash) s) := by
  refine .cmd fun _ _ _ _ => .unlessBad (.unlessRefused ?_)
  split
  · exact .sub (.refused (.ofSnd ‹_ = (_, _)› (recordSettings_only _ _ _))) rfl
  · exact .sub (.ok (.after (ringSize_only _ _) (.ofSnd ‹_ = (_, _)› (recordSettings_only _ _ _)))) rfl

theorem execTapArm_reign (mb) : ReignKept s (exec (.tapArm mb) s) := by
  refine .op fun _ _ _ _ => ?_
  dsimp only
  split
  · exact .refl _ _
  · split
    · exact .refl _ _
    · split
      · exact .refl _ _
      · refine .unlessBad (.unlessBad (.unlessRefused (.unlessRefused ?_)))
        split
        · exact .sub (.ok (.after (putTapNext_only _ _) (.after (setTap_only _ _ _)
            (schedPut_only _ _ _ _ _ _ _ _)))) rfl
        · exact .refl _ _

theorem execTapRead_reign (mb) : ReignKept s (exec (.tapRead mb) s) := by
  refine .op fun _ _ _ _ => ?_
  dsimp only
  split
  · exact .sub (.choice (.refused (setTap_only _ _ _)) (.choice (.ok (.none _))
      (.choice (.ok (setTap_only _ _ _)) (.choice (.refused (physNote_only _ _ _ _))
      (.ok (.after (putHost_only _ _) (physNote_only _ _ _ _))))))) rfl
  · exact .refl _ _

theorem execCounterRead_reign (mb) : ReignKept s (exec (.counterRead mb) s) :=
  .op fun _ _ _ _ => .sub (.unlessBad (.unlessBad (.unlessBad
    (.ok (.when (.fold (fun _ _ => ctrClear_only _ _ _) (.none _))))))) rfl

theorem execInject_reign (mb) : ReignKept s (exec (.inject mb) s) := by
  refine .op fun _ _ _ _ => .unlessBad ?_
  split
  · exact .refl _ _
  · exact .sub (.unlessBad (.unlessRefused (.ok (setWin_only _ _ _)))) rfl

theorem execResetPart_reign (mb) : ReignKept s (exec (.resetPart mb) s) := by
  refine .op fun _ _ _ _ => ?_
  dsimp only
  split
  · exact .refl _ _
  · exact .sub (.stay (fencePart_only _ _ _ _ _ _)) rfl

theorem execResetCluster_reign (mb) : ReignKept s (exec (.resetCluster mb) s) := by
  refine .op fun _ _ _ _ => ?_
  dsimp only
  split
  · exact .refl _ _
  · split
    · exact .refl _ _
    · exact .sub (.ok (.after (closeWins_only _ _) (zeroCluster_only _ _))) rfl

theorem execResetTile_reign (mb) : ReignKept s (exec (.resetTile mb) s) := by
  refine .op fun _ _ _ _ => ?_
  dsimp only
  split
  · exact .refl _ _
  · refine .unlessBad ?_
    split
    · exact .refl _ _
    · exact .sub (.ok (zeroTile_only _ _)) rfl

theorem execResetModule_reign (mb) : ReignKept s (exec (.resetModule mb) s) :=
  .op fun _ _ _ _ => .sub (.unlessBad (.ok (scheduleReset_only _ _ _))) rfl

theorem execCrownQuery_reign (mb) : ReignKept s (exec (.crownQuery mb) s) :=
  .op fun _ _ _ _ => .sub (.ok (.none _)) rfl

theorem execRecipeLoadDone_reign (mb env) : ReignKept s (exec (.recipeLoadDone mb env) s) := by
  refine .next ?_
  split
  · exact .refl s
  · refine .unless (.branch (.ofOnly (issueSnoops_only _ _) rfl) (.unless (.branch (.ofOnly (setRun_only _ _ _) rfl)
      (.branch (answer_reign (.refl _ _)) ?_))))
    split
    · exact answer_reign (.sub (.refused (.when (readNote_only _ _ _ _ _ _))) rfl)
    · refine .branch (answer_reign (.sub (.refused (.when (readNote_only _ _ _ _ _ _))) rfl)) ?_
      split
      · exact answer_reign (.sub (.refused (.when (readNote_only _ _ _ _ _ _))) rfl)
      · exact answer_reign (.sub (.after (loadBundle_only _ _ _ _ _) (.when (readNote_only _ _ _ _ _ _))) rfl)

theorem execFwStageDone_reign (mb area slot dir) : ReignKept s (exec (.fwStageDone mb area slot dir) s) := by
  refine .next ?_
  split
  · exact .refl s
  · exact .unless (answer_reign (.sub (.after (stageSlot_only _ _ _ _ _) (putFw_only _ _)) rfl))

/-! ### The commands that grant -/

/-- Whatever next state `o` answers, the crown is granted at most once in it. -/
def GrantsOnce (s : State) (o : Ans) : Prop := ∀ t, o = .next t → SameReign s t ∨ ∃ h, GrantedTo h s t

theorem GrantsOnce.next {s t : State} (h : SameReign s t ∨ ∃ h, GrantedTo h s t) : GrantsOnce s (.next t) := by
  intro u hu
  cases hu
  exact h

theorem execCrownStartGrant_grants (verified) : GrantsOnce s (exec (.crownStartGrant verified) s) := by
  refine .next ?_
  split
  · exact .inl (.refl s)
  · exact .inr ⟨_, .from (startGrant_grants _ _ _) (.ofOnly (modStart_only _ _) rfl)⟩

theorem execCrownStartLiveTimeout_grants (verified) : GrantsOnce s (exec (.crownStartLiveTimeout verified) s) := by
  refine .next ?_
  split
  · exact .inl (.refl s)
  dsimp only
  split
  · exact .inl (.refl s)
  have hhalted (f : Monitor → Monitor) (d : Nat) (h : Half) : SameReign s (modMon h f (waitUntil d s)) :=
    .after (modMon_reign _ _ _) (.ofOnly (waitUntil_only _ _) rfl)
  split
  · exact .inl (.rest (startFailed_only _ _ _) (hhalted _ _ _) rfl)
  · exact .inr ⟨_, .then (modCrown_reign _) (.from (startGrant_grants _ _ _)
      (.rest (modStart_only _ _) (hhalted _ _ _) rfl))⟩

theorem execVoteTally_grants (silent verified) : GrantsOnce s (exec (.voteTally silent verified) s) :=
  .next ((runVote_reign _ _ _).imp_right fun h => ⟨_, h⟩)

theorem execVoteRepeat_grants (silent verified) : GrantsOnce s (exec (.voteRepeat silent verified) s) := by
  refine .next ?_
  split
  · have hwait (d : Nat) : SameReign s (waitUntil d s) := .ofOnly (waitUntil_only _ _) rfl
    exact (runVote_reign _ _ _).imp (.after · (hwait _)) fun h => ⟨_, .from h (hwait _)⟩
  · exact .inl (.refl s)

/-! ### The commands that change the crown otherwise -/

theorem execModResetN_reign : ReignKept s (exec .modResetN s) := by
  have hpin (v : Pins) : SameReign s { s with pins := v } := .ofOnly (putPins_only _ _) rfl
  have hreset (v : Pins) : SameReign s (moduleReset { s with pins := v }) := .after (moduleReset_reign _) (hpin v)
  exact .next (.branch (hpin _) (.branch (hpin _) (.branch (.branch (hreset _) (hpin _)) (.branch (hpin _)
    (.branch (hreset _) (.rest (scheduleReset_only _ _ _) (hpin _) rfl))))))

theorem execVoltageRestart_reign : ReignKept s (exec .voltageRestart s) := by
  refine .next ?_
  split
  · exact .when (.after (moduleReset_reign _) (.ofOnly (waitUntil_only _ _) rfl))
  · exact .refl s

theorem execWithdrawDrainEnd_reign : ReignKept s (exec .withdrawDrainEnd s) := by
  refine .next ?_
  split
  · exact .refl s
  · exact .after (.when (moduleReset_reign _)) (.ofOnly (.fold (fun _ _ => .unless (.after (setQueue_only _ _ _)
      (.after (count_only _ _ _ _) (.fold (fun _ _ => freeIn_only _ _ _) (.none _)))))
      (.after (modFab_only _ _) (waitUntil_only _ _))) rfl)

theorem execShutdownRailsOff_reign : ReignKept s (exec .shutdownRailsOff s) := by
  refine .next ?_
  split
  · exact .refl s
  · exact .rest (.after (capUpdate_only _) (putPowerStart_only _ _ _)) (.after (modCrown_reign _) (.ofOnly
      (.after (schedClear_only _) (.after (railsLost_only _) (waitUntil_only _ _))) rfl)) rfl

theorem execFwActivateExecute_reign : ReignKept s (exec .fwActivateExecute s) := by
  refine .next ?_
  split
  · exact .refl s
  next x t htake =>
    have hput (f : Fw) (d : Start) : SameReign s { t with fw := f, start := d } :=
      .ofOnly (.after (putFwStart_only _ _ _) (takeDispatch_only htake)) rfl
    have htiles (p : Prop) [Decidable p] (slot : Nat) (f : Fw) (d : Start) :
        SameReign s (if p then activateTiles slot { t with fw := f, start := d } else { t with fw := f, start := d }) :=
      .branch (.rest (activateTiles_only _ _) (hput f d) rfl) (hput f d)
    exact .branch (.rest (actDone_only _ _) (hput _ _) rfl) (.branch (.rest (actDone_only _ _) (htiles _ _ _ _) rfl)
      (.branch (.rest (actDone_only _ _) (htiles _ _ _ _) rfl) (.after (activateControl_reign _ _) (htiles _ _ _ _))))

theorem execHeartbeatSend_reign (half) : ReignKept s (exec (.heartbeatSend half) s) :=
  .next (.unless (.branch (modMon_reign _ _ _) (modMon_reign _ _ _)))

theorem execHeartbeatArrive_reign (src path2 atSup hb) : ReignKept s (exec (.heartbeatArrive src path2 atSup hb) s) := by
  refine .next (.unless (.branch (.branch (modCrown_reign s) (modCrown_reign s)) ?_))
  exact .after (.branch (demote_reign _ _) (refreshStandby_reign _)) (.after (modMon_reign _ _ _)
    (.after (.branch (modCrown_reign _) (modCrown_reign _)) (modMon_reign _ _ _)))

theorem execPathSilent_reign (rcv path2) : ReignKept s (exec (.pathSilent rcv path2) s) := by
  have hwait (last : Option Nat) :
      SameReign s (match last with | some t => waitUntil (t + 400000) s | none => s) := by
    split
    · exact .ofOnly (waitUntil_only _ _) rfl
    · exact .refl s
  have hsilent (f : Monitor → Monitor) (last : Option Nat) :
      SameReign s (modMon rcv f (match last with | some t => waitUntil (t + 400000) s | none => s)) :=
    .after (modMon_reign _ _ _) (hwait last)
  exact .next (.unless (.branch (hsilent _ _) (.branch (.after (modCrown_reign _) (hsilent _ _))
    (.after (standbyAsks_reign _) (hsilent _ _)))))

theorem execLivenessWrite_reign (half) : ReignKept s (exec (.livenessWrite half) s) := by
  have hwritten (p : Prop) [Decidable p] (f : Monitor → Monitor) : SameReign s
      (if p then modCrown (fun c => { c with req := none }) (modMon half f s) else modMon half f s) :=
    .branch (.after (modCrown_reign _) (modMon_reign _ _ _)) (modMon_reign _ _ _)
  exact .next (.unless (.branch (.rest (resumeService_only _) (hwritten _ _) rfl) (hwritten _ _)))

theorem execLivenessExpire_reign (half) : ReignKept s (exec (.livenessExpire half) s) :=
  .next (.unless (.after (complexFails_reign _ _) (.ofOnly (.after (event_only _ _ _ _ _) (waitUntil_only _ _)) rfl)))

theorem execHolderFailedVoteRequest_reign : ReignKept s (exec .holderFailedVoteRequest s) := by
  refine .next ?_
  dsimp only
  split
  · exact .refl s
  · exact .after (askVote_reign _ _) (.ofOnly (waitUntil_only _ _) rfl)

theorem execVoteRequestRetry_reign : ReignKept s (exec .voteRequestRetry s) := by
  refine .next ?_
  split
  · exact .refl s
  · exact .when (.after (standbyAsks_reign _) (.ofOnly (waitUntil_only _ _) rfl))

theorem execFloorMessage_reign (stage claim trusted) : ReignKept s (exec (.floorMessage stage claim trusted) s) :=
  .next (.unless (modStage_reign _ _ _))

theorem execFloorBroadcast_reign : ReignKept s (exec .floorBroadcast s) := .next (raiseFloors_reign s)

theorem execStageLapse_reign (stage) : ReignKept s (exec (.stageLapse stage) s) :=
  .next (.after (modStage_reign _ _ _) (.ofOnly (waitUntil_only _ _) rfl))

theorem execStageWrite_reign (half stage claim enable) : ReignKept s (exec (.stageWrite half stage claim enable) s) :=
  .next (writeStage_reign _ _ _ _ _)

theorem execTakeoverRestore_reign (answers) : ReignKept s (exec (.takeoverRestore answers) s) := by
  refine .next (.unless ?_)
  have hfreed (old h : Half) (f : Monitor → Monitor) : SameReign s (answerTakeover old (modMon h f (floorsArrive s))) :=
    .rest (answerTakeover_only _ _) (.after (modMon_reign _ _ _) (floorsArrive_reign s)) rfl
  exact .after (modCrown_reign _) (.rest (putFw_only _ _) (.branch (hfreed _ _ _)
    (.after (writeStage_reign _ _ _ _ _) (.rest (putMbx_only _ _) (hfreed _ _ _) rfl))) rfl)

theorem execTakeoverComplete_reign : ReignKept s (exec .takeoverComplete s) :=
  .next (.unless (.rest (.after (resumeService_only _) (.after (flushHeld_only _) (.after (resumeWatch_only _ _)
    (.after (plEvent_only _ _ _) (.after (event_only _ _ _ _ _) (vector0_only _))))))
    (.after (modMon_reign _ _ _) (modCrown_reign s)) rfl))

theorem execTakeoverTimeout_reign : ReignKept s (exec .takeoverTimeout s) :=
  .next (.when (.after (enterSafe_reign _ _) (.ofOnly (waitUntil_only _ _) rfl)))

theorem execInconclusiveTimeout_reign : ReignKept s (exec .inconclusiveTimeout s) :=
  .next (.when (.after (enterSafe_reign _ _) (.ofOnly (waitUntil_only _ _) rfl)))

theorem execCheckpointSnapshot_reign : ReignKept s (exec .checkpointSnapshot s) :=
  .next (.unless (.after (modCrown_reign _) (.unless (.ofOnly (waitUntil_only _ _) rfl))))

theorem execStandbyCommitCheck_reign (ok) : ReignKept s (exec (.standbyCommitCheck ok) s) :=
  .next (.unless (.after (refreshStandby_reign _) (modMon_reign _ _ _)))

theorem execStandbyReadyLapse_reign : ReignKept s (exec .standbyReadyLapse s) := by
  refine .next (.unless ?_)
  dsimp only
  split
  · exact refreshStandby_reign s
  · exact .after (refreshStandby_reign _) (.ofOnly (waitUntil_only _ _) rfl)

theorem execResyncStart_reign : ReignKept s (exec .resyncStart s) := by
  refine .next ?_
  dsimp only
  split
  · exact .refl s
  · exact .unless (.after (modCrown_reign _) (.after (modMon_reign _ _ _) (.ofOnly (waitUntil_only _ _) rfl)))

theorem execSupervisorFailure_reign : ReignKept s (exec .supervisorFailure s) :=
  .next (.unless (.rest (.after (putPower_only _ _) (.after
    (.when (.after (noticeAll_only _ _ _ _) (.after (modFab_only _ _) (fenceAll_only _ _ _)))) (modLed_only _ _)))
    (modCrown_reign s) rfl))

theorem execControlActivationResume_reign : ReignKept s (exec .controlActivationResume s) := by
  refine .next ?_
  split
  · exact .refl s
  · have hloaded (d : SlotDir) (f : Fw) (x : Start) :
        SameReign s { (writeDir .clean d s).2 with fw := f, start := x } :=
      .ofOnly (.after (putFwStart_only _ _ _) (writeDir_only _ _ _)) rfl
    refine .unless (.rest (.after (actDone_only _ _) (.after (resumeService_only _) (.after (resumeWatch_only _ _)
      (vector0_only _)))) (.after (modCrown_reign _) (.after (modMon_reign _ _ _) (.after (modMon_reign _ _ _) ?_))) rfl)
    exact .branch (.after (modCrown_reign _) (hloaded _ _ _)) (hloaded _ _ _)

theorem execActivationTimeout_reign : ReignKept s (exec .activationTimeout s) := by
  refine .next ?_
  split
  · exact .refl s
  · have hwait (d : Nat) : SameReign s (waitUntil d s) := .ofOnly (waitUntil_only _ _) rfl
    exact .unless (.rest (.after (actDone_only _ _) (putFw_only _ _))
      (.branch (.after (complexFails_reign _ _) (.rest (event_only _ _ _ _ _) (hwait _) rfl)) (hwait _)) rfl)

theorem execBridgeRetrainDone_reign (half ok) : ReignKept s (exec (.bridgeRetrainDone half ok) s) := by
  have hopen (inj : Bool) (blk bit info : Nat) : SameReign s (eventG inj half blk bit 0 info
      (bridgeOpens { s with brRetrain := false })) :=
    .ofOnly (.after (eventG_only _ _ _ _ _ _ _) (.after (bridgeOpens_only _) (putBridge_only _ _))) rfl
  exact .next (.unless (.branch (hopen _ _ _ _) (.after (enterSafe_reign _ _) (hopen _ _ _ _))))

theorem execControlCoreCacheError_reign (half single ue) :
    ReignKept s (exec (.controlCoreCacheError half single ue) s) := by
  have hdisarm (p : Prop) [Decidable p] (b : Nat) : SameReign s (if p then disarm b s else s) :=
    .ofOnly (.when (disarm_only _ _)) rfl
  have hevent (inj : Bool) (bit : Nat) (p : Prop) [Decidable p] (b : Nat) :
      SameReign s (eventG inj half b bit 0 0 (if p then disarm b s else s)) :=
    .rest (eventG_only _ _ _ _ _ _ _) (hdisarm p b) rfl
  refine .next (.branch (hdisarm _ _) (.branch (hevent _ _ _ _) ?_))
  split
  · exact hdisarm _ _
  · exact hevent _ _ _ _
  · exact .after (.branch (complexFails_reign _ _) (.after (modMon_reign _ _ _) (modCrown_reign _)))
      (.after (modMon_reign _ _ _) (hevent _ _ _ _))

/-! ### All commands -/

/-- A command that neither grants nor starts or powers down the supervisor keeps the reign. -/
theorem exec_reignKept (c : Instr) (hgrant : grants c = false) (hin : ofInput c = false) (haux : c ≠ .aux3v3Return) :
    ReignKept s (exec c s) := by
  cases c with
  | powerOn52v slotId flashRead => cases hin
  | inputLoss52v => cases hin
  | inputVoltageSample mv => cases hin
  | aux3v3Return => exact absurd rfl haux
  | crownStartGrant verified => cases hgrant
  | crownStartLiveTimeout verified => cases hgrant
  | voteTally silent verified => cases hgrant
  | voteRepeat silent verified => cases hgrant
  | fwActivateExecute => exact execFwActivateExecute_reign s
  | withdrawDrainEnd => exact execWithdrawDrainEnd_reign s
  | openCmd mb drawn => exact execOpenCmd_reign s mb drawn
  | closeCmd mb => exact execCloseCmd_reign s mb
  | queryCaps mb => exact execQueryCaps_reign s mb
  | queryStatus mb => exact execQueryStatus_reign s mb
  | alloc mb => exact execAlloc_reign s mb
  | free mb => exact execFree_reign s mb
  | mapProtect mb => exact execMapProtect_reign s mb
  | mapUnmap mb => exact execMapUnmap_reign s mb
  | mapWindow mb => exact execMapWindow_reign s mb
  | copy mb => exact execCopy_reign s mb
  | tierMove mb => exact execTierMove_reign s mb
  | partCreate mb => exact execPartCreate_reign s mb
  | partDestroy mb => exact execPartDestroy_reign s mb
  | recipeLoad mb => exact execRecipeLoad_reign s mb
  | recipeUnload mb => exact execRecipeUnload_reign s mb
  | launch mb => exact execLaunch_reign s mb
  | waitCmd mb => exact execWaitCmd_reign s mb
  | abortCmd mb => exact execAbortCmd_reign s mb
  | groupCreate mb => exact execGroupCreate_reign s mb
  | groupDestroy mb => exact execGroupDestroy_reign s mb
  | routeLoad mb env => exact execRouteLoad_reign s mb env
  | linkCtlDisable mb => exact execLinkCtlDisable_reign s mb
  | linkCtlEnable mb => exact execLinkCtlEnable_reign s mb
  | linkCtlRetrain mb => exact execLinkCtlRetrain_reign s mb
  | linkBert mb peerTests => exact execLinkBert_reign s mb peerTests
  | timeQuery mb => exact execTimeQuery_reign s mb
  | schedAdd mb => exact execSchedAdd_reign s mb
  | schedCancel mb => exact execSchedCancel_reign s mb
  | powerSet mb => exact execPowerSet_reign s mb
  | powerQuery mb => exact execPowerQuery_reign s mb
  | reqOpen mb => exact execReqOpen_reign s mb
  | reqClose mb => exact execReqClose_reign s mb
  | ledgerRead mb => exact execLedgerRead_reign s mb
  | methodSet mb flash => exact execMethodSet_reign s mb flash
  | configStop mb => exact execConfigStop_reign s mb
  | configWrite mb => exact execConfigWrite_reign s mb
  | configStart mb flash => exact execConfigStart_reign s mb flash
  | settingsWrite mb flash => exact execSettingsWrite_reign s mb flash
  | digestQuery mb => exact execDigestQuery_reign s mb
  | fwStage mb flash => exact execFwStage_reign s mb flash
  | fwActivate mb => exact execFwActivate_reign s mb
  | fwQuery mb => exact execFwQuery_reign s mb
  | traceCtlWindow mb => exact execTraceCtlWindow_reign s mb
  | traceCtlCloseAll mb => exact execTraceCtlCloseAll_reign s mb
  | traceCtlRingSize mb flash => exact execTraceCtlRingSize_reign s mb flash
  | tapArm mb => exact execTapArm_reign s mb
  | tapRead mb => exact execTapRead_reign s mb
  | counterRead mb => exact execCounterRead_reign s mb
  | inject mb => exact execInject_reign s mb
  | resetPart mb => exact execResetPart_reign s mb
  | resetCluster mb => exact execResetCluster_reign s mb
  | resetTile mb => exact execResetTile_reign s mb
  | resetModule mb => exact execResetModule_reign s mb
  | crownQuery mb => exact execCrownQuery_reign s mb
  | modResetN => exact execModResetN_reign s
  | bridgeRetrainDone half ok => exact execBridgeRetrainDone_reign s half ok
  | heartbeatSend half => exact execHeartbeatSend_reign s half
  | heartbeatArrive src path2 atSup hb => exact execHeartbeatArrive_reign s src path2 atSup hb
  | pathSilent rcv path2 => exact execPathSilent_reign s rcv path2
  | livenessWrite half => exact execLivenessWrite_reign s half
  | livenessExpire half => exact execLivenessExpire_reign s half
  | holderFailedVoteRequest => exact execHolderFailedVoteRequest_reign s
  | floorMessage stage claim trusted => exact execFloorMessage_reign s stage claim trusted
  | floorBroadcast => exact execFloorBroadcast_reign s
  | stageLapse stage => exact execStageLapse_reign s stage
  | stageWrite half stage claim enable => exact execStageWrite_reign s half stage claim enable
  | takeoverRestore answers => exact execTakeoverRestore_reign s answers
  | takeoverComplete => exact execTakeoverComplete_reign s
  | takeoverTimeout => exact execTakeoverTimeout_reign s
  | inconclusiveTimeout => exact execInconclusiveTimeout_reign s
  | checkpointSnapshot => exact execCheckpointSnapshot_reign s
  | standbyCommitCheck ok => exact execStandbyCommitCheck_reign s ok
  | resyncStart => exact execResyncStart_reign s
  | supervisorFailure => exact execSupervisorFailure_reign s
  | shutdownRailsOff => exact execShutdownRailsOff_reign s
  | voltageRestart => exact execVoltageRestart_reign s
  | controlActivationResume => exact execControlActivationResume_reign s
  | activationTimeout => exact execActivationTimeout_reign s
  | voteRequestRetry => exact execVoteRequestRetry_reign s
  | standbyReadyLapse => exact execStandbyReadyLapse_reign s
  | recipeLoadDone mb env => exact execRecipeLoadDone_reign s mb env
  | fwStageDone mb area slot dir => exact execFwStageDone_reign s mb area slot dir
  | controlCoreCacheError half single ue => exact execControlCoreCacheError_reign s half single ue
  | _ => exact (exec_runs _ s).reignKept rfl

theorem exec_grantsOnce {c : Instr} (h : grants c = true) : GrantsOnce s (exec c s) := by
  cases c with
  | crownStartGrant verified => exact execCrownStartGrant_grants s verified
  | crownStartLiveTimeout verified => exact execCrownStartLiveTimeout_grants s verified
  | voteTally silent verified => exact execVoteTally_grants s silent verified
  | voteRepeat silent verified => exact execVoteRepeat_grants s silent verified
  | _ => cases h

end Reigns

/-- Settles O10: the four commands that grant do so at most once, with the next claim number; every other command but the
supervisor's start and the loss of its input keeps the reign. -/
theorem theCrownChangesByGrant : Obligations.TheCrownChangesByGrant := by
  intro c s t ht hmoved
  have hnot : ¬ SameReign s t := fun h => hmoved.elim (· h.claim) (· h.holder)
  cases hgrant : grants c with
  | true =>
    obtain hsame | ⟨h, hgranted⟩ := exec_grantsOnce s hgrant t ht
    · exact absurd hsame hnot
    · exact .inl ⟨rfl, congrArg Prod.fst hgranted⟩
  | false =>
    by_contra hother
    push Not at hother
    obtain ⟨-, hin, haux⟩ := hother
    exact hnot (exec_reignKept s c hgrant (by simpa using hin) haux t ht)

/-! # Claim-gated output stages (O54) -/

section Stages

variable {s t u : State}

/-- A floor message with claim number `n` at `clk` (R420): FLOOR rises, or stays. -/
def hearFloor (n clk : Nat) (x : Stage) : Stage := { x with floor := max x.floor n, seenAt := clk, lapsed := false }

theorem stageOf_modStage (i j : Nat) (f : Stage → Stage) (s : State) :
    stageOf (modStage i f s) j = if i = j then f (stageOf s i) else stageOf s j := FMap.get_mod ..

@[simp] theorem stageOf_modStage_self (i : Nat) (f : Stage → Stage) (s : State) :
    stageOf (modStage i f s) i = f (stageOf s i) := FMap.get_mod_self ..

/-- Each stage of the list changes once, by the same function. -/
theorem stageOf_foldl {P : State → Prop} {f : State → Nat → State} {g : Stage → Stage} (hkeep : ∀ u i, P u → P (f u i))
    (hstage : ∀ u i j, P u → stageOf (f u i) j = if i = j then g (stageOf u i) else stageOf u j) {l : List Nat}
    (hl : l.Nodup) (hs : P s) (j : Nat) : stageOf (l.foldl f s) j = if j ∈ l then g (stageOf s j) else stageOf s j := by
  induction l generalizing s with
  | nil => rfl
  | cons i r ih =>
    obtain ⟨hi, hr⟩ := List.nodup_cons.1 hl
    rw [List.foldl_cons, ih hr (hkeep s i hs), hstage s i j hs]
    by_cases hij : i = j
    · subst hij
      simp [hi]
    · simp [hij, Ne.symm hij]

/-- What a floor broadcast does to a stage: all six stages hear the claim number in force. -/
theorem stageOf_raiseFloors (s : State) {i : Nat} (hi : i < 6) :
    stageOf (raiseFloors s) i = hearFloor s.crown.claim s.time.clk (stageOf s i) := by
  have hall := stageOf_foldl (P := fun u => u.crown.claim = s.crown.claim ∧ u.time.clk = s.time.clk)
    (f := fun u k => modStage k (hearFloor u.crown.claim u.time.clk) u)
    (g := hearFloor s.crown.claim s.time.clk) (fun _ _ h => h)
    (fun u k j ⟨hclaim, hclk⟩ => by simp only [stageOf_modStage, hclaim, hclk]) (List.nodup_range (n := 6)) ⟨rfl, rfl⟩ i
  exact hall.trans (if_pos (List.mem_range.2 hi))

theorem stageOf_only {ps : List Zone} (h : Only ps s t) (hp : ps.contains .crown = false) (i : Nat) :
    stageOf t i = stageOf s i := by
  simp only [stageOf, h.crown_eq hp]

theorem floorMessage_raises (s : State) (i : Fin 6) {c : Nat} (hc : c < 2 ^ 32) : ∃ t,
    exec (.floorMessage i c true) s = .next t ∧ Only [.crown] s t ∧
      stageOf t i.val = hearFloor c s.time.clk (stageOf s i.val) := by
  have hheard : exec (.floorMessage i c true) s = .next (modStage i.val (hearFloor (c % 2 ^ 32) s.time.clk) s) := rfl
  rw [Nat.mod_eq_of_lt hc] at hheard
  exact ⟨_, hheard, modStage_only _ _ _, stageOf_modStage_self _ _ _⟩

theorem stageLapse_lapses (s : State) (i : Fin 6) : ∃ t, exec (.stageLapse i) s = .next t ∧ Only [.time, .crown] s t ∧
    stageOf t i.val = { stageOf s i.val with lapsed := true } := by
  refine ⟨_, rfl, .after (modStage_only _ _ _) (waitUntil_only _ _), ?_⟩
  rw [stageOf_modStage_self, stageOf_only (waitUntil_only _ _) rfl]

theorem putCxlA_only (v : Cxl) (s : State) : Only [.cxlA] s { s with cxlA := v } := by
  intro p hp; cases p <;> simp_all [Zone.same]

theorem judge_accepts {i c : Nat} (hlapsed : (stageOf s i).lapsed = false) (hfloor : (stageOf s i).floor = c) :
    judge s i c = .accepted := by
  subst hfloor
  simp [judge, hlapsed]

theorem judge_rejects {i c : Nat} (h : (stageOf s i).lapsed = true ∨ c ≠ (stageOf s i).floor) :
    judge s i c ≠ .accepted := by
  unfold judge
  grind

theorem stageWrite_enables (s : State) (h : Half) {c : Nat} (hlapsed : (stageOf s 1).lapsed = false)
    (hfloor : (stageOf s 1).floor = c) :
    exec (.stageWrite h 1 c true) s = .next (modCxl .a (fun x => { x with enabled := true }) s) := by
  change (.next (writeStage h 1 c true s) : Ans) = _
  simp only [writeStage, judge_accepts hlapsed hfloor]
  rfl

/-- From `s` to `t` the stages and the ports stay, and no status bit clears. -/
structure StagesKept (s t : State) : Prop where
  stages : t.crown.stages = s.crown.stages
  cxlA : t.cxlA = s.cxlA
  cxlB : t.cxlB = s.cxlB
  sts : ∀ b i, (win s b).sts.getLsbD i = true → (win t b).sts.getLsbD i = true

theorem StagesKept.refl (s : State) : StagesKept s s := ⟨rfl, rfl, rfl, fun _ _ h => h⟩

theorem StagesKept.after (k : StagesKept t u) (h : StagesKept s t) : StagesKept s u :=
  ⟨k.stages.trans h.stages, k.cxlA.trans h.cxlA, k.cxlB.trans h.cxlB, fun b i hi => k.sts b i (h.sts b i hi)⟩

theorem event_stagesKept (blk bit code info : Nat) (s : State) : StagesKept s (event blk bit code info s) :=
  have hevent := event_only blk bit code info s
  ⟨congrArg Crown.stages (hevent.crown_eq rfl), hevent .cxlA (by decide), hevent .cxlB (by decide),
    fun _ _ h => event_keeps _ _ _ _ h⟩

theorem modMon_stagesKept (h : Half) (f : Monitor → Monitor) (s : State) : StagesKept s (modMon h f s) := by
  cases h with
  | a => exact ⟨rfl, rfl, rfl, fun _ _ h => h⟩
  | b => exact ⟨rfl, rfl, rfl, fun _ _ h => h⟩

theorem demote_stagesKept (h : Half) (s : State) : StagesKept s (demote h s) := by
  unfold demote
  split
  · exact .refl s
  have hfalls (f : Monitor → Monitor) : StagesKept s (event 2 11 0 0 (modMon h f s)) :=
    .after (event_stagesKept _ _ _ _ _) (modMon_stagesKept _ _ _)
  dsimp only
  split
  · exact hfalls _
  · exact .after (t := event 2 11 0 0 _) ⟨rfl, rfl, rfl, fun _ _ h => h⟩ (hfalls _)

/-- Whichever way a stage rejects a write, it counts it, and nothing after that takes the count back. -/
theorem writeStage_rejects (h : Half) {i c : Nat} (e : Bool) (hj : judge s i c ≠ .accepted) :
    StagesKept (rejectWrite i s) (writeStage h i c e s) := by
  unfold writeStage
  split
  · exact .refl _
  · exact .after (demote_stagesKept _ _) (event_stagesKept _ _ _ _ _)
  · exact event_stagesKept _ _ _ _ _
  · contradiction

theorem rejectWrite_counts (i : Nat) (s : State) : (stageOf (rejectWrite i s) i).rejects = (stageOf s i).rejects + 1 ∧
    (win (rejectWrite i s) 2).sts.getLsbD 10 = true ∧ (rejectWrite i s).cxlA = s.cxlA ∧
    (rejectWrite i s).cxlB = s.cxlB := by
  have hcounted := event_stagesKept 2 10 0 0 (modStage i (fun x => { x with rejects := x.rejects + 1 }) s)
  refine ⟨?_, event_sets 0 0 _ (by decide), hcounted.cxlA, hcounted.cxlB⟩
  have hstage : stageOf (rejectWrite i s) i = { stageOf s i with rejects := (stageOf s i).rejects + 1 } :=
    (stageOf_only (event_only _ _ _ _ _) rfl i).trans (stageOf_modStage_self _ _ _)
  rw [hstage]

end Stages

/-- Settles O54: a floor message takes the maximum, at one stage or at all six; a lapse changes one flag; a write is
judged, and a rejected one is counted before its event. -/
theorem stagesGateWrites : Obligations.StagesGateWrites := by
  intro s
  refine ⟨fun i c hc => ?_, ?_, fun i => ?_, fun h c hlapsed hfloor => ?_, fun h i c e hbad => ?_⟩
  · obtain ⟨t, hexec, hframe, hstage⟩ := floorMessage_raises s i hc
    refine ⟨t, hexec, hframe, ?_⟩
    change (stageOf t i.val).floor = _ ∧ (stageOf t i.val).lapsed = _ ∧ (stageOf t i.val).seenAt = _
    rw [hstage]
    exact ⟨rfl, rfl, rfl⟩
  · refine ⟨_, rfl, raiseFloors_only s, (raiseFloors_reign s).claim, fun i hi => ?_⟩
    change (stageOf (raiseFloors s) i).floor = _ ∧ (stageOf (raiseFloors s) i).lapsed = _
    rw [stageOf_raiseFloors s hi]
    exact ⟨rfl, rfl⟩
  · obtain ⟨t, hexec, hframe, hstage⟩ := stageLapse_lapses s i
    refine ⟨t, hexec, hframe, ?_⟩
    change (stageOf t i.val).lapsed = _ ∧ (stageOf t i.val).floor = _
    rw [hstage]
    exact ⟨rfl, rfl⟩
  · exact ⟨_, stageWrite_enables s h hlapsed hfloor, rfl, putCxlA_only _ s⟩
  · obtain ⟨hrejects, hbit, hA, hB⟩ := rejectWrite_counts i.val s
    have hkept := writeStage_rejects h e (judge_rejects hbad)
    refine ⟨_, rfl, ?_, hkept.sts _ _ hbit, hkept.cxlA.trans hA, hkept.cxlB.trans hB⟩
    exact (congrArg (fun l => (FMap.get {} l i.val : Stage).rejects) hkept.stages).trans hrejects

/-! # Heartbeats, silent paths and liveness (O52) -/

section Monitors

variable {s t : State} {ps : List Zone}

/-! ## Reading a monitor after a change -/

theorem Only.mon_eq (h : Only ps s t) (hp : ps.contains .crown = false) (k : Half) : mon t k = mon s k := by
  simp only [mon, h.crown_eq hp]

theorem mon_modCrown {f : Crown → Crown} (k : Half) (s : State) (hA : (f s.crown).monA = s.crown.monA := by rfl)
    (hB : (f s.crown).monB = s.crown.monB := by rfl) : mon (modCrown f s) k = mon s k := by
  simp only [mon, modCrown_crown, hA, hB]

theorem waitUntil_clk (d : Nat) (hv : s.power.v52 = true) : (waitUntil d s).time.clk = max s.time.clk d := by
  rw [waitUntil, advance_clk _ hv]
  omega

/-- A refresh may change STANDBY in a monitor, and nothing else of it. -/
theorem mon_refreshStandby (k : Half) (s : State) :
    ∃ v, mon (refreshStandby s) k = { mon s k with standby := v } := by
  have hresync (f : Crown → Bool) (j : Half) : mon (modCrown (fun c => { c with resync := f c }) s) j = mon s j :=
    mon_modCrown j s
  by_cases hk : k = s.crown.holder.other
  · exact ⟨_, by rw [hk, refreshStandby, mon_modMon_self, hresync]⟩
  · have hk : k = s.crown.holder.other.other := by
      cases k <;> cases hholder : s.crown.holder <;> simp_all [Half.other]
    exact ⟨_, by rw [hk, refreshStandby, mon_modMon_other, hresync]⟩

/-! ## Heartbeats (R423, R424) -/

theorem heartbeatSend_raises {h : Half} (hrails : s.power.rails = true)
    (hsends : h ≠ s.crown.holder ∨ ((mon s h).live = true ∧ (mon s h).halted = false)) :
    exec (.heartbeatSend h) s = .next (modMon h (fun m =>
      { m with seq1 := (m.seq1 + 1) % 65536, seq2 := (m.seq2 + 1) % 65536,
               beatsFrom := some (m.beatsFrom.getD s.time.clk) }) s) := by
  have hruns : ¬ (h = s.crown.holder ∧ ((!(mon s h).live) = true ∨ (mon s h).halted = true)) := by
    rintro ⟨hholder, hfailed⟩
    obtain ⟨hlive, hhalted⟩ := hsends.resolve_left (not_not.2 hholder)
    simp [hlive, hhalted] at hfailed
  exact congrArg Host.Outcome.next ((if_neg (by simp [hrails])).trans (if_neg hruns))

/-- A valid heartbeat on a path at `clk`: the path is not silent. -/
def hearBeat (path2 : Bool) (clk : Nat) (m : Monitor) : Monitor :=
  if path2 then { m with rx2 := some clk, sil2 := false } else { m with rx1 := some clk, sil1 := false }

/-- A monitor that holds no claim number is not demoted by a heartbeat; it notes the path and the number it heard. -/
theorem heartbeatArrive_hears {src : Half} (path2 : Bool) {hb : Heartbeat} (hrails : s.power.rails = true)
    (hcrc : hb.crcOk = true) (hown : (mon s src.other).own = 0) :
    ∃ t, exec (.heartbeatArrive src path2 false hb) s = .next t ∧ Only [.crown] s t ∧ ∃ n v, mon t src.other =
      { hearBeat path2 s.time.clk (mon s src.other) with heard := n, standby := v } := by
  let heard := modMon src.other (hearBeat path2 s.time.clk) s
  let noted := if src = heard.crown.holder then modCrown (fun c =>
      { c with beatSince := true, req := if c.req = some src.other ∧ c.latch = none then none else c.req }) heard
    else modCrown (fun c => { c with standby := hb.standby % 4 }) heard
  let claimed := modMon src.other (fun m => { m with heard := hb.claim % 2 ^ 32 }) noted
  have hnoted : mon noted src.other = mon heard src.other := by
    unfold noted
    split
    · exact mon_modCrown _ _
    · exact mon_modCrown _ _
  have hclaimed : mon claimed src.other =
      { hearBeat path2 s.time.clk (mon s src.other) with heard := hb.claim % 2 ^ 32 } := by
    rw [mon_modMon_self, hnoted, mon_modMon_self]
  have hownless : (mon claimed src.other).own = 0 := by
    rw [hclaimed]
    cases path2 <;> exact hown
  have hexec : exec (.heartbeatArrive src path2 false hb) s = .next (refreshStandby claimed) :=
    congrArg Host.Outcome.next ((if_neg (by simp [hcrc, hrails])).trans ((if_neg Bool.false_ne_true).trans
      (if_neg fun h => h.1 hownless)))
  obtain ⟨v, hv⟩ := mon_refreshStandby src.other claimed
  have hframe : Only [.crown] s (refreshStandby claimed) := .sub (.after (refreshStandby_only _)
    (.after (modMon_only _ _ _) (.after (.either (modCrown_only _ _) (modCrown_only _ _)) (modMon_only _ _ _)))) rfl
  exact ⟨_, hexec, hframe, _, v, by rw [hv, hclaimed]⟩

theorem heartbeatArrive_atSup (src : Half) (path2 : Bool) {hb : Heartbeat} (hrails : s.power.rails = true)
    (hcrc : hb.crcOk = true) : exec (.heartbeatArrive src path2 true hb) s =
      .next (if src = s.crown.holder then modCrown (fun c => { c with supRx := some s.time.clk }) s
        else modCrown (fun c => { c with supStandby := hb.standby % 4 }) s) :=
  congrArg Host.Outcome.next ((if_neg (by simp [hcrc, hrails])).trans (if_pos rfl))

/-- While the second path is not silent, a silent first one is only noted. -/
theorem pathSilent_notes {h : Half} (hrails : s.power.rails = true) (hsil : (mon s h).sil2 = false) :
    ∃ t, exec (.pathSilent h false) s = .next t ∧ mon t h = { mon s h with sil1 := true } ∧
      Only [.time, .crown] s t := by
  let waited := match (mon s h).rx1 with
    | some t => waitUntil (t + 400000) s
    | none => s
  have hwaited : Only [.time] s waited := by
    unfold waited
    split
    · exact waitUntil_only _ _
    · exact .refl _ _
  let silent := modMon h (fun m => { m with sil1 := true }) waited
  have hmon : mon silent h = { mon s h with sil1 := true } := by
    rw [mon_modMon_self, hwaited.mon_eq rfl]
  have hdeaf : deaf silent h = false := by simp [deaf, hmon, hsil]
  have hexec : exec (.pathSilent h false) s = .next silent :=
    congrArg Host.Outcome.next ((if_neg (by simp [hrails])).trans (if_pos (congrArg (! ·) hdeaf)))
  exact ⟨_, hexec, hmon, .after (modMon_only _ _ _) hwaited⟩

/-! ## Liveness (R423) -/

/-- A liveness write keeps the complex live; only a crown's half whose firmware serves again does more. -/
theorem livenessWrite_lives {h : Half} (hrails : s.power.rails = true) (hhalted : (mon s h).halted = false)
    (hcp : (mon s h).cpFailed = false) : ∃ t, exec (.livenessWrite h) s = .next t ∧
      mon t h = { mon s h with lastWrite := s.time.clk, live := true, failedAt := none } ∧
      (h ≠ s.crown.holder ∨ serving s = true → Only [.crown] s t) := by
  let lives := modMon h (fun m => { m with lastWrite := s.time.clk, live := true, failedAt := none }) s
  let closed := if h = lives.crown.holder ∧ lives.crown.req = some h ∧ lives.crown.latch = none then
    modCrown (fun c => { c with req := none }) lives else lives
  have hclosed : mon closed h = mon lives h := by
    unfold closed
    split
    · exact mon_modCrown _ _
    · rfl
  have hframe : Only [.crown] s closed := .sub (.after (.when (modCrown_only _ _)) (modMon_only _ _ _)) rfl
  have hexec : exec (.livenessWrite h) s =
      .next (if serving closed = true ∧ (!serving s) = true then resumeService closed else closed) :=
    congrArg Host.Outcome.next (if_neg (by simp [hrails, hhalted, hcp]))
  refine ⟨_, hexec, ?_, fun hquiet => ?_⟩
  · rw [Only.mon_eq (.when (resumeService_only closed)) rfl, hclosed, mon_modMon_self]
  · have hstays : ¬ (serving closed = true ∧ (!serving s) = true) := by
      rintro ⟨hserves, hwas⟩
      obtain hother | hserved := hquiet
      · have hsame : closed = lives := if_neg fun hc => hother (hc.1.trans (by cases h <;> rfl))
        have hserving : serving lives = serving s := by
          cases h <;> cases hholder : s.crown.holder <;> simp_all [lives, serving, working, mon, modMon]
        simp [← hserving, ← hsame, hserves] at hwas
      · simp [hserved] at hwas
    rw [if_neg hstays]
    exact hframe

/-- The monitor of a complex that failed at `clk`. -/
def failedMon (clk : Nat) (m : Monitor) : Monitor := { m with live := false, failedAt := some clk, beatsFrom := none }

/-- Outside a takeover a failed complex ends at most a pause and its ports' service. -/
theorem complexFails_fails (h : Half) (hover : s.crown.takeover = false) :
    Only [.mbx, .crown] s (complexFails h s) ∧ mon (complexFails h s) h = failedMon s.time.clk (mon s h) := by
  unfold complexFails
  extract_lets failed
  have hframe : Only [.crown] s failed := modMon_only _ _ _
  have hmon : mon failed h = failedMon s.time.clk (mon s h) := mon_modMon_self _ _ _
  have hno : ¬ (failed.crown.takeover = true ∧ (!failed.crown.safe) = true) := by
    have : failed.crown.takeover = s.crown.takeover := by cases h <;> rfl
    simp [this, hover]
  rw [if_neg hno]
  split
  · exact ⟨.sub hframe rfl, hmon⟩
  split
  · refine ⟨.sub (.after (vector0_only _) (.after (modCrown_only _ _) (.after (endPause_only _) hframe))) rfl, ?_⟩
    rw [(vector0_only _).mon_eq rfl, mon_modCrown, ← hmon]
    simp only [mon, endPause_crown]
  · exact ⟨.sub hframe rfl, hmon⟩

theorem livenessExpire_fails {h : Half} (hlive : (mon s h).live = true) (hhalted : (mon s h).halted = false)
    (hact : s.crown.activating = none) (hv : s.power.v52 = true) (hdue : s.time.clk ≤ (mon s h).lastWrite + 200000)
    (hover : s.crown.takeover = false) : ∃ t, exec (.livenessExpire h) s = .next t ∧
      mon t h = failedMon ((mon s h).lastWrite + 200000) (mon s h) ∧ (win t (8 + h.num)).sts.getLsbD 4 = true := by
  let waited := waitUntil ((mon s h).lastWrite + 200000) s
  let told := event (8 + h.num) 4 0 0 waited
  have htold : told.crown = s.crown := Only.crown_eq (.after (event_only _ _ _ _ _) (waitUntil_only _ _)) rfl
  have hclk : told.time.clk = (mon s h).lastWrite + 200000 := by
    rw [event_time, waitUntil_clk _ hv]
    omega
  have hlim : (if s.crown.activating.isSome = true ∧ h = s.crown.holder then 30000000 else 200000) = 200000 :=
    if_neg (by simp [hact])
  have hexec : exec (.livenessExpire h) s = .next (complexFails h told) := by
    refine congrArg Host.Outcome.next ((if_neg (by simp [hlive, hhalted])).trans ?_)
    simp only [hlim]
    rfl
  obtain ⟨hframe, hmon⟩ := complexFails_fails h (htold ▸ hover : told.crown.takeover = false)
  refine ⟨_, hexec, ?_, ?_⟩
  · rw [hmon, hclk]
    simp only [mon, htold]
  · rw [hframe.win_eq (by decide)]
    exact event_sets 0 0 waited (by decide)

end Monitors

/-- Settles O52: each command changes the monitor of one half, and the conditions keep it from asking for a vote,
demoting a half or entering the safe state. -/
theorem heartbeatsAndLiveness : Obligations.HeartbeatsAndLiveness := by
  intro s h hrails
  refine ⟨fun hsends => ⟨_, heartbeatSend_raises hrails hsends, modMon_only _ _ _, ?_⟩,
    fun hb hcrc hown => ⟨?_, ?_, ?_, ?_⟩, fun hsil => ?_, fun hhalted hcp => ?_, fun hlive hhalted hact hv hdue hover => ?_⟩
  · rw [mon_modMon_self]
    exact ⟨rfl, rfl⟩
  · obtain ⟨t, hexec, hframe, n, v, hmon⟩ := heartbeatArrive_hears false hrails hcrc hown
    exact ⟨t, hexec, hframe, by rw [hmon]; rfl, by rw [hmon]; rfl⟩
  · obtain ⟨t, hexec, hframe, n, v, hmon⟩ := heartbeatArrive_hears true hrails hcrc hown
    exact ⟨t, hexec, hframe, by rw [hmon]; rfl, by rw [hmon]; rfl⟩
  · intro hholder
    rw [heartbeatArrive_atSup h false hrails hcrc, if_pos hholder]
  · intro hother
    rw [heartbeatArrive_atSup h false hrails hcrc, if_neg hother]
  · obtain ⟨t, hexec, hmon, hframe⟩ := pathSilent_notes hrails hsil
    exact ⟨t, hexec, by rw [hmon], hframe⟩
  · obtain ⟨t, hexec, hmon, hframe⟩ := livenessWrite_lives hrails hhalted hcp
    exact ⟨t, hexec, by rw [hmon], by rw [hmon], by rw [hmon], hframe⟩
  · obtain ⟨t, hexec, hmon, hbit⟩ := livenessExpire_fails hlive hhalted hact hv hdue hover
    exact ⟨t, hexec, by rw [hmon]; rfl, by rw [hmon]; rfl, hbit⟩

/-! # The vote of three ballots (O53) -/

section Votes

variable {s : State} {silent : Bool × Bool × Bool}

/-! ## Requests (R425) -/

/-- While nothing stands in its way, a request for a vote latches the ballots with it. -/
theorem askVote_opens (h : Half) (hsafe : s.crown.safe = false) (hfail : s.crown.supFail = false)
    (hover : s.crown.takeover = false) (hreq : s.crown.req = none) : askVote h s =
      modCrown (fun c => { c with req := some h, reqAt := s.time.clk, latch := some (latchNow s) }) s := by
  simp [askVote, hsafe, hfail, hover, hreq]

theorem monBallot_failed (h : (mon s s.crown.holder).live = false) :
    monBallot s s.crown.holder = ballot s.crown.holder.other := by
  simp [monBallot, h]

theorem holderFailed_asks {a : Nat} (hv : s.power.v52 = true) (hsafe : s.crown.safe = false)
    (hover : s.crown.takeover = false) (hfail : s.crown.supFail = false)
    (hfailed : (mon s s.crown.holder).failedAt = some a) (hreq : s.crown.req = none) :
    ∃ t, exec .holderFailedVoteRequest s = .next t ∧ t.crown.req = some s.crown.holder ∧
      t.crown.reqAt = max s.time.clk (a + 400000) ∧ t.crown.latch = some (latchNow t) ∧
      ((mon s s.crown.holder).live = false → monBallot t s.crown.holder = ballot s.crown.holder.other) := by
  let waited := waitUntil (a + 400000) s
  have hcrown : waited.crown = s.crown := (waitUntil_only _ s).crown_eq rfl
  let asked := modCrown (fun c =>
    { c with req := some s.crown.holder, reqAt := waited.time.clk, latch := some (latchNow waited) }) waited
  have hasks : askVote s.crown.holder waited = asked := by
    rw [← hcrown] at hsafe hover hfail hreq
    exact askVote_opens _ hsafe hfail hover hreq
  have hexec : exec .holderFailedVoteRequest s = .next asked := by
    change (.next (match (mon s s.crown.holder).failedAt with
      | none => s
      | some t => askVote s.crown.holder (waitUntil (t + 400000) s)) : Ans) = _
    rw [hfailed]
    exact congrArg Host.Outcome.next hasks
  have hholder : asked.crown.holder = s.crown.holder := by
    change waited.crown.holder = _
    rw [hcrown]
  refine ⟨_, hexec, rfl, waitUntil_clk _ hv, rfl, fun hdead => ?_⟩
  have hmon : mon asked asked.crown.holder = mon s s.crown.holder := by
    rw [hholder]
    exact (mon_modCrown _ waited).trans ((waitUntil_only _ s).mon_eq rfl _)
  rw [← hholder]
  exact monBallot_failed (hmon ▸ hdead)

/-- A second after an UNCHANGED vote the standby that still hears nothing asks again. -/
theorem voteRequestRetry_asks {a : Nat} (hv : s.power.v52 = true) (hsafe : s.crown.safe = false)
    (hover : s.crown.takeover = false) (hfail : s.crown.supFail = false) (hvoted : s.crown.votedAt = some a)
    (hdeaf : deaf s s.crown.holder.other = true) (hready : (mon s s.crown.holder.other).standby = 0)
    (hreq : s.crown.req = none) :
    ∃ t, exec .voteRequestRetry s = .next t ∧ t.crown.req = some s.crown.holder.other := by
  let waited := waitUntil (a + 100000000) s
  have hcrown : waited.crown = s.crown := (waitUntil_only _ s).crown_eq rfl
  have hclk : a + 100000000 ≤ waited.time.clk := by
    rw [waitUntil_clk _ hv]
    omega
  have hagain : mayAskAgain waited = true := by simp [mayAskAgain, hcrown, hvoted, hclk]
  have hmon (k : Half) : mon waited k = mon s k := (waitUntil_only _ s).mon_eq rfl k
  have hasks : standbyAsks waited = askVote s.crown.holder.other waited := by
    have hready' : deaf waited waited.crown.holder.other = true ∧ (mon waited waited.crown.holder.other).standby = 0 ∧
        mayAskAgain waited = true := by
      rw [hcrown]
      exact ⟨by simpa [deaf, hmon] using hdeaf, by rw [hmon, hready], hagain⟩
    exact (if_pos hready').trans (by rw [hcrown])
  have hexec : exec .voteRequestRetry s = .next (askVote s.crown.holder.other waited) := by
    change (.next (match s.crown.votedAt with
      | none => s
      | some t => if deaf s s.crown.holder.other then standbyAsks (waitUntil (t + 100000000) s) else s) : Ans) = _
    rw [hvoted]
    exact congrArg Host.Outcome.next ((if_pos hdeaf).trans hasks)
  refine ⟨_, hexec, ?_⟩
  rw [← hcrown] at hsafe hover hfail hreq
  rw [askVote_opens _ hsafe hfail hover hreq]
  rfl

/-! ## The tally (R426, R427, R441) -/

theorem ballot_other_ne (h : Half) : ballot h ≠ ballot h.other := by cases h <;> decide

/-- Three ballots cannot give both halves two. -/
theorem votesFor_exclusive (silent : Bool × Bool × Bool) (s : State) (h : Half) :
    votesFor silent s h + votesFor silent s h.other ≤ 3 := by
  have hne := ballot_other_ne h
  simp only [votesFor, ballots, List.filter_cons, List.filter_nil]
  grind

/-- The tally that ends as `voteActs` left `s`, with its record. -/
def tallied (silent : Bool × Bool × Bool) (q : Half) (s u : State) : State :=
  modCrown (fun k => { k with tallyAt := u.time.clk, last := voteRecord silent q k.claim s }) u

theorem voteActs_time (silent : Bool × Bool × Bool) (verified : List Bool) (s : State) :
    (voteActs silent verified s).time = s.time := by
  unfold voteActs
  dsimp only
  split
  · rfl
  split
  · exact (beginTakeover_only _ _ _ _).time_eq rfl
  · refine (event_time _ _ _ _ _).trans ?_
    split <;> rfl

/-- Two ballots for the holder: the request is closed, the crown stays. -/
theorem voteActs_stays (verified : List Bool) (h : 2 ≤ votesFor silent s s.crown.holder) :
    let c := (voteActs silent verified s).crown
    c.req = none ∧ c.claim = s.crown.claim ∧ c.holder = s.crown.holder := by
  rw [voteActs, if_pos h]
  exact ⟨rfl, rfl, rfl⟩

theorem beginTakeover_crown (h : Half) (latchAt : Nat) (verified : List Bool) (s : State) :
    let c := (beginTakeover h latchAt verified s).crown
    c.takeover = true ∧ c.portA = false ∧ c.portB = false := by
  have hlast (act : Prop) [Decidable act] (st : State → Start) (v : State) :
      (vector0 (if act then plEvent 9 3 { v with start := st v } else v)).crown = v.crown :=
    Only.crown_eq (.after (vector0_only _) (.when (.after (plEvent_only _ _ _) (putStart_only _ _)))) rfl
  have hbegun : (beginTakeover h latchAt verified s).crown = _ := hlast _ (fun v => { v.start with actResult := 3 }) _
  rw [hbegun]
  exact ⟨rfl, rfl, rfl⟩

/-- Two ballots for the other half: the crown is granted to it and its takeover begins. -/
theorem voteActs_moves (verified : List Bool) (h : 2 ≤ votesFor silent s s.crown.holder.other) :
    ¬ 2 ≤ votesFor silent s s.crown.holder ∧ GrantedTo s.crown.holder.other s (voteActs silent verified s) ∧
      let c := (voteActs silent verified s).crown
      c.takeover = true ∧ c.portA = false ∧ c.portB = false := by
  have hleaves : ¬ 2 ≤ votesFor silent s s.crown.holder := by
    have := votesFor_exclusive silent s s.crown.holder
    omega
  rw [voteActs, if_neg hleaves, if_pos h]
  exact ⟨hleaves, .from (beginTakeover_grants _ _ _ _) (modCrown_reign s), beginTakeover_crown _ _ _ _⟩

/-- No half has two: the request stands and the vote is INCONCLUSIVE. -/
theorem voteActs_undecided (verified : List Bool) (hstay : votesFor silent s s.crown.holder < 2)
    (hmove : votesFor silent s s.crown.holder.other < 2) :
    (voteActs silent verified s).crown.req = s.crown.req ∧ (voteActs silent verified s).crown.claim = s.crown.claim ∧
      (win (voteActs silent verified s) 2).sts.getLsbD 12 = true := by
  rw [voteActs, if_neg (by omega), if_neg (by omega)]
  have hreq (p : Prop) [Decidable p] (n : Nat) (v : State) :
      (event 2 12 0 0 (if p then modCrown (fun c => { c with reqAt := n }) v else v)).crown.req = v.crown.req := by
    rw [(event_only _ _ _ _ _).crown_eq rfl]
    split <;> rfl
  exact ⟨hreq _ _ _, (inconclusive_reign _).claim, event_sets 0 0 _ (by decide)⟩

theorem voteTally_records (verified : List Bool) {q : Half} (hsafe : s.crown.safe = false)
    (hover : s.crown.takeover = false) (hfail : s.crown.supFail = false) (hq : s.crown.req = some q) :
    exec (.voteTally silent verified) s = .next (tallied silent q s (voteActs silent verified s)) :=
  congrArg Host.Outcome.next (runVote_tallies verified hq (by simp [hover, hsafe, hfail]))

theorem voteRepeat_waits (verified : List Bool) {q : Half} (hsafe : s.crown.safe = false) (hq : s.crown.req = some q)
    (hlast : s.crown.last.outcome = 3) : exec (.voteRepeat silent verified) s =
      .next (runVote silent verified (waitUntil (s.crown.tallyAt + 400000) s)) :=
  congrArg Host.Outcome.next (if_pos (by simp [hq, hlast, hsafe]))

theorem inconclusiveTimeout_enters {q : Half} (hsafe : s.crown.safe = false) (hover : s.crown.takeover = false)
    (hq : s.crown.req = some q) (hlast : s.crown.last.outcome = 3) (hat : s.crown.reqAt ≤ s.crown.tallyAt) :
    ∃ t, exec .inconclusiveTimeout s = .next t ∧ t.crown.safe = true := by
  have hcrown : (waitUntil (s.crown.reqAt + 20000000) s).crown = s.crown := (waitUntil_only _ s).crown_eq rfl
  obtain ⟨a, b, p, hentered⟩ := enterSafe_crown false (congrArg Crown.safe hcrown |>.trans hsafe)
  exact ⟨_, congrArg Host.Outcome.next (if_pos (by simp [hq, hlast, hat, hsafe, hover])), by rw [hentered]⟩

end Votes

/-- Settles O53: a tally acts as its three ballots say, by which half has two, and records them. -/
theorem votesDecide : Obligations.VotesDecide := by
  intro s hv hsafe hover hfail
  refine ⟨fun a => holderFailed_asks hv hsafe hover hfail, fun a => voteRequestRetry_asks hv hsafe hover hfail,
    fun q silent verified hq => ?_, fun q silent verified => voteRepeat_waits verified hsafe,
    fun q => inconclusiveTimeout_enters hsafe hover⟩
  refine ⟨_, voteTally_records verified hsafe hover hfail hq, rfl, rfl, rfl, rfl,
    congrArg Time.clk (voteActs_time silent verified s), fun hstay => ?_, fun hmove => ?_, fun hstay hmove => ?_⟩
  · exact ⟨if_pos hstay, voteActs_stays verified hstay⟩
  · obtain ⟨hleaves, hgranted, hbegun⟩ := voteActs_moves verified hmove
    exact ⟨(if_neg hleaves).trans (if_pos hmove), congrArg Prod.snd hgranted, congrArg Prod.fst hgranted, hbegun⟩
  · obtain ⟨hreq, hclaim, hbit⟩ := voteActs_undecided verified hstay hmove
    exact ⟨(if_neg hstay.not_ge).trans (if_neg hmove.not_ge), hreq.trans hq, hclaim, hbit⟩

/-! # Takeovers, checkpoints, repair and the supervisor's end (O55) -/

section Takeovers

variable {s t u : State} {ps : List Zone}

/-! ## A takeover restores (R431, R319-R321) -/

/-- What the floor messages of a takeover with claim number `n` do to a stage: a lapsed one hears none. -/
def restoreFloor (n clk : Nat) (x : Stage) : Stage :=
  if x.lapsed then x else { x with floor := max x.floor n, seenAt := clk }

theorem stageOf_floorsArrive (s : State) {i : Nat} (hi : i < 6) :
    stageOf (floorsArrive s) i = restoreFloor s.crown.claim s.time.clk (stageOf s i) := by
  have hall := stageOf_foldl (P := fun u => u.crown.claim = s.crown.claim ∧ u.time.clk = s.time.clk)
    (f := fun u k => if (stageOf u k).lapsed then u else
      modStage k (fun x => { x with floor := max x.floor u.crown.claim, seenAt := u.time.clk }) u)
    (g := restoreFloor s.crown.claim s.time.clk)
    (fun u k h => by split <;> exact h)
    (fun u k j ⟨hclaim, hclk⟩ => by
      by_cases hlapsed : (stageOf u k).lapsed = true
      · rw [if_pos hlapsed]
        split
        · next hkj => rw [← hkj, restoreFloor, if_pos hlapsed]
        · rfl
      · rw [if_neg hlapsed, stageOf_modStage, restoreFloor, if_neg hlapsed, hclaim, hclk])
    (List.nodup_range (n := 6)) ⟨rfl, rfl⟩ i
  exact hall.trans (if_pos (List.mem_range.2 hi))

theorem stageOf_modMon (h : Half) (f : Monitor → Monitor) (s : State) (i : Nat) :
    stageOf (modMon h f s) i = stageOf s i := by
  cases h <;> rfl

/-- A stage that has not risen past the claim number takes it once the floors have arrived, or has lapsed. -/
theorem restoreFloor_takes {n clk : Nat} {x : Stage} (hx : x.floor ≤ n) :
    (restoreFloor n clk x).floor = n ∨ (restoreFloor n clk x).lapsed = true := by
  by_cases hlapsed : x.lapsed = true
  · exact .inr (by rw [restoreFloor, if_pos hlapsed, hlapsed])
  · exact .inl (by rw [restoreFloor, if_neg hlapsed]; exact max_eq_right hx)

theorem rejectWrite_mon (i : Nat) (s : State) (k : Half) : mon (rejectWrite i s) k = mon s k :=
  ((event_only _ _ _ _ _).mon_eq rfl k).trans (mon_modCrown k s)

theorem floorsArrive_mon (s : State) (k : Half) : mon (floorsArrive s) k = mon s k :=
  foldl_keeps (P := fun u => mon u k = mon s k)
    (fun u i hu => by
      split
      · exact hu
      · exact (mon_modCrown k u).trans hu) _ s rfl

theorem writeStage_lapsed (h : Half) {i : Nat} (c : Nat) (e : Bool) (hlapsed : (stageOf s i).lapsed = true) :
    writeStage h i c e s = rejectWrite i s := by
  simp [writeStage, judge, hlapsed]

/-- The monitor of a half whose firmware runs from `clk` on. -/
def runningMon (clk : Nat) (m : Monitor) : Monitor :=
  { m with halted := false, live := true, failedAt := none, lastWrite := clk }

theorem takeoverRestore_runs (htake : s.crown.takeover = true) (hrest : s.crown.restored = false)
    (hfloor : (stageOf s (1 + s.crown.holder.other.num)).floor ≤ s.crown.claim) :
    ∃ t, exec (.takeoverRestore true) s = .next t ∧ t.crown.restored = true ∧
      mon t s.crown.holder = runningMon s.time.clk (mon s s.crown.holder) ∧ t.fw.stopped = [] := by
  refine ⟨_, congrArg Host.Outcome.next (if_neg (by simp [htake, hrest])), ?_⟩
  extract_lets arrived h revived answered box freed fw cleared
  refine ⟨rfl, ?_, rfl⟩
  have hcleared : Only [.fw] freed cleared := putFw_only _ _
  rw [mon_modCrown, hcleared.mon_eq rfl]
  have harrived : Only [.crown] s arrived := floorsArrive_only s
  have hh : h = s.crown.holder := (floorsArrive_reign s).holder
  have hclaim : revived.crown.claim = s.crown.claim :=
    (modMon_reign _ _ arrived).claim.trans (floorsArrive_reign s).claim
  have hrevived : mon revived s.crown.holder = runningMon s.time.clk (mon s s.crown.holder) := by
    rw [← hh, mon_modMon_self, harrived.time_eq rfl, floorsArrive_mon]
    rfl
  have hstage : stageOf revived (1 + h.other.num) =
      restoreFloor s.crown.claim s.time.clk (stageOf s (1 + s.crown.holder.other.num)) := by
    rw [stageOf_modMon, hh, stageOf_floorsArrive s (by cases s.crown.holder <;> decide)]
  rw [← hrevived]
  unfold freed
  split
  · exact (answerTakeover_only _ _).mon_eq rfl _
  next hno =>
    have hfloor' : ¬ (stageOf revived (1 + h.other.num)).floor = s.crown.claim := by
      simpa [portTakes, hclaim] using hno
    have hlapsed : (stageOf revived (1 + h.other.num)).lapsed = true := by
      rw [hstage] at hfloor' ⊢
      exact (restoreFloor_takes hfloor).resolve_left hfloor'
    have hkept (v : Mbx) : Only [.mbx, .win, .ctr, .fab] revived { answered with mbx := v } :=
      .sub (.after (putMbx_only _ _) (answerTakeover_only _ revived)) rfl
    rw [writeStage_lapsed _ _ _ (by rw [stageOf_only (hkept _) rfl, hlapsed]), rejectWrite_mon, (hkept _).mon_eq rfl]

/-! ## Service on the new port (R431, R433, R281)

Once a port has CROWN_PORT, no operation of the firmware leaves a vector held. -/

/-- A port has CROWN_PORT and no vector is held. -/
structure VectorsOut (s : State) : Prop where
  port : ∃ h, crownPort s h = true
  held : s.mbx.held = []

theorem crownPort_congr (h : t.crown = s.crown) (k : Half) : crownPort t k = crownPort s k := by
  cases k <;> simp only [crownPort, h]

namespace VectorsOut

/-- Vectors that go elsewhere leave none held. -/
theorem ofHeld (h : VectorsOut s) (k : Only ps s t) (hmbx : t.mbx.held = s.mbx.held)
    (hp : ps.contains .crown = false := by rfl) : VectorsOut t := by
  obtain ⟨port, hport⟩ := h.port
  exact ⟨⟨port, (crownPort_congr (k.crown_eq hp) port).trans hport⟩, hmbx.trans h.held⟩

theorem ofOnly (h : VectorsOut s) (k : Only ps s t) (hm : Zone.mbx ∉ ps := by decide)
    (hp : ps.contains .crown = false := by rfl) : VectorsOut t :=
  h.ofHeld k (congrArg Mbx.held (k .mbx hm)) hp

theorem fold {α : Type} {f : State → α → State} (k : ∀ u x, VectorsOut u → VectorsOut (f u x)) (l : List α)
    (h : VectorsOut s) : VectorsOut (l.foldl f s) := foldl_keeps k l s h

theorem raiseVec (h : VectorsOut s) (k : Half) (v : Nat) : VectorsOut (raiseVec k v s) := by
  unfold Machine.raiseVec
  split
  · exact h.ofHeld (putMbx_only _ _) rfl
  · exact h.ofHeld (putMbx_only _ _) rfl

theorem msix (h : VectorsOut s) (k : Half) (v : Nat) : VectorsOut (msix k v s) := by
  unfold Machine.msix
  split
  · exact h
  split
  · exact h.raiseVec _ _
  split
  · exact h.raiseVec _ _
  · next hk hother =>
    obtain ⟨port, hport⟩ := h.port
    cases k <;> cases port <;> simp_all [Half.other]

theorem setPage (h : VectorsOut s) (k : Nat) (p : Page) : VectorsOut (setPage k p s) := h.ofHeld (putMbx_only _ _) rfl

theorem setWatch (h : VectorsOut s) (k : Nat) (d : Option Nat) : VectorsOut (setWatch k d s) :=
  h.ofHeld (putMbx_only _ _) rfl

theorem setRun (h : VectorsOut s) (k : Nat) (r : Option RunCmd) : VectorsOut (setRun k r s) :=
  h.ofHeld (putMbx_only _ _) rfl

theorem answerPage (h : VectorsOut s) (k st det : Nat) (pl : List Byte) : VectorsOut (answerPage k st det pl s) := by
  have hset (p : Page) : VectorsOut (Machine.setWatch k none (Machine.setPage k p s)) := (h.setPage k p).setWatch k none
  unfold Machine.answerPage
  dsimp only
  split
  · exact (hset _).msix _ _
  · exact hset _

theorem respond (h : VectorsOut s) (k st det : Nat) (pl : List Byte) : VectorsOut (respond k st det pl s) := by
  unfold Machine.respond
  split
  · split
    · exact h.setRun _ _
    split
    · exact h.setRun _ _
    split
    · exact (h.setRun _ _).answerPage _ _ _ _
    · exact h.setRun _ _
  · exact h.answerPage _ _ _ _

theorem event (h : VectorsOut s) (blk bit code info : Nat) : VectorsOut (event blk bit code info s) := by
  unfold Machine.event Machine.eventG
  extract_lets w latched shown counted
  have hcounted : VectorsOut counted := h.ofOnly (.after (.unless (countSat_only _ _ _ _)) (setWin_only blk latched s))
  split
  · exact hcounted.msix _ _
  · exact hcounted

theorem fenceMoves (h : VectorsOut s) (cx : Nat) : VectorsOut (fenceMoves cx s) := by
  refine .fold (fun u k hu => hu.respond _ _ _ _) _ (.fold (fun u k hu => ?_) _ h)
  split
  · exact (((hu.fold (fun v m hv => hv.event _ _ _ _) _).setRun _ _).respond _ _ _ _)
  · exact hu

theorem abortSend (h : VectorsOut s) (p : Machine.Part) (i code : Nat) : VectorsOut (abortSend p i code s) := by
  unfold Machine.abortSend
  extract_lets groups
  split
  · exact h
  refine .fold (fun u half hu => .fold (fun v g hv => ?_) _ (hu.event _ _ _ _)) _ h
  extract_lets k sent
  have hsent : VectorsOut sent := hv.fold (fun _ _ hw => hw.ofOnly (sendOn_only _ _ _)) _
  exact hsent.ofOnly (modFab_only (fun f => { f with abortId := (sent.fab.abortId + 1) % 65536 }) sent)

theorem endLaunch (h : VectorsOut s) (cx id st : Nat) : VectorsOut (endLaunch cx id st s) := by
  unfold Machine.endLaunch
  split
  · exact h
  extract_lets started ended recorded queued told taken
  have hqueued : VectorsOut queued := h.ofOnly (.after (modPart_only _ _ _) (modLaunch_only _ _ _ s))
  have htold : VectorsOut told := by
    unfold told
    split
    · exact hqueued
    · exact hqueued.msix _ _
  exact .fold (fun u k hu => hu.respond _ _ _ _) _ (htold.ofOnly (takeTaps_only _ _ _))

theorem flushHeld (hport : ∃ h, crownPort s h = true) : VectorsOut (flushHeld s) :=
  .fold (fun _ _ hu => hu.msix _ _) _ ⟨hport, rfl⟩

end VectorsOut

/-- What a fence keeps of a predicate: its parts are a host event, a frame of the compute side, the moves' end and the
aborts it sends (R158, R520). -/
theorem fenceWith_keeps {P : State → Prop}
    (hframe : ∀ {u v}, Only [.work, .clusters, .tiles, .signals, .fab, .eng] u v → P u → P v)
    (hevent : ∀ cx kind tag cause u, P u → P (hostEvent cx kind tag cause u))
    (hmoves : ∀ cx u, P u → P (fenceMoves cx u)) (habort : ∀ p i code u, P u → P (abortSend p i code u))
    (byFault : Bool) (cause endSt code : Nat) (byAbort : Bool) (i : Nat) (hs : P s) :
    P (fenceWith byFault cause endSt code byAbort i s) := by
  unfold fenceWith
  split
  · exact hs
  next p _ =>
    split
    · exact hs
    extract_lets noted fenced stopped comp freed groups eng fab cleared moved
    have hcleared : Only [.work, .clusters, .tiles, .signals, .fab, .eng] noted cleared := by
      have hstopped : Only [.clusters, .tiles] fenced stopped :=
        .fold (fun _ _ => .fold (fun _ _ => modTile_only _ _ _) (modCluster_only _ _ _)) (.none _)
      have hswept (e : Eng) (f : Fab) (u : State) : Only [.eng, .fab] u { u with eng := e, fab := f } :=
        .after (modFab_only (fun _ => f) _) (modEng_only (fun _ => e) u)
      exact .sub (.after (hswept _ _ _) (.after (putSignals_only _ _) (.after hstopped (setPart_only _ _ _)))) rfl
    have hmoved : P moved := hmoves _ _ (hframe hcleared (hevent _ _ _ _ _ hs))
    split
    · exact hmoved
    · exact habort _ _ _ _ hmoved

theorem VectorsOut.fenceWith (h : VectorsOut s) (byFault : Bool) (cause endSt code : Nat) (byAbort : Bool) (i : Nat) :
    VectorsOut (fenceWith byFault cause endSt code byAbort i s) :=
  fenceWith_keeps (fun k hu => hu.ofOnly k) (fun _ _ _ _ _ hu => hu.ofOnly (hostEvent_only _ _ _ _ _))
    (fun _ _ hu => hu.fenceMoves _) (fun _ _ _ _ hu => hu.abortSend _ _ _) byFault cause endSt code byAbort i h

theorem fenceWith_bits {b n : Nat} (h : (win s b).sts.getLsbD n = true) (byFault : Bool) (cause endSt code : Nat)
    (byAbort : Bool) (i : Nat) : (win (fenceWith byFault cause endSt code byAbort i s) b).sts.getLsbD n = true :=
  fenceWith_keeps (P := fun u => (win u b).sts.getLsbD n = true) (fun k hu => by rw [k.win_eq (by decide), hu])
    (fun _ _ _ _ _ hu => by rw [(hostEvent_only _ _ _ _ _).win_eq (by decide), hu])
    (fun _ _ hu => (fenceMoves_book _ _).sts _ _ hu) (fun _ _ _ _ hu => (abortSend_book _ _ _ _).sts _ _ hu)
    byFault cause endSt code byAbort i h

/-- Firmware that serves again keeps what its parts keep. -/
theorem resumeService_keeps {P : State → Prop} (hend : ∀ cx id u, P u → P (endLaunch cx id 3 u))
    (hfence : ∀ cause endSt code byAbort i u, P u → P (fencePart cause endSt code byAbort i u))
    (hpage : ∀ k st det u, P u → P (answerPage k st det [] u))
    (hrespond : ∀ k st det pl r u, P u → P (respond k st det pl (setRun k r u))) (hs : P s) : P (resumeService s) := by
  have hflush : P (flushAnswers s) := by
    refine foldl_keeps (fun u x hu => ?_) _ s hs
    split
    · split
      · exact hrespond _ _ _ _ _ _ hu
      · exact hu
    · exact hu
  have hanswer : P (answerFaulty (flushAnswers s)) := by
    refine foldl_keeps (fun u k hu => ?_) _ _ hflush
    split
    · split
      · exact hpage _ _ _ _ hu
      · exact hu
    · exact hu
  have hassert : P (assertFences (answerFaulty (flushAnswers s))) := by
    refine foldl_keeps (fun u i hu => ?_) _ _ hanswer
    split
    · split
      · exact hfence _ _ _ _ _ _ hu
      · exact hu
    · exact hu
  refine foldl_keeps (fun u i hu => ?_) _ _ hassert
  split
  · split
    · exact hend _ _ _ hu
    · exact hu
  · exact hu

theorem VectorsOut.resumeService (h : VectorsOut s) : VectorsOut (resumeService s) :=
  resumeService_keeps (fun _ _ _ hu => hu.endLaunch _ _ _) (fun _ _ _ _ _ _ hu => hu.fenceWith _ _ _ _ _ _)
    (fun _ _ _ _ hu => hu.answerPage _ _ _ _) (fun _ _ _ _ _ _ hu => (hu.setRun _ _).respond _ _ _ _) h

theorem resumeService_bits {b n : Nat} (h : (win s b).sts.getLsbD n = true) :
    (win (resumeService s) b).sts.getLsbD n = true :=
  resumeService_keeps (P := fun u => (win u b).sts.getLsbD n = true)
    (fun _ _ _ hu => by rw [(endLaunch_only _ _ _ _).win_eq (by decide), hu])
    (fun _ _ _ _ _ _ hu => fenceWith_bits hu _ _ _ _ _ _)
    (fun _ _ _ _ hu => by rw [(answerPage_only _ _ _ _ _).win_eq (by decide), hu])
    (fun k st det pl r u hu => by
      rw [(respond_only _ _ _ _ _).win_eq (by decide), (setRun_only k r u).win_eq (by decide), hu]) h

/-! ## A takeover completes, or is out of time (R431, R437) -/

theorem takeoverComplete_serves (htake : s.crown.takeover = true) (hrest : s.crown.restored = true)
    (htime : s.time.clk ≤ s.crown.takeAt + 20000000) :
    ∃ t, exec .takeoverComplete s = .next t ∧ t.crown.takeover = false ∧ t.crown.portA = decide (s.crown.holder = .a) ∧
      t.crown.portB = decide (s.crown.holder = .b) ∧ t.crown.standby = 2 ∧ t.crown.lastTakeRt = s.time.sup ∧
      (win t 2).sts.getLsbD 8 = true ∧ t.mbx.held = [] := by
  refine ⟨_, congrArg Host.Outcome.next (if_neg (by simp [htake, hrest]; omega)), ?_⟩
  extract_lets began moved paired told
  have htold : told.crown = paired.crown :=
    Only.crown_eq (.after (plEvent_only _ _ _) (.after (event_only _ _ _ _ _) (vector0_only _))) rfl
  have hwatched : (resumeWatch began told).crown = paired.crown := ((resumeWatch_only _ _).crown_eq rfl).trans htold
  have hend : (resumeService (flushHeld (resumeWatch began told))).crown = paired.crown :=
    (Only.crown_eq (.after (resumeService_only _) (flushHeld_only _)) rfl).trans hwatched
  have hpaired : paired.crown.takeover = false ∧ paired.crown.portA = decide (s.crown.holder = .a) ∧
      paired.crown.portB = decide (s.crown.holder = .b) ∧ paired.crown.standby = 2 ∧
      paired.crown.lastTakeRt = s.time.sup := by
    unfold paired
    cases moved.crown.holder.other <;> exact ⟨rfl, rfl, rfl, rfl, rfl⟩
  obtain ⟨hover, hA, hB, hstandby, hlast⟩ := hpaired
  have hport : ∃ h, crownPort (resumeWatch began told) h = true := by
    refine ⟨s.crown.holder, (crownPort_congr hwatched _).trans ?_⟩
    cases h : s.crown.holder with
    | a => rw [crownPort, hA, h, decide_eq_true rfl]
    | b => rw [crownPort, hB, h, decide_eq_true rfl]
  have hbit : (win (flushHeld (resumeWatch began told)) 2).sts.getLsbD 8 = true := by
    rw [Only.win_eq (.after (flushHeld_only _) (.after (resumeWatch_only _ _) (plEvent_only _ _ _))) (by decide)]
    exact event_sets 0 0 _ (by decide)
  rw [hend]
  exact ⟨hover, hA, hB, hstandby, hlast, resumeService_bits hbit, (VectorsOut.flushHeld hport).resumeService.held⟩

theorem takeoverTimeout_enters (htake : s.crown.takeover = true) (hsafe : s.crown.safe = false) :
    ∃ t, exec .takeoverTimeout s = .next t ∧ t.crown.safe = true ∧ t.crown.takeover = false := by
  have hcrown : (waitUntil (s.crown.takeAt + 20000000) s).crown = s.crown := (waitUntil_only _ s).crown_eq rfl
  obtain ⟨a, b, p, hentered⟩ := enterSafe_crown false (congrArg Crown.safe hcrown |>.trans hsafe)
  exact ⟨_, congrArg Host.Outcome.next (if_pos htake), by rw [hentered], by rw [hentered]⟩

/-! ## Checkpoints and readiness (R429, R430) -/

theorem checkpointSnapshot_commits (hrails : s.power.rails = true) (hlive : (mon s s.crown.holder).live = true)
    (hhalted : (mon s s.crown.holder).halted = false) (hover : s.crown.takeover = false)
    (hfail : s.crown.supFail = false) :
    ∃ t, exec .checkpointSnapshot s = .next t ∧ t.crown.ckptSeq = (s.crown.ckptSeq + 1) % 2 ^ 32 ∧
      t.crown.ckptSlot = 1 - s.crown.ckptSlot ∧ t.crown.journal = 0 ∧ t.crown.ckptAt = t.time.clk ∧
      Only [.time, .crown] s t := by
  refine ⟨_, congrArg Host.Outcome.next (if_neg (by simp [hrails, hlive, hhalted, hover, hfail])), ?_⟩
  extract_lets waited
  have hwaited : Only [.time] s waited := .unless (waitUntil_only _ _)
  have hcrown : waited.crown = s.crown := hwaited.crown_eq rfl
  refine ⟨?_, ?_, rfl, rfl, .sub (.after (modCrown_only _ _) hwaited) rfl⟩
  · rw [modCrown_crown, hcrown]
  · rw [modCrown_crown, hcrown]

/-- A refresh writes the readiness of the moment to the standby's monitor. -/
theorem mon_refreshStandby_self (s : State) : mon (refreshStandby s) s.crown.holder.other =
    { mon s s.crown.holder.other with standby := standbyNow s s.crown.holder.other } := by
  rw [refreshStandby, mon_modMon_self, mon_modCrown]

/-- The last heartbeat that a monitor heard on either path. -/
def lastBeat (m : Monitor) : Option Nat :=
  match m.rx1, m.rx2 with
  | some a, some b => some (max a b)
  | some a, none => some a
  | none, b => b

/-- READY asks for a heartbeat and a commit of the last 500 ms, and for the commit's check. -/
theorem standbyNow_ready {h : Half} (hready : standbyNow s h = 0) : ∃ r, lastBeat (mon s h) = some r ∧
    s.time.clk ≤ min r s.crown.ckptAt + 50000000 ∧ (mon s h).verified = true := by
  unfold standbyNow at hready
  dsimp only at hready
  split_ifs at hready with hout hall
  simp only [Bool.and_eq_true, Bool.or_eq_true, decide_eq_true_eq] at hall
  obtain ⟨⟨hheard, hcommit⟩, hverified⟩ := hall
  cases h1 : (mon s h).rx1 <;> cases h2 : (mon s h).rx2 <;> grind [lastBeat]

theorem standbyCommitCheck_verifies (ok : Bool) (hrails : s.power.rails = true) (hseq : s.crown.ckptSeq ≠ 0) :
    ∃ t, exec (.standbyCommitCheck ok) s = .next t ∧ Only [.crown] s t ∧
      (mon t s.crown.holder.other).verified = ok ∧ (ok = false → (mon t s.crown.holder.other).standby ≠ 0) := by
  let checked := modMon s.crown.holder.other (fun m => { m with verified := ok }) s
  have hexec : exec (.standbyCommitCheck ok) s = .next (refreshStandby checked) :=
    congrArg Host.Outcome.next (if_neg (by simp [hrails, hseq]))
  have hverified : (mon checked s.crown.holder.other).verified = ok := by rw [mon_modMon_self]
  have hmon := mon_refreshStandby_self checked
  rw [(modMon_reign _ _ s : SameReign s checked).holder] at hmon
  have hframe : Only [.crown] s (refreshStandby checked) :=
    .sub (.after (refreshStandby_only _) (modMon_only _ _ _)) rfl
  refine ⟨_, hexec, hframe, by rw [hmon, hverified], fun hbad h => ?_⟩
  rw [hmon] at h
  obtain ⟨r, -, -, hgood⟩ := standbyNow_ready h
  rw [hverified, hbad] at hgood
  exact Bool.false_ne_true hgood

theorem standbyReadyLapse_lapses (hv : s.power.v52 = true) (hready : (mon s s.crown.holder.other).standby = 0) :
    ∃ t, exec .standbyReadyLapse s = .next t ∧ (mon t s.crown.holder.other).standby ≠ 0 ∧ Only [.time, .crown] s t := by
  let h := s.crown.holder.other
  let waited := match lastBeat (mon s h) with
    | none => s
    | some r => waitUntil (min r s.crown.ckptAt + 50000001) s
  have hexec : exec .standbyReadyLapse s = .next (refreshStandby waited) := by
    refine congrArg Host.Outcome.next ((if_neg (not_not.2 hready)).trans ?_)
    change (match lastBeat (mon s h) with
      | none => refreshStandby s
      | some r => refreshStandby (waitUntil (min r s.crown.ckptAt + 50000001) s)) = _
    unfold waited
    cases lastBeat (mon s h) with
    | none => rfl
    | some r => rfl
  have hwaited : Only [.time] s waited := by
    unfold waited
    split
    · exact .refl _ _
    · exact waitUntil_only _ _
  have hcrown : waited.crown = s.crown := hwaited.crown_eq rfl
  have hmon := mon_refreshStandby_self waited
  rw [hcrown] at hmon
  refine ⟨_, hexec, fun hstill => ?_, .sub (.after (refreshStandby_only _) hwaited) rfl⟩
  rw [hmon] at hstill
  obtain ⟨r, hlast, hclk, -⟩ := standbyNow_ready hstill
  rw [hwaited.mon_eq rfl] at hlast
  have hpast : min r s.crown.ckptAt + 50000001 ≤ waited.time.clk := by
    simp only [waited, h, hlast, waitUntil_clk _ hv]
    exact le_max_right _ _
  rw [hcrown] at hclk
  omega

/-! ## Repair (R435) -/

theorem resyncStart_starts {a : Nat} (hv : s.power.v52 = true)
    (hbeats : (mon s s.crown.holder.other).beatsFrom = some a) (hserves : serving s = true)
    (hresync : s.crown.resync = false) (hstandby : (mon s s.crown.holder.other).standby = 2)
    (hfirst : s.crown.resyncAt = none) (hdeaf : deaf s s.crown.holder = false) :
    ∃ t, exec .resyncStart s = .next t ∧ t.crown.resync = true ∧
      t.crown.resyncAt = some (max s.time.clk (a + 10000000)) ∧ (mon t s.crown.holder.other).halted = true ∧
      Only [.time, .crown] s t := by
  let waited := waitUntil (a + 10000000) s
  let halted := modMon s.crown.holder.other (fun m =>
    { m with halted := true, live := false, demoted := false, cpFailed := false, verified := false, standby := 1,
             failedAt := none, own := 0 }) waited
  have hexec : exec .resyncStart s = .next (modCrown (fun c =>
      { c with resync := true, resyncAt := some halted.time.clk, standby := 1 }) halted) := by
    change execResyncStart s = _
    unfold execResyncStart
    simp only [hbeats, hfirst, hserves, hresync, hstandby, hdeaf]
    rfl
  have hclk : halted.time.clk = max s.time.clk (a + 10000000) := by
    rw [(modMon_only _ _ waited : Only [.crown] waited halted).time_eq rfl, waitUntil_clk _ hv]
  refine ⟨_, hexec, rfl, by rw [← hclk]; rfl, ?_, .sub (.after (modCrown_only _ _) (.after (modMon_only _ _ _)
    (waitUntil_only _ _))) rfl⟩
  rw [mon_modCrown, mon_modMon_self]

/-! ## The supervisor's end (R439) -/

theorem Only.led_eq (h : Only ps s t) (hp : ps.contains .led = false) : t.led = s.led := h .led (by simpa using hp)

theorem fenceWith_running {r : Bool} (h : s.led.running = r) (byFault : Bool) (cause endSt code : Nat) (byAbort : Bool)
    (i : Nat) : (fenceWith byFault cause endSt code byAbort i s).led.running = r :=
  fenceWith_keeps (P := fun u => u.led.running = r) (fun k hu => by rw [k.led_eq rfl, hu])
    (fun cx kind tag why u hu => by
      unfold hostEvent
      split
      · exact hu
      · exact hu)
    (fun _ _ hu => by rw [(fenceMoves_only _ _).led_eq rfl, hu])
    (fun _ _ _ _ hu => by rw [(abortSend_only _ _ _ _).led_eq rfl, hu])
    byFault cause endSt code byAbort i h

theorem fenceAll_running {r : Bool} (h : s.led.running = r) (cause endSt : Nat) :
    (fenceAll cause endSt s).led.running = r := by
  have hpart (u : State) (i : Nat) (hu : u.led.running = r) : (fencePart cause endSt 0 false i u).led.running = r :=
    fenceWith_running hu false cause endSt 0 false i
  unfold fenceAll
  exact foldl_keeps (P := fun u => u.led.running = r) hpart _ s h

theorem supervisorFailure_shuts (hv : s.power.v52 = true) (hfirst : s.crown.supFail = false) :
    ∃ t, exec .supervisorFailure s = .next t ∧ t.crown.supFail = true ∧ t.crown.req = none ∧
      t.led.running = false ∧ t.power.shutdown = some s.time.clk := by
  change ∃ t, execSupervisorFailure s = .next t ∧ _
  rw [execSupervisorFailure, if_neg (by simp [hv, hfirst])]
  extract_lets m live failed stopped fenced due told power
  have htold : Only [.mbx, .work, .clusters, .tiles, .signals, .win, .ctr, .fab, .eng, .led] failed told :=
    .sub (.after (.when (.after (noticeAll_only _ _ _ _) (.after (modFab_only _ _) (fenceAll_only _ _ _))))
      (modLed_only _ failed)) rfl
  have hcrown : told.crown = failed.crown := htold.crown_eq rfl
  have htime : told.time = s.time := htold.time_eq rfl
  have hstopped : stopped.led.running = false := rfl
  have hfenced : (fenceAll 1 4 stopped).led.running = false := fenceAll_running (r := false) hstopped 1 4
  have hisFenced : fenced = fenceAll 1 4 stopped := rfl
  have hquiet : told.led.running = false := by
    have hnoticed (f : Fab → Fab) : Only [.win, .ctr, .fab] fenced (noticeAll 0 due [4, 5, 8] (modFab f fenced)) :=
      .sub (.after (noticeAll_only _ _ _ _) (modFab_only f fenced)) rfl
    unfold told
    split
    · rw [(hnoticed _).led_eq rfl, hisFenced, hfenced]
    · exact hstopped
  exact ⟨_, rfl, congrArg Crown.supFail hcrown, congrArg Crown.req hcrown, hquiet, congrArg (fun x => some x.clk) htime⟩

end Takeovers

/-- Settles O55: a lapsed stage and one at the claim number both let the new holder run; a port with CROWN_PORT holds no
vector back; readiness asks for what has just grown too old. -/
theorem takeoversAndCheckpoints : Obligations.TakeoversAndCheckpoints := by
  refine ⟨fun s htake hsafe => ⟨fun hrest hfloor => ?_, fun hrest => takeoverComplete_serves htake hrest,
    takeoverTimeout_enters htake hsafe⟩, fun s hrails hv => ⟨fun hlive hhalted hover hfail hslot => ?_,
    fun ok => standbyCommitCheck_verifies ok hrails, standbyReadyLapse_lapses hv, fun a => resyncStart_starts hv,
    supervisorFailure_shuts hv⟩⟩
  · obtain ⟨t, hexec, hrestored, hmon, hstopped⟩ := takeoverRestore_runs htake hrest hfloor
    exact ⟨t, hexec, hrestored, by rw [hmon]; rfl, by rw [hmon]; rfl, hstopped⟩
  · obtain ⟨t, hexec, hseq, hnew, hjournal, hat, hframe⟩ := checkpointSnapshot_commits hrails hlive hhalted hover hfail
    exact ⟨t, hexec, hseq, hnew, by omega, hjournal, hat, hframe⟩

end Sys2Proof

namespace Sys2Proof
open Machine Claims

/-! # The storage invariant (O6, O7) -/

section Storage

/-! ## Changes that keep it -/

/-- The three byte memories stay in canonical form from `s` to `t`. -/
def MemKept (s t : State) : Prop := MemOk s → MemOk t

/-- None of the zones is a byte memory. -/
def storageFree (ps : List Zone) : Bool := ps.all fun p => p != .phys && p != .hostMem && p != .tileStores

theorem MemOk.reset : MemOk State.reset := ⟨rfl, rfl, rfl⟩

variable {s t u : State} {ps : List Zone} {c : Prop} [Decidable c]

namespace MemKept

theorem refl (s : State) : MemKept s s := id

/-- One after the other, the later first. -/
theorem after (k : MemKept t u) (h : MemKept s t) : MemKept s u := k ∘ h

/-- An update that does not reach the byte memories. -/
theorem same (hphys : t.mem.phys = s.mem.phys) (hhost : t.mem.host = s.mem.host)
    (hts : t.comp.ts = s.comp.ts) : MemKept s t := by
  intro hs
  simpa only [MemOk, hphys, hhost, hts] using hs

/-- A change whose frame names no byte memory. -/
theorem frame (h : Only ps s t) (hp : storageFree ps = true) : MemKept s t := by
  have hout (p : Zone) (hno : (p != .phys && p != .hostMem && p != .tileStores) = false) : p ∉ ps := fun hmem => by
    have := List.all_eq_true.1 hp p hmem
    simp_all
  exact same (h .phys (hout _ rfl)) (h .hostMem (hout _ rfl)) (h .tileStores (hout _ rfl))

/-- What such a change adds. -/
theorem rest (k : Only ps t u) (h : MemKept s t) (hp : storageFree ps = true) : MemKept s u :=
  .after (.frame k hp) h

/-- What an update that does not reach the byte memories adds. -/
theorem upd (h : MemKept s t) (hphys : u.mem.phys = t.mem.phys) (hhost : u.mem.host = t.mem.host)
    (hts : u.comp.ts = t.comp.ts) : MemKept s u := .after (.same hphys hhost hts) h

theorem branch {a b : State} (h : MemKept s a) (k : MemKept s b) : MemKept s (if c then a else b) := by
  split
  · exact h
  · exact k

theorem when {a : State} (h : MemKept s a) : MemKept s (if c then a else s) := .branch h (.refl s)

theorem fold {α : Type} {f : State → α → State} (k : ∀ s x, MemKept s (f s x)) (l : List α) (s : State) :
    MemKept s (l.foldl f s) :=
  foldl_keeps (P := MemKept s) (fun u x hu => .after (k u x) hu) l s (.refl s)

/-- The state of a pair. -/
theorem ofFst {α : Type} {e : State × α} {q : α} (h : e = (t, q)) (k : MemKept s e.1) : MemKept s t := by
  subst h
  exact k

end MemKept

theorem MemKept.unless {a : State} (h : MemKept s a) : MemKept s (if c then s else a) := .branch (.refl s) h

/-! ## Writes and clears of the memories -/

theorem storePhys_kept (pa : Nat) (l : List Byte) (s : State) : MemKept s (storePhys pa l s) :=
  fun ⟨hphys, hrest⟩ => ⟨Memory.store_wf l pa hphys, hrest⟩

theorem storeHost_kept (a : Nat) (l : List Byte) (s : State) :
    MemKept s { s with mem := { s.mem with host := Memory.store s.mem.host a l } } :=
  fun ⟨hphys, hhost, hts⟩ => ⟨hphys, Memory.store_wf l a hhost, hts⟩

theorem storeLocal_kept (t a : Nat) (l : List Byte) (s : State) : MemKept s (storeLocal t a l s) :=
  .branch (fun ⟨hphys, hhost, hts⟩ => ⟨hphys, hhost, Memory.store_wf l _ hts⟩) (storePhys_kept _ _ _)

theorem zeroStore_kept (c : Nat) (s : State) : MemKept s (zeroStore c s) :=
  fun ⟨hphys, hrest⟩ => ⟨Memory.clear_wf _ _ hphys, hrest⟩

theorem zeroTile_kept (t : Nat) (s : State) : MemKept s (zeroTile t s) :=
  fun ⟨hphys, hhost, hts⟩ => ⟨hphys, hhost, Memory.clear_wf _ _ hts⟩

theorem zeroRuns_kept (l : List (Nat × Nat)) (s : State) : MemKept s (zeroRuns l s) :=
  fun ⟨hphys, hrest⟩ =>
    ⟨List.foldlRecOn (motive := fun m => Memory.wf m = true) l _ hphys fun _ hm x _ =>
      Memory.clear_wf x.1 x.2 hm, hrest⟩

theorem maskWrite_wf (l : List (Option Byte)) : ∀ {m : Memory} (a : Nat), Memory.wf m = true →
    Memory.wf (maskWrite a l m) = true := by
  induction l with
  | nil => exact fun _ hm => hm
  | cons b r ih =>
    intro m a hm
    cases b with
    | none => exact ih (a + 1) hm
    | some v => exact ih (a + 1) (Memory.write_wf a v hm)

theorem maskPhys_kept (pa : Nat) (l : List (Option Byte)) (s : State) :
    MemKept s { s with mem := { s.mem with phys := maskWrite pa l s.mem.phys } } :=
  fun ⟨hphys, hrest⟩ => ⟨maskWrite_wf l pa hphys, hrest⟩

/-- The loss of the rails empties every byte memory. -/
theorem railsLost_kept (s : State) : MemKept s (railsLost s) := fun _ => ⟨rfl, rfl, rfl⟩

theorem powerLost_kept (s : State) : MemKept s (powerLost s) := fun _ => ⟨rfl, rfl, rfl⟩

theorem storeRuns_kept (l : List (Nat × Nat)) : ∀ (b : List Byte) (s : State), MemKept s (storeRuns l b s) := by
  induction l with
  | nil => exact fun _ => .refl
  | cons x r ih => exact fun b s => .after (ih _ _) (storePhys_kept _ _ _)

/-! ## Writes to virtual addresses (R201, R218) -/

theorem writeLines_kept (ag : Agent) (cx : Nat) (env : MemEnv) (ls : List (Nat × Nat)) :
    ∀ (l : List Byte) (s : State), MemKept s (writeLines ag cx env ls l s).1 := by
  induction ls with
  | nil => exact fun _ => .refl
  | cons x r ih =>
    intro l s
    have hnoted : MemKept s (lineNote ag cx env true x.1 x.2 s) := .frame (lineNote_only _ _ _ _ _ _ _) rfl
    unfold writeLines
    dsimp only
    split
    · exact hnoted
    · exact .after (ih _ _) (.after (storePhys_kept _ _ _) hnoted)

theorem writeVa_kept (ag : Agent) (cx : Nat) (env : MemEnv) (va : Nat) (l : List Byte) (s : State) :
    MemKept s (writeVa ag cx env va l s).1 := writeLines_kept ag cx env _ l s

theorem putOwn_kept (ag : Agent) (pa : Nat) (l : List Byte) (s : State) : MemKept s (putOwn ag pa l s) :=
  .after (storePhys_kept _ _ _) (.frame (writesNote_only _ _ _ _) rfl)

theorem writeSide_kept (ag : Agent) (cx : Nat) (env : MemEnv) (x : Side) (l : List Byte) (s : State) :
    MemKept s (writeSide ag cx env x l s).1 := by
  have hnoted : MemKept s (lineNote ag cx env true x.va l.length s) := .frame (lineNote_only _ _ _ _ _ _ _) rfl
  unfold writeSide
  split
  · exact storeHost_kept _ _ _
  dsimp only
  split
  · exact hnoted
  · exact .after (storePhys_kept _ _ _) hnoted

theorem moveLines_kept (ag : Agent) (cx : Nat) (env : MemEnv) (ov : Bool) (f : Nat) :
    ∀ (a b : Side) (n : Nat) (s : State), MemKept s (moveLines ag cx env ov f a b n s).1 := by
  induction f with
  | zero => exact fun _ _ _ => .refl
  | succ f ih =>
    intro a b n s
    have hnoted (k : Nat) : MemKept s (sideNote ag cx env a k s) := .frame (sideNote_only _ _ _ _ _ _) rfl
    have hwritten {k : Nat} {l : List Byte} {u : State} {e : Option Fail} (h : writeSide ag cx env b l
        (if ov = true then takeFree (sideNote ag cx env a k s) else sideNote ag cx env a k s) = (u, e)) : MemKept s u :=
      .ofFst h (.after (writeSide_kept _ _ _ _ _ _) (.branch (.rest (takeFree_only _) (hnoted k) rfl) (hnoted k)))
    unfold moveLines
    split
    · exact .refl s
    dsimp only
    split
    · exact hnoted _
    split
    · exact hwritten ‹_›
    · exact .after (ih _ _ _ _) (hwritten ‹_›)

theorem moveAll_kept (ag : Agent) (cx : Nat) (env : MemEnv) (a b : Side) (n : Nat) (s : State) :
    MemKept s (moveAll ag cx env a b n s).1 := moveLines_kept ag cx env _ _ a b n s

/-! ## Resets of clusters and partitions (R519-R522, R251) -/

theorem zeroCluster_kept (c : Nat) (s : State) : MemKept s (zeroCluster c s) :=
  .after (.fold (fun _ _ => zeroTile_kept _ _) _ _) (.rest (cacheClear_only _ _) (zeroStore_kept _ _) rfl)

theorem zeroScratch_kept (p : Nat) (g : Group) (s : State) : MemKept s (zeroScratch p g s) := by
  unfold zeroScratch
  split
  · exact .unless (writeVa_kept _ _ _ _ _ _)
  · exact .refl s

theorem resetEngine_kept (p : Nat) (s : State) : MemKept s (resetEngine p s) := by
  unfold resetEngine
  refine .upd (.fold (fun u x => ?_) _ _) rfl rfl rfl
  split
  · exact .when (zeroScratch_kept _ _ _)
  · exact .refl u

theorem createPart_kept (i cx : Nat) (cs : List Nat) (cnt trig : Nat) (s : State) :
    MemKept s (createPart i cx cs cnt trig s) :=
  .rest (setPart_only _ _ _) (.after (resetEngine_kept _ _) (.fold (fun _ _ =>
    .rest (modCluster_only _ _ _) (.rest (closeWins_only _ _) (zeroCluster_kept _ _) rfl) rfl) _ _)) rfl

theorem destroyPart_kept (i : Nat) (s : State) : MemKept s (destroyPart i s) := by
  unfold destroyPart
  split
  · exact .refl s
  · exact .rest (setPart_only _ _ _) (.rest (dropTaps_only _ _) (.upd (.after (resetEngine_kept _ _)
      (.fold (fun _ _ => .rest (modCluster_only _ _ _) (zeroCluster_kept _ _) rfl) _ _)) rfl rfl rfl) rfl) rfl

/-! ## Fences released (R520) -/

theorem releaseFence_kept (i : Nat) (s : State) : MemKept s (releaseFence i s) := by
  have hcluster (u : State) (c : Nat) : MemKept u (closeWins c (zeroCluster c u)) :=
    .rest (closeWins_only _ _) (zeroCluster_kept _ _) rfl
  have hanswers (f : State → Nat → State) (hf : ∀ u k, MemKept u (f u k)) (p : RunCmd → Bool) (u : State) :
      MemKept u ((runKeys u p).foldl f u) := .fold hf _ _
  unfold releaseFence
  split
  · exact .refl s
  split
  · exact .refl s
  next =>
    extract_lets comp quiet zeroed reset ended untapped unfenced opened answered aborted destroyed closed
    have hreset : MemKept s reset := .after (resetEngine_kept _ _) (.after (.fold hcluster _ _) (.same rfl rfl rfl))
    have hended : MemKept s ended := by
      refine .after (.fold (fun u id => ?_) _ _) hreset
      split
      · exact .frame (endLaunch_only _ _ _ _) rfl
      · exact .refl u
    have hanswered : MemKept s answered := .after (hanswers _ (fun _ _ => .frame (respond_only _ _ _ _ _) rfl) _ _)
      (.after (.fold (fun _ _ => .frame (modCluster_only _ _ _) rfl) _ _)
        (.rest (modPart_only _ _ _) (.rest (dropTaps_only _ _) hended rfl) rfl))
    have haborted : MemKept s aborted := by
      refine .after (hanswers _ (fun u k => ?_) _ _) hanswered
      split
      · refine .branch (.frame (respond_only _ _ _ _ _) rfl) ?_
        split
        · exact .frame (respond_only _ _ _ _ _) rfl
        · exact .frame (respond_only _ _ _ _ _) rfl
      · exact .refl u
    exact .branch (.rest (tryClose_only _ _) (.after (hanswers _ (fun _ _ => .frame (respond_only _ _ _ _ _) rfl) _ _)
      (.after (destroyPart_kept _ _) haborted)) rfl) haborted

/-! ## The rails, the supervisor and the module reset (R485, R526, R532) -/

theorem runStarter_kept (s : State) : MemKept s (runStarter s) :=
  .rest (toRails_only _) (.after (railsLost_kept _) (.rest (modStart_only _ _) (.frame (openEpoch_only _) rfl) rfl)) rfl

theorem supervisorStart_kept (r : Retry) (s : State) : MemKept s (supervisorStart r s) := by
  unfold supervisorStart
  extract_lets noted fl cl claimed dir loaded d ok d'
  have hloaded : MemKept s loaded :=
    .rest (modStart_only _ _) (.rest (modCrown_only _ _) (.frame (flashRead_only _ _) rfl) rfl) rfl
  refine .branch (.after (runStarter_kept _) hloaded) (.branch (.after (runStarter_kept _) ?_)
    (.rest (modStart_only _ _) hloaded rfl))
  exact .rest (modStart_only _ _) (.rest (writeDir_only _ _ _) hloaded rfl) rfl

theorem moduleReset_kept (s : State) : MemKept s (moduleReset s) :=
  .rest (.after (capUpdate_only _) (.after (putStart_only _ _) (.after (toRails_only _) (.after (putPower_only _ _)
    (modCrown_only _ _))))) (.after (railsLost_kept _) (.frame (.after (takeMid_only _) (.after (putStart_only _ _)
    (.after (schedClear_only _) (.fold (fun _ _ => .after (hostEvent_only _ _ _ _ _) (hostEvent_only _ _ _ _ _))
    (.none s))))) rfl)) rfl

/-! ## Trace (R563-R571) -/

theorem ringWrite_kept (h : Half) (r : Nat) (s : State) : MemKept s (ringWrite h r s) :=
  .rest (count_only _ _ _ _) (.rest (modTr_only _ _ _) (putOwn_kept _ _ _ _) rfl) rfl

theorem traceFlow_kept (h : Half) (s : State) : MemKept s (traceFlow h s) := by
  unfold traceFlow
  exact .rest (modTr_only _ _ _) (.fold (fun _ _ => ringWrite_kept _ _ _) _ _) rfl

theorem crumb_kept (h : Half) (pcs : List Nat) (s : State) : MemKept s (crumb h pcs s) :=
  .unless (.after (traceFlow_kept _ _) (.rest (count_only _ _ _ _) (.frame (modTr_only _ _ _) rfl) rfl))

theorem tracePut_kept (h : Half) (core r : Nat) (isSync : Bool) (s : State) : MemKept s (tracePut h core r isSync s) :=
  .branch (.rest (count_only _ _ _ _) (.frame (modTr_only _ _ _) rfl) rfl)
    (.after (traceFlow_kept _ _) (.frame (modTr_only _ _ _) rfl))

theorem putSync_kept (h : Half) (core pc : Nat) (s : State) : MemKept s (putSync h core pc s) :=
  tracePut_kept h core _ true s

theorem putSyncFree_kept (h : Half) (core : Nat) (s : State) : MemKept s (putSyncFree h core s) :=
  .after (putSync_kept _ _ _ _) (.frame (takeFree_only _) rfl)

theorem dueSync_kept (h : Half) (core : Nat) (s : State) : MemKept s (dueSync h core s) :=
  .when (putSyncFree_kept _ _ _)

theorem flushBranch_kept (h : Half) (core : Nat) (s : State) : MemKept s (flushBranch h core s) :=
  .unless (.after (tracePut_kept _ _ _ _ _) (.frame (modTr_only _ _ _) rfl))

theorem putMark_kept (h : Half) (stop : Bool) (s : State) : MemKept s (putMark h stop s) :=
  .after (traceFlow_kept _ _) (.frame (modTr_only _ _ _) rfl)

theorem traceDrain_kept (h : Half) (s : State) : MemKept s (traceDrain h s) :=
  .branch (traceFlow_kept _ _) (.after (traceFlow_kept _ _) (.rest (waitHalf_only _ _ _) (traceFlow_kept _ _) rfl))

theorem stopCapture_kept (h : Half) (s : State) : MemKept s (stopCapture h s) := by
  have hcrumb (pcs : List Nat) : MemKept s (crumb h pcs (takeFree (traceDrain h s))) :=
    .after (crumb_kept _ _ _) (.rest (takeFree_only _) (traceDrain_kept _ _) rfl)
  exact .unless (.rest (modTr_only _ _ _) (.after (traceDrain_kept _ _) (.after (putMark_kept _ _ _)
    (.branch (hcrumb _) (traceDrain_kept _ _)))) rfl)

theorem stopTrace_kept (s : State) : MemKept s (stopTrace s) := by
  have hstopped : MemKept s (stopCapture .b (stopCapture .a s)) := .after (stopCapture_kept _ _) (stopCapture_kept _ _)
  unfold stopTrace
  dsimp only
  split
  · exact .rest (newRing_only _ _) hstopped rfl
  · exact hstopped

theorem startCapture_kept (h : Half) (s : State) : MemKept s (startCapture h s) := by
  have hmarked (f : Trace → Trace) : MemKept s (putMark h false (modTr h f s)) :=
    .after (putMark_kept _ _ _) (.frame (modTr_only _ _ _) rfl)
  exact .unless (.branch (hmarked _) (.after (.fold (fun _ _ => putSyncFree_kept _ _ _) _ _) (hmarked _)))

/-! ## Allocations and recipes (R200, R246) -/

theorem place_kept (cx recipe lp : Nat) (big write : Bool) (va n : Nat) (runs : List (Nat × Nat)) (s : State) :
    MemKept s (place cx recipe lp big write va n runs s) :=
  .rest (takeFree_only _) (.rest (setMaps_only _ _ _ _ _) (zeroRuns_kept _ _) rfl) rfl

theorem drawSeg_kept {cx handle kind size : Nat} {big write : Bool} {s t : State} {va : Nat}
    {runs : List (Nat × Nat)} (h : drawSeg cx handle kind size big write s = some (va, runs, t)) : MemKept s t := by
  unfold drawSeg at h
  dsimp only at h
  split at h
  · cases h
    exact place_kept _ _ _ _ _ _ _ _ _
  · cases h

theorem drawSegs_kept {cx handle : Nat} (l : List (Segment × Bool × Nat × Nat)) :
    ∀ {s t : State} {x : List (Nat × List (Nat × Nat))}, drawSegs cx handle l s = some (x, t) → MemKept s t := by
  induction l with
  | nil =>
    intro s t x h
    cases h
    exact .refl s
  | cons y r ih =>
    intro s t x h
    unfold drawSegs at h
    split at h
    · obtain ⟨⟨l, u⟩, hrest, hx⟩ := Option.map_eq_some_iff.1 h
      cases hx
      exact ih hrest
    split at h
    · cases h
    · next hseg =>
      obtain ⟨⟨l, u⟩, hrest, hx⟩ := Option.map_eq_some_iff.1 h
      cases hx
      exact .after (ih hrest) (drawSeg_kept hseg)

theorem loadBundle_kept (cx given : Nat) (env : MemEnv) (b : List Byte) (s : State) :
    MemKept s (repState (loadBundle cx given env b s)) := by
  unfold loadBundle
  split
  · exact .refl s
  dsimp only
  split
  · exact .refl s
  next hsegs =>
  split
  · exact .refl s
  next hdata =>
  split
  · exact .frame (writesNote_only _ _ _ _) rfl
  split
  · exact .refl s
  split
  · exact .refl s
  · exact .rest (modCtx_only _ _ _) (.after (.fold (fun _ _ => storeRuns_kept _ _ _) _ _)
      (.after (storeRuns_kept _ _ _) (.rest (writesNote_only _ _ _ _)
        (.after (drawSeg_kept hdata) (drawSegs_kept _ hsegs)) rfl))) rfl

/-! ## Reductions and collectives (R397-R413) -/

theorem writeRes_kept (p : Par) (w : Nat × List Nat) (s : State) : MemKept s (writeRes p w s).1 := by
  unfold writeRes
  dsimp only
  split
  · exact .refl s
  · exact writeVa_kept _ _ _ _ _ _

theorem doAct_kept (p : Par) (a : Act) (s : State) : MemKept s (doAct p a s) := by
  have hwrites : MemKept s (a.wr.foldl (fun (x : State × Option Fail) w => match x.2 with
      | some _ => x
      | none => writeRes p w x.1) (s, none)).1 := by
    refine List.foldlRecOn (motive := fun (x : State × Option Fail) => MemKept s x.1) a.wr _
      (.refl s) fun x hx w _ => ?_
    split
    · exact hx
    · exact .after (writeRes_kept _ _ _) hx
  unfold doAct
  dsimp only
  split
  · exact .rest (failP_only _ _ _ _) hwrites rfl
  · exact .rest (.after (signalDone_only _ _) (.after (moved_only _ _) (.fold (fun _ _ => sendEmit_only _ _ _)
      (.fold (fun _ _ => event_only _ _ _ _ _) (modP_only _ _ _))))) hwrites rfl

theorem directGo_kept (p : Par) (f : Nat) : ∀ s : State, MemKept s (directGo p f s) := by
  induction f with
  | zero => exact .refl
  | succ f ih =>
    intro s
    have hword (n : Nat) : MemKept s (wordNote p n s) := .frame (wordNote_only _ _ _) rfl
    unfold directGo
    split
    · dsimp only
      split
      · exact .refl s
      split
      · split
        · exact .rest (failP_only _ _ _ _) (hword 8) rfl
        · exact .branch (.after (ih _) (.rest (directPut_only _ _ _ _) (hword 8) rfl)) (hword 8)
      split
      · exact .rest (failP_only _ _ _ _) (hword 0) rfl
      refine .branch (hword 0) ?_
      split
      · exact .rest (failP_only _ _ _ _) (.rest (readNote_only _ _ _ _ _ _) (hword 0) rfl) rfl
      split
      · exact .rest (failP_only _ _ _ _) (.after (.fold (fun _ _ => .frame (ownNote_only _ _ _) rfl) _ _)
          (.rest (readNote_only _ _ _ _ _ _) (hword 0) rfl)) rfl
      · exact .after (ih _) (.after (doAct_kept _ _ _) (.rest (directAdd_only _ _ _ _) (.rest (modP_only _ _ _)
          (.rest (modGroup_only _ _ _) (.after (.fold (fun _ _ => .frame (ownNote_only _ _ _) rfl) _ _)
          (.rest (readNote_only _ _ _ _ _ _) (hword 0) rfl)) rfl) rfl) rfl))
    · exact .refl s

theorem directPoke_kept (p : Par) (s : State) : MemKept s (directPoke p s) := directGo_kept p _ s

theorem pokeAll_kept (s : State) : MemKept s (pokeAll s) := by
  refine .fold (fun u c => .when ?_) _ _
  split
  · exact directPoke_kept _ _
  · exact .refl u

theorem pumpBatts_kept (p : Par) (f : Nat) : ∀ s : State, MemKept s (pumpBatts p f s) := by
  induction f with
  | zero => exact .refl
  | succ f ih =>
    intro s
    have hown (r : Nat × Nat) : MemKept s (ownNote p r s) := .frame (ownNote_only _ _ _) rfl
    unfold pumpBatts
    split
    · exact .refl s
    refine .unless ?_
    split
    split
    · exact .rest (failP_only _ _ _ _) (hown _) rfl
    · exact .after (ih _) (.after (doAct_kept _ _ _) (.rest (modP_only _ _ _) (hown _) rfl))

theorem directStart_kept (p : Par) (s : State) : MemKept s (directStart p s) := by
  have hreads : MemKept s ((startReads p).foldl (fun s r => ownNote p r s) s) :=
    .fold (fun _ _ => .frame (ownNote_only _ _ _) rfl) _ _
  unfold directStart
  dsimp only
  split
  · exact .rest (failP_only _ _ _ _) hreads rfl
  · exact .after (directPoke_kept _ _) (.after (doAct_kept _ _ _) (.rest (modP_only _ _ _) hreads rfl))

theorem collAcked_kept (k : Pkt) (s : State) : MemKept s (collAcked k s) := by
  unfold collAcked
  split
  · exact .refl s
  refine .unless ?_
  split
  · exact .refl s
  next c _ p _ =>
    have hmoved : MemKept s (moved p (modP p (fun c => { c with sent := c.sent - 1 }) s)) :=
      .rest (moved_only _ _) (.frame (modP_only _ _ _) rfl) rfl
    refine .branch (.branch ?_ ?_) hmoved
    · exact .after (directPoke_kept _ _) (.rest (.after (directAdd_only _ _ _ _)
        (.after (modP_only _ _ _) (modP_only _ _ _))) hmoved rfl)
    · exact .rest (modP_only _ _ _) hmoved rfl

theorem chunkApply_kept (p : Par) (k : Pkt) (s : State) : MemKept s (chunkApply p k s) := doAct_kept p _ s

theorem reduceApply_kept (k : Pkt) (s : State) : MemKept s (reduceApply k s) := by
  unfold reduceApply
  split
  · exact .refl s
  split
  · next c p _ _ =>
    have hmoved : MemKept s (moved p s) := .frame (moved_only _ _) rfl
    have hact (a : Act) : MemKept s (doAct p a (moved p s)) := .after (doAct_kept _ _ _) hmoved
    have hfail (a b : Nat) : MemKept s (failP p a b (moved p s)) := .rest (failP_only _ _ _ _) hmoved rfl
    extract_lets told result wide src xs i stepped col
    refine .branch (hfail _ _) (.branch (hfail _ _) ?_)
    refine .branch (.branch (.after (pumpBatts_kept _ _ _) (hact _)) hmoved) (.branch ?_ (.branch (hact _) ?_))
    · exact .branch (.rest (modP_only _ _ _) hmoved rfl)
        (.rest (sendEmit_only _ _ _) (.rest (modP_only _ _ _) hmoved rfl) rfl)
    · have hown (q : Prop) [Decidable q] (r : Nat × Nat) :
        MemKept s (if q then moved p s else ownNote p r (moved p s)) :=
        .branch hmoved (.rest (ownNote_only _ _ _) hmoved rfl)
      split
      · exact .rest (failP_only _ _ _ _) (hown _ _) rfl
      · exact .after (doAct_kept _ _ _) (hown _ _)
  · exact .refl s

theorem startColl_kept (c : Coll) (slot : Nat) (s : State) : MemKept s (startColl c slot s) := by
  unfold startColl
  split
  · exact .refl s
  extract_lets mixed down
  split
  · exact .frame (collFail_only _ _ _ _ _ _) rfl
  extract_lets picked held most told
  have htold : MemKept s told := .branch (.rest (event_only _ _ _ _ _) (.rest (setCtr_only _ _ _ _)
    (.frame (modColl_only _ _ _ _ _) rfl) rfl) rfl)
      (.rest (setCtr_only _ _ _ _) (.frame (modColl_only _ _ _ _ _) rfl) rfl)
  split
  · exact htold
  split
  · exact htold
  next p _ =>
    have hfed (c : Coll) : MemKept s ((feeders p).foldl (fun s r => sendColl p r false (rndvPkt s p c r) s) told) :=
      .after (.fold (fun _ _ => .frame (sendColl_only _ _ _ _ _) rfl) _ _) htold
    have hreads (u : State) : MemKept u ((startReads p).foldl (fun s r => ownNote p r s) u) :=
      .fold (fun _ _ => .frame (ownNote_only _ _ _) rfl) _ _
    have hgo (r : Except Nat Act) (u : State) : MemKept u (match r with
        | .ok x => doAct p x ((startReads p).foldl (fun s r => ownNote p r s) u)
        | .error e => failP p 0 e ((startReads p).foldl (fun s r => ownNote p r s) u)) := by
      cases r with
      | ok x => exact .after (doAct_kept _ _ _) (hreads u)
      | error e => exact .rest (failP_only _ _ _ _) (hreads u) rfl
    refine .branch (.after (hgo _ _) (hfed _)) ?_
    split
    · exact .after (hgo _ _) (hfed _)
    · exact .after (hgo _ _) (hfed _)
    · exact .rest (signalDone_only _ _) (.after (pumpBatts_kept _ _ _) (hfed _)) rfl
    · exact .after (directStart_kept _ _) (hfed _)

/-! ## Packets (R354-R362, R389-R393) -/

theorem freeResend_kept (r : Resend) (s : State) : MemKept s (freeResend r s) := by
  have hfreed : MemKept s (modFab (fun f => { f with resend := f.resend.filter (· ≠ r) }) s) :=
    .frame (modFab_only _ _) rfl
  have hcounted : MemKept s (if r.resends = 1 then atPort r.port 28 4 r.inj
      (modFab (fun f => { f with resend := f.resend.filter (· ≠ r) }) s)
      else modFab (fun f => { f with resend := f.resend.filter (· ≠ r) }) s) :=
    .branch (.rest (atPort_only _ _ _ _ _) hfreed rfl) hfreed
  exact .branch hcounted (.branch (.after (collAcked_kept _ _) hcounted) (.rest (modOp_only _ _ _ _) hcounted rfl))

theorem ackOne_kept (k : Pkt) (r : Resend) (s : State) : MemKept s (ackOne k r s) := by
  have hrefused (q : Prop) [Decidable q] (a b : Nat) : MemKept s (if q then ownerFail r.pkt a b s else s) :=
    .when (.frame (ownerFail_only _ _ _ _) rfl)
  exact .branch (.rest (modFab_only _ _) (hrefused _ _ _) rfl) (.branch (.rest (modFab_only _ _) (hrefused _ _ _) rfl)
    (.after (freeResend_kept _ _) (hrefused _ _ _)))

theorem applyPut_kept (pi : Nat) (p : Part) (k : Pkt) (s : State) : MemKept s (applyPut pi p k s).1 := by
  unfold applyPut
  dsimp only
  split
  · exact .frame (refusedNote_only _ _ _ _ _) rfl
  · exact .branch (.rest (counterCycle_only _ _ _ _ _ _) (writeVa_kept _ _ _ _ _ _) rfl) (writeVa_kept _ _ _ _ _ _)

theorem applyAtomic_kept (env : MemEnv) (pi : Nat) (p : Part) (k : Pkt) (s : State) :
    MemKept s (applyAtomic env pi p k s).1 := by
  have hread (ag : Agent) (cx : Nat) (env : MemEnv) (va n : Nat) : MemKept s (readNote ag cx env va n s) :=
    .frame (readNote_only _ _ _ _ _ _) rfl
  unfold applyAtomic
  dsimp only
  split
  · exact hread _ _ _ _ _
  split
  · exact .rest (refusedNote_only _ _ _ _ _) (hread _ _ _ _ _) rfl
  · exact .branch (.rest (sendOwn_only _ _) (.after (writeVa_kept _ _ _ _ _ _) (hread _ _ _ _ _)) rfl)
      (.after (writeVa_kept _ _ _ _ _ _) (hread _ _ _ _ _))

theorem applyResp_kept (pi : Nat) (k : Pkt) (s : State) : MemKept s (applyResp pi k s) := by
  unfold applyResp
  split
  · refine .unless ?_
    dsimp only
    split
    · exact .rest (opFail_only _ _ _ _ _) (writeVa_kept _ _ _ _ _ _) rfl
    · exact .rest (modOp_only _ _ _ _) (writeVa_kept _ _ _ _ _ _) rfl
  · exact .refl s

theorem applyPkt_kept (env : MemEnv) (k : Pkt) (s : State) : MemKept s (applyPkt env k s).1 := by
  unfold applyPkt
  split
  · exact .refl s
  next pi p _ =>
    extract_lets counted touched
    have htouched : MemKept s touched :=
      .branch (.rest (collTouched_only _ _) (.frame (count_only _ _ _ _) rfl) rfl) (.frame (count_only _ _ _ _) rfl)
    clear_value touched
    split
    · split
      · exact .after (chunkApply_kept _ _ _) htouched
      · exact .after (pokeAll_kept _) (.after (applyPut_kept _ _ _ _) htouched)
    · exact .rest (applyGet_only _ _ _ _ _) htouched rfl
    · exact .after (applyResp_kept _ _ _) htouched
    · exact .after (pokeAll_kept _) (.after (applyAtomic_kept _ _ _ _ _) htouched)
    · exact .after (applyResp_kept _ _ _) htouched
    · exact .after (reduceApply_kept _ _) htouched
    · exact .rest (applyRndv_only _ _) htouched rfl
    · exact .rest (counterCycle_only _ _ _ _ _ _) htouched rfl
    · exact htouched

theorem runFlow_kept (env : MemEnv) (k : Pkt) (n : Nat) : ∀ s : State, MemKept s (runFlow env k n s) := by
  induction n with
  | zero => exact .refl
  | succ n ih =>
    intro s
    unfold runFlow
    dsimp only
    split
    · exact .frame (setFlow_only _ _ _) rfl
    refine .unless (.branch (.frame (issueSnoops_only _ _) rfl) (.after (ih _) ?_))
    split
    · exact .rest (sendRefusal_only _ _ _) (.after (applyPkt_kept _ _ _) (.frame (setFlow_only _ _ _) rfl)) rfl
    · exact .branch (.rest (sendAck_only _ _) (.after (applyPkt_kept _ _ _) (.frame (setFlow_only _ _ _) rfl)) rfl)
        (.after (applyPkt_kept _ _ _) (.frame (setFlow_only _ _ _) rfl))

theorem arrive_kept (op p : Nat) (k : Pkt) (env : MemEnv) (s : State) : MemKept s (arrive op p k env s) := by
  refine .unless (.branch (.frame (.after (portEvent_only _ _ _) (count_only _ _ _ _)) rfl)
    (.branch (.frame (sendAck_only _ _) rfl) (.branch (.branch (runFlow_kept _ _ _ _)
    (.after (runFlow_kept _ _ _ _) (.frame (setFlow_only _ _ _) rfl))) (.branch ?_ ?_))))
  · exact .rest (sendBusy_only _ _) (.frame (count_only _ _ _ _) rfl) rfl
  · exact .frame (count_only _ _ _ _) rfl

theorem wakeEngines_kept (s : State) : MemKept s (wakeEngines s) := by
  refine .after (pokeAll_kept _) (.after (.fold (fun u f => ?_) _ _) (.frame (.after (fireAll_only _ _ _)
    (fireAll_only _ _ _)) rfl))
  split
  · exact runFlow_kept _ _ _ _
  · exact .refl u

theorem bridgeOpens_kept (s : State) : MemKept s (bridgeOpens s) :=
  .after (wakeEngines_kept _) (.after (.fold (fun _ _ => .frame (routeOn_only _ _ _) rfl) _ _)
    (.frame (modFab_only _ _) rfl))

/-! ## Ports of the host and the stages that enable them (R215, R421, R590-R592) -/

theorem dropFilter_kept (s : State) : MemKept s (dropFilter s) :=
  .after (wakeEngines_kept _) (.upd (.refl s) rfl rfl rfl)

theorem portStops_kept (h : Half) (f : Cxl → Cxl) (s : State) : MemKept s (portStops h f s) :=
  .branch (.after (dropFilter_kept _) (.frame (modCxl_only _ _ _) rfl)) (.frame (modCxl_only _ _ _) rfl)

theorem applyStage_kept (i : Nat) (enable : Bool) (s : State) : MemKept s (applyStage i enable s) := by
  unfold applyStage
  split
  · exact .refl s
  · exact .branch (.frame (modCxl_only _ _ _) rfl) (portStops_kept _ _ _)

theorem writeStage_kept (h : Half) (i n : Nat) (enable : Bool) (s : State) : MemKept s (writeStage h i n enable s) := by
  unfold writeStage
  split
  · exact .frame (rejectWrite_only _ _) rfl
  · exact .frame (.after (demote_only _ _) (.after (event_only _ _ _ _ _) (rejectWrite_only _ _))) rfl
  · exact .frame (.after (event_only _ _ _ _ _) (rejectWrite_only _ _)) rfl
  · exact applyStage_kept _ _ _

/-! ## The units of a tile (R104-R120, R178) -/

theorem writeRows_kept (t f a stride : Nat) (rows : List (List Rnd)) (s : State) :
    MemKept s (writeRows t f a stride rows s) :=
  .rest (countArith_only _ _ _) (.fold (fun _ _ => storeLocal_kept _ _ _ _) _ _) rfl

theorem mmaRun_kept (t d : Nat) (s : State) : MemKept s (mmaRun t d s) := by
  unfold mmaRun
  split
  · exact .refl s
  next b _ =>
    extract_lets a fresh
    split
    extract_lets counted ran rows
    have hran : MemKept s ran := .rest (.after (modTile_only _ _ _) (countSat_only _ _ _ _))
      (.when (.frame (takeFree_only _) rfl)) rfl
    have hrows : MemKept s rows := .after (writeRows_kept _ _ _ _ _ _) hran
    exact .branch hran (.branch (.rest (takeDraws_only _ _ _ _) hrows rfl) hrows)

theorem lamRun_kept (t d : Nat) (s : State) : MemKept s (lamRun t d s) := by
  unfold lamRun
  extract_lets sl kb a b as bs ca cb accs f blk counted held
  have hheld : MemKept s held := .frame (.after (modTile_only _ _ _) (.after (countSat_only _ _ _ _)
    (.after (countSat_only _ _ _ _) (countSat_only _ _ _ _)))) rfl
  exact .after (writeRows_kept _ _ _ _ _ _) hheld

theorem vecRun_kept (t d : Nat) (s : State) : MemKept s (vecRun t d s) := by
  unfold vecRun
  extract_lets rows scaled plain written
  have hwritten : MemKept s written := by
    unfold written
    split
    · exact .after (writeRows_kept _ _ _ _ _ _) (writeRows_kept _ _ _ _ _ _)
    · exact .rest (countSat_only _ _ _ _) (writeRows_kept _ _ _ _ _ _) rfl
  exact .branch (.rest (takeDraws_only _ _ _ _) hwritten rfl) hwritten

theorem nlfRun_kept (t d : Nat) (s : State) : MemKept s (nlfRun t d s) := by
  unfold nlfRun
  extract_lets cols rows written
  have hwritten : MemKept s written := writeRows_kept _ _ _ _ _ _
  exact .branch (.rest (takeDraws_only _ _ _ _) hwritten rfl) hwritten

theorem redUpdate_kept (t d a : Nat) (xs : List Machine.Num) (s : State) : MemKept s (redUpdate t d a xs s) :=
  writeRows_kept _ _ _ _ _ _

theorem redAccum_kept (t d : Nat) (s : State) : MemKept s (redAccum t d s) :=
  .fold (fun _ _ => redUpdate_kept _ _ _ _ _) _ _

theorem redReduce_kept (t d : Nat) (s : State) : MemKept s (redReduce t d s) := by
  unfold redReduce
  extract_lets x l res counted written
  have hwritten : MemKept s written := .after (writeRows_kept _ _ _ _ _ _) (.frame (countSat_only _ _ _ _) rfl)
  exact .branch (.rest (takeDraws_only _ _ _ _) hwritten rfl) hwritten

theorem loadPieces_kept (t : Nat) (env : MemEnv) (l : List Piece) :
    ∀ s : State, MemKept s (loadPieces t env l s).1 := by
  induction l with
  | nil => exact .refl
  | cons x r ih =>
    intro s
    have hnoted (ag : Agent) (cx : Nat) : MemKept s (lineNote ag cx env false x.va x.n s) :=
      .frame (lineNote_only _ _ _ _ _ _ _) rfl
    unfold loadPieces
    dsimp only
    split
    · exact hnoted _ _
    · exact .after (ih _) (.after (storeLocal_kept _ _ _ _) (hnoted _ _))

theorem storePieces_kept (t : Nat) (env : MemEnv) (l : List Piece) :
    ∀ s : State, MemKept s (storePieces t env l s).1 := by
  induction l with
  | nil => exact .refl
  | cons x r ih =>
    intro s
    have hnoted (ag : Agent) (cx : Nat) : MemKept s (lineNote ag cx env true x.va x.n s) :=
      .frame (lineNote_only _ _ _ _ _ _ _) rfl
    unfold storePieces
    dsimp only
    split
    · exact hnoted _ _
    · exact .after (ih _) (.after (storePhys_kept _ _ _) (hnoted _ _))

theorem tapCopy_kept (t d : Nat) (env : MemEnv) (k : Nat) (y : Tap) (s : State) : MemKept s (tapCopy t d env k y s) :=
  .branch (.frame (setTap_only _ _ _) rfl) (.rest (setTap_only _ _ _)
    (.branch (.frame (writesNote_only _ _ _ _) rfl) (putOwn_kept _ _ _ _)) rfl)

end Storage

/-! ## The skeletons of the commands -/

section StorageCommands

/-- Whatever next state `o` answers, the storage invariant is kept in it. -/
def MemKeptBy (s : State) (o : Ans) : Prop := ∀ t, o = .next t → MemKept s t

variable {s : State} {ps : List Zone} {c : Prop} [Decidable c]

theorem MemKeptBy.next {t : State} (h : MemKept s t) : MemKeptBy s (.next t) := by
  intro u hu
  cases hu
  exact h

theorem Runs.memKept {o : Ans} (h : Runs ps s o) (hp : storageFree ps = true) : MemKeptBy s o := by
  obtain ⟨t, rfl, ht⟩ := h
  exact .next (.frame ht hp)

theorem MemKept.repBranch {a b : Rep} (h : MemKept s (repState a)) (k : MemKept s (repState b)) :
    MemKept s (repState (if c then a else b)) := by
  split
  · exact h
  · exact k

theorem MemKept.unlessBad {r : Rep} {o : Nat} (h : MemKept s (repState r)) :
    MemKept s (repState (if c then badArg o s else r)) := .repBranch (.refl s) h

theorem MemKept.unlessRefused {r : Rep} {a b : Nat} (h : MemKept s (repState r)) :
    MemKept s (repState (if c then refuse a b s else r)) := .repBranch (.refl s) h

theorem answer_kept {k op : Nat} {r : Rep} (hr : MemKept s (repState r)) : MemKept s (answer k op r) := by
  cases r with
  | ans st det l u => exact .rest (respond_only _ _ _ _ _) (.branch (.upd hr rfl rfl rfl) hr) rfl
  | stay rc u => exact .rest (setRun_only _ _ _) hr rfl

theorem runCmd_kept {op : Nat} {sel : List Byte → Bool} {body : Nat → Hdr → List Byte → RunCmd → State → Rep}
    {mb : Fin 128} (hb : ∀ k h pl rc, MemKept s (repState (body k h pl rc s))) :
    MemKept s (runCmd op sel body mb s) := by
  unfold runCmd
  split
  · exact .refl s
  refine .when ?_
  split
  · exact .frame (respond_only _ _ _ _ _) rfl
  refine .branch (.frame (respond_only _ _ _ _ _) rfl) ?_
  split
  · exact .frame (.after (demote_only _ _) (.after (event_only _ _ _ _ _) (rejectWrite_only _ _))) rfl
  · exact .unless (answer_kept (hb _ _ _ _))

theorem runOp_kept {op : Nat} {body : Nat → Hdr → List Byte → RunCmd → State → Rep} {mb : Fin 128}
    (hb : ∀ k h pl rc, MemKept s (repState (body k h pl rc s))) : MemKept s (runOp op body mb s) := runCmd_kept hb

theorem localReads_kept (t idx : Nat) (l : List (Nat × Nat)) (ts : StoreReads) (s : State) :
    MemKept s (localReads t idx l ts s).2 := .frame (localReads_only _ _ _ _ _) rfl

theorem MemKept.ofSnd {α : Type} {t : State} {e : α × State} {q : α} (h : e = (q, t)) (k : MemKept s e.2) :
    MemKept s t := by
  subst h
  exact k

theorem runUnit_kept {q op t ts check reads body} (hb : ∀ d u, MemKept u (body d u).2) :
    MemKept s (runUnit q op t ts check reads body s) := by
  unfold runUnit
  dsimp only
  split
  · exact .refl s
  refine .unless ?_
  split
  · exact .frame (tileFault_only _ _ _ _ _) rfl
  split
  · exact .ofSnd ‹_› (localReads_kept _ _ _ _ _)
  next hreads =>
    have hread := MemKept.ofSnd hreads (localReads_kept _ _ _ _ _)
    split
    · exact .rest (tileFault_only _ _ _ _ _) (.after (.ofSnd ‹_› (hb _ _)) hread) rfl
    · exact .rest (modTile_only _ _ _) (.after (.ofSnd ‹_› (hb _ _)) hread) rfl

theorem runSeq_kept {op t ts reads check ready body} (hb : ∀ d u, MemKept u (body d u)) :
    MemKept s (runSeq op t ts reads check ready body s) := by
  unfold runSeq
  dsimp only
  split
  · exact .refl s
  refine .unless ?_
  next d _ =>
    have hgo : MemKept s (if d.go = true then s
        else modTile t (fun x => { consumeWait d.bits x with hold := some { d with go := true } }) s) :=
      .unless (.frame (modTile_only _ _ _) rfl)
    split
    · exact .rest (tileFault_only _ _ _ _ _) hgo rfl
    refine .branch hgo ?_
    split
    · exact .after (.ofSnd ‹_› (localReads_kept _ _ _ _ _)) hgo
    · exact .rest (.after (finish_only _ _ _) (modTile_only _ _ _)) (.after (hb _ _)
        (.after (.ofSnd ‹_› (localReads_kept _ _ _ _ _)) hgo)) rfl

variable (s)

/-! ## Mailbox commands -/

theorem execAlloc_kept (mb) : MemKeptBy s (exec (.alloc mb) s) := by
  refine .next (runOp_kept fun _ _ _ _ => .unlessBad (.unlessBad (.unlessBad (.unlessBad (.unlessBad ?_)))))
  split
  · exact place_kept _ _ _ _ _ _ _ _ _
  · exact .refl s

theorem execPartCreate_kept (mb) : MemKeptBy s (exec (.partCreate mb) s) := by
  refine .next (runOp_kept fun _ _ _ _ => ?_)
  split
  · exact .refl s
  refine .unlessRefused ?_
  split
  · exact .unlessRefused (createPart_kept _ _ _ _ _ _)
  · exact .refl s

theorem execPartDestroy_kept (mb) : MemKeptBy s (exec (.partDestroy mb) s) := by
  refine .next (runOp_kept fun _ _ _ _ => ?_)
  dsimp only
  split
  · exact .refl s
  · exact .repBranch (.frame (resetToDestroy_only _ _ _) rfl) (.unlessRefused (.unlessRefused (destroyPart_kept _ _)))

theorem execResetTile_kept (mb) : MemKeptBy s (exec (.resetTile mb) s) := by
  refine .next (runOp_kept fun _ _ _ _ => ?_)
  dsimp only
  split
  · exact .refl s
  refine .unlessBad ?_
  split
  · exact .refl s
  · exact zeroTile_kept _ _

theorem execResetCluster_kept (mb) : MemKeptBy s (exec (.resetCluster mb) s) := by
  refine .next (runOp_kept fun _ _ _ _ => ?_)
  dsimp only
  split
  · exact .refl s
  split
  · exact .refl s
  · exact .rest (closeWins_only _ _) (zeroCluster_kept _ _) rfl

theorem execTapRead_kept (mb) : MemKeptBy s (exec (.tapRead mb) s) := by
  refine .next (runOp_kept fun _ _ _ _ => ?_)
  dsimp only
  split
  · exact .repBranch (.frame (setTap_only _ _ _) rfl) (.repBranch (.refl s) (.repBranch (.frame (setTap_only _ _ _) rfl)
      (.repBranch (.frame (physNote_only _ _ _ _) rfl) (.after (storeHost_kept _ _ _)
        (.frame (physNote_only _ _ _ _) rfl)))))
  · exact .refl s

theorem execTraceCtlCloseAll_kept (mb) : MemKeptBy s (exec (.traceCtlCloseAll mb) s) :=
  .next (runCmd_kept fun _ _ _ _ => .unlessRefused (.after (stopTrace_kept _) (.frame (schedEndAll_only _ _ _) rfl)))

theorem execRecipeLoadDone_kept (mb env) : MemKeptBy s (exec (.recipeLoadDone mb env) s) := by
  have hnoted (p : Prop) [Decidable p] (ag : Agent) (cx a n : Nat) :
      MemKept s (if p then readNote ag cx env a n s else s) := .when (.frame (readNote_only _ _ _ _ _ _) rfl)
  refine .next ?_
  split
  · exact .refl s
  dsimp only
  refine .unless (.branch (.frame (issueSnoops_only _ _) rfl) (.unless (.branch (.frame (setRun_only _ _ _) rfl)
    (.branch (answer_kept (.refl s)) ?_))))
  split
  · exact answer_kept (hnoted _ _ _ _ _)
  refine .branch (answer_kept (hnoted _ _ _ _ _)) ?_
  split
  · exact answer_kept (hnoted _ _ _ _ _)
  · exact answer_kept (.after (loadBundle_kept _ _ _ _ _) (hnoted _ _ _ _ _))

theorem execCopyDone_kept (mb env) : MemKeptBy s (exec (.copyDone mb env) s) := by
  refine .next ?_
  split
  · exact .refl s
  · exact .branch (.frame (issueSnoops_only _ _) rfl) (.unless (.rest (respond_only _ _ _ _ _)
      (moveAll_kept _ _ _ _ _ _ _) rfl))

theorem execTierMoveDescDone_kept (mb i env) : MemKeptBy s (exec (.tierMoveDescDone mb i env) s) := by
  refine .next ?_
  split
  · exact .refl s
  split
  · exact .refl s
  refine .branch (.frame (tierMoveEnd_only _ _ _) rfl) (.branch (.frame (issueSnoops_only _ _) rfl) (.unless ?_))
  dsimp only
  refine .rest (.after (tierMoveEnd_only _ _ _) (setRun_only _ _ _))
    (.branch (.rest (count_only _ _ _ _) ?_ rfl) ?_) rfl
  all_goals
    refine .rest (count_only _ _ _ _) ?_ rfl
    split
    · exact .rest (moverSignal_only _ _ _ _) (moveAll_kept _ _ _ _ _ _ _) rfl
    · exact .rest (event_only _ _ _ _ _) (moveAll_kept _ _ _ _ _ _ _) rfl

/-! ## Tiles -/

theorem execMma_kept (c n ts) : MemKeptBy s (exec (.mma c n ts) s) :=
  .next (runUnit_kept fun _ _ => mmaRun_kept _ _ _)

theorem execMmaLam_kept (c n ts) : MemKeptBy s (exec (.mmaLam c n ts) s) :=
  .next (runUnit_kept fun _ _ => lamRun_kept _ _ _)

theorem execVec_kept (c n ts) : MemKeptBy s (exec (.vec c n ts) s) :=
  .next (runUnit_kept fun _ _ => vecRun_kept _ _ _)

theorem execNlf_kept (c n ts) : MemKeptBy s (exec (.nlf c n ts) s) :=
  .next (runUnit_kept fun _ _ => nlfRun_kept _ _ _)

theorem execRed_kept (c n ts) : MemKeptBy s (exec (.red c n ts) s) :=
  .next (runUnit_kept fun _ _ => .branch (redAccum_kept _ _ _) (redReduce_kept _ _ _))

theorem execLoad_kept (c n env) : MemKeptBy s (exec (.load c n env) s) := by
  refine .next (.branch (.frame (issueSnoops_only _ _) rfl) (.unless (runUnit_kept fun d u => ?_)))
  split
  · exact .fold (fun _ _ => storeLocal_kept _ _ _ _) _ _
  · exact .rest (countMoved_only _ _ _ _) (loadPieces_kept _ _ _ _) rfl

theorem execStore_kept (c n env ts) : MemKeptBy s (exec (.store c n env ts) s) :=
  .next (.branch (.frame (issueSnoops_only _ _) rfl) (.unless (runUnit_kept fun _ _ =>
    .rest (countMoved_only _ _ _ _) (storePieces_kept _ _ _ _) rfl)))

theorem execXfer_kept (c n ts) : MemKeptBy s (exec (.xfer c n ts) s) :=
  .next (runUnit_kept fun _ _ => .rest (count_only _ _ _ _) (.after (.fold (fun _ _ => storeLocal_kept _ _ _ _) _ _)
    (.when (.frame (takeFree_only _) rfl))) rfl)

theorem execTapPoint_kept (c n ts env) : MemKeptBy s (exec (.tapPoint c n ts env) s) := by
  refine .next (runSeq_kept fun d u => .rest (modTile_only _ _ _) ?_ rfl)
  split
  · exact tapCopy_kept _ _ _ _ _ _
  · exact .refl u

theorem execTileStartTestDone_kept (c n passed flash) : MemKeptBy s (exec (.tileStartTestDone c n passed flash) s) := by
  refine .next ?_
  dsimp only
  split
  · exact .refl s
  refine .unless (.branch (.rest (.after (eventG_only _ _ _ _ _ _ _) (modCluster_only _ _ _))
    (zeroTile_kept _ _) rfl) ?_)
  have hmarked (f g : Cluster → Cluster) (a : Nat) : MemKept s (event (clBlk c) 9 0 (2 ^ 48 * n.val)
      (modCluster c f (addDefect 1 2 a flash (modCluster c g (zeroTile (64 * c.val + n.val) s))))) :=
    .rest (.after (event_only _ _ _ _ _) (.after (modCluster_only _ _ _) (.after (addDefect_only _ _ _ _ _)
      (modCluster_only _ _ _)))) (zeroTile_kept _ _) rfl
  split
  · exact .rest (failLaunch_only _ _ _ _ _ _ _) (hmarked _ _ _) rfl
  · exact hmarked _ _ _

/-! ## Memory, its window and the host's ports -/

theorem execMemWrite_kept (mc pa bytes parity rmwRead who ode ce) :
    MemKeptBy s (exec (.memWrite mc pa bytes parity rmwRead who ode ce) s) := by
  have hnoted (ag : Agent) (wr rmw : Bool) (a b : Retry) : MemKept s (memNote ag wr rmw pa ode ce a b s) :=
    .frame (memNote_only _ _ _ _ _ _ _ _ _) rfl
  exact .next (.unless (.branch (.frame (event_only _ _ _ _ _) rfl) (.unless (.branch (hnoted _ _ _ _ _)
    (.rest (tableWrite_only _ _ _) (.after (maskPhys_kept _ _ _)
      (.branch (.rest (clearBad_only _ _) (hnoted _ _ _ _ _) rfl)
      (hnoted _ _ _ _ _))) rfl)))))

theorem execWindowHostAccess_kept (port off write env) :
    MemKeptBy s (exec (.windowHostAccess port off write env) s) := by
  have hnoted (wr a b : Bool) (x y : Retry) (pa : Nat) : MemKept s (memNote (.host port) wr false pa a b x y s) :=
    .frame (memNote_only _ _ _ _ _ _ _ _ _) rfl
  refine .next (.unless (.unless ?_))
  split
  · exact .branch (hnoted _ _ _ _ _ _) (.rest (clearBad_only _ _)
      (.after (storePhys_kept _ _ _) (hnoted _ _ _ _ _ _)) rfl)
  · exact .branch (.frame (issueSnoops_only _ _) rfl) (.branch (hnoted _ _ _ _ _ _)
      (.upd (hnoted _ _ _ _ _ _) rfl rfl rfl))

theorem execBackInvalidateResponse_kept (off dirty) : MemKeptBy s (exec (.backInvalidateResponse off dirty) s) := by
  refine .next (.unless (.after (wakeEngines_kept _) (.upd ?_ rfl rfl rfl)))
  split
  · exact putOwn_kept _ _ _ _
  · exact .refl s

theorem execPerstN_kept (port) : MemKeptBy s (exec (.perstN port) s) := .next (.when (portStops_kept _ _ _))

theorem execCxlLinkDown_kept (port) : MemKeptBy s (exec (.cxlLinkDown port) s) := .next (.when (portStops_kept _ _ _))

theorem execCxlLinkRetrain_kept (port width gts) : MemKeptBy s (exec (.cxlLinkRetrain port width gts) s) := by
  have hcame : MemKept s (if (cxl s port).up then event (0x12 + port.num) 1 0 0 s else s) :=
    .when (.frame (event_only _ _ _ _ _) rfl)
  exact .next (.unless (.branch (.branch (.after (portStops_kept _ _ _) hcame) hcame)
    (.branch (.rest (.after (event_only _ _ _ _ _) (modCxl_only _ _ _)) hcame rfl)
      (.rest (modCxl_only _ _ _) hcame rfl))))

theorem execStageWrite_kept (half stage claim enable) : MemKeptBy s (exec (.stageWrite half stage claim enable) s) :=
  .next (writeStage_kept _ _ _ _ _)

theorem execTakeoverRestore_kept (answers) : MemKeptBy s (exec (.takeoverRestore answers) s) := by
  have hanswered (h : Half) (f : Monitor → Monitor) :
      MemKept s (answerTakeover h.other (modMon h f (floorsArrive s))) :=
    .frame (.after (answerTakeover_only _ _) (.after (modMon_only _ _ _) (floorsArrive_only _))) rfl
  exact .next (.unless (.rest (.after (modCrown_only _ _) (putFw_only _ _)) (.branch (hanswered _ _)
    (.after (writeStage_kept _ _ _ _ _) (.rest (putMbx_only _ _) (hanswered _ _) rfl))) rfl))

theorem execBridgeRetrainDone_kept (half ok) : MemKeptBy s (exec (.bridgeRetrainDone half ok) s) := by
  have hopened : MemKept s (bridgeOpens { s with brRetrain := false }) :=
    .after (bridgeOpens_kept _) (.frame (putBridge_only _ _) rfl)
  exact .next (.unless (.branch (.rest (eventG_only _ _ _ _ _ _ _) hopened rfl)
    (.rest (.after (enterSafe_only _ _) (eventG_only _ _ _ _ _ _ _)) hopened rfl)))

/-! ## Packets and collectives -/

theorem execAckArrive_kept (p pkt) : MemKeptBy s (exec (.ackArrive p pkt) s) :=
  .next (.unless (.branch (.frame (.after (portEvent_only _ _ _) (count_only _ _ _ _)) rfl)
    (.rest (pumpTx_only _) (.fold (fun _ _ => ackOne_kept _ _ _) _ _) rfl)))

theorem execCollectiveSlotAlloc_kept (half) : MemKeptBy s (exec (.collectiveSlotAlloc half) s) := by
  refine .next ?_
  split
  · exact .refl s
  next c _ =>
    have hwaited : MemKept s (waitHalf half c.startTick s) := .frame (waitHalf_only _ _ _) rfl
    dsimp only
    split
    · exact .rest (.fold (fun _ _ => .unless (.after (event_only _ _ _ _ _) (modColl_only _ _ _ _ _)))
        (.none _)) hwaited rfl
    · exact .branch hwaited (.branch (.rest (issueSnoops_only _ _) hwaited rfl) (.after (startColl_kept _ _ _) hwaited))

/-! ## Trace -/

theorem execTraceCrumb_kept (half pcs) : MemKeptBy s (exec (.traceCrumb half pcs) s) :=
  .next (.when (.after (crumb_kept _ _ _) (traceFlow_kept _ _)))

theorem execTraceRecord_kept (half core ev) : MemKeptBy s (exec (.traceRecord half core ev) s) := by
  refine .next (.unless ?_)
  cases ev with
  | branch taken =>
    have hmap (f : Trace → Trace) : MemKept s (modTr half f s) := .frame (modTr_only _ _ _) rfl
    exact .branch (.after (dueSync_kept _ _ _) (.after (flushBranch_kept _ _ _) (hmap _))) (hmap _)
  | indirect pc =>
    have hput (r : Nat) : MemKept s (tracePut half core r false (flushBranch half core s)) :=
      .after (tracePut_kept _ _ _ _ _) (flushBranch_kept _ _ _)
    exact .branch (.after (putSync_kept _ _ _ _) (hput _)) (hput _)
  | exception int cause pc =>
    exact .after (putSyncFree_kept _ _ _) (.after (tracePut_kept _ _ _ _ _) (flushBranch_kept _ _ _))
  | frameSync pc => exact .after (putSync_kept _ _ _ _) (flushBranch_kept _ _ _)

theorem execTraceOpen_kept : MemKeptBy s (exec .traceOpen s) := by
  refine .next ?_
  split
  · exact .after (startCapture_kept _ _) (.after (startCapture_kept _ _) (.frame (takeDispatch_only ‹_›) rfl))
  · exact .refl s

theorem execTraceClose_kept : MemKeptBy s (exec .traceClose s) := by
  refine .next ?_
  split
  · exact .after (stopTrace_kept _) (.frame (takeDispatch_only ‹_›) rfl)
  · exact .refl s

/-! ## Fences, resets and the input -/

theorem execFenceRelease_kept (part) : MemKeptBy s (exec (.fenceRelease part) s) := by
  refine .next ?_
  split
  · exact .refl s
  split
  · exact .refl s
  · exact .when (.after (releaseFence_kept _ _) (.frame (waitUntil_only _ _) rfl))

theorem execAux3v3Return_kept : MemKeptBy s (exec .aux3v3Return s) := by
  have hset : MemKept s { s with pins := { s.pins with aux3v3 := true } } := .same rfl rfl rfl
  exact .next (.branch (.after (supervisorStart_kept _ _) hset) hset)

theorem execActivateFirmware_kept : MemKeptBy s (exec .activateFirmware s) := by
  refine .next (.when (.branch (.branch (.rest (reply_only _ _ _) (.after (runStarter_kept _)
      (.frame (modMgmt_only _ _) rfl)) rfl)
    (.frame (reply_only _ _ _) rfl)) (.branch (.frame (reply_only _ _ _) rfl)
      (.branch (.frame (reply_only _ _ _) rfl) ?_))))
  have hframe := activate_only (s.start.dir.staged - 1) 2 0 s
  split
  · next h =>
    have hkept := MemKept.frame (Only.ofAns h hframe) rfl
    exact .branch (.rest (.after (reply_only _ _ _) (modMgmt_only _ _)) hkept rfl) (.rest (reply_only _ _ _) hkept rfl)
  · next h => exact .frame (Only.ofStay h hframe) rfl

theorem execShutdownRailsOff_kept : MemKeptBy s (exec .shutdownRailsOff s) := by
  refine .next ?_
  split
  · exact .refl s
  · exact .rest (.after (capUpdate_only _) (.after (putPowerStart_only _ _ _) (.after (modCrown_only _ _)
      (schedClear_only _)))) (.after (railsLost_kept _) (.frame (waitUntil_only _ _) rfl)) rfl

theorem execModResetN_kept : MemKeptBy s (exec .modResetN s) := by
  have hset : MemKept s { s with pins := { s.pins with modResetN := false } } := .same rfl rfl rfl
  exact .next (.branch hset (.branch hset (.branch (.branch (.after (moduleReset_kept _) hset) hset) (.branch hset
    (.branch (.after (moduleReset_kept _) hset) (.rest (scheduleReset_only _ _ _) hset rfl))))))

theorem execWithdrawDrainEnd_kept : MemKeptBy s (exec .withdrawDrainEnd s) := by
  refine .next ?_
  split
  · exact .refl s
  next d _ =>
    have hdrained (f : Fab → Fab) : MemKept s ((List.range 64).foldl (fun s p =>
        let n := (port s p).queue.length
        if n = 0 then s
        else setQueue p [] (count (0x80 + p) 46 n ((port s p).queue.foldl (fun s y => freeIn y.1 y.2 s) s)))
        (modFab f (waitUntil d s))) :=
      .frame (.fold (fun _ _ => .unless (.after (setQueue_only _ _ _) (.after (count_only _ _ _ _)
        (.fold (fun _ _ => freeIn_only _ _ _) (.none _))))) (.after (modFab_only _ _) (waitUntil_only _ _))) rfl
    exact .branch (.after (moduleReset_kept _) (hdrained _)) (hdrained _)

theorem execVoltageRestart_kept : MemKeptBy s (exec .voltageRestart s) := by
  refine .next ?_
  split
  · exact .when (.after (moduleReset_kept _) (.frame (waitUntil_only _ _) rfl))
  · exact .refl s

theorem execInputVoltageSample_kept (mv) : MemKeptBy s (exec (.inputVoltageSample mv) s) := by
  refine .next (.unless (.branch (powerLost_kept _) ?_))
  extract_lets keep sampled braked
  have hsampled : MemKept s sampled := .frame (modPower_only _ _) rfl
  have hbraked : MemKept s braked :=
    .branch (.rest (.after (event_only _ _ _ _ _) (.brake (modPower_only _ _))) hsampled rfl) hsampled
  exact .branch hbraked (.branch (.rest (.after (orderlyShutdown_only _) (event_only _ _ _ _ _)) hbraked rfl)
    (.branch (.rest (.after (orderlyShutdown_only _) (event_only _ _ _ _ _)) hbraked rfl) hbraked))

theorem execPowerOn52v_kept (slotId flashRead) : MemKeptBy s (exec (.powerOn52v slotId flashRead) s) := by
  have hon (v : Ident) (f : Power → Power) : MemKept s { modPower f (powerLost s) with ident := v } :=
    .rest (.after (putIdent_only _ _) (modPower_only _ _)) (powerLost_kept _) rfl
  exact .next (.unless (.branch (.after (supervisorStart_kept _ _) (hon _ _))
    (.rest (modStart_only _ _) (hon _ _) rfl)))

/-! ## All commands -/

/-- Every command keeps the storage invariant: most change no byte memory, the others only write to one, clear a range
of it or empty it. -/
theorem exec_memKept (c : Instr) (s : State) : MemKeptBy s (exec c s) := by
  cases c with
  | alloc mb => exact execAlloc_kept s mb
  | partCreate mb => exact execPartCreate_kept s mb
  | partDestroy mb => exact execPartDestroy_kept s mb
  | resetTile mb => exact execResetTile_kept s mb
  | resetCluster mb => exact execResetCluster_kept s mb
  | tapRead mb => exact execTapRead_kept s mb
  | traceCtlCloseAll mb => exact execTraceCtlCloseAll_kept s mb
  | recipeLoadDone mb env => exact execRecipeLoadDone_kept s mb env
  | copyDone mb env => exact execCopyDone_kept s mb env
  | tierMoveDescDone mb i env => exact execTierMoveDescDone_kept s mb i env
  | mma c n ts => exact execMma_kept s c n ts
  | mmaLam c n ts => exact execMmaLam_kept s c n ts
  | vec c n ts => exact execVec_kept s c n ts
  | nlf c n ts => exact execNlf_kept s c n ts
  | red c n ts => exact execRed_kept s c n ts
  | load c n env => exact execLoad_kept s c n env
  | store c n env ts => exact execStore_kept s c n env ts
  | xfer c n ts => exact execXfer_kept s c n ts
  | tapPoint c n ts env => exact execTapPoint_kept s c n ts env
  | tileStartTestDone c n passed flash => exact execTileStartTestDone_kept s c n passed flash
  | memWrite mc pa bytes parity rmwRead who ode ce => exact execMemWrite_kept s mc pa bytes parity rmwRead who ode ce
  | windowHostAccess port off write env => exact execWindowHostAccess_kept s port off write env
  | backInvalidateResponse off dirty => exact execBackInvalidateResponse_kept s off dirty
  | perstN port => exact execPerstN_kept s port
  | cxlLinkDown port => exact execCxlLinkDown_kept s port
  | cxlLinkRetrain port width gts => exact execCxlLinkRetrain_kept s port width gts
  | stageWrite half stage claim enable => exact execStageWrite_kept s half stage claim enable
  | takeoverRestore answers => exact execTakeoverRestore_kept s answers
  | bridgeRetrainDone half ok => exact execBridgeRetrainDone_kept s half ok
  | ackArrive p pkt => exact execAckArrive_kept s p pkt
  | collectiveSlotAlloc half => exact execCollectiveSlotAlloc_kept s half
  | traceCrumb half pcs => exact execTraceCrumb_kept s half pcs
  | traceRecord half core ev => exact execTraceRecord_kept s half core ev
  | traceOpen => exact execTraceOpen_kept s
  | traceClose => exact execTraceClose_kept s
  | fenceRelease part => exact execFenceRelease_kept s part
  | aux3v3Return => exact execAux3v3Return_kept s
  | activateFirmware => exact execActivateFirmware_kept s
  | shutdownRailsOff => exact execShutdownRailsOff_kept s
  | modResetN => exact execModResetN_kept s
  | withdrawDrainEnd => exact execWithdrawDrainEnd_kept s
  | voltageRestart => exact execVoltageRestart_kept s
  | inputVoltageSample mv => exact execInputVoltageSample_kept s mv
  | powerOn52v slotId flashRead => exact execPowerOn52v_kept s slotId flashRead
  | inputLoss52v => exact .next (powerLost_kept s)
  | putArrive p pkt => exact .next (arrive_kept _ _ _ _ _)
  | getReqArrive p pkt env => exact .next (arrive_kept _ _ _ _ _)
  | getRespArrive p pkt => exact .next (arrive_kept _ _ _ _ _)
  | atomicArrive p pkt env => exact .next (arrive_kept _ _ _ _ _)
  | atomicRespArrive p pkt => exact .next (arrive_kept _ _ _ _ _)
  | reduceArrive p pkt => exact .next (arrive_kept _ _ _ _ _)
  | rndvReadyArrive p pkt => exact .next (arrive_kept _ _ _ _ _)
  | counterAddArrive p pkt => exact .next (arrive_kept _ _ _ _ _)
  | _ => exact (exec_runs _ s).memKept rfl

end StorageCommands

/-- Settles O6: every byte memory is empty. -/
theorem resetMemOk : Obligations.ResetMemOk := .reset

/-- Settles O7: a step is a tick, which leaves the memories alone, or the command at the front of the queue. -/
theorem stepKeepsMemOk : Obligations.StepKeepsMemOk := by
  intro s t hs hstep
  unfold step at hstep
  split at hstep
  · cases hstep
    have hkept : MemKept s (tick s) := .frame (tick_only s) rfl
    exact hkept hs
  · exact exec_memKept _ _ t hstep hs

end Sys2Proof

namespace Sys2Proof
open Machine Claims

/-! # Steps and frames (O1, O4, O5) -/

/-- Settles O1: putting the command in front and taking it again leaves the state. -/
theorem stepRunsTheFront : Obligations.StepRunsTheFront := fun _ _ => rfl

/-- Settles O4: the frames of all commands hold for those of the mailboxes. -/
theorem mailboxCommandsKeepTheRest : Obligations.MailboxCommandsKeepTheRest := fun c s _ => exec_runs c s

/-- Settles O5: the frames of all commands hold for the others. -/
theorem eventsKeepTheRest : Obligations.EventsKeepTheRest := fun c s _ => exec_runs c s

end Sys2Proof

namespace Sys2Proof
open Machine Claims

/-! # The management port (O59, O60) -/

section Management

variable {s : State}

/-! ## Requests that find the port up and SPDM far enough (R594, R600) -/

theorem onMgmt_up {f : State → State} (h : mgmtUp s = true) : onMgmt f s = f s := if_pos h

theorem next_onMgmt {f : State → State} (h : mgmtUp s = true) : (.next (onMgmt f s) : Ans) = .next (f s) :=
  congrArg Host.Outcome.next (onMgmt_up h)

theorem next_afterSpdm {n : Nat} {f : State → State} (h : mgmtUp s = true) (hn : n ≤ s.mgmt.spdm) :
    (.next (afterSpdm n f s) : Ans) = .next (f s) := by
  rw [afterSpdm, next_onMgmt h, if_neg (by omega)]

/-! ## The endpoint (R594-R599, R603) -/

theorem setEndpointId_takes {e : BitVec 8} (h : mgmtUp s = true) (h0 : e ≠ 0) (h255 : e ≠ 255) :
    ∃ t, exec (.setEndpointId e) s = .next t ∧ t.mgmt.eid = e.toNat ∧ Only [.mgmt] s t := by
  refine ⟨_, next_onMgmt h, ?_⟩
  rw [if_neg (not_or.2 ⟨h0, h255⟩)]
  exact ⟨rfl, .sub (.after (reply_only _ _ _) (modMgmt_only _ _)) rfl⟩

theorem pldmLedgerRead_replies {kind f max d : Nat} {r : List Byte} {u : State} (h : mgmtUp s = true)
    (hk : kind = 1 ∨ kind = 2) (h0 : 0 < max) (h30 : max ≤ 30)
    (hread : ledgerRead kind f max none s = (stOk, d, r, u)) :
    exec (.pldmLedgerRead kind f max) s = .next (reply 0 r u) := by
  refine (next_onMgmt h).trans (congrArg Host.Outcome.next ?_)
  rw [if_neg (by omega), hread]
  rfl

/-- An event that the receiver did not accept is repeated after 100 ms, once (R599). -/
theorem exec_platformEventRetry {x : Nat} {e : PlEvent} {r : List PlEvent} (accepted : Bool) (h : mgmtUp s = true)
    (hr : s.mgmt.receiver = some x) (he : s.mgmt.events = e :: r) : exec (.platformEventRetry accepted) s = .next (
      if accepted then modMgmt (fun m => { m with events := r }) s
      else if e.tried then countSat 5 40 1 (modMgmt (fun m => { m with events := r }) (advance 10000000 s))
      else modMgmt (fun m => { m with events := { e with tried := true } :: r }) (advance 10000000 s)) := by
  refine (next_onMgmt h).trans (congrArg Host.Outcome.next ?_)
  simp only [hr, he]

theorem platformEventRetry_repeats {x : Nat} {e : PlEvent} {r : List PlEvent} (h : mgmtUp s = true)
    (hr : s.mgmt.receiver = some x) (he : s.mgmt.events = e :: r) (ht : e.tried = false) :
    ∃ t, exec (.platformEventRetry false) s = .next t ∧ Only [.time, .mgmt] s t ∧
      t.mgmt.events = { e with tried := true } :: r := by
  refine ⟨_, exec_platformEventRetry false h hr he, ?_⟩
  rw [if_neg Bool.false_ne_true, if_neg (by simp [ht])]
  exact ⟨.sub (.after (modMgmt_only _ _) (advance_only _ _)) rfl, rfl⟩

theorem platformEventRetry_drops {x : Nat} {e : PlEvent} {r : List PlEvent} (h : mgmtUp s = true)
    (hr : s.mgmt.receiver = some x) (he : s.mgmt.events = e :: r) (ht : e.tried = true) :
    ∃ t, exec (.platformEventRetry false) s = .next t ∧ Only [.time, .mgmt, .ctr] s t ∧
      t.mgmt.events = r ∧ ctr t 5 40 = satAdd 32 (ctr s 5 40) 1 := by
  refine ⟨_, exec_platformEventRetry false h hr he, ?_⟩
  rw [if_neg Bool.false_ne_true, if_pos ht]
  refine ⟨.sub (.after (countSat_only _ _ _ _) (.after (modMgmt_only _ _) (advance_only _ _))) rfl, ?_, ?_⟩
  · exact congrArg Mgmt.events (countSat_only 5 40 1 _ .mgmt (by decide))
  · rw [countSat, ctr_setCtr_same, if_pos rfl, (modMgmt_only _ _).ctr_eq rfl, (advance_only _ _).ctr_eq rfl]

/-! ## SPDM and the update (R600-R602) -/

theorem negotiation_only (cc n : Nat) (l : List Byte) : Only [.mgmt] s
    (reply cc l (modMgmt (fun m => { m with spdm := n }) s)) :=
  .sub (.after (reply_only _ _ _) (modMgmt_only _ _)) rfl

theorem getMeasurements_replies {i : Nat} {r : List Byte} (signed : Bool) (n : BitVec 256) (h : mgmtUp s = true)
    (hn : 3 ≤ s.mgmt.spdm) (hm : measureBytes s i = some r) : exec (.getMeasurements i signed n) s =
      .next (reply 0 (if signed then r ++ idSign (hashBytes n ++ r) else r) s) := by
  refine (next_afterSpdm h hn).trans (congrArg Host.Outcome.next ?_)
  simp only [hm]
  rfl

theorem requestUpdate_stages (c : Nat) (pkg : List Byte) (area slot dir : Retry) (h : mgmtUp s = true)
    (hp : s.start.phase ≠ 7) (hv : serving s = true) (ho : stageOpen s 5 = true) :
    exec (.requestUpdate c pkg area slot dir) s =
      .next (reply (stagePldm c pkg area slot dir s).1 [] (stagePldm c pkg area slot dir s).2) := by
  refine (next_onMgmt h).trans (congrArg Host.Outcome.next ?_)
  rw [if_neg hp, if_neg (by simp [hv, ho])]

theorem activateFirmware_activates {u : State} {rsp : List Byte} (h : mgmtUp s = true) (hp : s.start.phase = 6)
    (hv : serving s = true) (hst : s.start.dir.staged ≠ 0)
    (ha : activate (s.start.dir.staged - 1) 2 0 s = okRep rsp u) :
    exec .activateFirmware s = .next (reply 0 [] (modMgmt (fun m => { m with update := 0 }) u)) := by
  refine (next_onMgmt h).trans (congrArg Host.Outcome.next ?_)
  rw [if_neg (by omega), if_neg (by simp [hv]), if_neg hst, ha]
  rfl

end Management

/-- Settles O59: each request is answered from the state, and an event goes, is repeated or is dropped. -/
theorem managementAnswers : Obligations.ManagementAnswers := fun s h =>
  ⟨fun _ => next_onMgmt h, fun _ => setEndpointId_takes h, next_onMgmt h, ⟨_, _, next_onMgmt h, takeFree_only s⟩,
    next_onMgmt h, next_onMgmt h, next_onMgmt h, fun _ => next_onMgmt h, fun _ => rfl,
    fun _ _ _ _ _ _ => pldmLedgerRead_replies h,
    fun _ => ⟨_, next_onMgmt h, rfl, .sub (.after (reply_only _ _ _) (modMgmt_only _ _)) rfl⟩,
    fun _ _ _ hr he => ⟨exec_platformEventRetry true h hr he, platformEventRetry_repeats h hr he,
      platformEventRetry_drops h hr he⟩⟩

/-- Settles O60: the negotiation by its three steps, what follows it by the state that it leaves, the update by the
staging and the activation of firmware. -/
theorem securityRequests : Obligations.SecurityRequests := fun s h =>
  ⟨⟨_, next_onMgmt h, rfl, negotiation_only _ _ _⟩,
    fun hn => ⟨_, next_afterSpdm h hn, rfl, negotiation_only _ _ _⟩,
    fun hn => ⟨_, next_afterSpdm h hn, rfl, negotiation_only _ _ _⟩,
    fun hn => ⟨next_afterSpdm h hn,
      fun off len ho => (next_afterSpdm h hn).trans (congrArg Host.Outcome.next (if_neg (by simpa using ho))),
      fun n => (next_afterSpdm h hn).trans (congrArg Host.Outcome.next (if_neg (by simp))),
      fun i n r hm => ⟨getMeasurements_replies false n h hn hm, getMeasurements_replies true n h hn hm⟩⟩,
    fun c pkg area slot dir => requestUpdate_stages c pkg area slot dir h,
    fun u hp hv hst ⟨_, ha⟩ => ⟨_, activateFirmware_activates h hp hv hst ha, rfl, rfl, rfl⟩⟩

end Sys2Proof

namespace Sys2Proof
open Machine Claims

/-! # Observation commands and firmware packages (O25, O28) -/

section Observation

variable {s : State} {mb : Fin 128}

/-! ## TRACE_CTL and TAP_ARM schedule, TAP_READ and INJECT act at once (R499, R565, R577, R579) -/

theorem traceCtlWindow_schedules {i : Nat} (h : accepted s mb 0x801 = true) (hop : arg s mb 0 1 = 0)
    (hring : s.trA.ringMib ≠ 0) (ho : arg s mb 8 8 = 0 ∨ now s + 1000 ≤ arg s mb 8 8) (hc : arg s mb 16 8 = 0)
    (hrun : isStopped s 5 = false) (hfree : freeFrom s 5 27 = some i) :
    let u := schedPut i (if arg s mb 8 8 = 0 then now s else arg s mb 8 8) 3 0 0 (arg s mb 8 8 = 0) 0 s
    exec (.traceCtlWindow mb) s = .next (answered s mb 0x801 (natLe 4 (handleOf u i) ++ natLe 4 0) u) := by
  refine congrArg Host.Outcome.next (runCmd_ok h (by simp [← arg.eq_def, hop]) ?_)
  simp only [← arg.eq_def, hop, hc, hrun, hfree]
  rw [if_neg (by simp), if_neg hring, if_neg (by omega), if_neg (by simp), if_neg (by simp)]
  rfl

theorem traceCtlCloseAll_stops (h : accepted s mb 0x801 = true) (hop : arg s mb 0 1 = 1)
    (hrun : isStopped s 5 = false) : exec (.traceCtlCloseAll mb) s = .next (answered s mb 0x801 (natLe 8 0)
      (stopTrace (schedEndAll 4 (fun _ e => e.action = 3 || e.action = 4) s))) :=
  congrArg Host.Outcome.next (runCmd_ok h (by simp [← arg.eq_def, hop]) (if_neg (by simp [hrun])))

theorem tapArm_arms {p : Machine.Part} {r : Recipe} {y : Bool × Nat} {k i : Nat} (h : accepted s mb 0x802 = true)
    (hp : partOf s (cx s mb) (arg s mb 0 1) = some p) (hr : latestRecipe s p = some r)
    (hy : r.syms[arg s mb 4 4]? = some y) (hkind : y.1 = true)
    (ht : arg s mb 16 8 = 0 ∨ now s + 1000 ≤ arg s mb 16 8) (hf : p.fence = none)
    (hnew : s.taps.any (fun x => match x.2 with
      | some t => t.part = arg s mb 0 1 && t.sym = arg s mb 4 4 | none => false) = false)
    (hk : tapSlot s p = some k) (hfree : freeFrom s 5 27 = some i) :
    let u := setTap k (some { handle := s.tapNext, ctx := cx s mb, part := arg s mb 0 1, sym := arg s mb 4 4,
                              step := arg s mb 8 4 })
      (schedPut i (if arg s mb 16 8 = 0 then now s else arg s mb 16 8) 5 0
        (arg s mb 4 4 + 2 ^ 32 * arg s mb 8 4 + 2 ^ 64 * arg s mb 0 1 + 2 ^ 72 * k) (arg s mb 16 8 = 0) (cx s mb) s)
    exec (.tapArm mb) s = .next (answered s mb 0x802 (natLe 4 s.tapNext)
      { u with tapNext := (s.tapNext + 1) % 2 ^ 32 }) := by
  refine congrArg Host.Outcome.next (runOp_ok h ?_)
  simp only [← arg.eq_def, ← cx.eq_def, hp, hr, hy, hk, hfree]
  rw [if_neg (by simp [hkind]), if_neg (by omega), if_neg (by simp [hf])]
  exact if_neg (Bool.eq_false_iff.1 hnew)

theorem tapRead_copies {k : Nat} {t : Tap} (h : accepted s mb 0x803 = true)
    (hfind : s.taps.find? (fun x => match x.2 with
      | some t => t.handle = arg s mb 0 4 && t.ctx = cx s mb | none => false) = some (k, some t))
    (hgone : t.gone = false) (htaken : t.taken = true) (hmax : 0 < arg s mb 16 8)
    (hgood : physBad s (tapBase k) (min (arg s mb 16 8) t.used) = false) :
    let n := min (arg s mb 16 8) t.used
    let v := physNote (.host (crownHalf s)) (tapBase k) n s
    exec (.tapRead mb) s = .next (answered s mb 0x803 (natLe 8 n ++ natLe 1 (takenOf t))
      { v with mem := { v.mem with
          host := Memory.store v.mem.host (addrAt (load s mb) 8) (Memory.bytes s.mem.phys (tapBase k) n) } }) := by
  have hfound (body : Nat × Option Tap → Bool) (hb : s.taps.find? body = some (k, some t)) (f : Nat → Tap → Rep)
      (g : Rep) : (match s.taps.find? body with | some (k, some t) => f k t | _ => g) = f k t := by rw [hb]
  refine congrArg Host.Outcome.next (runOp_ok h ((hfound _ hfind _ _).trans ?_))
  rw [if_neg (by simp [hgone]), if_neg (by simp [htaken]), if_neg (by rw [← arg.eq_def]; omega)]
  exact if_neg (Bool.eq_false_iff.1 hgood)

theorem inject_arms {one : Bool} (h : accepted s mb 0x805 = true)
    (hc : checkerOf (arg s mb 0 2) (arg s mb 2 2) = some one) (hm : fld (arg s mb 8 8) 63 62 < 3)
    (hone : fld (arg s mb 8 8) 63 62 = 2 → one = true) (hw : (win s (arg s mb 0 2)).armed = false) :
    exec (.inject mb) s = .next (answered s mb 0x805 [] (setWin (arg s mb 0 2) { win s (arg s mb 0 2) with
      armed := true, checker := arg s mb 2 2, mode := fld (arg s mb 8 8) 63 62,
      target := fld (arg s mb 8 8) 41 0 } s)) := by
  refine congrArg Host.Outcome.next (runOp_ok h ?_)
  simp only [← arg.eq_def]
  rw [if_neg (by omega), hc]
  dsimp only
  rw [if_neg (by simpa using hone), if_neg (by simp [hw])]

end Observation

/-- Settles O28: each command by the path that its checks leave open. -/
theorem observationCommands : Obligations.ObservationCommands := fun _ _ =>
  ⟨fun _ => traceCtlWindow_schedules, traceCtlCloseAll_stops, fun _ _ _ _ _ => tapArm_arms, fun _ _ => tapRead_copies,
    fun _ h hc hm hone _ => inject_arms h hc hm hone⟩

section Packages

variable {s : State} {mb : Fin 128}

/-! ## FW_STAGE and its end (R556) -/

theorem runOp_refused {op st det : Nat} {body : Nat → Hdr → List Byte → RunCmd → State → Rep}
    (h : accepted s mb op = true) (hb : body (key s mb) (head s mb) (load s mb) (placed s mb op) s = refuse st det s)
    (hst : st ≠ stOk ∧ st ≠ stCapLimited) : runOp op body mb s = respond (key s mb) st det [] s := by
  rw [runOp, runCmd_accepted h rfl, hb]
  dsimp only [refuse]
  rw [if_neg (by simp [hst])]

theorem stageFault_status {b : List Byte} {n : Nat} {f : Nat × Nat} (h : stageFault s b n = some f) :
    f.1 ≠ stOk ∧ f.1 ≠ stCapLimited := by
  simp only [stageFault] at h
  split_ifs at h
  all_goals
    cases h
    decide

theorem fwStage_stages {b : List Byte} (flash : Retry) (h : accepted s mb 0x701 = true) (hsrc : arg s mb 0 1 = 0)
    (hread : readBundle s (cx s mb) {} false (addrAt (load s mb) 8) (min (arg s mb 16 8) 0x3000001) = .ok b)
    (hk : pkgKind b ≠ 3) : exec (.fwStage mb flash) s = .next (match stageFault s b (arg s mb 16 8) with
      | none => stays s mb { placed s mb 0x701 with pl := b } { s with fw := { s.fw with staging := some (key s mb) } }
      | some (st, d) => respond (key s mb) st d [] s) := by
  have hnoted (a n : Nat) : bundleNote (cx s mb) {} false a n s = s := rfl
  refine congrArg Host.Outcome.next ((afterSnoops_noRange _ (if_neg (by simp [← arg.eq_def, hsrc]))).trans ?_)
  cases hfault : stageFault s b (arg s mb 16 8) with
  | none =>
    refine runOp_stay h ?_
    simp only [← arg.eq_def, ← cx.eq_def, hsrc, Nat.zero_ne_one, Nat.not_lt_zero, false_and, if_false, decide_false,
      hread, hnoted, hfault, if_neg hk]
  | some f =>
    refine runOp_refused h ?_ (stageFault_status hfault)
    simp only [← arg.eq_def, ← cx.eq_def, hsrc, Nat.zero_ne_one, Nat.not_lt_zero, false_and, if_false, decide_false,
      hread, hnoted, hfault]

theorem fwStageDone_stages {k : Nat} {r : RunCmd} (area slot dir : Retry) (hr : runKeyOf s mb 0x701 = some (k, r))
    (hv : serving s = true) (ho : stageOpen s 5 = true) : exec (.fwStageDone mb area slot dir) s =
      .next (answer k 0x701 (stageSlot r.pl area slot dir { s with fw := { s.fw with staging := none } })) := by
  refine congrArg Host.Outcome.next ?_
  simp only [hr]
  rw [if_neg (by simp [hv, ho])]

/-! ## FW_ACTIVATE (R61, R64, R557) -/

/-- The state in which an activation is scheduled for tick `t`. -/
def activationSet (slot what t : Nat) (s : State) : State :=
  let u := schedPut 4 t 2 0 (slot + 256 * what + 2 ^ 32 * slotVer s.start.dir slot) false 0 s
  { u with fw := { u.fw with pending := some (handleOf u 4) },
           start := { u.start with dir := { s.start.dir with pendRt := t } } }

theorem activate_schedules {slot what rt : Nat} (hs : slotAccepted s.start.dir slot = true) (hw : what ≤ 2)
    (hp : partsChanged s.start.dir slot what ≠ (false, false)) (ht : rt = 0 ∨ now s + 10000000 ≤ rt)
    (hn : s.fw.pending = none) :
    let u := activationSet slot what (if rt = 0 then now s + 10000000 else rt) s
    activate slot what rt s = okRep (natLe 4 (handleOf u 4)) u := by
  rw [activate]
  dsimp only
  rw [if_neg (by simp [hs]), if_neg (by omega), if_neg hp, if_neg (by omega), if_neg (by simp [hn])]
  rfl

theorem activationSet_only (slot what t : Nat) (s : State) :
    Only [.sched, .fw, .start] s (activationSet slot what t s) := by
  have hput := schedPut_other 4 t 0 (slot + 256 * what + 2 ^ 32 * slotVer s.start.dir slot) false 0 s
    (show (2 : Nat) ≠ 6 by decide)
  rw [activationSet, hput]
  exact .sub (.after (putFwStart_only _ _ _) (putSched_only _ _)) rfl

theorem sched_activationSet (slot what t : Nat) (s : State) : sched (activationSet slot what t s) 4 =
    newEntry 4 t 2 0 (slot + 256 * what + 2 ^ 32 * slotVer s.start.dir slot) false 0 s :=
  (sched_schedPut 4 t 2 0 _ false 0 s 4).trans (if_pos rfl)

end Packages

/-- Settles O25: a package by the fault that its checks find or do not, the activation by the entry that it puts in. -/
theorem firmwareIsStagedAndScheduled : Obligations.FirmwareIsStagedAndScheduled := fun s mb =>
  ⟨fun flash _ => fwStage_stages flash, fun area slot dir _ _ => fwStageDone_stages area slot dir,
    fun h hs hw hp ht hn => ⟨activationSet (arg s mb 0 1) (arg s mb 1 1) _ s,
      congrArg Host.Outcome.next (runOp_ok h (activate_schedules hs hw hp ht hn)), activationSet_only _ _ _ s,
      congrArg SchedEntry.rt (sched_activationSet _ _ _ s), congrArg SchedEntry.st (sched_activationSet _ _ _ s),
      congrArg SchedEntry.action (sched_activationSet _ _ _ s), congrArg SchedEntry.arg (sched_activationSet _ _ _ s),
      rfl, rfl⟩⟩

end Sys2Proof

namespace Sys2Proof
open Machine Claims

/-! # Power caps (O26) -/

section Caps

variable {s : State}

/-! ## What a cap update leaves of the power block and of the events (R446) -/

theorem capUpdate_records (s : State) : ∃ e c a h d, (capUpdate s).power =
    { s.power with lastEff := e, lastSrc := c, above := a, hist := h, settleAt := d } := by
  rw [capUpdate_power]
  split
  · exact ⟨_, _, _, _, _, rfl⟩
  · exact ⟨_, _, _, _, _, rfl⟩

theorem plEvent_power (ev detail : Nat) (s : State) : (plEvent ev detail s).power = s.power :=
  plEvent_only ev detail s .power (by decide)

theorem brakeStart_power (was : Bool) (s : State) : (brakeStart was s).power = s.power :=
  brakeStart_only was s .power (by decide)

theorem waitUntil_power (d : Nat) (s : State) : (waitUntil d s).power = s.power :=
  waitUntil_only d s .power (by decide)

theorem plEvent_keeps {b i : Nat} (ev detail : Nat) (h : (win s b).sts.getLsbD i = true) :
    (win (plEvent ev detail s) b).sts.getLsbD i = true := by
  rwa [(plEvent_only ev detail s).win_eq (by decide) b]

theorem capUpdate_keeps {b i : Nat} (h : (win s b).sts.getLsbD i = true) :
    (win (capUpdate s) b).sts.getLsbD i = true := by
  have hraised : (win (if capRaised s then event 3 5 0 0 s else s) b).sts.getLsbD i = true := by
    split
    · exact event_keeps _ _ _ _ h
    · exact h
  unfold capUpdate
  dsimp only
  generalize (if capRaised s then event 3 5 0 0 s else s) = u at hraised ⊢
  split
  · exact hraised
  · exact plEvent_keeps _ _ (event_keeps _ _ _ _ hraised)

theorem setting_congr {t : State} (hs : t.start = s.start) (hi : t.ident = s.ident) (k : Nat) :
    setting t k = setting s k :=
  congrArg leNat (settingB_congr (congrArg Start.settings hs) (congrArg Start.factory hs) hi k)

/-! ## The host's cap (R451) -/

theorem powerSet_sets {mb : Fin 128} (h : accepted s mb 0x501 = true) (hrun : isStopped s 1 = false)
    (ht : arg s mb 8 8 = 0 ∨ arg s mb 8 8 % 100000 = 0 ∧ now s + 1000 ≤ arg s mb 8 8) :
    let s1 := dropLowering 3 (schedEnd 3 4 s)
    let s2 := modPower (fun p => { p with hostCap := arg s mb 0 4 }) s1
    let v := if arg s mb 8 8 = 0 then capUpdate s2
      else schedPut 3 (arg s mb 8 8) 1 0 (min (arg s mb 0 4) 65535 + 2 * 2 ^ 16) false 0 s1
    let fl := capRaised s2 || (win v 3).sts.getLsbD 5
    exec (.powerSet mb) s = .next (respond (key s mb) (if source s2 = 2 ∧ fl = false then stOk else stCapLimited) 0
      (natLe 4 (effective s2) ++ natLe 1 (source s2) ++ natLe 1 (b2n fl) ++ natLe 2 0) (noted 0x501 v)) := by
  intro s1 s2 v fl
  have hjournal {st : Nat} {u : State} (hst : st = stOk ∨ st = stCapLimited) :
      (if (st = stOk ∨ st = stCapLimited) ∧ journalled 0x501 then
        { u with crown := { u.crown with journal := u.crown.journal + 1 } } else u) = noted 0x501 u := by
    rw [noted]
    simp [hst]
  have hstatus : (if source s2 = 2 ∧ fl = false then stOk else stCapLimited) = stOk ∨
      (if source s2 = 2 ∧ fl = false then stOk else stCapLimited) = stCapLimited := by
    split
    · exact .inl rfl
    · exact .inr rfl
  refine congrArg Host.Outcome.next ?_
  rw [runOp, runCmd_accepted h rfl]
  simp only [← arg.eq_def]
  rw [if_neg (by omega), if_neg (by simp [hrun])]
  simp only [Bool.not_eq_true']
  exact congrArg _ (hjournal hstatus)

/-! ## The management cap and its lease (R452, R453) -/

/-- The state in which a new management cap finds the schedule: no change of it is pending, and no lowering. -/
def capCleared (s : State) : State := dropLowering 2 (schedEnd 2 4 s)

theorem capCleared_only (s : State) : Only [.sched, .power] s (capCleared s) :=
  .sub (.after (dropLowering_only 2 _) (schedEnd_only 2 4 s)) rfl

theorem capCleared_time (s : State) : (capCleared s).time = s.time := (capCleared_only s).time_eq rfl

theorem capCleared_notPending (s : State) : (sched (capCleared s) 2).st ≠ 1 := by
  rw [capCleared, (dropLowering_only 2 _).sched_eq rfl]
  unfold schedEnd
  dsimp only
  split
  · rw [sched_setSched, if_pos rfl]
    exact (by decide : (4 : Nat) ≠ 1)
  · next h => exact h

theorem capCleared_power (s : State) : ∃ w, (capCleared s).power = { s.power with lowering := w } := by
  have hend : (schedEnd 2 4 s).power = s.power := schedEnd_only 2 4 s .power (by decide)
  rw [capCleared, ← hend]
  unfold dropLowering
  dsimp only
  split
  · exact ⟨_, rfl⟩
  · exact ⟨none, rfl⟩

theorem exec_setPowerCap {w ms rt : Nat} (h : mgmtUp s = true) (hw : w ≤ 65535) (hms : leaseOk ms = true)
    (hrt : rt = 0 ∨ rt % 100000 = 0 ∧ s.time.sup + 1000 ≤ rt) : exec (.setPowerCap w ms rt) s = .next (
      let u := if rt = 0 then capUpdate (mgmtEffect w (leaseOf s ms) (capCleared s))
        else schedPut 2 rt 1 2 (w + 2 ^ 16 + leaseOf s ms * 2 ^ 32) false 0
          (modPower (fun p => { p with leaseMs := leaseOf s ms,
                                       leaseAt := some ((capCleared s).time.clk + leaseOf s ms * 100000) })
          (capCleared s))
      reply 0 (capAnswer u) u) := by
  refine (next_onMgmt h).trans (congrArg Host.Outcome.next ?_)
  rw [if_neg (by simp [hms]; omega), if_neg (by omega), if_neg (by omega)]
  rfl

/-- The answer to a management cap that takes effect at once. -/
def setCap (w ms : Nat) (s : State) : State :=
  let u := capUpdate (mgmtEffect w (leaseOf s ms) (capCleared s))
  reply 0 (capAnswer u) u

theorem setPowerCap_sets {w ms : Nat} (h : mgmtUp s = true) (hw : w ≤ 65535) (hms : leaseOk ms = true) :
    ∃ t, exec (.setPowerCap w ms 0) s = .next t ∧ t.power.mgmtCap = w ∧ t.power.lapsed = false ∧
      t.power.leaseMs = leaseOf s ms ∧ t.power.leaseAt = some (s.time.clk + leaseOf s ms * 100000) ∧
      (sched t 2).st ≠ 1 := by
  obtain ⟨_, _, _, _, _, hpower⟩ := capUpdate_records (mgmtEffect w (leaseOf s ms) (capCleared s))
  have hframe : Only [.mbx, .win, .ctr, .power, .mgmt] (capCleared s) (setCap w ms s) :=
    .sub (.after (reply_only _ _ _) (.after (capUpdate_only _) (mgmtEffect_only _ _ _))) rfl
  have hreply : (setCap w ms s).power = (capUpdate (mgmtEffect w (leaseOf s ms) (capCleared s))).power :=
    reply_only _ _ _ .power (by decide)
  refine ⟨setCap w ms s, exec_setPowerCap h hw hms (.inl rfl), ?_⟩
  rw [hreply, hpower, hframe.sched_eq rfl, ← capCleared_time s]
  exact ⟨rfl, rfl, rfl, rfl, capCleared_notPending s⟩

theorem setPowerCap_schedules {w ms rt : Nat} (h : mgmtUp s = true) (hw : w ≤ 65535) (hms : leaseOk ms = true)
    (h0 : rt ≠ 0) (hframe : rt % 100000 = 0) (hlead : s.time.sup + 1000 ≤ rt) :
    ∃ t, exec (.setPowerCap w ms rt) s = .next t ∧ t.power.mgmtCap = s.power.mgmtCap ∧
      (sched t 2).rt = rt ∧ (sched t 2).action = 1 ∧ (sched t 2).st = 1 ∧
      (sched t 2).arg = w + 2 ^ 16 + leaseOf s ms * 2 ^ 32 ∧
      t.power.leaseAt = some (s.time.clk + leaseOf s ms * 100000) := by
  obtain ⟨l, hpower⟩ := capCleared_power s
  refine ⟨_, exec_setPowerCap h hw hms (.inr ⟨hframe, hlead⟩), ?_⟩
  dsimp only
  rw [if_neg h0]
  generalize hleased : modPower _ (capCleared s) = leased
  have hlease : leased.power = { s.power with
      lowering := l, leaseMs := leaseOf s ms, leaseAt := some (s.time.clk + leaseOf s ms * 100000) } := by
    rw [← hleased, modPower_power, hpower, capCleared_time]
  generalize hu : schedPut 2 rt 1 2 (w + 2 ^ 16 + leaseOf s ms * 2 ^ 32) false 0 leased = u
  have hentry : sched u 2 = newEntry 2 rt 1 2 (w + 2 ^ 16 + leaseOf s ms * 2 ^ 32) false 0 leased := by
    rw [← hu, sched_schedPut, if_pos rfl]
  have hput : u.power = leased.power := by
    rw [← hu]
    exact schedPut_only _ _ _ _ _ _ _ _ .power (by decide)
  have hreply (n : Nat) (l : List Byte) : sched (reply n l u) 2 = sched u 2 := (reply_only n l u).sched_eq rfl 2
  have hkept (n : Nat) (l : List Byte) : (reply n l u).power = u.power := reply_only n l u .power (by decide)
  rw [hreply, hkept, hentry, hput, hlease]
  exact ⟨rfl, rfl, rfl, rfl, rfl, rfl⟩

theorem renewPowerLease_renews {ms : Nat} (h : mgmtUp s = true) (hms : leaseOk ms = true) :
    ∃ t, exec (.renewPowerLease ms) s = .next t ∧ Only [.power, .mgmt] s t ∧
      t.power = { s.power with leaseMs := leaseOf s ms, leaseAt := some (s.time.clk + leaseOf s ms * 100000) } := by
  refine ⟨_, next_onMgmt h, ?_⟩
  rw [if_neg (by simp [hms])]
  exact ⟨.sub (.after (reply_only _ _ _) (modPower_only _ _)) rfl, rfl⟩

/-- The state at the end of the lease, with the lapse value in force. -/
def lapsedAt (d : Nat) (s : State) : State :=
  modPower (fun p => { p with leaseAt := none, lapsed := true, lapseW := lapseValue s }) (waitUntil d s)

theorem exec_leaseExpire {d : Nat} (hd : s.power.leaseAt = some d) (hst : (sched s 2).st ≠ 1)
    (hl : s.power.lapsed = false) : exec .leaseExpire s =
      .next (capUpdate (plEvent 7 (setting (lapsedAt d s) 0x0103) (event 3 6 0 0 (lapsedAt d s)))) := by
  have hwait := waitUntil_only d s
  have hpower := waitUntil_power d s
  have hvalue : lapseValue (modPower (fun p => { p with leaseAt := none }) (waitUntil d s)) = lapseValue s := by
    have hset : setting (modPower (fun p => { p with leaseAt := none }) (waitUntil d s)) 0x0103 = setting s 0x0103 :=
      setting_congr (s := s) (hwait .start (by decide)) (hwait .ident (by decide)) _
    rw [lapseValue, lapseValue, hset, modPower_power, hpower]
  change execLeaseExpire s = _
  simp only [execLeaseExpire, hd]
  rw [if_neg (by rw [hwait.sched_eq rfl]; exact fun h => hst h.1), if_neg (by rw [modPower_power, hpower]; simp [hl]),
    hvalue]
  rfl

theorem leaseExpire_lapses {d : Nat} (hd : s.power.leaseAt = some d) (hst : (sched s 2).st ≠ 1)
    (hl : s.power.lapsed = false) :
    ∃ t, exec .leaseExpire s = .next t ∧ t.power.leaseAt = none ∧ t.power.lapsed = true ∧
      t.power.lapseW = min (setting s 0x0103) (if s.power.mgmtCap = 0 then 2400 else s.power.mgmtCap) ∧
      (win t 3).sts.getLsbD 6 := by
  obtain ⟨_, _, _, _, _, hpower⟩ := capUpdate_records
    (plEvent 7 (setting (lapsedAt d s) 0x0103) (event 3 6 0 0 (lapsedAt d s)))
  refine ⟨_, exec_leaseExpire hd hst hl, ?_, ?_, ?_, capUpdate_keeps (plEvent_keeps _ _ (event_sets 0 0 _ (by decide)))⟩
  all_goals
    rw [hpower, plEvent_power, event_power]
    rfl

end Caps

/-- Settles O26: each cap by the state its change leaves, of which a cap update records the effective cap only. -/
theorem capsAreSetAndLeased : Obligations.CapsAreSetAndLeased :=
  ⟨fun _ _ h hrun => powerSet_sets h hrun, fun _ => ⟨fun _ _ => setPowerCap_sets, fun _ _ _ => setPowerCap_schedules,
    fun _ => renewPowerLease_renews, next_onMgmt, fun _ => leaseExpire_lapses⟩⟩

end Sys2Proof

namespace Sys2Proof
open Machine Claims

/-! # The input, the brake and the thermal alert (O36) -/

section Brake

variable {s : State}

/-! ## A change of the brake's inputs, and an orderly shutdown (R443, R455) -/

theorem brakeChange_records (f : State → State) (s : State) : ∃ e c a h d, (brakeChange f s).power =
    { (f s).power with lastEff := e, lastSrc := c, above := a, hist := h, settleAt := d } := by
  rw [← brakeStart_power (braked s) (f s)]
  exact capUpdate_records (brakeStart (braked s) (f s))

theorem brakeStart_keeps {b i : Nat} (was : Bool) (h : (win s b).sts.getLsbD i = true) :
    (win (brakeStart was s) b).sts.getLsbD i = true := by
  unfold brakeStart
  split
  · exact event_keeps _ _ _ _ h
  · exact h

/-- After a change of the brake's inputs, everything outside the power block and the events is as the change left it. -/
theorem brakeChange_only_after (f : State → State) (s : State) :
    Only [.mbx, .win, .ctr, .power, .mgmt] (f s) (brakeChange f s) :=
  .sub (.after (capUpdate_only _) (brakeStart_only _ _)) rfl

theorem orderlyShutdown_begins (hs : s.power.shutdown = none) (ho : s.power.off = false) :
    ∃ e c a h d, (orderlyShutdown s).power = { s.power with
      shutdown := some s.time.clk, lastEff := e, lastSrc := c, above := a, hist := h, settleAt := d } := by
  let noted := { s with power := { s.power with shutdown := some s.time.clk } }
  obtain ⟨e, c, a, h, d, hpower⟩ := capUpdate_records (brakeStart (braked s) noted)
  refine ⟨e, c, a, h, d, ?_⟩
  rw [brakeStart_power] at hpower
  rw [orderlyShutdown, if_neg (by simp [hs, ho])]
  refine Eq.trans ?_ hpower
  exact Only.after (withdrawModule_only _ _ _ _) (.after (modLed_only _ _) (.after (closeAllReqs_only _ _)
    (.after (fenceAll_only _ _ _) (plEvent_only _ _ _)))) .power (by decide)

/-! ## The input's voltage (R442, R443) -/

/-- The state with a sample of the input recorded. -/
def sampled (mv : Nat) (s : State) : State :=
  let keep (p : Bool) (o : Option Nat) : Option Nat := if p then some (o.getD s.time.clk) else none
  modPower (fun p => { p with
    mv := mv, marginal := marginalMv mv,
    goodAt := keep (46000 ≤ mv) p.goodAt, rangeAt := keep (46000 ≤ mv && mv ≤ 56000) p.rangeAt,
    lowRun := if mv < 40000 then p.lowRun + 1 else 0, highRun := if 57000 < mv then p.highRun + 1 else 0 }) s

/-- The state with the brake of a low input. -/
def sagBraked (mv : Nat) (s : State) : State :=
  if mv < 45000 ∧ !s.power.uvBrake then
    event 3 9 0 0 (brakeChange (fun s => modPower (fun p => { p with uvBrake := true }) s) (sampled mv s))
  else sampled mv s

theorem sagBraked_records (mv : Nat) (s : State) : ∃ b e c a h d, (sagBraked mv s).power =
    { (sampled mv s).power with
      uvBrake := b, lastEff := e, lastSrc := c, above := a, hist := h, settleAt := d } := by
  unfold sagBraked
  split
  · obtain ⟨e, c, a, h, d, hpower⟩ :=
      brakeChange_records (fun s => modPower (fun p => { p with uvBrake := true }) s) (sampled mv s)
    exact ⟨true, e, c, a, h, d, by rw [event_power, hpower]; rfl⟩
  · exact ⟨_, _, _, _, _, _, rfl⟩

theorem exec_inputVoltageSample {mv : Nat} (hv : s.power.v52 = true) (hmv : 32000 ≤ mv)
    (hs : s.power.shutdown = none) (ho : s.power.off = false) : exec (.inputVoltageSample mv) s = .next (
      if 10 ≤ (sampled mv s).power.lowRun then orderlyShutdown (event 3 9 0 0 (sagBraked mv s))
      else if 10 ≤ (sampled mv s).power.highRun then orderlyShutdown (event 3 10 0 0 (sagBraked mv s))
      else sagBraked mv s) := by
  obtain ⟨b, e, c, a, h, d, hpower⟩ := sagBraked_records mv s
  have hrest : (sagBraked mv s).power.shutdown = none ∧ (sagBraked mv s).power.off = false ∧
      (sagBraked mv s).power.lowRun = (sampled mv s).power.lowRun ∧
      (sagBraked mv s).power.highRun = (sampled mv s).power.highRun := by
    rw [hpower]
    exact ⟨hs, ho, rfl, rfl⟩
  obtain ⟨hs', ho', hlow, hhigh⟩ := hrest
  rw [← hlow, ← hhigh]
  refine congrArg Host.Outcome.next ?_
  rw [if_neg (by simp [hv]), if_neg (by omega)]
  exact if_neg (show ¬((sagBraked mv s).power.shutdown.isSome ∨ (sagBraked mv s).power.off) by simp [hs', ho'])

theorem inputVoltageSample_brakes {mv : Nat} (hv : s.power.v52 = true) (hlo : 40000 ≤ mv) (hhi : mv < 45000)
    (hs : s.power.shutdown = none) (ho : s.power.off = false) (hb : s.power.uvBrake = false) :
    ∃ t, exec (.inputVoltageSample mv) s = .next t ∧ t.power.mv = mv ∧ t.power.uvBrake = true ∧
      t.power.goodAt = none ∧ t.power.lowRun = 0 ∧ (win t 3).sts.getLsbD 9 ∧ t.power.shutdown = none := by
  let braking (s : State) := modPower (fun p => { p with uvBrake := true }) s
  obtain ⟨_, _, _, _, _, hpower⟩ := brakeChange_records braking (sampled mv s)
  have hsag : sagBraked mv s = event 3 9 0 0 (brakeChange braking (sampled mv s)) := if_pos ⟨hhi, by simp [hb]⟩
  have hlow : (sampled mv s).power.lowRun = 0 := if_neg (by omega)
  have hhigh : (sampled mv s).power.highRun = 0 := if_neg (by omega)
  have hgood : (sampled mv s).power.goodAt = none := if_neg (by simp; omega)
  refine ⟨sagBraked mv s, ?_, ?_⟩
  · rw [exec_inputVoltageSample hv (by omega) hs ho, hlow, hhigh]
    rfl
  · rw [hsag, event_power, hpower]
    exact ⟨rfl, rfl, hgood, hlow, event_sets 0 0 _ (by decide), hs⟩

theorem inputVoltageSample_shuts {mv : Nat} (hv : s.power.v52 = true) (hlo : 32000 ≤ mv) (hhi : mv < 40000)
    (hs : s.power.shutdown = none) (ho : s.power.off = false) (hrun : s.power.lowRun = 9) :
    ∃ t, exec (.inputVoltageSample mv) s = .next t ∧ t.power.shutdown = some s.time.clk := by
  have hlow : (sampled mv s).power.lowRun = 10 := (if_pos hhi).trans (by rw [hrun])
  obtain ⟨_, _, _, _, _, _, hsag⟩ := sagBraked_records mv s
  have htime : (event 3 9 0 0 (sagBraked mv s)).time = s.time := by
    have hframe : Only [.mbx, .win, .ctr, .power, .mgmt] (sampled mv s) (sagBraked mv s) :=
      .sub (.either (.after (event_only _ _ _ _ _) (.after (brakeChange_only_after _ _) (modPower_only _ _)))
        (.none _)) rfl
    rw [event_time, hframe.time_eq rfl]
    rfl
  obtain ⟨_, _, _, _, _, hshut⟩ := orderlyShutdown_begins (s := event 3 9 0 0 (sagBraked mv s))
    (by rw [event_power, hsag]; exact hs) (by rw [event_power, hsag]; exact ho)
  refine ⟨orderlyShutdown (event 3 9 0 0 (sagBraked mv s)), ?_, ?_⟩
  · rw [exec_inputVoltageSample hv hlo hs ho, hlow]
    rfl
  · rw [hshut, htime]

theorem uvBrakeRelease_ends {a : Nat} (hv : s.power.v52 = true) (hb : s.power.uvBrake = true)
    (hg : s.power.goodAt = some a) :
    ∃ t, exec .uvBrakeRelease s = .next t ∧ t.power.uvBrake = false ∧ t.time.clk = max s.time.clk (a + 1000000) := by
  let released (s : State) := modPower (fun p => { p with uvBrake := false }) s
  obtain ⟨_, _, _, _, _, hpower⟩ := brakeChange_records released (waitUntil (a + 1000000) s)
  refine ⟨brakeChange released (waitUntil (a + 1000000) s), ?_, ?_, ?_⟩
  · change execUvBrakeRelease s = _
    simp only [execUvBrakeRelease, hb, hg]
    rfl
  · rw [hpower]
    rfl
  · rw [(brakeChange_only_after _ _).time_eq rfl, ← waitUntil_clk _ hv]
    rfl

/-- The state with the rails off after an orderly shutdown. -/
def railsDown (s : State) : State :=
  let u := modCrown (fun c => { claim := c.claim, holder := c.holder, stages := c.stages, last := c.last,
                                takeovers := c.takeovers, lastTakeRt := c.lastTakeRt, supFail := c.supFail,
                                tripped := c.supFail }) (schedClear (railsLost s))
  { u with
    power := { u.power with rails := false, off := true, shutdown := none, hostCap := 0, lowering := none },
    start := { u.start with ready := false, readyRt := 0, phase := 2, rails := 0, waves := 0, comps := [] } }

theorem shutdownRailsOff_ends {a : Nat} (hv : s.power.v52 = true) (ha : s.power.shutdown = some a) :
    ∃ t, exec .shutdownRailsOff s = .next t ∧ t.power.rails = false ∧ t.power.off = true ∧ t.power.shutdown = none ∧
      t.time.clk = max s.time.clk (a + 2000000) ∧ t.mem.phys = [] ∧ t.work.ctxs = [] ∧ t.flash = s.flash := by
  let u := railsDown (waitUntil (a + 2000000) s)
  have hexec : exec .shutdownRailsOff s = .next (capUpdate u) := by
    change execShutdownRailsOff s = _
    simp only [execShutdownRailsOff, ha]
    rfl
  obtain ⟨_, _, _, _, _, hpower⟩ := capUpdate_records u
  have hcap := capUpdate_only u
  have htime : u.time = (waitUntil (a + 2000000) s).time := rfl
  have hflash : u.flash = (waitUntil (a + 2000000) s).flash := rfl
  refine ⟨_, hexec, ?_, ?_, ?_, ?_, hcap .phys (by decide), ?_, ?_⟩
  · rw [hpower]
    rfl
  · rw [hpower]
    rfl
  · rw [hpower]
    rfl
  · rw [hcap.time_eq rfl, htime, waitUntil_clk _ hv]
  · rw [hcap .work (by decide)]
    rfl
  · rw [hcap .flash (by decide), hflash, waitUntil_only _ s .flash (by decide)]

theorem voltageRestart_resets {a : Nat} (ha : s.power.rangeAt = some a) (ho : s.power.off = true)
    (ht : s.power.trip = false) (hal : s.power.alertOff = false) (hc : s.crown.tripped = false) :
    exec .voltageRestart s = .next (moduleReset (waitUntil (a + 100000000) s)) := by
  change execVoltageRestart s = _
  simp only [execVoltageRestart, ha]
  rw [if_pos (by simp [ho, ht, hal, hc])]

/-! ## PWR_BRAKE_N (R455) -/

theorem lowest_le (x : Nat × Nat) (l : List (Nat × Nat)) : (lowest (x :: l)).2 ≤ x.2 := by
  cases l with
  | nil => exact le_rfl
  | cons y r =>
    unfold lowest
    dsimp only
    split
    · exact le_rfl
    · omega

theorem effective_braked (h : braked s = true) : effective s ≤ max 650 (setting s 0x0101) := by
  simp only [effective, capInputs, h, if_true, List.cons_append, List.nil_append, raised, List.map_cons]
  exact lowest_le _ _

theorem effective_brakeChange (f : State → State) (s : State) : effective (brakeChange f s) = effective (f s) := by
  have hframe := brakeChange_only_after f s
  have hcap : capReadings (brakeChange f s).power = capReadings (f s).power :=
    (capReadings_capUpdate _).trans (congrArg capReadings (brakeStart_power _ _))
  exact effective_congr (hframe .pins (by decide)) (hframe .crown (by decide)) (hframe .start (by decide))
    (hframe .ident (by decide)) hcap

theorem pwrBrakeNChange_caps (hv : s.power.v52 = true) (b : Bool) :
    ∃ t, exec (.pwrBrakeNChange b) s = .next t ∧ t.pins.pwrBrakeN = b ∧
      (b = false → effective t ≤ max 650 (setting t 0x0101)) := by
  let pinned (s : State) : State := { s with pins := { s.pins with pwrBrakeN := b } }
  have hframe := brakeChange_only_after pinned s
  refine ⟨brakeChange pinned s, congrArg Host.Outcome.next (if_pos hv), ?_, fun hb => ?_⟩
  · rw [hframe .pins (by decide)]
  · have hbraked : braked (pinned s) = true := by simp [braked, pinned, hb]
    rw [effective_brakeChange, setting_congr (hframe .start (by decide)) (hframe .ident (by decide))]
    exact effective_braked hbraked

/-! ## THERM_ALERT_N (R459) -/

theorem thermAlertNChange_counts (hv : s.power.v52 = true) (hp : s.pins.thermAlertN = true)
    (hc : s.power.countdown = none) (hs : s.power.stoppedAt = none) :
    ∃ t, exec (.thermAlertNChange false) s = .next t ∧ t.pins.thermAlertN = false ∧
      t.power.countdown = some (s.time.clk + 500000000) ∧ (win t 3).sts.getLsbD 11 := by
  let counting (s : State) : State := modPower (fun p => { p with
    highAt := none, countdown := some (p.countdown.getD (s.time.clk + 500000000)) })
    { s with pins := { s.pins with thermAlertN := false } }
  obtain ⟨_, _, _, _, _, hpower⟩ := brakeChange_records counting s
  refine ⟨event 3 11 0 0 (brakeChange counting s), ?_, ?_, ?_, event_sets 0 0 _ (by decide)⟩
  · change execThermAlertNChange false s = _
    simp only [execThermAlertNChange, hv, hp, hs]
    rfl
  · rw [event_only _ _ _ _ _ .pins (by decide), brakeChange_only_after counting s .pins (by decide)]
    rfl
  · rw [event_power, hpower]
    exact congrArg (fun o => some (o.getD (s.time.clk + 500000000))) hc

theorem thermAlertNChange_rises (hv : s.power.v52 = true) (hp : s.pins.thermAlertN = false) :
    ∃ t, exec (.thermAlertNChange true) s = .next t ∧ t.pins.thermAlertN = true ∧ t.power.highAt = some s.time.clk ∧
      t.power.countdown = s.power.countdown := by
  let risen (s : State) : State := { s with pins := { s.pins with thermAlertN := true } }
  let noted : State := modPower (fun p => { p with highAt := some s.time.clk }) s
  obtain ⟨_, _, _, _, _, hpower⟩ := brakeChange_records risen noted
  refine ⟨brakeChange risen noted, ?_, ?_, ?_, ?_⟩
  · change execThermAlertNChange true s = _
    simp only [execThermAlertNChange, hv, hp]
    rfl
  · rw [brakeChange_only_after risen noted .pins (by decide)]
  · rw [hpower]
    rfl
  · rw [hpower]
    rfl

theorem thermAlertNChange_same (hv : s.power.v52 = true) {b : Bool} (hp : s.pins.thermAlertN = b) :
    exec (.thermAlertNChange b) s = .next s := by
  refine congrArg Host.Outcome.next ?_
  cases b with
  | true => simp [hv, hp]
  | false => simp [hv, hp]

theorem thermAlertClear_stops {d a : Nat} (hv : s.power.v52 = true) (hd : s.power.countdown = some d)
    (ha : s.power.highAt = some a) (hlt : a + 1000000 < d) (hclk : s.time.clk ≤ a + 1000000) :
    ∃ t, exec .thermAlertClear s = .next t ∧ t.power.countdown = none ∧ t.power.leftTicks = d - (a + 1000000) ∧
      t.power.stoppedAt = some (a + 1000000) := by
  let waited := waitUntil (a + 1000000) s
  have hreached : waited.time.clk = a + 1000000 := (waitUntil_clk _ hv).trans (max_eq_right hclk)
  let stopped (s : State) := modPower (fun p => { p with countdown := none, leftTicks := d - waited.time.clk,
                                                         stoppedAt := some waited.time.clk }) s
  obtain ⟨_, _, _, _, _, hpower⟩ := brakeChange_records stopped waited
  refine ⟨brakeChange stopped waited, ?_, ?_⟩
  · change execThermAlertClear s = _
    simp only [execThermAlertClear, hd, ha]
    exact congrArg Host.Outcome.next (if_neg (by omega))
  · rw [hpower, ← hreached]
    exact ⟨rfl, rfl, rfl⟩

theorem thermCountdownExpire_shuts {d : Nat} (hv : s.power.v52 = true) (hd : s.power.countdown = some d)
    (hh : s.power.highAt = none) (hs : s.power.shutdown = none) (ho : s.power.off = false) (hclk : s.time.clk ≤ d) :
    ∃ t, exec .thermCountdownExpire s = .next t ∧ t.power.shutdown = some d ∧ t.power.alertOff = true ∧
      t.power.countdown = none := by
  let expired := modPower (fun p => { p with alertOff := true }) (waitUntil d s)
  have hpow : expired.power = { s.power with alertOff := true } := by rw [← waitUntil_power d s]; rfl
  have hreached : expired.time.clk = d := (waitUntil_clk _ hv).trans (max_eq_right hclk)
  obtain ⟨_, _, _, _, _, hshut⟩ := orderlyShutdown_begins (s := expired)
    (by rw [hpow]; exact hs) (by rw [hpow]; exact ho)
  refine ⟨modPower (fun p => { p with countdown := none }) (orderlyShutdown expired), ?_, ?_⟩
  · change execThermCountdownExpire s = _
    simp only [execThermCountdownExpire, hd, hh]
    rfl
  · rw [modPower_power, hshut, hreached]
    exact ⟨rfl, rfl, rfl⟩

end Brake

/-- Settles O36: the input by what a sample, its deadlines and the shutdown leave; each pin by the brake it changes. -/
theorem inputAndBrake : Obligations.InputAndBrake :=
  ⟨fun _ hv => ⟨fun _ hmv => congrArg Host.Outcome.next ((if_neg (by simp [hv])).trans (if_pos hmv)),
      fun _ => inputVoltageSample_brakes hv, fun _ => inputVoltageSample_shuts hv, fun _ => uvBrakeRelease_ends hv,
      fun _ => shutdownRailsOff_ends hv, fun _ => voltageRestart_resets⟩,
    fun _ hv => ⟨pwrBrakeNChange_caps hv, thermAlertNChange_counts hv, thermAlertNChange_rises hv,
      fun _ => thermAlertNChange_same hv, fun _ _ => thermAlertClear_stops hv,
      fun _ => thermCountdownExpire_shuts hv⟩⟩

end Sys2Proof

namespace Sys2Proof
open Machine Claims

/-! # Fences, the reset pin, caches and the bridge (O51) -/

section Faults

variable {s : State} {b n : Nat}

/-! ## The entry into the safe state clears no status bit -/

theorem withdrawModule_bits (i tick cause : Nat) (h : (win s b).sts.getLsbD n = true) :
    (win (withdrawModule i tick cause s) b).sts.getLsbD n = true := by
  have hput (i tick cause : Nat) (u : State) : BookKept u (schedPut i tick 6 0 cause false 0 u) :=
    .ofOnly (schedPut_only _ _ _ _ _ _ _ _) (by decide) (by decide)
  have hnotice (k t : Nat) (l : List Nat) (u : State) : BookKept u (noticeAll k t l u) :=
    .fold (fun v p => sendOn_kept _ _ v) _ u
  have hwithdraw : BookKept s (withdrawModule i tick cause s) :=
    .branch (.refl s) (.after (hnotice _ _ _ _) (.after (hput _ _ _ _)
      (.when (.ofOnly (modFab_only _ s) (by decide) (by decide)))))
  exact hwithdraw.sts b n h

/-- A port that is not joined changes its state without sending its queue again. -/
theorem setPortSt_kept (p st : Nat) (s : State) (h : (port s p).st ≠ 4) : BookKept s (setPortSt p st s) := by
  have hmod (f : Port → Port) (u : State) : BookKept u (modPort p f u) :=
    .ofOnly (modPort_only _ _ _) (by decide) (by decide)
  unfold setPortSt
  dsimp only
  split
  · exact hmod _ s
  · exact .after (event_kept _ _ _ _ _) (hmod _ s)

theorem retrainQuiet_kept (p : Nat) (s : State) (h : (port s p).st ≠ 4) : BookKept s (retrainQuiet p s) := by
  have hmod (f : Port → Port) (u : State) : BookKept u (modPort p f u) :=
    .ofOnly (modPort_only _ _ _) (by decide) (by decide)
  refine .after (setPortSt_kept p 1 _ ?_) (.after (hmod _ _) (hmod _ s))
  rwa [port_modPort, if_pos rfl, port_modPort, if_pos rfl]

theorem endRun_kept (k : Nat) (rc : RunCmd) (s : State) : BookKept s (endRun k rc s) := by
  refine .branch (.ofOnly (setRun_only _ _ _) (by decide) (by decide)) (.branch (.fold (fun u p => ?_) _ s) (.refl s))
  split
  · next h => exact retrainQuiet_kept p u (by rw [h]; decide)
  · exact .refl u

theorem answerTakeover_kept (old : Half) (s : State) : BookKept s (answerTakeover old s) := by
  refine .after (.fold (fun u x => ?_) _ _)
    (.fold (fun u k => .ofOnly (answerPage_only _ _ _ _ u) (by decide) (by decide)) _ s)
  have hset : BookKept u (setRun x.1 none u) := .ofOnly (setRun_only _ _ _) (by decide) (by decide)
  unfold vacate
  dsimp only
  split
  · exact .after (endRun_kept _ _ _) hset
  · exact hset

theorem safePorts_bits (old : Half) (h : (win s b).sts.getLsbD n = true) :
    (win (safePorts old s) b).sts.getLsbD n = true := by
  have hquiet {ps : List Zone} {t u : State} (k : Only ps t u) (hl : Zone.led ∉ ps) (hw : Zone.win ∉ ps) :
      BookKept t u := .ofOnly k hl hw
  have hcrown (f : Crown → Crown) (u : State) : BookKept u (modCrown f u) :=
    hquiet (modCrown_only f u) (by decide) (by decide)
  have hvector (u : State) : BookKept u (vector0 u) := hquiet (vector0_only u) (by decide) (by decide)
  have hend (u : State) : BookKept u (endPause u) := hquiet (endPause_only u) (by decide) (by decide)
  have hports : BookKept s (safePorts old s) :=
    .branch (.after (.branch (.after (hquiet (flushHeld_only _) (by decide) (by decide)) (answerTakeover_kept old _))
        (hquiet (resumeWatch_only _ _) (by decide) (by decide))) (.after (hvector _) (hcrown _ s)))
      (.branch (.refl s) (.branch (.after (hvector _) (.after (hcrown _ _) (hend s))) (hend s)))
  exact hports.sts b n h

theorem enterSafe_bits (bridge : Bool) (h : (win s b).sts.getLsbD n = true) :
    (win (enterSafe bridge s) b).sts.getLsbD n = true := by
  have hwithdraw {u : State} (hu : (win u b).sts.getLsbD n = true) :
      (win (if bridge then withdrawModule 0 (u.time.sup + 100000) 3 u else u) b).sts.getLsbD n = true := by
    split
    · exact withdrawModule_bits _ _ _ hu
    · exact hu
  by_cases hsafe : s.crown.safe = true
  · rw [enterSafe_again bridge hsafe]
    exact hwithdraw h
  unfold enterSafe
  rw [if_neg hsafe]
  extract_lets was old marked capped told fenced m live began ended shown ports sent
  have hcapped : (win capped b).sts.getLsbD n = true := capUpdate_keeps (brakeStart_keeps was h)
  have htold : (win told b).sts.getLsbD n = true := by
    unfold told
    split
    · exact hcapped
    · exact event_keeps 2 9 0 0 hcapped
  have hfenced : (win fenced b).sts.getLsbD n = true := by
    have hall : (win (fenceAll 1 4 told) b).sts.getLsbD n = true :=
      foldl_keeps (P := fun u => (win u b).sts.getLsbD n = true) (fun u i hu => fenceWith_bits hu false 1 4 0 false i)
        _ told htold
    rw [(closeAllReqs_only _ _).win_eq (by decide)]
    exact hall
  have hserved : ports = safePorts old fenced := rfl
  have hports : (win ports b).sts.getLsbD n = true := hserved ▸ safePorts_bits old hfenced
  have hsent : (win sent b).sts.getLsbD n = true := plEvent_keeps _ _ hports
  exact hwithdraw hsent

/-! ## A complex that fails (R424, R437) -/

theorem mon_complexFails_self (h : Half) (s : State) : mon (complexFails h s) h = failedMon s.time.clk (mon s h) := by
  unfold complexFails
  extract_lets failed
  have hmon : mon failed h = failedMon s.time.clk (mon s h) := mon_modMon_self _ _ _
  split
  · exact hmon
  split
  · next hover =>
    obtain ⟨_, _, _, hcrown⟩ := enterSafe_crown (s := failed) false (by simpa using hover.2)
    rw [← hmon]
    simp only [mon, hcrown]
  split
  · rw [(vector0_only _).mon_eq rfl, mon_modCrown, ← hmon]
    simp only [mon, endPause_crown]
  · exact hmon

theorem complexFails_bits (h : Half) (hs : (win s b).sts.getLsbD n = true) :
    (win (complexFails h s) b).sts.getLsbD n = true := by
  unfold complexFails
  extract_lets failed
  have hfailed : (win failed b).sts.getLsbD n = true := by
    rwa [(modMon_only _ _ s : Only [.crown] s failed).win_eq (by decide)]
  split
  · exact hfailed
  split
  · exact enterSafe_bits false hfailed
  split
  · rw [Only.win_eq (.after (vector0_only _) (.after (modCrown_only _ _) (endPause_only failed))) (by decide)]
    exact hfailed
  · exact hfailed

/-! ## The caches of the control cores (R24, R506) -/

theorem cacheError_corrected {h : Half} (hr : s.power.rails = true) (ha : (win s (8 + h.num)).armed = false) :
    ∃ t, exec (.controlCoreCacheError h true .clean) s = .next t ∧ (win t (8 + h.num)).sts.getLsbD 1 := by
  refine ⟨eventG false h (8 + h.num) 1 0 0 s, ?_, eventG_sets _ _ _ _ _ (by decide)⟩
  change execControlCoreCacheError h true .clean s = _
  simp [execControlCoreCacheError, injMode_unarmed _ _ ha, hr]

theorem cacheError_transient {h : Half} (hr : s.power.rails = true) (ha : (win s (8 + h.num)).armed = false) :
    ∃ t, exec (.controlCoreCacheError h false .transient) s = .next t ∧ (win t (8 + h.num)).sts.getLsbD 2 ∧
      (mon t h).cpFailed = (mon s h).cpFailed := by
  refine ⟨eventG false h (8 + h.num) 2 0 0 s, ?_, eventG_sets _ _ _ _ _ (by decide), ?_⟩
  · change execControlCoreCacheError h false .transient s = _
    simp [execControlCoreCacheError, injMode_unarmed _ _ ha, hr, injRetry]
  · rw [(eventG_only _ _ _ _ _ _ _).mon_eq rfl]

theorem cacheError_lasting {h : Half} (hr : s.power.rails = true) (ha : (win s (8 + h.num)).armed = false) :
    ∃ t, exec (.controlCoreCacheError h false .lasting) s = .next t ∧ (win t (8 + h.num)).sts.getLsbD 3 ∧
      (mon t h).cpFailed = true ∧ (mon t h).live = false := by
  let failed := modMon h (fun m => { m with cpFailed := true }) (eventG false h (8 + h.num) 3 0 0 s)
  have hfailed : (win failed (8 + h.num)).sts.getLsbD 3 = true := by
    rw [(modMon_only _ _ _ : Only [.crown] _ failed).win_eq (by decide)]
    exact eventG_sets _ _ _ _ _ (by decide)
  have hmon : (mon failed h).cpFailed = true := by rw [mon_modMon_self]
  have hexec : exec (.controlCoreCacheError h false .lasting) s = .next (
      if h = failed.crown.holder then complexFails h failed
      else modMon h (fun m => { m with live := false, standby := 2 })
        (modCrown (fun c => { c with standby := 2 }) failed)) := by
    change execControlCoreCacheError h false .lasting s = _
    simp [execControlCoreCacheError, injMode_unarmed _ _ ha, hr, injRetry, failed]
  refine ⟨_, hexec, ?_⟩
  split
  · rw [mon_complexFails_self]
    exact ⟨complexFails_bits h hfailed, hmon, rfl⟩
  · rw [mon_modMon_self, mon_modCrown, Only.win_eq (.after (modMon_only _ _ _) (modCrown_only _ failed)) (by decide)]
    exact ⟨hfailed, hmon, rfl⟩

/-! ## The bridge (R507, R515) -/

theorem bridgeMainbandError_retried {h : Half} (hr : s.power.rails = true) (ha : (win s 6).armed = false) :
    ∃ t, exec (.bridgeMainbandError h true) s = .next t ∧ (win t 6).sts.getLsbD 1 ∧ t.brRetrain = s.brRetrain := by
  refine ⟨eventG false h 6 1 0 h.num s, ?_, eventG_sets _ _ _ _ _ (by decide),
    eventG_only _ _ _ _ _ _ s .bridge (by decide)⟩
  change execBridgeMainbandError h true s = _
  simp [execBridgeMainbandError, injMode_unarmed _ _ ha, hr]

theorem bridgeMainbandError_retrains {h : Half} (hr : s.power.rails = true) (ha : (win s 6).armed = false) :
    exec (.bridgeMainbandError h false) s = .next { s with brRetrain := true } := by
  change execBridgeMainbandError h false s = _
  simp [execBridgeMainbandError, injMode_unarmed _ _ ha, hr]

/-- The bridge after its retrain, with what waited for it sent on. -/
def bridgeBack (s : State) : State := bridgeOpens { s with brRetrain := false }

theorem bridgeBack_up (s : State) : (bridgeBack s).brRetrain = false := bridgeOpens_only _ .bridge (by decide)

theorem bridgeBack_crown (s : State) : (bridgeBack s).crown = s.crown := (bridgeOpens_only _).crown_eq rfl

theorem exec_bridgeRetrainDone {h : Half} (ok : Bool) (hb : s.brRetrain = true) : exec (.bridgeRetrainDone h ok) s =
    .next (if ok then eventG false h 6 2 0 h.num (bridgeBack s)
      else enterSafe true (eventG false h 6 3 0 h.num (bridgeBack s))) :=
  congrArg Host.Outcome.next (if_neg (by simp [hb]))

theorem bridgeRetrainDone_clears {h : Half} (hb : s.brRetrain = true) :
    ∃ t, exec (.bridgeRetrainDone h true) s = .next t ∧ t.brRetrain = false ∧ (win t 6).sts.getLsbD 2 ∧
      t.crown.safe = s.crown.safe := by
  refine ⟨_, exec_bridgeRetrainDone true hb, ?_, eventG_sets _ _ _ _ _ (by decide), ?_⟩
  · exact (eventG_only _ _ _ _ _ _ _ .bridge (by decide)).trans (bridgeBack_up s)
  · exact congrArg Crown.safe (((eventG_only _ _ _ _ _ _ _).crown_eq rfl).trans (bridgeBack_crown s))

theorem enterSafe_safe (bridge : Bool) (s : State) : (enterSafe bridge s).crown.safe = true := by
  cases hsafe : s.crown.safe with
  | true =>
    have hcrown : (enterSafe bridge s).crown = s.crown := by
      rw [enterSafe_again bridge hsafe]
      exact Only.crown_eq (.when (withdrawModule_only _ _ _ s)) rfl
    rw [hcrown, hsafe]
  | false =>
    obtain ⟨_, _, _, hcrown⟩ := enterSafe_crown bridge hsafe
    rw [hcrown]

theorem bridgeRetrainDone_fails {h : Half} (hb : s.brRetrain = true) :
    ∃ t, exec (.bridgeRetrainDone h false) s = .next t ∧ t.brRetrain = false ∧ (win t 6).sts.getLsbD 3 ∧
      t.crown.safe = true := by
  refine ⟨_, exec_bridgeRetrainDone false hb, ?_, enterSafe_bits true (eventG_sets _ _ _ _ _ (by decide)),
    enterSafe_safe _ _⟩
  exact (Only.after (enterSafe_only true _) (eventG_only _ _ _ _ _ _ _) .bridge (by decide)).trans (bridgeBack_up s)

/-! ## Release of a fence (R520) -/

theorem exec_fenceRelease {part : Fin 36} {p : Machine.Part} {f : Fence} (hp : part? s part.val = some p)
    (hf : p.fence = some f) (hv : serving s = true) :
    exec (.fenceRelease part) s = .next (releaseFence part.val (waitUntil (f.at_ + 5000) s)) := by
  have hmay : mayRelease s part.val = true := by simp [mayRelease, hv]
  refine congrArg Host.Outcome.next ?_
  simp only [hp, hf, hmay, if_true]

theorem releaseFence_frees {i : Nat} {p : Machine.Part} {f : Fence} (hp : part? s i = some p) (hf : p.fence = some f)
    (hd : f.destroy = false) (hq : p.queue = []) :
    (part? (releaseFence i s) i).map (·.fence) = some none := by
  have hlifted {u v : State} (hu : part? u i = some p)
      (k : Only [.mbx, .clusters] (modPart i (fun x => { x with fence := none }) u) v) :
      (part? v i).map (·.fence) = some none := by
    rw [part_congr (congrArg Work.parts (k .work (by decide))) i, part_modPart _ hu]
    rfl
  have hreset (g : List Signal) (l : List Nat) : part? (dropTaps i (resetEngine i (l.foldl
      (fun s c => closeWins c (zeroCluster c s)) { s with comp := { s.comp with signals := g } }))) i = some p := by
    have hframe := Only.after (dropTaps_only i _) (.after (resetEngine_only i _) (.after
      (.fold (l := l) (fun u c => .after (closeWins_only c _) (zeroCluster_only c u)) (.none _)) (putSignals_only g s)))
    exact (part_congr (congrArg Work.parts (hframe .work (by decide))) i).trans hp
  have hanswer (u : State) (k : Nat) : Only [.mbx] u (match running u k with
      | some r =>
        if r.arg = 0 then respond k stOk 0 (natLe 4 r.deadline) u
        else match launch? u p.ctx r.arg with
          | some l => respond k stOk 0 (recordOf l) u
          | none => respond k stOk 0 [] u
      | none => u) := by
    split
    · split
      · exact respond_only _ _ _ _ _
      split
      · exact respond_only _ _ _ _ _
      · exact respond_only _ _ _ _ _
    · exact .refl _ _
  unfold releaseFence
  simp only [hp, hf, hq, List.foldl_nil, hd, Bool.false_eq_true, if_false]
  exact hlifted (hreset _ _) (.sub (.after (.fold hanswer (.none _)) (.after
    (.fold (fun _ _ => respond_only _ _ _ _ _) (.none _)) (.fold (fun _ _ => modCluster_only _ _ _) (.none _)))) rfl)

/-! ## The reset pin (R527) -/

theorem moduleReset_start (s : State) :
    (moduleReset s).start.phase = 2 ∧ (moduleReset s).start.inReset = !s.pins.modResetN := by
  have hclosed : ((s.work.ctxs.map (·.1)).foldl (fun s c => hostEvent c 5 0 2 (hostEvent c 4 0 2 s)) s).pins = s.pins :=
    Only.fold (fun _ _ => .after (hostEvent_only _ _ _ _ _) (hostEvent_only _ _ _ _ _)) (.none s) .pins (by decide)
  unfold moduleReset
  rw [capUpdate_only _ .start (by decide), ← hclosed]
  exact ⟨rfl, rfl⟩

/-- The state with MOD_RESET_N low. -/
def resetPinned (s : State) : State := { s with pins := { s.pins with modResetN := false } }

theorem exec_modResetN (hv : s.power.v52 = true) (ht : s.crown.tripped = false) (ho : s.power.off = false)
    (hp : s.start.phase ≠ 7) (hi : s.start.inReset = false) : exec .modResetN s =
      .next (if s.power.rails then scheduleReset (s.time.sup + 100000) 1 (resetPinned s)
        else moduleReset (resetPinned s)) := by
  change execModResetN s = _
  simp only [execModResetN, hv, ht, ho, hp, hi]
  cases s.power.rails with
  | true => rfl
  | false => rfl

theorem modResetN_schedules (hv : s.power.v52 = true) (ht : s.crown.tripped = false) (ho : s.power.off = false)
    (hp : s.start.phase ≠ 7) (hi : s.start.inReset = false) (hr : s.power.rails = true) :
    ∃ t, exec .modResetN s = .next t ∧ t.pins.modResetN = false ∧
      t.start.resetAt = some (sched t 1).rt ∧ (sched t 1).st = 1 ∧
      (sched t 1).rt =
        (if (sched s 1).st = 1 then min (sched s 1).rt (s.time.sup + 100000) else s.time.sup + 100000) := by
  obtain ⟨hst, hrt⟩ := sched_scheduleReset (s.time.sup + 100000) 1 (resetPinned s)
  refine ⟨_, exec_modResetN hv ht ho hp hi, ?_⟩
  rw [if_pos hr]
  exact ⟨by rw [scheduleReset_only _ _ _ .pins (by decide)]; rfl, rfl, hst, hrt⟩

theorem modResetN_resets (hv : s.power.v52 = true) (ht : s.crown.tripped = false) (ho : s.power.off = false)
    (hp : s.start.phase ≠ 7) (hi : s.start.inReset = false) (hr : s.power.rails = false) :
    ∃ t, exec .modResetN s = .next t ∧ t.start.inReset = true ∧ t.start.phase = 2 := by
  obtain ⟨hphase, hreset⟩ := moduleReset_start (resetPinned s)
  refine ⟨_, exec_modResetN hv ht ho hp hi, ?_⟩
  rw [if_neg (by simp [hr])]
  exact ⟨hreset, hphase⟩

end Faults

/-- Settles O51: the release by what it leaves of the partition, the pin by its two branches, the caches and the bridge
by their outcomes, of whose events nothing that follows clears the bit. -/
theorem fencesCachesAndBridge : Obligations.FencesCachesAndBridge :=
  ⟨fun _ => ⟨fun _ _ _ hp hf hv => ⟨exec_fenceRelease hp hf hv, releaseFence_frees hp hf⟩,
      fun hv ht ho hp hi => ⟨modResetN_schedules hv ht ho hp hi, modResetN_resets hv ht ho hp hi⟩, rfl⟩,
    fun _ _ hr => ⟨fun ha => ⟨cacheError_corrected hr ha, cacheError_transient hr ha, cacheError_lasting hr ha⟩,
      fun ha => ⟨bridgeMainbandError_retried hr ha, bridgeMainbandError_retrains hr ha⟩,
      fun hb => ⟨bridgeRetrainDone_clears hb, bridgeRetrainDone_fails hb⟩⟩⟩

end Sys2Proof

namespace Sys2Proof
open Machine Claims

/-! # The 52 V input, the standby supply and the rails (O30) -/

section Supply

variable {s : State}

/-! ## The supervisor's start (R532, R533) -/

theorem runStarter_runs (s : State) :
    (runStarter s).power.v52 = s.power.v52 ∧ (runStarter s).start.phase = 2 := ⟨rfl, rfl⟩

/-- With or without a good starter, the supervisor runs from the input that is there. -/
theorem supervisorStart_runs (r : Retry) (s : State) : (supervisorStart r s).power.v52 = s.power.v52 ∧
    ((supervisorStart r s).start.phase = 2 ∨ (supervisorStart r s).start.phase = 7) := by
  have hread : (flashRead r s).power = s.power := flashRead_only r s .power (by decide)
  unfold supervisorStart
  extract_lets read fl cl claimed dir loaded d ok fallback
  have hloaded : loaded.power = s.power := hread
  split
  · obtain ⟨hv, hp⟩ := runStarter_runs loaded
    exact ⟨hv.trans (congrArg Power.v52 hloaded), .inl hp⟩
  split
  · obtain ⟨hv, hp⟩ := runStarter_runs
      (modStart (fun x => { x with fallback := true }) (writeDir .clean fallback loaded).2)
    have hwritten : (writeDir .clean fallback loaded).2.power = loaded.power := writeDir_only _ _ _ .power (by decide)
    exact ⟨hv.trans (congrArg Power.v52 (hwritten.trans hloaded)), .inl hp⟩
  · exact ⟨congrArg Power.v52 hloaded, .inr rfl⟩

/-! ## The input comes (R532, R585) -/

/-- The state of a module whose input has just come. -/
def inputUp (id : BitVec 6) (s : State) : State :=
  let u := modPower (fun p => { p with v52 := true, mv := 52000, goodAt := some 0, rangeAt := some 0 }) (powerLost s)
  { u with ident := { u.ident with mid := id.toNat, slot := id.toNat } }

theorem exec_powerOn52v (id : BitVec 6) (r : Retry) (hv : s.power.v52 = false) : exec (.powerOn52v id r) s =
    .next (if s.pins.aux3v3 then supervisorStart r (inputUp id s)
      else modStart (fun x => { x with phase := 1, arrived := true }) (inputUp id s)) :=
  congrArg Host.Outcome.next (if_neg (by simp [hv]))

theorem powerOn52v_starts (id : BitVec 6) (r : Retry) (hv : s.power.v52 = false) :
    ∃ t, exec (.powerOn52v id r) s = .next t ∧ t.power.v52 = true ∧ t.time = {} ∧ t.ident.mid = id.toNat ∧
      t.pending = s.pending ∧ (s.pins.aux3v3 = false → t.start.phase = 1 ∧ t.flash = s.flash) ∧
      (s.pins.aux3v3 = true → t.start.phase = 2 ∨ t.start.phase = 7) := by
  refine ⟨_, exec_powerOn52v id r hv, ?_⟩
  split
  · next haux =>
    obtain ⟨hup, hphase⟩ := supervisorStart_runs r (inputUp id s)
    have hframe := supervisorStart_only r (inputUp id s)
    have hident := hframe .ident (by decide)
    exact ⟨hup, hframe .time (by decide), by rw [hident]; rfl, hframe .pending (by decide),
      fun h => absurd (haux.symm.trans h) (by decide), fun _ => hphase⟩
  · next haux => exact ⟨rfl, rfl, rfl, rfl, fun _ => ⟨rfl, rfl⟩, fun h => absurd h haux⟩

/-! ## The standby supply (R533) -/

theorem aux3v3Loss_tells (hv : s.power.v52 = true) (ha : s.pins.aux3v3 = true) :
    ∃ t, exec .aux3v3Loss s = .next t ∧ t.pins.aux3v3 = false ∧ (win t 5).sts.getLsbD 4 ∧
      Only [.pins, .win, .ctr, .mbx] s t := by
  have hpins : Only [.pins] s { s with pins := { s.pins with aux3v3 := false } } := putPins_only _ s
  refine ⟨_, congrArg Host.Outcome.next (if_pos ⟨hv, ha⟩), ?_, event_sets 0 0 _ (by decide),
    .sub (.after (event_only _ _ _ _ _) hpins) rfl⟩
  rw [event_only _ _ _ _ _ .pins (by decide)]

theorem aux3v3Return_starts : ∃ t, exec .aux3v3Return s = .next t ∧ t.pins.aux3v3 = true ∧
    (s.power.v52 = true → s.start.arrived = true → t.start.phase = 2 ∨ t.start.phase = 7) := by
  let supplied : State := { s with pins := { s.pins with aux3v3 := true } }
  have hexec : exec .aux3v3Return s = .next (
      if supplied.power.v52 ∧ supplied.start.arrived then supervisorStart .clean supplied else supplied) := rfl
  refine ⟨_, hexec, ?_⟩
  split
  · exact ⟨by rw [supervisorStart_only _ _ .pins (by decide)], fun _ _ => (supervisorStart_runs _ _).2⟩
  · next hno => exact ⟨rfl, fun hv ha => absurd ⟨hv, ha⟩ hno⟩

/-! ## The rails (R486) -/

theorem railSequence_powers (hphase : s.start.phase = 2) (hv : s.power.v52 = true) (hreset : s.start.inReset = false)
    (hoff : s.power.off = false) (hrails : s.power.rails = false) (htrip : s.crown.tripped = false) :
    ∃ t, exec (.railSequence []) s = .next t ∧ t.power.rails = true ∧ t.start.phase = 3 ∧ t.start.rails = 5 ∧
      t.time.clk = s.time.clk + 20000000 := by
  let railed := modPower (fun p => { p with rails := true })
    (modStart (fun x => { x with phase := 3, rails := 5 }) (advance 20000000 s))
  have hexec : exec (.railSequence []) s = .next (trainAll railed) :=
    congrArg Host.Outcome.next (if_neg (by simp [hphase, hv, hreset, hoff, hrails, htrip]))
  have hframe := trainAll_only railed
  refine ⟨_, hexec, ?_, ?_, ?_, ?_⟩
  · rw [hframe .power (by decide)]
    rfl
  · rw [hframe .start (by decide)]
    rfl
  · rw [hframe .start (by decide)]
    rfl
  · rw [hframe .time (by decide), ← advance_clk 20000000 hv]
    rfl

end Supply

/-- Settles O30: each supply by what its coming and going leave of the module. -/
theorem powerComesAndGoes : Obligations.PowerComesAndGoes := fun _ =>
  ⟨powerOn52v_starts, ⟨rfl, rfl, rfl, rfl, rfl, rfl⟩, aux3v3Loss_tells, aux3v3Return_starts, railSequence_powers⟩

end Sys2Proof

namespace Sys2Proof
open Machine Claims

/-! # Activation of firmware (O57) -/

section Activation

variable {s : State}

theorem actDone_start (r : Nat) (s : State) : (actDone r s).start = { s.start with actResult := r } :=
  plEvent_only _ _ _ .start (by decide)

/-! ## At the tick of the activation (R557, R558) -/

/-- The state in which an activation is dispatched: nothing more of it is pending. -/
def activationTaken (s : State) : State :=
  { s with sched := { s.sched with out := [] }, fw := { s.fw with pending := none },
           start := { s.start with dir := { s.start.dir with pendRt := 0 } } }

theorem exec_fwActivateExecute {x : Dispatch}
    (hx : takeDispatch 2 s = some (x, { s with sched := { s.sched with out := [] } }))
    (hslot : fld x.arg 7 0 ≤ 1) (hver : slotVer { s.start.dir with pendRt := 0 } (fld x.arg 7 0) = fld x.arg 63 32) :
    exec .fwActivateExecute s = .next (
      let ch := partsChanged { s.start.dir with pendRt := 0 } (fld x.arg 7 0) (fld x.arg 15 8)
      let u := if ch.2 then activateTiles (fld x.arg 7 0) (activationTaken s) else activationTaken s
      if !ch.1 then actDone 1 u
      else if u.crown.standby ≠ 0 then actDone 2 u
      else activateControl (fld x.arg 7 0) u) := by
  change execFwActivateExecute s = _
  simp only [execFwActivateExecute, hx]
  exact congrArg Host.Outcome.next (if_neg (by rw [hver]; omega))

/-- The state in which a slot's tile image is in force, before free clusters take it. -/
def tilesLoaded (slot : Nat) (s : State) : State :=
  let u := (writeDir .clean { s.start.dir with tileSlot := slot } s).2
  { u with start := { u.start with dir := { s.start.dir with tileSlot := slot },
                                   run := FMap.put u.start.run 3 (hashOf u slot 3) },
           fw := { u.fw with tileVer := slotTile { s.start.dir with tileSlot := slot } slot } }

theorem tilesLoaded_pending (slot : Nat) (s : State) : (tilesLoaded slot s).fw.pending = s.fw.pending := by
  have hwritten : (writeDir .clean { s.start.dir with tileSlot := slot } s).2.fw = s.fw :=
    writeDir_only _ _ _ .fw (by decide)
  rw [← hwritten]
  rfl

theorem activateTiles_loads (slot : Nat) (s : State) : Only [.clusters] (tilesLoaded slot s) (activateTiles slot s) :=
  .fold (l := List.range 36) (f := fun u c => if (cluster u c).part.isNone then modCluster c (fun x =>
      { x with tileVer := slotTile { s.start.dir with tileSlot := slot } slot }) u else u)
    (fun _ _ => .when (modCluster_only _ _ _)) (.none (tilesLoaded slot s))

/-- The pause begins: commands are answered, the holder has its time, and the slot is noted. -/
theorem activateControl_begins (slot : Nat) (s : State) : let t := activateControl slot s
    t.crown.activating = some s.time.clk ∧ t.fw.actSlot = slot ∧ t.fw.actFail = false := by
  intro t
  have hanswered (l : List Nat) : Only [.mbx] s (l.foldl (fun u k => respond k stBusyActivate 0 [] u) s) :=
    .fold (fun _ _ => respond_only _ _ _ _ _) (.none s)
  have hpaged (l : List Nat) (u : State) : Only [.mbx] u (l.foldl (fun u k =>
      if (running u k).isNone then answerPage k stBusyActivate 0 [] u else u) u) :=
    .fold (fun _ _ => .when (answerPage_only _ _ _ _ _)) (.none u)
  unfold t activateControl
  extract_lets answered paged fw noted timed
  have htime : timed.time = s.time := by
    have hpage : paged.time = s.time := Only.time_eq (.after (hpaged _ _) (hanswered _)) rfl
    rw [(modMon_only _ _ _ : Only [.crown] noted timed).time_eq rfl, ← hpage]
  have hfw : (vector0 (modCrown (fun c => { c with activating := some timed.time.clk }) timed)).fw = noted.fw :=
    Only.after (vector0_only _) (.after (modCrown_only _ _) (modMon_only _ _ _)) .fw (by decide)
  refine ⟨?_, by rw [hfw], by rw [hfw]⟩
  rw [(vector0_only _).crown_eq rfl, modCrown_crown, htime]

theorem fwActivateExecute_tiles {x : Dispatch}
    (hx : takeDispatch 2 s = some (x, { s with sched := { s.sched with out := [] } }))
    (hslot : fld x.arg 7 0 ≤ 1) (hver : slotVer { s.start.dir with pendRt := 0 } (fld x.arg 7 0) = fld x.arg 63 32)
    (hch : partsChanged { s.start.dir with pendRt := 0 } (fld x.arg 7 0) (fld x.arg 15 8) = (false, true)) :
    ∃ t, exec .fwActivateExecute s = .next t ∧
      t.fw.tileVer = slotTile { s.start.dir with pendRt := 0, tileSlot := fld x.arg 7 0 } (fld x.arg 7 0) ∧
      t.start.dir.tileSlot = fld x.arg 7 0 ∧ t.start.actResult = 1 ∧ t.fw.pending = none ∧
      t.crown.activating = s.crown.activating := by
  let taken := activationTaken s
  let slot := fld x.arg 7 0
  have hexec : exec .fwActivateExecute s = .next (actDone 1 (activateTiles slot taken)) := by
    rw [exec_fwActivateExecute hx hslot hver, hch]
    exact congrArg Host.Outcome.next (if_pos rfl)
  have hloads := activateTiles_loads slot taken
  have hcrown : (activateTiles slot taken).crown = taken.crown := (activateTiles_only _ _).crown_eq rfl
  have hfw : (actDone 1 (activateTiles slot taken)).fw = (tilesLoaded slot taken).fw :=
    (actDone_only 1 _ .fw (by decide)).trans (hloads .fw (by decide))
  have hstart : (actDone 1 (activateTiles slot taken)).start =
      { (tilesLoaded slot taken).start with actResult := 1 } := by
    rw [actDone_start, hloads .start (by decide)]
  refine ⟨_, hexec, ?_⟩
  rw [hfw, hstart, (actDone_only 1 _).crown_eq rfl, hcrown, tilesLoaded_pending]
  exact ⟨rfl, rfl, rfl, rfl, rfl⟩

theorem fwActivateExecute_pauses {x : Dispatch}
    (hx : takeDispatch 2 s = some (x, { s with sched := { s.sched with out := [] } }))
    (hslot : fld x.arg 7 0 ≤ 1) (hver : slotVer { s.start.dir with pendRt := 0 } (fld x.arg 7 0) = fld x.arg 63 32)
    (hch : partsChanged { s.start.dir with pendRt := 0 } (fld x.arg 7 0) (fld x.arg 15 8) = (true, false))
    (hs : s.crown.standby = 0) :
    ∃ t, exec .fwActivateExecute s = .next t ∧ t.crown.activating = some s.time.clk ∧ t.fw.actSlot = fld x.arg 7 0 ∧
      t.fw.actFail = false := by
  have hexec := exec_fwActivateExecute hx hslot hver
  rw [hch] at hexec
  exact ⟨_, hexec.trans (congrArg Host.Outcome.next (if_neg (not_not.2 hs))), activateControl_begins _ _⟩

theorem fwActivateExecute_refuses {x : Dispatch}
    (hx : takeDispatch 2 s = some (x, { s with sched := { s.sched with out := [] } }))
    (hslot : fld x.arg 7 0 ≤ 1) (hver : slotVer { s.start.dir with pendRt := 0 } (fld x.arg 7 0) = fld x.arg 63 32)
    (hch : partsChanged { s.start.dir with pendRt := 0 } (fld x.arg 7 0) (fld x.arg 15 8) = (true, false))
    (hs : s.crown.standby ≠ 0) :
    ∃ t, exec .fwActivateExecute s = .next t ∧ t.start.actResult = 2 ∧ t.crown.activating = s.crown.activating := by
  have hexec := exec_fwActivateExecute hx hslot hver
  rw [hch] at hexec
  refine ⟨_, hexec.trans (congrArg Host.Outcome.next (if_pos hs)), ?_⟩
  rw [actDone_start, (actDone_only 2 _).crown_eq rfl]
  exact ⟨rfl, rfl⟩

/-! ## The end of the pause (R559, R560) -/

/-- The state in which the standby goes on with the slot's image and the old holder halts. -/
def imageTaken (s : State) : State :=
  let d := { s.start.dir with ctrlSlot := s.fw.actSlot }
  let u := (writeDir .clean d s).2
  { u with start := { u.start with dir := d, run := FMap.put u.start.run 2 (hashOf u s.fw.actSlot 2) },
           fw := { u.fw with ctrlVer := slotVer d s.fw.actSlot } }

theorem imageTaken_crown (s : State) : (imageTaken s).crown = s.crown :=
  (writeDir_only .clean { s.start.dir with ctrlSlot := s.fw.actSlot } s).crown_eq rfl

/-- The crown and its monitors as the pause that began at `a` ends. -/
def pauseEnded (a : Nat) (h : Half) (s : State) : State :=
  let u := if s.crown.ckptAt < a then modCrown (fun c => { c with
    ckptSeq := (c.ckptSeq + 1) % 2 ^ 32, ckptSlot := 1 - c.ckptSlot, ckptAt := s.time.clk, journal := 0 }) s else s
  let u := modMon h (fun m => { m with lastWrite := u.time.clk, halted := false }) u
  let u := modMon h.other (fun m => { m with halted := true, live := false, demoted := false, cpFailed := false,
                                             verified := false, standby := 1, failedAt := none }) u
  modCrown (fun c => { c with activating := none, resync := true, standby := 1 }) u

theorem pauseEnded_only (a : Nat) (h : Half) (s : State) : Only [.crown] s (pauseEnded a h s) := by
  unfold pauseEnded
  exact .sub (.after (modCrown_only _ _) (.after (modMon_only _ _ _) (.after (modMon_only _ _ _)
    (.when (modCrown_only _ s))))) rfl

theorem pauseEnded_crown (a : Nat) (h : Half) (s : State) : let t := pauseEnded a h s
    t.crown.activating = none ∧ t.crown.resync = true ∧ (mon t h.other).halted = true ∧
      t.crown.holder = s.crown.holder := by
  have hkept : (if s.crown.ckptAt < a then modCrown (fun c => { c with
      ckptSeq := (c.ckptSeq + 1) % 2 ^ 32, ckptSlot := 1 - c.ckptSlot, ckptAt := s.time.clk, journal := 0 }) s
      else s).crown.holder = s.crown.holder := by
    split
    · rfl
    · rfl
  refine ⟨rfl, rfl, ?_, ?_⟩
  · rw [pauseEnded, mon_modCrown, mon_modMon_self]
  · rw [← hkept]
    cases h with
    | a => rfl
    | b => rfl

theorem controlActivationResume_resumes {a : Nat} (ha : s.crown.activating = some a)
    (htime : s.time.clk ≤ a + 30000000) (hlive : (mon s s.crown.holder).live = true) (hfail : s.fw.actFail = false) :
    ∃ t, exec .controlActivationResume s = .next t ∧ t.crown.activating = none ∧ t.start.dir.ctrlSlot = s.fw.actSlot ∧
      t.start.actResult = 1 ∧ t.crown.resync = true ∧ (mon t s.crown.holder.other).halted = true ∧
      t.crown.holder = s.crown.holder := by
  let ended := pauseEnded a s.crown.holder (imageTaken s)
  obtain ⟨hact, hresync, hhalted, hholder⟩ := pauseEnded_crown a s.crown.holder (imageTaken s)
  have hexec : exec .controlActivationResume s =
      .next (actDone 1 (resumeService (resumeWatch a (vector0 ended)))) := by
    change execControlActivationResume s = _
    simp only [execControlActivationResume, ha]
    exact congrArg Host.Outcome.next (if_neg (by simp [hlive, hfail]; omega))
  have hserves := Only.after (resumeService_only _) (.after (resumeWatch_only a _) (vector0_only ended))
  have hcrown : (actDone 1 (resumeService (resumeWatch a (vector0 ended)))).crown = ended.crown :=
    ((actDone_only 1 _).crown_eq rfl).trans (hserves.crown_eq rfl)
  have hstart : (resumeService (resumeWatch a (vector0 ended))).start = (imageTaken s).start :=
    (hserves .start (by decide)).trans (pauseEnded_only _ _ _ .start (by decide))
  refine ⟨_, hexec, ?_⟩
  rw [actDone_start, hstart, hcrown, (actDone_only 1 _).mon_eq rfl, hserves.mon_eq rfl, hact, hresync, hhalted, hholder,
    imageTaken_crown]
  exact ⟨rfl, rfl, rfl, rfl, rfl, rfl⟩

theorem activationTimeout_fails {a : Nat} (ha : s.crown.activating = some a) (hfail : s.fw.actFail = false) :
    ∃ t, exec .activationTimeout s = .next t ∧ t.fw.actFail = true ∧ t.start.actResult = 3 := by
  let waited := waitUntil (a + 30000000) s
  let told := if (mon waited s.crown.holder).live
    then complexFails s.crown.holder (event (8 + s.crown.holder.num) 4 0 0 waited) else waited
  have hexec : exec .activationTimeout s = .next (actDone 3 { told with fw := { told.fw with actFail := true } }) := by
    change execActivationTimeout s = _
    simp only [execActivationTimeout, ha]
    exact congrArg Host.Outcome.next (if_neg (by simp [hfail]))
  refine ⟨_, hexec, ?_⟩
  rw [actDone_start, actDone_only 3 _ .fw (by decide)]
  exact ⟨rfl, rfl⟩

end Activation

/-- Settles O57: the activation by the parts that it changes, the pause by its resumption and its deadline. -/
theorem firmwareIsActivated : Obligations.FirmwareIsActivated := fun _ =>
  ⟨fun _ hx hslot hver => ⟨fwActivateExecute_tiles hx hslot hver, fwActivateExecute_pauses hx hslot hver,
      fwActivateExecute_refuses hx hslot hver⟩,
    fun _ => controlActivationResume_resumes, fun _ => activationTimeout_fails⟩

end Sys2Proof

namespace Sys2Proof
open Machine Claims

/-! # The start sequence and the MID (O31) -/

section Startup

variable {s : State}

/-! ## The grant of the start (R535) -/

theorem mon_raiseFloors (k : Half) (s : State) : mon (raiseFloors s) k = mon s k :=
  foldl_keeps (P := fun u => mon u k = mon s k) (fun u _ hu => (mon_modCrown k u).trans hu) _ s rfl

/-- A grant writes the monitor of the half that it names only. -/
theorem mon_grant_other (h : Half) (takeover : Bool) (verified : List Bool) (s : State) :
    mon (grant h takeover verified s) h.other = mon s h.other := by
  unfold grant
  extract_lets n r ok flash recorded granted
  have hrecorded : mon recorded h.other = mon s h.other := by
    unfold recorded
    split
    · rfl
    · exact (flashCheck_only _ _ _).mon_eq rfl _
  have hgranted : mon granted h.other = mon s h.other := by
    rw [← hrecorded]
    cases h with
    | a => rfl
    | b => rfl
  split
  · rw [(event_only _ _ _ _ _).mon_eq rfl, hgranted]
  · exact hgranted

/-- The half as the grant of the start leaves it: it runs, on its port, from now. -/
def startedOn (h : Half) (s : State) : State :=
  modCrown (fun c => { c with portA := h = .a, portB := h = .b, standby := 1 })
    (modStart (fun x => { x with grantAt := s.time.clk })
      (modMon h (fun m => { m with halted := false, live := false, lastWrite := s.time.clk }) s))

theorem startGrant_starts (h : Half) (verified : List Bool) (s : State) :
    Only [.mbx] (startedOn h (raiseFloors (grant h false verified s))) (startGrant h verified s) := by
  cases h with
  | a => exact .sub (.after (flushHeld_only _) (vector0_only _)) rfl
  | b => exact .sub (.after (flushHeld_only _) (vector0_only _)) rfl

theorem mon_startedOn_self (h : Half) (s : State) : (mon (startedOn h s) h).halted = false := by
  cases h with
  | a => rfl
  | b => rfl

theorem mon_startedOn_other (h : Half) (s : State) : mon (startedOn h s) h.other = mon s h.other := by
  cases h with
  | a => rfl
  | b => rfl

theorem mon_startGrant_other (h : Half) (verified : List Bool) (s : State) :
    mon (startGrant h verified s) h.other = mon s h.other := by
  rw [(startGrant_starts h verified s).mon_eq rfl, mon_startedOn_other, mon_raiseFloors, mon_grant_other]

theorem startGrant_start (h : Half) (verified : List Bool) (s : State) :
    (startGrant h verified s).start = { s.start with grantAt := s.time.clk } := by
  have hgrant := Only.after (raiseFloors_only _) (grant_only h false verified s)
  have hstart : (raiseFloors (grant h false verified s)).start = s.start := hgrant .start (by decide)
  have htime : (raiseFloors (grant h false verified s)).time = s.time := hgrant .time (by decide)
  have hfree (u : State) : (startedOn h u).start = { u.start with grantAt := u.time.clk } := by
    cases h with
    | a => rfl
    | b => rfl
  rw [startGrant_starts h verified s .start (by decide), hfree, hstart, htime]

theorem startGrant_holder (h : Half) (verified : List Bool) (s : State) : (startGrant h verified s).crown.holder = h :=
  congrArg Prod.snd (startGrant_grants h verified s)

/-- The half that the start prefers (R535). -/
def preferred (s : State) : Half := match setting s 0x0803 with | 1 => Half.a | 2 => Half.b | _ => s.crown.holder

theorem crownStartGrant_grants (v : List Bool) (hp : s.start.phase = 3) (hf : s.start.firstTry = none) :
    ∃ t, exec (.crownStartGrant v) s = .next t ∧ t.start.firstTry = some (preferred s) ∧
      t.crown.holder = preferred s ∧ t.crown.portA = decide (preferred s = .a) ∧
      t.crown.portB = decide (preferred s = .b) ∧ (mon t (preferred s)).halted = false ∧
      t.start.grantAt = s.time.clk := by
  let tried := modStart (fun x => { x with firstTry := some (preferred s) }) s
  have hexec : exec (.crownStartGrant v) s = .next (startGrant (preferred s) v tried) :=
    congrArg Host.Outcome.next (if_neg (by simp [hp, hf]))
  have hstarts := startGrant_starts (preferred s) v tried
  refine ⟨_, hexec, ?_, startGrant_holder _ _ _, ?_, ?_, ?_, ?_⟩
  · rw [startGrant_start]
    rfl
  · rw [hstarts.crown_eq rfl]
    rfl
  · rw [hstarts.crown_eq rfl]
    rfl
  · rw [hstarts.mon_eq rfl]
    exact mon_startedOn_self _ _
  · rw [startGrant_start]
    rfl

/-! ## LIVE that does not come (R535) -/

theorem startFailed_start (cause unit : Nat) (s : State) :
    (startFailed cause unit s).start = { s.start with phase := 8, cause := cause, unit := unit } :=
  plEvent_only _ _ _ .start (by decide)

/-- The state at the deadline of LIVE, the half that missed it halted. -/
def deafHalted (s : State) : State :=
  modMon s.crown.holder (fun m => { m with halted := true, cpFailed := true, standby := 2, own := 0 })
    (waitUntil (s.start.grantAt + 50000000) s)

theorem exec_crownStartLiveTimeout {h : Half} (v : List Bool) (hf : s.start.firstTry = some h)
    (hp : s.start.phase = 3) (hl : (mon s s.crown.holder).live = false) : exec (.crownStartLiveTimeout v) s = .next (
      if (deafHalted s).start.second then startFailed 3 0 (deafHalted s)
      else modCrown (fun c => { c with standby := 2 })
        (startGrant h.other v (modStart (fun x => { x with second := true }) (deafHalted s)))) := by
  change execCrownStartLiveTimeout v s = _
  simp only [execCrownStartLiveTimeout, hf]
  exact congrArg Host.Outcome.next (if_neg (by simp [hp, hl]))

theorem crownStartLiveTimeout_goesOn {h : Half} (v : List Bool) (hf : s.start.firstTry = some h)
    (hp : s.start.phase = 3) (hl : (mon s s.crown.holder).live = false)
    (hh : s.start.second = false → s.crown.holder = h) :
    ∃ t, exec (.crownStartLiveTimeout v) s = .next t ∧ (mon t s.crown.holder).halted = true ∧
      (s.start.second = false → t.start.second = true ∧ t.crown.standby = 2 ∧ t.crown.holder = h.other) ∧
      (s.start.second = true → t.start.phase = 8 ∧ t.start.cause = 3) := by
  have hmon : (mon (deafHalted s) s.crown.holder).halted = true := by rw [deafHalted, mon_modMon_self]
  have hframe : Only [.time, .crown] s (deafHalted s) := .sub (.after (modMon_only _ _ _) (waitUntil_only _ s)) rfl
  have hstart : (deafHalted s).start = s.start := hframe .start (by decide)
  refine ⟨_, exec_crownStartLiveTimeout v hf hp hl, ?_⟩
  rw [hstart]
  cases hsecond : s.start.second with
  | true =>
    rw [if_pos rfl, (startFailed_only _ _ _).mon_eq rfl, startFailed_start]
    exact ⟨hmon, fun h => absurd h (by decide), fun _ => ⟨rfl, rfl⟩⟩
  | false =>
    rw [if_neg (by decide)]
    let second := modStart (fun x => { x with second := true }) (deafHalted s)
    have hkept : mon (startGrant h.other v second) h = mon (deafHalted s) h := by
      have hother := mon_startGrant_other h.other v second
      cases h with
      | a => exact hother
      | b => exact hother
    have hsecond' : (startGrant h.other v second).start.second = true := by
      rw [startGrant_start]
      rfl
    refine ⟨?_, fun _ => ⟨hsecond', rfl, startGrant_holder _ _ _⟩, fun h => absurd h (by decide)⟩
    rw [mon_modCrown, hh hsecond, hkept, ← hh hsecond, hmon]

/-! ## Components, waves and stacks (R536-R538) -/

theorem componentLoad_loads {c : Nat} (h3 : 3 ≤ s.start.phase) (h5 : s.start.phase ≤ 5)
    (hl : (mon s s.crown.holder).live = true) (hc2 : 2 ≤ c) (hc6 : c ≤ 6) :
    ∃ t, exec (.componentLoad c .clean) s = .next t ∧ t.start.comps = s.start.comps ++ [c] ∧
      FMap.get [] t.start.run c = hashOf s (if c = 3 then s.start.dir.tileSlot else s.start.dir.ctrlSlot) c ∧
      (t.start.phase = 4 ∨ t.start.phase = 5) ∧ Only [.start] s t := by
  have hput (v : List Byte) : FMap.get [] (FMap.put s.start.run c v) c = v := by rw [FMap.get_put, if_pos rfl]
  refine ⟨_, congrArg Host.Outcome.next ((if_neg (by simp [hl]; omega)).trans (if_neg (by decide))), ?_⟩
  extract_lets d h loaded
  have hphase : max 4 s.start.phase = 4 ∨ max 4 s.start.phase = 5 := by omega
  split
  · exact ⟨rfl, hput _, .inr rfl, .sub (.after (modStart_only _ _) (modStart_only _ _)) rfl⟩
  · exact ⟨rfl, hput _, hphase, modStart_only _ _⟩

theorem powered_fold (v : State → Nat) (l : List Nat) (s : State) (c : Nat) :
    (cluster (l.foldl (fun u j => modCluster j (fun x => { x with powered := true, tileVer := v u }) u) s) c).powered =
      (l.contains c || (cluster s c).powered) := by
  induction l generalizing s with
  | nil => rfl
  | cons j r ih =>
    rw [List.foldl_cons, ih, cluster_modCluster, List.contains_cons]
    split
    · next h => simp [h]
    · next h => simp [beq_eq_false_iff_ne.2 (Ne.symm h)]

theorem proofWavePower_powers {k : Fin 9} (hr : s.power.rails = true) (h4 : 4 ≤ s.start.phase)
    (h5 : s.start.phase ≤ 5) (hb : k.val = 0 ∨ (cluster s (2 * (k.val - 1))).powered = true)
    (hp : (cluster s (2 * k.val)).powered = false) :
    ∃ t, exec (.proofWavePower k) s = .next t ∧ Only [.time, .clusters] s t ∧
      ∀ c, (cluster t c).powered = ((waveClusters k.val).contains c || (cluster s c).powered) := by
  let waited := if k.val = 0 then s else advance 200000 s
  have hwaited : Only [.time] s waited := .unless (advance_only _ _)
  have hexec : exec (.proofWavePower k) s = .next ((waveClusters k.val).foldl (fun u c =>
      modCluster c (fun x => { x with powered := true, tileVer := u.fw.tileVer }) u) waited) := by
    change execProofWavePower k s = _
    refine congrArg Host.Outcome.next (if_neg ?_)
    simp only [hr, hp, Bool.not_true, Bool.false_eq_true, false_or, or_false, not_or]
    refine ⟨by omega, by omega, ?_⟩
    rcases hb with hb | hb
    · simp [hb]
    · simp [hb]
  refine ⟨_, hexec, .sub (.after (.fold (fun _ _ => modCluster_only _ _ _) (.none _)) hwaited) rfl, fun c => ?_⟩
  rw [powered_fold, cluster_congr (hwaited .clusters (by decide))]

/-- The cluster's map is that of a cluster without a bad tile of its own, and its test is done (R537). -/
def Mapped (s : State) (c : Nat) : Prop := (cluster s c).phys = (goodTiles s c).take 64 ∧ (cluster s c).tested = true

theorem mapCluster_maps {c j : Nat} (h : c = j ∨ Mapped s c) : Mapped (mapCluster j s) c := by
  have hgood : goodTiles (mapCluster j s) c = goodTiles s c := rfl
  rw [Mapped, hgood, mapCluster, cluster_modCluster]
  split
  · next hj => exact ⟨by rw [hj], rfl⟩
  · next hj => exact h.resolve_left (Ne.symm hj)

theorem mapClusters_map {l : List Nat} {c : Nat} (h : c ∈ l ∨ Mapped s c) :
    Mapped (l.foldl (fun u j => mapCluster j u) s) c := by
  induction l generalizing s with
  | nil => exact h.resolve_left List.not_mem_nil
  | cons j r ih =>
    refine ih ?_
    rcases h with hc | hm
    · rcases List.mem_cons.1 hc with hj | hr
      · exact .inr (mapCluster_maps (.inl hj))
      · exact .inl hr
    · exact .inr (mapCluster_maps (.inr hm))

theorem proofWaveTestDone_maps {k : Fin 9} (hp : (cluster s (2 * k.val)).powered = true)
    (ht : (cluster s (2 * k.val)).tested = false) :
    ∃ t, exec (.proofWaveTestDone k [] [] .clean) s = .next t ∧ Only [.clusters, .start] s t ∧
      t.start.waves = s.start.waves ||| 2 ^ k.val ∧
      ∀ c ∈ waveClusters k.val, (cluster t c).phys = (goodTiles s c).take 64 ∧ (cluster t c).tested = true := by
  let mapped := (waveClusters k.val).foldl (fun u j => mapCluster j u) s
  have hframe : Only [.clusters] s mapped := .fold (fun _ _ => mapCluster_only _ _) (.none s)
  have hstart : mapped.start = s.start := hframe .start (by decide)
  have hgood (c : Nat) : goodTiles mapped c = goodTiles s c := by rw [goodTiles, hstart, ← goodTiles.eq_def]
  refine ⟨modStart (fun x => { x with waves := x.waves ||| 2 ^ k.val }) mapped,
    congrArg Host.Outcome.next (if_neg (by simp [hp, ht])),
    .sub (.after (modStart_only _ _) hframe) rfl, ?_, fun c hc => ?_⟩
  · rw [← hstart]
    rfl
  · obtain ⟨hphys, htested⟩ := mapClusters_map (s := s) (.inl hc)
    exact ⟨hphys.trans (by rw [hgood]), htested⟩

theorem advanceTo_trained (clk : Nat) (m : Mc) : (advanceTo clk m).trained = m.trained := by
  have hrefill (n : Nat) (m : Mc) : (refillTo n m).trained = m.trained := by
    unfold refillTo
    dsimp only
    split
    · rfl
    · rfl
  have hlands (l : List (Nat × Nat × Nat)) (m : Mc) : (l.foldl weightLands m).trained = m.trained := by
    induction l generalizing m with
    | nil => rfl
    | cons w r ih => exact (ih _).trans (hrefill _ _)
  rw [advanceTo, hrefill, hlands]

theorem putWeights_sets (w : List Nat) (m : Mc) :
    (putWeights w m).weight = w ∧ (putWeights w m).trained = m.trained := ⟨rfl, advanceTo_trained _ _⟩

theorem memTrainDone_trains {d : Fin 24} (hd : d.val < 16) (hr : s.power.rails = true)
    (hc : s.start.comps.contains 4 = true) (ht : (mcOf s d.val).trained = false)
    (hf : (mcOf s d.val).trainFail = false) (hp : s.start.phase ≠ 8) :
    ∃ t, exec (.memTrainDone d .clean) s = .next t ∧ Only [.mcs] s t ∧ (mcOf t d.val).trained = true ∧
      (mcOf t d.val).weight = arbWeights s := by
  have hexec : exec (.memTrainDone d .clean) s = .next (modMc d.val (fun m => if d.val < 16
      then putWeights (arbWeights s) { m with trained := true } else { m with trained := true }) s) := by
    refine congrArg Host.Outcome.next ((if_neg ?_).trans (if_pos (by decide)))
    simp only [if_pos hd, hc]
    simp [hr, ht, hf, hp]
    omega
  obtain ⟨hweight, htrained⟩ := putWeights_sets (arbWeights s) { mcOf s d.val with trained := true }
  refine ⟨_, hexec, modMc_only _ _ _, ?_⟩
  rw [mc_modMc, if_pos rfl, if_pos hd]
  exact ⟨htrained, hweight⟩

theorem memTrainDone_leavesTier {d : Fin 24} (hd : 16 ≤ d.val) (hr : s.power.rails = true)
    (hc : s.start.comps.contains 5 = true) (hl : s.ident.variant ≠ .l) (ht : (mcOf s d.val).trained = false)
    (hf : (mcOf s d.val).trainFail = false) (hp : s.start.phase ≠ 8) :
    ∃ t, exec (.memTrainDone d .lasting) s = .next t ∧ t.mem.tierOff = true ∧ t.mem.windowGib ≤ 16 := by
  let failed := modMc d.val (fun m => { m with trainFail := true }) s
  have hexec : exec (.memTrainDone d .lasting) s =
      .next { failed with mem := { failed.mem with tierOff := true, windowGib := min failed.mem.windowGib 16 } } := by
    refine congrArg Host.Outcome.next ((if_neg ?_).trans ((if_neg (by decide)).trans (if_neg (by omega))))
    simp only [if_neg (show ¬ d.val < 16 by omega), hc]
    simp [hr, ht, hf, hp, hl]
  exact ⟨_, hexec, rfl, min_le_right _ _⟩

/-! ## The end of the start (R539), and the defect map -/

theorem ready_tells (hp : s.start.phase = 5) (hr : s.start.ready = false) (hn : readyNow s = true) :
    ∃ t, exec .ready s = .next t ∧ t.start.ready = true ∧ t.start.readyRt = s.time.sup ∧ t.start.phase = 6 := by
  refine ⟨_, congrArg Host.Outcome.next (if_neg (by simp [hp, hr, hn])), ?_⟩
  rw [Only.after (plEvent_only _ _ _) (vector0_only _) .start (by decide)]
  exact ⟨rfl, rfl, rfl⟩

theorem flashTry_supplied {α : Type} {d : Dual α} {lo n : Nat} {r : Retry} {u : State}
    (h : flashTry d lo n r s = (true, u)) : s.pins.aux3v3 = true := by
  unfold flashTry at h
  split at h
  · exact absurd (congrArg Prod.fst h) Bool.false_ne_true
  · next hno => simpa using (not_or.1 hno).2

theorem defectRewriteTimer_writes {u : State} (hd : s.start.dirty = true) (hf : s.start.full = false)
    (ht : flashTry s.flash.defects 0x300000 0x80000 .clean s = (true, u)) :
    ∃ t, exec (.defectRewriteTimer .clean) s = .next t ∧ t.start.dirty = false ∧
      t.flash.defects = u.flash.defects.write (recordedDefects u) := by
  have hexec : exec (.defectRewriteTimer .clean) s = .next
      { u with flash := { u.flash with defects := u.flash.defects.put true u.pins.aux3v3 (recordedDefects u) },
               start := { u.start with dirty := !true } } := by
    refine congrArg Host.Outcome.next ((if_neg (by simp [hd, hf])).trans ?_)
    rw [ht]
  exact ⟨_, hexec, rfl, rfl⟩

/-! ## The MID (R325) -/

theorem slotIdSample_notes {id : BitVec 6} (hv : s.power.v52 = true) (hne : id.toNat ≠ s.ident.mid % 64) :
    ∃ t, exec (.slotIdSample id) s = .next t ∧ t.ident.slot = id.toNat ∧ t.ident.pendSlot = some id.toNat ∧
      t.ident.mid = s.ident.mid := by
  let noted : State := { s with ident := { s.ident with slot := id.toNat, pendSlot := some id.toNat } }
  have hexec : exec (.slotIdSample id) s = .next (
      if midPending s ∧ nextMid noted = nextMid s then noted else plEvent 0xA (nextMid noted) noted) :=
    congrArg Host.Outcome.next ((if_neg (by simp [hv])).trans (if_neg hne))
  have hident : (if midPending s ∧ nextMid noted = nextMid s then noted else plEvent 0xA (nextMid noted) noted).ident =
      noted.ident := Only.unless (plEvent_only _ _ noted) .ident (by decide)
  refine ⟨_, hexec, ?_⟩
  rw [hident]
  exact ⟨rfl, rfl, rfl⟩

theorem setRackNumber_takes {r : Nat} (h : mgmtUp s = true) (hr : r ≤ 63) (hv : s.ident.midValid = false) :
    ∃ t, exec (.setRackNumber r) s = .next t ∧ t.ident.mid = 64 * r + s.ident.mid % 64 ∧ t.ident.midValid = true ∧
      t.ident.pendRack = s.ident.pendRack := by
  let taken : State := { s with ident := { s.ident with mid := r * 64 + s.ident.mid % 64, midValid := true } }
  have hexec : exec (.setRackNumber r) s = .next (reply ccOk [] (startNegotiation taken)) :=
    (next_onMgmt h).trans (congrArg Host.Outcome.next ((if_neg (by omega)).trans (if_pos (by simp [hv]))))
  refine ⟨_, hexec, ?_⟩
  rw [Only.after (reply_only _ _ _) (startNegotiation_only taken) .ident (by decide), mul_comm 64 r]
  exact ⟨rfl, rfl, rfl⟩

theorem setRackNumber_records {r : Nat} (h : mgmtUp s = true) (hr : r ≤ 63) (hv : s.ident.midValid = true)
    (hne : r ≠ s.ident.mid / 64) :
    ∃ t, exec (.setRackNumber r) s = .next t ∧ t.ident.pendRack = some r ∧ t.ident.mid = s.ident.mid := by
  let noted : State := { s with ident := { s.ident with pendRack := some r } }
  have hexec : exec (.setRackNumber r) s = .next (reply ccOk [] (plEvent 0xA (nextMid noted) noted)) :=
    (next_onMgmt h).trans (congrArg Host.Outcome.next
      ((if_neg (by omega)).trans ((if_neg (by simp [hv])).trans (if_neg hne))))
  refine ⟨_, hexec, ?_⟩
  rw [Only.after (reply_only _ _ _) (plEvent_only _ _ noted) .ident (by decide)]
  exact ⟨rfl, rfl⟩

end Startup

/-- Settles O31: each step of the start by the state that it leaves; the MID by its pending parts. -/
theorem theStartRuns : Obligations.TheStartRuns :=
  ⟨fun _ => ⟨crownStartGrant_grants, fun v _ => crownStartLiveTimeout_goesOn v, fun _ => componentLoad_loads,
      fun _ => proofWavePower_powers, fun _ => proofWaveTestDone_maps, fun _ => memTrainDone_trains,
      fun _ => memTrainDone_leavesTier,
      fun hp hl => congrArg Host.Outcome.next (if_pos ⟨hp, hl⟩), ready_tells, fun _ => defectRewriteTimer_writes⟩,
    fun _ => ⟨fun _ => slotIdSample_notes, fun _ => setRackNumber_takes, fun _ => setRackNumber_records⟩⟩

end Sys2Proof
